-- ==== Sys2Proof/Word.lean ====
section
/-! DEFINITION. The word types and the sparse store every memory and table of the block is held in. -/
namespace Sys2Proof

/-- A 32-bit word: a BAR0 register, a tile register, a queue SRAM word. -/
abbrev Word := BitVec 32
/-- One byte of a byte-addressed memory. -/
abbrev Byte := BitVec 8
/-- A 64-bit word. -/
abbrev Quad := BitVec 64

/-- A sparse table from numbers to values: addresses strictly rising, and no entry equal to what an
unlisted key reads as (the default that each use of the table names). -/
abbrev Store (α : Type) := List (Nat × α)

/-- What key `k` holds; `d` where nothing is listed. -/
def Store.get {α : Type} (d : α) : Store α → Nat → α
  | [], _ => d
  | (a, v) :: r, k => if k = a then v else if k < a then d else Store.get d r k

/-- The table with `v` at `k`, in the same canonical form: writing the default removes the entry. -/
def Store.put {α : Type} [DecidableEq α] (d : α) : Store α → Nat → α → Store α
  | [], k, v => if v = d then [] else [(k, v)]
  | (a, w) :: r, k, v =>
    if k = a then (if v = d then r else (k, v) :: r)
    else if k < a then (if v = d then (a, w) :: r else (k, v) :: (a, w) :: r)
    else (a, w) :: Store.put d r k v

/-- The canonical form, from key `lo` on. -/
def Store.wfFrom {α : Type} [DecidableEq α] (d : α) : Nat → Store α → Bool
  | _, [] => true
  | lo, (a, v) :: r => decide (lo ≤ a) && decide (v ≠ d) && Store.wfFrom d (a + 1) r

/-- The canonical form: keys strictly rising, no entry holding the default. -/
def Store.wf {α : Type} [DecidableEq α] (d : α) (st : Store α) : Bool := Store.wfFrom d 0 st

/-- The table without the keys from `lo` up to but not including `hi`. -/
def Store.clear {α : Type} (st : Store α) (lo hi : Nat) : Store α :=
  st.filter (fun p => decide (p.1 < lo) || decide (hi ≤ p.1))

/-- The values listed, in rising order of their keys. -/
def Store.entries {α : Type} (st : Store α) : List (Nat × α) := st

end Sys2Proof
end

