-- ==== Sys2Proof/Types.lean ====
section
/-! DEFINITION. The plain types shared by the commands' operands and the state: time, status codes, origins of
commands, and what a completion and an event hold. -/
namespace Sys2Proof

/-- Hearth time: the tick count, the sub-tick within the tick (0 to 3,071) and the fraction of a sub-tick
kept to 32 bits (R32, R33, and the fine time of chapter 2). -/
structure Clock where
  tick : Nat
  sub  : Nat
  fine : BitVec 32
deriving DecidableEq, Repr

/-- The status codes of Table 1.6 (R26). -/
inductive Status where
  | ok | partialDone | refusedBusy | badArg | noResource | notPermitted | stale | markLost | checkFail
  | dropped | aborted | unknownObject | locked | poisoned | authFail | internal
deriving DecidableEq, Repr

/-- Who makes a DRAM request (Table 16.2): the DMA engine of a physical tile (R149), or a requester of the ports 2 to 7. -/
inductive Requester where
  | tile (p : Nat)
  | port (i : Nat)
deriving DecidableEq, Repr

/-- Where a host command came from and where its answer goes: its CMD ring, its TAG, whether a reserved field of
its arguments was non-zero (R14), and the result buffer of an INDIRECT descriptor, of length 0 where it has none
(Table 14.6). -/
structure Origin where
  ring    : Nat
  tag     : Nat
  rsvBad  : Bool := false
  resAddr : Nat := 0
  resLen  : Nat := 0
deriving DecidableEq, Repr

/-- One field of a result: its length in bytes and its value, laid out little-endian in order (Table 14.7, R387). -/
structure RField where
  len : Nat
  val : Nat
deriving DecidableEq, Repr

end Sys2Proof
end

