-- ==== Sys2Proof/Machine/UnitWait.lean ====
section
/-! DEFINITION. Commands accepted and not yet answered: who asked, and what their completion waits for. -/
namespace Sys2Proof.Machine
open Sys2Proof

/-- Who asked for a command: a host ring, a packet of a lane's command Hopper for a line (R81), a packet of the
filter engine's (R122) or the Barista's (R229) command Hopper with its sequence number, or the device itself. -/
inductive Src where
  | host (o : Origin)
  | lanePkt (lane line : Nat)
  | fcePkt (tag : Nat)
  | schPkt (tag : Nat)
  | self
  /-- A host command answered by another unit's completion, with its own opcode. -/
  | hostAs (o : Origin) (opc : Nat)
deriving DecidableEq, Repr

/-- What a completion waits for. -/
inductive WKind where
  | sourceEnable | stepDone | laneEnable | laneRetrain | laneLoopback | lineActivate | lineSetState | lineCommand
  | mailbox | filterStart | filterStop | filterSwap | filterRamp | calRun | calSet | calSave
  | threadCancel | hopperDestroy | lineDestroy | lineCommandSet | lineCid | lineHyb | lineEq | lineTone
  | pktDestroy | bridgeDestroy | bridgeLegRemove | portEnable | portCeiling | flowDelete | ringDestroy
  | kilnWork | tamperJob | tamperDisable | dramRetire | dramSpareTest | tileEvacuate | tileSpareTest | tileFill
  | lineRing | imageWrite | fwSwitch | sysRestart | dumpOffer | other
deriving DecidableEq, Repr

/-- One command accepted and not yet answered. -/
structure Waiter where
  kind : WKind
  key  : Nat
  src  : Src
  opc  : Nat
deriving DecidableEq, Repr

/-- What a unit says of a command: answered now with a status and a result, or later. -/
inductive Reply where
  | now (st : Status) (res : List RField)
  | later (kind : WKind) (key : Nat)
  /-- Answered later by the unit that holds the request. -/
  | held
deriving DecidableEq, Repr

end Sys2Proof.Machine
end

