-- ==== Sys2Proof/Machine/UnitCal.lean ====
section
/-! DEFINITION. What the calibration unit holds (chapter 5): sensors, items, scans, and the two record slots of the boot
flash. Temperatures are in units of 0.25 °C. An item's key is q for lane Lq and 32 + r for rank r. -/
namespace Sys2Proof.Machine
open Sys2Proof

/-- STATE of an item (Table 5.3). -/
inductive CPhase where
  | idle | queued | measuring | applying
deriving DecidableEq, Repr

/-- A calibration item: a lane's DELAY and THRESH, or a rank's read and write delays of four byte lanes, with where they
are going. -/
structure CalItem where
  pinned : Bool := false
  phase  : CPhase := .idle
  /-- The reference temperature; none before a first calibration. -/
  ref    : Option Int := none
  /-- The reading at the start of the calibration in progress; none where there was none. -/
  newRef : Option Int := none
  /-- The item was pinned during the scan in progress, whose result is discarded (R138). -/
  discard : Bool := false
  delay  : Nat := 32
  thresh : Nat := 16
  goalD  : Nat := 32
  goalT  : Nat := 16
  rd     : List Nat := [0, 0, 0, 0]
  wr     : List Nat := [0, 0, 0, 0]
  goalRd : List Nat := [0, 0, 0, 0]
  goalWr : List Nat := [0, 0, 0, 0]
  /-- The move of a CAL_SET (R139). -/
  setting : Bool := false
  /-- The masks of byte lanes in error of the points measured so far, oldest first (R135). -/
  points : List (BitVec 4) := []
  /-- The tick of the last step of application, plus one. -/
  stepped : Nat := 0
  /-- The stamp of the last completed calibration. -/
  last   : Nat := 0
deriving DecidableEq, Repr

/-- A sensor: its last conversions, newest first, its reading and whether it is valid (R124, R125). -/
structure Sensor where
  conv  : List Int := []
  temp  : Int := 0
  valid : Bool := false
deriving DecidableEq, Repr

/-- A calibration record slot (Table 5.2): whether COMMIT holds its value, whether MAGIC and VERSION hold theirs, and whether CRC
matches (R141); SEQ, STAMP and the items. -/
structure CalRec where
  commit : Bool := false
  magic  : Bool := false
  crc    : Bool := false
  seq    : Word := 0
  stamp  : Nat := 0
  items  : Store CalItem := []
deriving DecidableEq, Repr

structure Cal where
  sensors : Store Sensor
  items   : Store CalItem
  /-- Lanes and ranks queued, in the order queued. -/
  laneQ   : List Nat
  rankQ   : List Nat
  /-- The last tick, plus one, of a conversion and of an update. -/
  convAt  : Nat
  updAt   : Nat
  /-- The stamp, plus one, of the last rank measurement. -/
  measAt  : Nat
  slotA   : CalRec
  slotB   : CalRec
  /-- The record being written: whether into slot B, and its content. -/
  writing : Option (Bool × CalRec)
  /-- A setting, reference or pin has changed since the last record. -/
  dirty   : Bool
  /-- A valid record was found at the cold start (R134, R141). -/
  hadRec  : Bool
  deltaT  : Nat
  autoEn  : Bool
  interval : Nat
deriving DecidableEq, Repr

def Cal.reset : Cal where
  sensors := []
  items := []
  laneQ := []
  rankQ := []
  convAt := 0
  updAt := 0
  measAt := 0
  slotA := {}
  slotB := {}
  writing := none
  dirty := false
  hadRec := false
  deltaT := 6
  autoEn := true
  interval := 4

end Sys2Proof.Machine
end

