-- ==== Sys2Proof/Machine/UnitKln.lean ====
section
/-! DEFINITION. What the Kiln holds (chapter 13): fuses, the owner record, image digests, SRTP contexts, DTLS sessions,
certificates, exports, the DRBG's standing, tamper record and debug access. Digests, public keys and nonces are numbers;
keys stand as the number of the free value they were drawn from, or as the operand that carries them. -/
namespace Sys2Proof.Machine
open Sys2Proof

/-- The owner record (R341): its epoch, the digest of the root, and the owner's keys and policy. -/
structure OwnerRec where
  epoch  : Nat := 0
  root   : Nat := 0
  code   : Option Nat := none
  imp    : Option Nat := none
  dump   : Option Nat := none
  recKey : Option Nat := none
  strict : Bool := false
  ulDebug : Bool := false
  minSvn : Nat := 0
deriving DecidableEq, Repr

/-- One image as its header names it (Table 13.5). -/
structure Image where
  typ    : Nat
  signer : Nat
  svn    : Nat
  digest : Nat
  bytes  : Nat
  revoke : Bool
  /-- VERSION_TEXT. -/
  ver    : Nat := 0
deriving DecidableEq, Repr

/-- What the checks of R343 find of an image offered: its header and how each check comes out. -/
structure ImageIn where
  img     : Image
  format  : Bool
  bindOk  : Bool
  sigOk   : Bool
deriving DecidableEq, Repr

/-- A replay window: the highest authenticated index and the 128 bits behind it, bit 0 the highest itself. -/
structure KWin where
  hi   : Option Nat := none
  bits : BitVec 128 := 0
deriving DecidableEq, Repr

/-- A transmit direction: SUITE 1 to 4 in the order of Table 13.7, its keys, and its indices (R349). -/
structure KTx where
  suite : Nat
  key   : Nat
  roc   : Nat := 0
  last  : Option Nat := none
  rtcp  : Nat := 0
deriving DecidableEq, Repr

/-- A receive direction: SSRC given (0 for none) or latched, ROC, and the windows of SRTP and SRTCP. -/
structure KRx where
  suite : Nat
  key   : Nat
  roc   : Nat := 0
  ssrc  : Nat := 0
  latched : Option Nat := none
  win   : KWin := {}
  winC  : KWin := {}
deriving DecidableEq, Repr

/-- A link (R352): the NEXT handle, 0 for none, whether its first hit has been reported, and its hits. -/
structure KLink where
  next   : Nat := 0
  raised : Bool := false
  hits   : Nat := 0
deriving DecidableEq, Repr

/-- An SRTP context. -/
structure KCtx where
  used : Bool := false
  /-- The index has been allocated since the last cold or warm start. -/
  made : Bool := false
  gen  : Nat := 1
  tx   : Option KTx := none
  rx   : Option KRx := none
  link  : KLink := {}
  linkC : KLink := {}
  exhausted : Bool := false
deriving DecidableEq, Repr

/-- A DTLS session. Datagrams are byte lists. -/
structure KSess where
  gen    : Nat
  target : Nat
  role   : Nat
  versions : Nat
  profiles : Nat
  fpAlg  : Nat
  peerFp : Nat
  cert   : Nat
  /-- Ticks since DTLS_OPEN; ticks left to the next retransmission and the interval after it; retransmissions made of the
  flight outstanding. -/
  age    : Nat := 0
  retx   : Option Nat := none
  interval : Nat := 8000
  tries  : Nat := 0
  flight : List (List Nat) := []
  /-- Datagrams waiting for an output buffer. -/
  out    : List (List Nat) := []
  /-- Ticks left of the 80,000 after success. -/
  linger : Option Nat := none
deriving DecidableEq, Repr

/-- A media certificate (R358): fingerprints and validity; no end of validity stands as none. -/
structure KCert where
  fp256 : Nat
  fp384 : Nat
  /-- Seconds, and the UTC offset that converts them; none for the validity of R358's second case. -/
  notBefore : Option Int
  notAfter  : Option Int
deriving DecidableEq, Repr

/-- An export (R361, R362). -/
structure KExp where
  gen   : Nat
  kind  : Nat
  chunks : Nat := 0
  total : Nat := 1232
  final : Bool := false
deriving DecidableEq, Repr

/-- A request that waits for the DRBG (R363). -/
inductive KReq where
  | challenge (o : Origin)
  | certRenew (o : Origin)
  | dtlsOpen (o : Origin) (target role versions profiles fpAlg peerFp : Nat) (flight : List (List Nat))
deriving DecidableEq, Repr

/-- An owner statement (Table 13.3) as read: what its signatures and format come to, and its payload. -/
structure Statement where
  format  : Bool
  typ     : Nat
  devOk   : Bool
  epoch   : Nat
  nonce   : Nat
  /-- Both signatures verify under: 0 neither, 1 the signer of Table 13.4, 2 a Ulithen root. -/
  signed  : Nat
  root    : Nat := 0
  mask    : Nat := 0
  keys    : List Nat := []
  strict  : Bool := false
  ulDebug : Bool := false
  minSvn  : Nat := 0
  scope   : Nat := 0
  ticks   : Nat := 0
deriving DecidableEq, Repr

/-- A sealed import (Table 13.9) as read. -/
structure Sealed where
  format : Bool
  suite  : Nat
  dir    : Nat
  target : Nat
  devOk  : Bool
  epoch  : Nat
  notAfter : Nat
  sigOk  : Bool
  tagOk  : Bool
  ssrc   : Nat
  roc    : Nat
  key    : Nat
deriving DecidableEq, Repr

/-- What a datagram does to a session (R355 to R357). -/
inductive Feed where
  /-- It fails to parse or to authenticate. -/
  | bad
  /-- It asks for nothing to be sent and leaves the flight outstanding. -/
  | quiet
  /-- The handshake moves on: the flight outstanding is answered and another goes out. -/
  | onward (flight : List (List Nat))
  /-- The peer repeats a flight: the present one is sent again. -/
  | again
  /-- The handshake completes with a use_srtp profile, the peer's fingerprint, and a last flight. -/
  | finished (profile peerFp : Nat) (flight : List (List Nat))
  /-- No common profile (2), an alert (3), or the peer's close (5), with what is sent of it. -/
  | ended (detail : Nat) (flight : List (List Nat))
deriving DecidableEq, Repr

structure Kln where
  root0Rev : Bool
  svn   : Nat
  epoch : Nat
  roots : List Nat
  hold  : Nat
  recA  : Option OwnerRec
  recB  : Option OwnerRec
  recLost : Bool
  /-- A strict hold without an OTP step left: it lasts until the next cold start (R366). -/
  softHold : Bool
  /-- The outstanding challenge and the ticks left of it. -/
  chal  : Option Nat
  chalLeft : Nat
  boot  : Nat
  bootB : Bool
  warmBoot : Bool
  stage1 : Option Image
  ctrl  : Option Image
  tiles : List Image
  ctxs  : Store KCtx
  sess  : Store (Option KSess)
  sessGen : Store Nat
  exps  : Store (Option KExp)
  expGen : Store Nat
  cert0 : Option KCert
  cert1 : Option KCert
  curCert : Nat
  entropyOk : Bool
  /-- Continuous tests failed in a row. -/
  fails : Nat
  held  : List KReq
  /-- Tamper events since manufacture and since the last cold start, and the last sensor. -/
  tampers : Nat
  sinceCold : Nat
  last  : Nat
  scope : Nat
  debugLeft : Nat
  jobHop : Nat
  jobEn : Bool
  evtRing : Nat
deriving DecidableEq, Repr

def Kln.reset : Kln where
  root0Rev := false
  svn := 0
  epoch := 0
  roots := []
  hold := 0
  recA := none
  recB := none
  recLost := false
  softHold := false
  chal := none
  chalLeft := 0
  boot := 0
  bootB := false
  warmBoot := false
  stage1 := none
  ctrl := none
  tiles := []
  ctxs := []
  sess := []
  sessGen := []
  exps := []
  expGen := []
  cert0 := none
  cert1 := none
  curCert := 0
  entropyOk := false
  fails := 0
  held := []
  tampers := 0
  sinceCold := 0
  last := 0
  scope := 0
  debugLeft := 0
  jobHop := 1023
  jobEn := false
  evtRing := 0

end Sys2Proof.Machine
end

