-- ==== Sys2Proof/Machine/UnitEth.lean ====
section
/-! DEFINITION. What the two Ethernet ports and the flow table hold (chapter 12). -/
namespace Sys2Proof.Machine
open Sys2Proof

/-- A transmit queue: its Hopper, PFC class, ceiling, credit, and the sub-tick at which its pause ends (R309 to R311,
R317). -/
structure EQueue where
  hop   : Nat := 1023
  prio  : Nat := 0
  en    : Bool := false
  /-- Bytes a tick; 0 for no ceiling. -/
  rate  : Nat := 0
  /-- In bytes. -/
  burst : Nat := 16384
  credit : Int := 16384
  pauseTo : Nat := 0
  /-- A ceiling waiting for the tick boundary: rate and burst. -/
  next  : Option (Nat × Nat) := none
deriving DecidableEq, Repr

/-- A port. -/
structure EPort where
  mode    : Nat := 0
  en      : Bool := false
  pauseEn : Bool := true
  pfcEn   : Bool := false
  tpidSel : Bool := false
  dropIp  : Bool := false
  dropL4  : Bool := false
  maxFrame : Nat := 1522
  ptpQueue : Nat := 7
  mac     : List Nat := [0, 0, 0, 0, 0, 0]
  mcast   : List (List Nat) := []
  txComp  : Int := 0
  rxComp  : Int := 0
  missRing : Nat := 0
  /-- The lock left the port disabled (R335). -/
  lockOff : Bool := false
  /-- A disable in progress (R332), and an enable that waits for the tick boundary. -/
  disabling : Bool := false
  enNext  : Bool := false
  link    : Bool := false
  /-- A condition of R307 held in the tick under way, and the ticks without one. -/
  fault   : Bool := true
  good    : Nat := 0
  /-- The sub-tick, counted over all ticks and in units of a 78,125th, at which the frame in transmission and its gap have
  left, and its queue. -/
  busyTo  : Nat := 0
  busyQ   : Option Nat := none
  /-- The frame in transmission went through the inline crypto unit. -/
  busySec : Bool := false
  /-- Bytes held in the receive buffer of 128 KiB (R322). -/
  rxBytes : Nat := 0
deriving DecidableEq, Repr

/-- A flow entry (Table 12.6), with its hit count and where it stands. -/
structure Flow where
  key    : List Nat
  action : Nat
  prio   : Nat
  flagEn : Bool
  ring   : Nat
  hopper : Nat
  keyH   : Nat
  tag    : Nat
  thread : Nat
  flag   : Nat
  hits   : Nat := 0
  way    : Nat := 0
  slot   : Nat := 0
deriving DecidableEq, Repr

/-- A frame whose burst into a Hopper has begun or waits: the action fixed at its lookup (R328), its bytes in the buffer,
and its SRTP packet before decryption. -/
structure EFlight where
  port   : Nat
  hop    : Nat
  handle : Nat
  flagEn : Bool
  thread : Nat
  flag   : Nat
  keyH   : Nat
  bytes  : Nat
  /-- The packet as received, and the record's words before its payload, for R350. -/
  raw    : List Nat
  head   : List Word
  /-- Zeroisation has met the packet inside the inline unit (R365). -/
  dead   : Bool := false
  /-- The receive direction whose keys CTX_FREE has left to a packet inside the inline unit (R353). -/
  old    : Option KRx := none
deriving DecidableEq, Repr

structure Eth where
  ports   : Store EPort
  queues  : Store EQueue
  /-- The 64 bytes of each entry written; empty where none is (Table 12.2). -/
  dests   : Store (List Nat)
  flows   : Store (Option Flow)
  flight  : List EFlight
  /-- Chain lengths of the last 1,024 insertions, newest first. -/
  chains  : List Nat
  /-- The free value from which this start's hash seeds were drawn. -/
  seed    : Nat
  protect : Bool
  revert  : Bool
  holdoff : Nat
  wtr     : Nat
  /-- The active port, the ticks it has been down, and the ticks E0 has been up while E1 is active (R331). -/
  active  : Nat
  downFor : Nat
  upFor   : Nat
  /-- A switch that waits for the frame in transmission to end: the port to make active, and the ARG of its event. -/
  switchTo : Option (Nat × Nat)
deriving DecidableEq, Repr

def Eth.reset : Eth where
  ports := []
  queues := []
  dests := []
  flows := []
  flight := []
  chains := []
  seed := 0
  protect := false
  revert := true
  holdoff := 0
  wtr := 300
  active := 0
  downFor := 0
  upFor := 0
  switchTo := none

end Sys2Proof.Machine
end

