-- ==== Sys2Proof/Machine/UnitFce.lean ====
section
/-! DEFINITION. What the line filter engine holds (chapter 4): each stream's settings, banks, delay lines, resampler
position, gains, detectors, actions and block in progress, the prototype sets, and the requests that wait for a tick
boundary. -/
namespace Sys2Proof.Machine
open Sys2Proof

/-- A stream's state (R114). -/
inductive FState where
  | stopped | running | stopPending
deriving DecidableEq, Repr

/-- A detector: its settings (Table 4.6) and what R120 keeps of it. -/
structure Det where
  typ     : Nat := 0
  stage   : Nat := 0
  win     : Nat := 6
  attack  : Nat := 2
  release : Nat := 10
  hi      : Nat := 0
  lo      : Nat := 0
  thread  : Nat := 0
  up      : Nat := 32
  down    : Nat := 32
  /-- The samples of the window so far, and their maximum or their sum of squares. -/
  count   : Nat := 0
  acc     : Nat := 0
  /-- The value last evaluated; of an envelope, e. -/
  v       : Int := 0
  above   : Bool := false
deriving DecidableEq, Repr

/-- A filter action entry (Table 4.7). -/
structure FAction where
  kind   : Nat := 0
  flush  : Bool := false
  named  : Bool := false
  bank   : Bool := false
  ticks  : Nat := 0
  gm     : Nat := 0
  ga     : Nat := 0
deriving DecidableEq, Repr

/-- A ramp in progress (R113) and how many of its ticks have been processed; the last of them fades to its end. -/
structure FRamp where
  gm0   : Nat
  ga0   : Nat
  gm1   : Nat
  ga1   : Nat
  ticks : Nat
  done  : Nat
deriving DecidableEq, Repr

/-- The histories of a biquad. -/
structure Bq where
  x1 : Int := 0
  x2 : Int := 0
  y1 : Int := 0
  y2 : Int := 0
deriving DecidableEq, Repr

/-- The delay lines and the resampler position of a stream. Histories stand newest first. -/
structure FPath where
  dcX   : Int := 0
  dcY   : Int := 0
  eq0   : Bq := {}
  eq1   : Bq := {}
  eq2   : Bq := {}
  eq3   : Bq := {}
  half0 : List Int := []
  half1 : List Int := []
  half2 : List Int := []
  rsHist : List Int := []
  /-- Resampler inputs taken and outputs produced since the start (R107). -/
  rsIn  : Nat := 0
  rsOut : Nat := 0
deriving DecidableEq, Repr

/-- A receive block in progress (R109). -/
structure FBlock where
  /-- The count of its first capture tick. -/
  first   : Nat
  status  : List Nat
  samples : List Int
  sat     : Bool
deriving DecidableEq, Repr

/-- Where a transmit source stands in its open packet (R111): samples left, and the second sample of a word read. -/
structure FSource where
  left : Nat := 0
  half : Option Int := none
deriving DecidableEq, Repr

/-- What a request that waits for a tick boundary asks. -/
inductive FKind where
  | start (flush : Bool) | stop | swap (named bank : Bool) | ramp (gm ga ticks : Nat) | det (i : Nat) (x : Det)
deriving DecidableEq, Repr

/-- A request: its stream, and the command to be answered; an alarm's action has none. -/
structure FReq where
  stream : Nat
  kind   : FKind
  who    : Option (Src × Nat)
deriving DecidableEq, Repr

/-- One stream. -/
structure FStream where
  state  : FState := .stopped
  /-- The active bank: true is B. -/
  bankB  : Bool := false
  /-- Bank words that have been written; the others hold the defaults of Table 4.5. -/
  bank0  : Store (Option Word) := []
  bank1  : Store (Option Word) := []
  /-- FILTER_STREAM_CONFIG: TAP as 64, 32, 16 or 8 kS/s in hertz, and the rest. -/
  tap    : Nat := 16000
  chRate : Nat := 16000
  hopper : Nat := 0xFFFF
  altHop : Nat := 0xFFFF
  blockTicks : Nat := 80
  prio   : Nat := 4
  path   : FPath := {}
  gm     : Nat := 32768
  ga     : Nat := 0
  ramp   : Option FRamp := none
  /-- The stop or the compound deferred behind a ramp (R116), and the compound that holds the stream in its stopped
  tick (R117). -/
  pend   : Option FReq := none
  held   : Option FReq := none
  dets   : Store Det := []
  acts   : Store FAction := []
  block  : Option FBlock := none
  /-- A block that a stop has ended, to be committed SHORT at the end of the slot in the first stopped tick (R118). -/
  ended  : Option FBlock := none
  /-- The tick, plus one, whose slot the engine served last (R98). -/
  served : Nat := 0
  main   : FSource := {}
  alt    : FSource := {}
  /-- Stages that have saturated since the last FILTER_STATUS, and the total count. -/
  satBits : List Nat := []
  satTotal : Nat := 0
  /-- Transmit: the eight samples of the last slot, and the last 64 placed on the lane, newest first (R103). -/
  out    : List Int := []
  played : List Int := []
deriving DecidableEq, Repr

/-- A prototype set (R106): T, whether it has been given a new T, and the coefficients written, row p and tap k at
16 p + k. -/
structure FProto where
  t    : Nat := 16
  own  : Bool := false
  rows : Store (Option (BitVec 24)) := []
deriving DecidableEq, Repr

/-- A filter command as a packet of FCE_CMD_HOP spells it (R122); `other` where its words spell none. -/
inductive FceCmd where
  | config (s tap rate hop ticks prio alt : Nat)
  | coefWrite (s : Nat) (bankB : Bool) (first : Nat) (ws : List Word)
  | coefRead (s : Nat) (bankB : Bool) (first n : Nat)
  | bankSelect (s : Nat) (bankB : Bool)
  | start (s : Nat) (flush : Bool)
  | stop (s : Nat)
  | swap (s : Nat) (named bankB : Bool)
  | ramp (s gm ga ticks : Nat)
  | det (s i : Nat) (x : Det)
  | action (s e : Nat) (a : FAction)
  | proto (set t first rows : Nat) (cs : List (BitVec 24))
  | status (s : Nat)
  | other
deriving DecidableEq, Repr

/-- The filter engine. -/
structure Fce where
  streams : Store FStream
  protos  : Store FProto
  /-- Commands in the order accepted, and actions in the order issued, that wait for the next tick boundary (R115). -/
  cmds    : List FReq
  acts    : List FReq
  /-- The first capture tick that a block may begin with since the last time step (R118). -/
  blocksFrom : Nat
  cmdHop  : Nat
  statusHop : Nat
  cmdEn   : Bool
  satLog2 : Nat
deriving DecidableEq, Repr

def Fce.reset : Fce where
  streams := []
  protos := []
  cmds := []
  acts := []
  blocksFrom := 0
  cmdHop := 1023
  statusHop := 1023
  cmdEn := false
  satLog2 := 0

end Sys2Proof.Machine
end

