-- ==== Sys2Proof/Machine/UnitHif.lean ====
section
/-! DEFINITION. What the host interface holds (chapter 14): rings, windows, the lock, admitted commands, held
completions and events, MSI-X, and the record of what the device has sent out. -/
namespace Sys2Proof.Machine
open Sys2Proof

/-- A completion as it is written into a CPL ring, without its PHASE, which the slot decides (Table 14.7). -/
structure Cpl where
  tag      : Nat
  status   : Status
  buffered : Bool
  opcode   : Nat
  cmdRing  : Nat
  /-- The first eight bytes of the result, or the bytes written and the bytes of the full result. -/
  result   : Nat
deriving DecidableEq, Repr

/-- An event: its TYPE, DETAIL, the object some payloads name, STAMP, ARG and the bytes of its continuations
(R391 to R393, Tables 10.7, 11.5 and 13.15). -/
structure Evt where
  typ    : Nat
  detail : Nat := 0
  obj    : Nat := 0
  stamp  : Nat := 0
  arg    : Nat := 0
  more   : List Nat := []
deriving DecidableEq, Repr

/-- An event waiting for a slot of its ring, with its HELD mark (Table 14.10). -/
structure HeldEvt where
  evt  : Evt
  held : Bool
deriving DecidableEq, Repr

/-- A posted RXP or DMP buffer the device has read: its entry's index, address, length, and whether the entry passes
R389. -/
structure Buf where
  idx  : BitVec 32
  addr : Nat
  len  : Nat
  good : Bool
deriving DecidableEq, Repr

/-- One ring (R378, the HIF_RING registers, R386, R391, R395). -/
structure Ring where
  enabled  : Bool := false
  typ      : Nat := 0
  sizeLog2 : Nat := 4
  gen      : Nat := 0
  addr     : Nat := 0
  /-- TXP: bit 10 port, bits 13 to 11 queue of the BIND field. -/
  bindPort  : Nat := 0
  bindQueue : Nat := 0
  cplRing  : Nat := 0
  vector   : Nat := 0
  irqEn    : Bool := false
  modTicks : Nat := 0
  modCount : Nat := 1
  /-- The last producer index accepted. -/
  p        : BitVec 32 := 0
  /-- The consumer index. -/
  c        : BitVec 32 := 0
  /-- The consumer index as the shadow page last showed it. -/
  shadowC  : BitVec 32 := 0
  /-- Entries read from the host so far; the posted buffers read and not yet used stand between `c` and this. -/
  readTo   : BitVec 32 := 0
  posted   : List Buf := []
  /-- Completions, frames, events or buffers written since the ring's last message, and the tick boundaries since
  the first of them. -/
  pend     : Nat := 0
  pendTicks : Nat := 0
  /-- Completions held for want of a slot (R386). -/
  held     : List Cpl := []
  /-- The internal store of 256 entries, and the events discarded since the entry before (R391). -/
  evts     : List HeldEvt := []
  lost     : Nat := 0
deriving DecidableEq, Repr

/-- A DMA window (R377). -/
structure Win where
  base  : Nat := 0
  pages : Nat := 0
  read  : Bool := false
  write : Bool := false
deriving DecidableEq, Repr

/-- A command that is admitted and not yet completed (R385, R399). -/
structure Outst where
  ring   : Nat
  tag    : Nat
  opcode : Nat
  resAddr : Nat
  resLen : Nat
  /-- The CPL ring that its completion goes to (R401). -/
  cpl    : Nat
deriving DecidableEq, Repr

/-- What the device sends out of itself; the model keeps the record, newest first. -/
inductive Sent where
  /-- A result buffer's or another host memory write: address and bytes. -/
  | hostWrite (addr : Nat) (bytes : List Nat)
  /-- A completion entry at index `c` of a CPL ring, with its PHASE. -/
  | cpl (ring : Nat) (c : BitVec 32) (phase : Nat) (e : Cpl)
  /-- An event entry, with PHASE, HELD, LOST and the stamp at which it is written. -/
  | evt (ring : Nat) (c : BitVec 32) (phase : Nat) (held : Bool) (lost written : Nat) (e : Evt)
  /-- A ring's shadow word. -/
  | shadow (ring : Nat) (c : BitVec 32) (gen : Nat)
  /-- FETCH_STAMP, and the PAUSED and RESTARTS words of the shadow page. -/
  | fetchStamp (stamp : Nat)
  | paused (on : Bool)
  | restarts (n : Nat)
  /-- One MSI-X message of a vector. -/
  | msix (v : Nat)
  /-- An RXP entry written back: LENGTH, FIRST, LAST, BAD, and the receive fields of Table 14.9. -/
  | rxp (ring : Nat) (idx : BitVec 32) (len : Nat) (first last bad : Bool) (port ipCsum l4Csum : Nat) (miss : Bool)
      (pcp stamp frameLen flow : Nat)
  /-- A DMP entry written back. -/
  | dmp (ring : Nat) (idx : BitVec 32) (len offset dumpId : Nat) (first last bad : Bool)
  /-- A frame sent by an Ethernet port, without the FCS. -/
  | frame (port : Nat) (bytes : List Nat)
  /-- The PAUSE and ASM_DIR bits that a port advertises in 1000BASE-X auto-negotiation (R306). -/
  | autoneg (port : Nat) (pause asmDir : Bool)
  /-- The frame a port is sending leaves with its FCS inverted (R365). -/
  | badFcs (port : Nat)
  /-- A PPS_OUT pulse: the stamp of its tick and the offset PPS_OUT_COMP gives it. -/
  | pps (stamp offset : Nat)
  /-- A downstream lane frame: lane, number and its 384 code groups of 8b/10b (R62), bit a the most significant of ten. -/
  | lane (q n : Nat) (codes : List Nat)
deriving DecidableEq, Repr

/-- A CMD descriptor as the device reads it (Table 14.6): its fields, whether its reserved fields are zero, and whether the
read of its argument block succeeds. -/
structure CmdDesc where
  opcode : Nat
  tag    : Nat
  indirect : Bool
  fence  : Bool
  rsvOk  : Bool
  argLen : Nat
  argAddr : Nat
  resAddr : Nat
  resLen : Nat
  argRead : Bool
deriving DecidableEq, Repr

/-- A TXP descriptor as the device reads it (Table 14.8), with the content of its buffer and whether that read succeeds. -/
structure TxpDesc where
  rsvOk  : Bool
  addr   : Nat
  bytes  : Nat
  dest   : Nat
  raw    : Bool
  ts     : Bool
  csum   : Bool
  rtcp   : Bool
  prio   : Nat
  key    : Nat
  readOk : Bool
  content : List Nat
deriving DecidableEq, Repr

/-- A posted RXP or DMP entry as the device reads it: whether its reserved and device fields are zero, and its buffer. -/
structure PostDesc where
  rsvOk : Bool
  addr  : Nat
  len   : Nat
deriving DecidableEq, Repr

/-- A doorbell word (Table 14.4). -/
structure DbWord where
  ring : Nat
  index : BitVec 32
  gen  : Nat
  chk  : Nat
deriving DecidableEq, Repr

/-- What a doorbell fetch finds in host memory: the doorbell words, those not listed being zero, VMASK and its check, and
the entries that the device reads of each ring, in ring order from its first unread one; none stands for a read that
fails. -/
structure Page where
  words : List DbWord
  vmask : BitVec 64
  vchk  : BitVec 64
  cmds  : List (Nat × List CmdDesc)
  txps  : List (Nat × List TxpDesc)
  bufs  : List (Nat × List (Option PostDesc))
deriving DecidableEq, Repr

/-- The host interface. -/
structure Hif where
  setupOpen : Bool
  locked    : Bool
  paused    : Bool
  lockErr   : Nat
  /-- A lock request waits for the end of step 6 (R458, R497). -/
  lockWait  : Bool
  /-- Bus Master Enable, D3hot, MSI-X Enable and Function Mask of configuration space (R374). -/
  bme       : Bool
  d3hot     : Bool
  msixEn    : Bool
  fmask     : Bool
  devCtl    : BitVec 16
  /-- PCIE_PERST_N is asserted; the link is in training or up (R456). -/
  perst     : Bool
  linkUp    : Bool
  defEvt    : Nat
  fetchUs   : Nat
  dbAddr    : Nat
  shAddr    : Nat
  wins      : List Win
  rings     : Store Ring
  outst     : List Outst
  /-- The CMD ring whose turn comes next (R385). -/
  rr        : Nat
  vmask     : BitVec 64
  tblMask   : BitVec 64
  pba       : BitVec 64
  /-- The stamp plus one of each vector's last message, so that requests of one sub-tick give one message (R395). -/
  msgAt     : Store Nat
  /-- Events held through a control restart, oldest first, each with its ring: line events in the Ember buffer of
  4,096 (R24), the Kiln's 256 (R370), every other unit's 256 (R399). -/
  lineEvts  : List (Nat × Evt)
  klnEvts   : List (Nat × Evt)
  restartEvts : List (Nat × Evt)
  restarts  : Nat
  /-- When the next doorbell fetch falls, on the line of sub-ticks; none where R399 leaves it to fall at any time. -/
  fetchAt   : Option Nat
  /-- Writes of results and of buffers that wait for DMA, oldest first: address and bytes (R374). -/
  heldWr    : List (Nat × List Nat)
  /-- What has left the device, newest first. -/
  sent      : List Sent
deriving DecidableEq, Repr

def Hif.reset : Hif where
  setupOpen := false
  locked := false
  paused := false
  lockErr := 0
  lockWait := false
  bme := false
  d3hot := false
  msixEn := false
  fmask := false
  devCtl := 0
  perst := true
  linkUp := false
  defEvt := 0
  fetchUs := 16
  dbAddr := 0
  shAddr := 0
  wins := List.replicate 16 {}
  rings := []
  outst := []
  rr := 0
  vmask := 0
  tblMask := BitVec.allOnes 64
  pba := 0
  msgAt := []
  lineEvts := []
  klnEvts := []
  restartEvts := []
  restarts := 0
  fetchAt := none
  heldWr := []
  sent := []

end Sys2Proof.Machine
end

