-- ==== Sys2Proof/Machine/UnitHop.lean ====
section
/-! DEFINITION. What the Hoppers hold (chapter 9): banks, reading order and positions, bursts, put buffers, and the
queue SRAM. -/
namespace Sys2Proof.Machine
open Sys2Proof

/-- Who writes a packet into a Hopper (Table 9.1). -/
inductive Prod where
  | filter | lane (q : Nat) | eth (p : Nat) | barista | control | dma (t c : Nat) | put (t : Nat)
deriving DecidableEq, Repr

/-- A producer's place among those that become ready in one cycle (R233): the port order of Table 9.1, then lane, port, tile and
channel. -/
def Prod.place : Prod → Nat
  | .filter => 1000
  | .lane q => 2000 + q
  | .eth p => 3000 + p
  | .barista => 4000
  | .control => 5000
  | .dma t c => 6000 + 4 * t + c
  | .put t => 7000 + t

/-- A committed packet of a bank: its first word, its length and its priority. -/
structure Pkt where
  start : Nat
  n     : Nat
  prio  : Nat
deriving DecidableEq, Repr

/-- A burst: its producer, where it starts, its packet, whether it has been voided, and the forced swap deferred behind
it (R233, R235). -/
structure Burst where
  prod   : Prod
  start  : Nat
  prio   : Nat
  words  : List Word
  voided : Bool := false
  swapAfter : Bool := false
deriving DecidableEq, Repr

/-- A producer waiting its turn (R233): when it became ready, and its packet. -/
structure Waiting where
  at_   : Clock
  prod  : Prod
  prio  : Nat
  words : List Word
deriving DecidableEq, Repr

/-- One Hopper: its set-up (R231, HOP_BANK and HOP_MODE) and the state of R236. -/
structure Hopper where
  setUp    : Bool := false
  base     : Nat := 0
  sizeLog2 : Nat := 8
  sched    : Bool := false
  frame    : Nat := 2
  noticeEn : Bool := false
  noticeFlag : Nat := 0
  swapFlagEn : Bool := false
  swapFlag : Nat := 0
  thread   : Nat := 0
  fb    : Nat := 0
  w     : Nat := 0
  fill  : List Pkt := []
  seq   : List Pkt := []
  rel   : Nat := 0
  rp    : Nat := 0
  ro    : Nat := 0
  /-- The mark: packet, word and validity. -/
  mp    : Nat := 0
  mo    : Nat := 0
  mv    : Bool := false
  due   : Bool := false
  burst : Option Burst := none
  queue : List Waiting := []
  /-- The ticks of GRACE left while a destroy is in progress (R247). -/
  closing : Option Nat := none
deriving DecidableEq, Repr

/-- A tile's put buffer: the open packet, its owner, its Hopper, its words, and whether words were discarded for
length (R234, R198). -/
structure PutBuf where
  owner : Option Nat := none
  hop   : Nat := 0
  words : List Word := []
  spill : Bool := false
deriving DecidableEq, Repr

/-- The fields of HOP_MODE. -/
structure HopMode where
  sched      : Bool
  frame      : Nat
  noticeEn   : Bool
  noticeFlag : Nat
  swapFlagEn : Bool
  swapFlag   : Nat
  thread     : Nat
deriving DecidableEq, Repr

structure Hop where
  hops  : Store Hopper
  puts  : Store PutBuf
  /-- Threads in the voided state (R235): the Hopper their packet named, plus one. -/
  voided : Store Nat
  /-- The queue SRAM of 2,097,152 words. -/
  qsram : Store Word
  /-- What the check bits of a word of it say, where they do not say good: 1 a single-bit error, 2 an uncorrectable one
  (R244). -/
  qErr  : Store Nat
deriving DecidableEq, Repr

def Hop.reset : Hop where
  hops := []
  puts := []
  voided := []
  qsram := []
  qErr := []

end Sys2Proof.Machine
end

