-- ==== Sys2Proof/Machine/UnitMed.lean ====
section
/-! DEFINITION. What Sirboroth's line channels, packet channels and bridges hold (chapters 10 and 11). Media content is
analysed by the tiles (log entry 56); the model keeps what governs it and what the rules make of it. -/
namespace Sys2Proof.Machine
open Sys2Proof

/-- PEER of Tables 10.1 and 11.1. -/
inductive Peer where
  | none | line (n : Nat) | pkt (c : Nat)
deriving DecidableEq, Repr

/-- The settings LINE_CHANNEL_MODIFY may change (Tables 10.1 and 10.10). Levels are in dB, gains in tenths of a dB. -/
structure LineMod where
  tail     : Nat := 64
  nlp      : Nat := 2
  nlpAtten : Nat := 30
  hb       : Nat := 30
  toneDis  : Nat := 1
  detMask  : Nat := 0x35
  cptMask  : Nat := 0
  hybMode  : Nat := 2
  probe    : Int := -50
  flashMin : Nat := 600
  flashMax : Nat := 4800
  rxGain   : Int := 0
  txGain   : Int := 0
  feedProf : Nat := 0
  ringProf : Nat := 0
  levelEvt : Nat := 0
  peer     : Peer := .none
deriving DecidableEq, Repr

/-- Table 10.1. -/
structure LineSet where
  thread  : Nat := 0
  group   : Nat := 0
  level   : Nat := 2
  frame   : Nat := 80
  rate    : Nat := 16000
  rxHop   : Nat := 0
  mainHop : Nat := 0
  altHop  : Nat := 0
  evtRing : Nat := 0
  m       : LineMod := {}
deriving DecidableEq, Repr

/-- A change of a line's upstream state that the channel's thread has not seen: the tick n − 1 of its stamp, the bytes
before and after, how far HOOK_EDGES moved, and the ticks without a valid frame before it (R262). -/
structure HookRec where
  tick  : Nat
  old   : Nat
  new   : Nat
  edges : Nat
  gap   : Nat
deriving DecidableEq, Repr

/-- Ringing in progress: its cadence and that cadence's number in the table, steps fired, the tick of the next step and of the
first (R264). -/
structure Ringing where
  cadIx   : Nat
  cad     : List (Nat × Nat)
  profile : Nat
  cycles  : Nat
  cid     : Bool
  first   : Nat
  next    : Nat
  fired   : Nat := 0
deriving DecidableEq, Repr

/-- A caller display message (Table 10.6, R267, R268). Without a CID_DELAY it takes its mode's default. -/
structure CidMsg where
  mode  : Nat
  mod   : Nat
  level : Int := -20
  delay : Option Nat := none
  guard : Nat := 1600
  pr    : Bool
  typ   : Nat
  body  : List Nat
deriving DecidableEq, Repr

/-- A message being sent: the ticks at which its data begin and end, the tick at which an RP-AS burst ends, and the first of the
800 ticks of DT-AS. -/
structure CidRun where
  msg    : CidMsg
  burst  : Option Nat
  tas    : Option Nat := none
  dataAt : Nat
  dataEnd : Nat
deriving DecidableEq, Repr

/-- A tone (R269): frequencies and levels, cadence, COUNT, MIX and RAMP; its first tick, and the tick it ends where it
does of itself. -/
structure ToneRun where
  tones : List (Nat × Int)
  cad   : List (Nat × Nat)
  count : Nat
  mix   : Bool
  ramp  : Nat
  start : Nat
  stop  : Option Nat
  /-- The tick at which the fade after a LINE_TONE_STOP has ended. -/
  fade  : Option Nat := none
deriving DecidableEq, Repr

/-- Hybrid characterisation (R259): the probe's first tick; whether a tick of it was not good, and whether the probe is the
second. -/
structure HybRun where
  start  : Nat
  bad    : Bool
  second : Bool
deriving DecidableEq, Repr

/-- A one-tick stop of a stream (R259): the words to write, the gain to report where it is a hybrid's, whether it is one of
LINE_EQ_SET's; where it stands: 0 stop issued, 1 start issued. -/
structure Swap where
  stream : Nat
  words  : List (Nat × Word)
  hyb    : Option Int
  eq     : Bool := false
  phase  : Nat
deriving DecidableEq, Repr

/-- What the tile measures in one direction over a run of ticks (R257, R260, R261): the frequencies present in tenths of a hertz
with their levels in tenths of a dBFS, amplitude modulation by its rate in hundredths of a hertz and its depth in tenths of a per
cent, a phase reversal at the run's first tick, consecutive HDLC flags of V.21 channel 2, and whether the level lies below
−36 dBFS. -/
structure Heard where
  ticks : Nat := 0
  tones : List (Nat × Int) := []
  am    : Option (Nat × Nat) := none
  rev   : Bool := false
  flags : Nat := 0
  quiet : Bool := false
deriving DecidableEq, Repr

/-- A fax or modem detector (Table 10.4): ticks of its signal, whether it has reported it, ticks of the signal's absence, and
ticks since the last phase reversal. -/
structure FaxDet where
  n      : Nat := 0
  told   : Bool := false
  absent : Nat := 0
  rev    : Option Nat := none
deriving DecidableEq, Repr

/-- A call progress definition being matched (R260): whether a match is under way, its pair, whether the tone is present and for
how many ticks it has been so or not, and the cycles matched. -/
structure CptRun where
  live   : Bool := false
  seg    : Nat := 0
  on     : Bool := false
  n      : Nat := 0
  cycles : Nat := 0
deriving DecidableEq, Repr

/-- The detectors of a channel: the digit heard with its first tick and its ticks so far, whether its start has been reported, its
level, the ticks of pause before it (320 and more count alike); the fax and modem detectors of both directions by DETAIL; the call
progress definitions; and a bypass by an answer tone, with the consecutive ticks both directions have been quiet (R257). -/
structure Ears where
  cur    : Option (Nat × Nat × Nat) := none
  told   : Bool := false
  level  : Int := 0
  pause  : Nat := 320
  fax    : Store FaxDet := []
  far    : Store FaxDet := []
  cpt    : Store CptRun := []
  bypass : Option Nat := none
deriving DecidableEq, Repr

structure LineCh where
  set    : LineSet := {}
  mod    : Option LineMod := none
  /-- The idle feed or talk feed last commanded (Table 3.6), and polarity. -/
  feed   : Nat := 1
  rev    : Bool := false
  offHook : Bool := false
  onAt   : Option Nat := none
  recs   : List HookRec := []
  ring   : Option Ringing := none
  cidArm : Option CidMsg := none
  cid    : Option CidRun := none
  tone   : Option ToneRun := none
  hyb    : Option HybRun := none
  hybDone : Bool := false
  swaps  : List Swap := []
  /-- The tile-owned alarm slot held (R277). -/
  slot   : Option Nat := none
  ears   : Ears := {}
  /-- The canceller's echo model (R255, R257). -/
  echo   : List Int := []
  /-- The first tick for which nothing has been committed to ALT_HOP. -/
  altTo  : Nat := 0
  /-- The mixes taken from the LEG_HOPs of the channel: bridge, boundary and samples (R296). -/
  mixIn  : List (Nat × Nat × List Int) := []
  /-- A page's samples at 64 kS/s, from their first tick on (R298). -/
  page   : Option (Nat × List Int) := none
  /-- The host has touched the line's state or entries (R253). -/
  override_ : Bool := false
  lost   : Bool := false
  destroying : Option Nat := none
  /-- The frame whose window is open, by its boundary, and frames since the last level event. -/
  frameAt : Option Nat := none
  levelN : Nat := 0
  /-- The tick of the last valid upstream frame and HOOK_EDGES in it. -/
  lastTick : Nat := 0
  lastEdges : Nat := 0
  /-- Events formed and not yet reported: tick of the stamp, type, detail, argument. -/
  evq    : List (Nat × Nat × Nat × Nat) := []
  /-- The paging bridge that plays on the line. -/
  paging : Option Nat := none
  /-- The last frame given to the peer: its boundary, whether it was a late substitute, and its samples. -/
  near   : Option (Nat × Bool × List Int) := none
deriving DecidableEq, Repr

/-- A call progress definition (R260). -/
structure CptDef where
  freqs  : List Nat := []
  level  : Int := 0
  cad    : List (Nat × Nat) := []
  tol    : Nat := 1
  cycles : Nat := 1
deriving DecidableEq, Repr

/-- Table 11.1. -/
structure PktSet where
  thread  : Nat := 0
  group   : Nat := 0
  level   : Nat := 2
  frame   : Nat := 80
  peer    : Peer := .none
  rxHop   : Nat := 0
  dest    : Nat := 0
  txKey   : Nat := 0
  rxKey   : Nat := 0
  codec   : Nat := 0
  /-- CODEC_OPT: the options of Table 11.3 in the order that table names them. -/
  opts    : List Nat := []
  txPt    : Nat := 0
  rxPt    : Nat := 0
  evtPt   : Nat := 101
  txSsrc  : Nat := 0
  rxSsrc  : Nat := 0
  relatch : Nat := 800
  cname   : List Nat := []
  rtcp    : Nat := 5
  xr      : Bool := true
  jbMode  : Nat := 1
  jbMin   : Nat := 160
  jbInit  : Nat := 480
  jbMax   : Nat := 1600
  dtmf    : Bool := true
  flash   : Bool := false
  evtPlay : Bool := true
  vbdMode : Nat := 1
  vbdLaw  : Nat := 0
  vbdPt   : Nat := 0
  vbdDelay : Nat := 480
  t38Red  : Nat := 2
  mediaTo : Nat := 80000
  evtRing : Nat := 0
deriving DecidableEq, Repr

/-- A packet in the jitter buffer: its timestamp, sequence number, payload type and ticks of audio; whether a DTX gap follows it
(a SID frame, or Opus DTX), and whether it carries in-band FEC (R289). -/
structure JbPkt where
  ts    : Nat
  seq   : Nat
  pt    : Nat
  ticks : Nat
  sid   : Bool := false
  fec   : Bool := false
deriving DecidableEq, Repr

/-- What the tile finds in a payload whose codec it examines: its ticks, and the two marks of a packet. -/
structure Judged where
  ticks : Nat
  sid   : Bool := false
  fec   : Bool := false
deriving DecidableEq, Repr

/-- An RFC 4733 event being sent (R291): its volume, its timestamp and first tick (of a host's event those of its first frame), the
timestamp units of the segments before, the ticks it lasts where they are known, and the end packets left once it has ended. -/
structure EvtOut where
  ev    : Nat
  vol   : Nat
  ts    : Nat
  start : Option Nat
  base  : Nat := 0
  total : Option Nat
  ends  : Option Nat := none
  first : Bool := true
deriving DecidableEq, Repr

/-- A received event (R292): its timestamp, number and volume, its duration so far in ticks, and whether its end has been
reported. -/
structure EvtIn where
  ts    : Nat
  ev    : Nat
  vol   : Nat
  ticks : Nat
  ended : Bool
deriving DecidableEq, Repr

structure PktCh where
  set    : PktSet := {}
  next   : Option PktSet := none
  /-- 0 voice, 1 voiceband data, 2 T.38. -/
  mode   : Nat := 0
  /-- The mode from the next boundary on, its cause, and the arrival stamp of the packet that caused it (R299). -/
  nextMode : Option (Nat × Nat × Option Nat) := none
  ssrc   : Option Nat := none
  /-- The tick of the latched source's last packet, and of the last packet or report accepted. -/
  srcTick : Nat := 0
  rxTick : Nat := 0
  /-- The anchor (R285): a0 and ts0; D; consecutive late or early drops, and whether the next packet re-anchors. -/
  anchor : Option (Int × Nat) := none
  dly    : Nat := 480
  drops  : Nat := 0
  reanchor : Bool := false
  jb     : List JbPkt := []
  /-- Playout ticks below this belong to frames already formed. -/
  formed : Nat := 0
  frameAt : Option Nat := none
  /-- Sequence number and timestamp of the next packet; whether the last frame sent one; the SSRC sent. -/
  seq    : Nat := 0
  ts     : Nat := 0
  sentLast : Bool := false
  txSsrc : Nat := 0
  /-- RTP sent since the last report, and between the two before; the tick of the next report. -/
  sent0  : Bool := false
  sent1  : Bool := false
  rtcpAt : Option Nat := none
  /-- The event being sent, and those that wait for its end. -/
  evtOut : Option EvtOut := none
  evtWait : List EvtOut := []
  /-- The events taken, newest first. -/
  evtIn  : List EvtIn := []
  /-- Consecutive concealed ticks; whether a DTX gap followed the last packet played, and its end (R289). -/
  run    : Nat := 0
  lastEnd : Option (Int × Bool) := none
  /-- The frame that the encoder was last given (R291). -/
  encIn  : List Int := []
  mixIn  : List (Nat × Nat × List Int) := []
  mediaOn : Bool := false
  destroying : Option Nat := none
  /-- Sequence and timestamp of every packet accepted from the latched source, newest first. -/
  acc    : List (Nat × Nat) := []
  /-- The source that the report block counts: its SSRC, its packets, its first and highest extended sequence number; and
the expected and received packets at the report before. -/
  srcOf  : Nat := 0
  srcN   : Nat := 0
  seqLo  : Int := 0
  seqHi  : Int := 0
  expPrior : Int := 0
  recPrior : Nat := 0
  /-- Frames since D last changed in speech (R287). -/
  dlyN   : Nat := 8
  /-- The voiceband call began with ANSam (R294). -/
  ansam  : Bool := false
  /-- RTP packets and payload bytes sent. -/
  sentN  : Nat := 0
  sentB  : Nat := 0
  /-- Of the last SR and of the last Receiver Reference Time block: sender, middle NTP word and arrival stamp. The
interarrival jitter is in timestamp units times 16. -/
  sr     : Option (Nat × Nat × Nat) := none
  rrt    : Option (Nat × Nat × Nat) := none
  jitter : Nat := 0
  transit : Option Int := none
  received : Nat := 0
  late   : Nat := 0
  early  : Nat := 0
  dup    : Nat := 0
  /-- Packets lost of the sources before the present one. -/
  lost   : Nat := 0
  concealed : Nat := 0
  rtt    : Nat := 0
  voip   : List Nat := []
  /-- UDPTL's next sequence number, and the IFP packets last sent, newest first (R294). -/
  udptl  : Nat := 0
  ifps   : List (List Nat) := []
  near   : Option (Nat × Bool × List Int) := none
deriving DecidableEq, Repr

/-- A leg (Table 11.4). -/
structure Leg where
  pkt    : Bool
  chan   : Nat
  role   : Nat
  gain   : Int
  hop    : Nat
deriving DecidableEq, Repr

/-- Bridge settings (Table 11.4). -/
structure BridgeSet where
  thread  : Nat := 0
  group   : Nat := 0
  level   : Nat := 2
  frame   : Nat := 80
  rate    : Nat := 16000
  paging  : Bool := false
  mixMax  : Nat := 3
  inHop   : Nat := 0
  pageAdd : Bool := false
  pageRamp : Nat := 64
  evtRing : Nat := 0
deriving DecidableEq, Repr

/-- A change of a bridge's legs that waits for the frame boundary. -/
inductive LegOp where
  | add (l : Leg)
  | remove (pkt : Bool) (chan : Nat) (src : Src)
  | modify (pkt : Bool) (chan role : Nat) (gain : Int)
deriving DecidableEq, Repr

structure Bridge where
  set    : BridgeSet := {}
  legs   : List Leg := []
  ops    : List LegOp := []
  /-- The frame whose mix is still to be formed, the legs whose frames for it have come, and the talkers last chosen. -/
  frameAt : Option Nat := none
  present : List (Bool × Nat) := []
  /-- The boundary of the frame last mixed. -/
  mixed  : Option Nat := none
  talkers : List (Bool × Nat) := []
  late   : Nat := 0
  lateMix : Nat := 0
  destroying : Option Nat := none
deriving DecidableEq, Repr

/-- What a thread's analysis of a line channel's frame yields (log entry 56): the canceller's output at CH_RATE over its whole band
and what of it lies above 8 kHz; whether the far end is active, the near end, and the far end in the upper band; the canceller's
model after the frame; what is heard of the line and of the far end; levels in tenths of a dBFS; and a hybrid filter with the echo
return loss it gains. -/
structure LineWork where
  clean   : List Int
  high    : List Int
  farAct  : Bool
  nearAct : Bool
  farHigh : Bool
  model   : List Int
  heard   : List Heard
  far     : List Heard
  rx      : Int
  tx      : Int
  hyb     : Option (List Word × Int)
deriving DecidableEq, Repr

/-- What a thread's turn over a packet channel's frame yields: the decoded or concealed audio of the frame at the codec's rate, and
what the in-band FEC of the next packet gives of it; the payload of the frame's packet, none where DTX sends none; D as the adaptive rule would have it; whether the time is silence. -/
structure PktWork where
  play    : List Int
  fec     : List Int := []
  payload : Option (List Nat)
  dly     : Nat
  quiet   : Bool
deriving DecidableEq, Repr

structure Med where
  lines   : Store (Option LineCh)
  pkts    : Store (Option PktCh)
  bridges : Store (Option Bridge)
  cads    : Store (List (Nat × Nat))
  cpts    : Store CptDef
  /-- The alarm slot of each bridge thread, plus one. -/
  mixSlots : Store Nat
deriving DecidableEq, Repr

def Med.reset : Med where
  lines := []
  pkts := []
  bridges := []
  cads := []
  cpts := []
  mixSlots := []

end Sys2Proof.Machine
end

