-- ==== Sys2Proof/Machine/UnitOll.lean ====
section
/-! DEFINITION. What the Obnos lanes and lines hold (chapter 3). Lane times are in half nanoseconds, the unit of the
capability block and of the round-trip measurement. -/
namespace Sys2Proof.Machine
open Sys2Proof

/-- Training states (R86). -/
inductive Train where
  | dark | bitLock | frameLock | delayMeasure | capability | activate | live
deriving DecidableEq, Repr

/-- The capability block (Table 3.17). -/
structure Cap where
  version  : Nat := 0
  lineMask : Nat := 0
  features : Nat := 0
  turn     : Nat := 0
  sampleLat : Nat := 0
  cls      : Nat := 0
  serial   : List Nat := []
  raw      : List Nat := []
deriving DecidableEq, Repr

/-- The values the Ember domain retains for a lane (R88). -/
structure Kept where
  rt     : Nat
  nDly   : Nat
  f      : Nat
  turn   : Nat
  sampleLat : Nat
  serial : List Nat
deriving DecidableEq, Repr

/-- Who a mailbox request is for: the lane's training, a host MAILBOX_SEND, a LINE_ACTIVATE of a line, a PARTNER_RESET, or
nobody any more: a message in flight whose command has been answered. -/
inductive MbxFor where
  | train | host (o : Origin) | lineAct (line : Nat) (src : Src) | reset | ended
deriving DecidableEq, Repr

/-- A message for the partner: TYPE, TAG, payload, and whom it is for (Tables 3.15 and 3.16). -/
structure Msg where
  typ  : Nat
  tag  : Nat
  data : List Nat
  who  : MbxFor
deriving DecidableEq, Repr

/-- A request sent and awaiting its answer: its message, and the ticks since its first chunk was sent (R83, R84). -/
structure MbxReq where
  msg : Msg
  age : Nat
deriving DecidableEq, Repr

/-- The device's side of a lane's mailbox (R82). -/
structure Mbx where
  txSeq   : Nat := 1
  /-- The TX_SEQ of the last chunk accepted; none since a restart. -/
  rxSeq   : Option Nat := none
  /-- The message in flight, the bytes already acknowledged, and whether its present chunk has been sent before. -/
  cur     : Option Msg := none
  done    : Nat := 0
  resent  : Bool := false
  own     : List Msg := []
  host    : List Msg := []
  reqs    : List MbxReq := []
  /-- The bytes of a message being received; none outside one. -/
  rx      : Option (List Nat) := none
  linkErr : Option Nat := none
  nextTag : Nat := 0
deriving DecidableEq, Repr

/-- LANE_EXPECT (R93). -/
structure Expect where
  cls   : Nat := 0
  minVer : Nat := 0
  lines : Nat := 0
  feats : Nat := 0
deriving DecidableEq, Repr

structure Lane where
  en       : Bool := false
  /-- Ticks left of the 16 of a disable (R94), and an enable that waits for its end. -/
  disabling : Option Nat := none
  enAfter  : Bool := false
  train    : Train := .dark
  reason   : Nat := 0
  /-- One more than the holdoff ticks left; 0 outside a holdoff. -/
  holdoff  : Nat := 0
  inTicks  : Nat := 0
  fails    : Nat := 0
  los      : Bool := true
  /-- Tick boundaries passed since LOS was released, to eight. -/
  losOff   : Nat := 0
  fromLive : Bool := false
  fast     : Bool := false
  /-- The lane waits for its training wave (R87), and has reached LIVE or failed since its wave began. -/
  waveWait : Bool := false
  waveDone : Bool := false
  /-- Consecutive good frames, one more than the number of the last valid upstream frame and the tick it ended in, and RT
  measured over them. -/
  good     : Nat := 0
  nextNum  : Nat := 0
  lastAt   : Option Nat := none
  rtSum    : Nat := 0
  /-- RT in use, N_DLY, the transmit phase advance and where it is going (R66, R68, R90). -/
  rt       : Nat := 0
  nDly     : Nat := 0
  f        : Nat := 0
  fGoal    : Nat := 0
  rtLast   : List Nat := []
  cap      : Option Cap := none
  expect   : Expect := {}
  kept     : Option Kept := none
  misses   : Nat := 0
  mbx      : Mbx := {}
  /-- The last ring and feed profiles the partner acknowledged, by TYPE × 8 + profile (R85). -/
  profiles : Store (List Nat) := []
  /-- Acknowledged in ACTIVATE so far: TIMING_SET, ACTIVATE, and profiles still to be acknowledged. -/
  timingOk : Bool := false
  actOk    : Bool := false
  profLeft : Nat := 0
  actMask  : Nat := 0
  /-- A LANE_RETRAIN waiting for PARTNER_RESET: FULL, ticks since the chunk was first sent, acknowledged. -/
  retrain  : Option (Bool × Option Nat × Bool) := none
  /-- A loopback's ticks left, and the code and CRC errors seen (R95). -/
  loop     : Option Nat := none
  loopCode : Nat := 0
  loopCrc  : Nat := 0
  /-- The unit intervals by which steps of DELAY between 63 and 0 have shifted the receiver's bit alignment since its comma was
  found, upwards positive (R131). -/
  align    : Int := 0
  /-- The first tick of an eye scan in progress (R128), and none outside one. -/
  scanFrom : Option Nat := none
  /-- A scan or sweep of BIT_LOCK at start-up is still to be made before a comma is sought (R134). -/
  startScan : Bool := false
  /-- The training in progress has made that scan. -/
  scanDone : Bool := false
  statusHop : Nat := 1023
  cmdHop   : Nat := 1023
  telemLog2 : Nat := 0
  /-- The part of the downstream frame fixed at its start: its number, and its mailbox chunk in `dsHead`. -/
  dsNum    : Option Nat := none
  /-- The number of the downstream frame before it. -/
  dsPrev   : Option Nat := none
  dsHead   : List Nat := []
  /-- The running disparities of the transmitter and of the receiver (R62), the latter none where no frame went before. -/
  txDisp   : Bool := false
  rxDisp   : Option Bool := none
deriving DecidableEq, Repr

/-- A line action entry (Table 3.11). COMMAND is OPCODE and the argument bytes. -/
structure LAction where
  kind  : Nat := 0
  mask  : Nat := 0
  feed  : Nat := 0
  ring  : Nat := 0
  feedP : Nat := 0
  opc   : Nat := 0
  args  : List Nat := []
deriving DecidableEq, Repr

/-- A reflex entry (Table 3.12). -/
structure Reflex where
  enable  : Bool := false
  bit     : Nat := 0
  edge    : Nat := 0
  oneShot : Bool := false
  condEn  : Bool := false
  condMode : Nat := 0
  action  : Nat := 0
deriving DecidableEq, Repr

/-- A command for a line's partner (Table 3.8), and who asked. -/
structure LCmd where
  opc  : Nat
  args : List Nat
  src  : Src
deriving DecidableEq, Repr

/-- The command in flight: its CSEQ and how often it has been sent. -/
structure LFlight where
  cmd  : LCmd
  cseq : Nat
  sent : Nat
deriving DecidableEq, Repr

/-- A change of a line that waits for the latch point (R77). -/
inductive LOp where
  | state (mask feed ring feedP : Nat) (src : Src)
  | command (c : LCmd)
  | action (slot entry : Nat)
  | reflex (r entry : Nat)
  | actionWrite (entry : Nat) (a : LAction)
  | deactivate (src : Src)
deriving DecidableEq, Repr

/-- A line. The four bytes of its upstream state and its telemetry are those of the last valid frame. -/
structure Line where
  enabled : Bool := false
  active  : Bool := false
  feed    : Nat := 0
  ring    : Nat := 0
  feedP   : Nat := 0
  seq     : Nat := 0
  us0     : Nat := 0
  us1     : Nat := 0
  us2     : Nat := 0
  us3     : Nat := 0
  telem   : List Nat := []
  /-- The eight samples of the last tick as handed to the filter engine, and their flags (R72). -/
  samples : List Int := []
  stale   : Bool := false
  down    : Bool := true
  /-- The samples of the upstream frame received in this tick, and the last good sample. -/
  fresh   : Option (List Int) := none
  lastGood : Int := 0
  flight  : Option LFlight := none
  queue   : List LCmd := []
  cseq    : Nat := 0
  actions : Store LAction := []
  reflexes : Store Reflex := []
  ops     : List LOp := []
  /-- LINE_SET_STATE awaiting SEQ_ACK: its SEQ, the ticks since, and who asked. -/
  acks    : List (Nat × Nat × Src) := []
deriving DecidableEq, Repr

/-- A line command as a packet of a lane's command Hopper spells it (R81); `other` where its words spell none. -/
inductive LaneCmd where
  | activate (line : Nat) (active : Bool)
  | setState (line mask feed ring feedP : Nat)
  | command (line opc : Nat) (args : List Nat)
  | actionWrite (line entry : Nat) (a : LAction)
  | reflexWrite (line r : Nat) (x : Reflex)
  | read (line : Nat)
  | other
deriving DecidableEq, Repr

/-- The lanes and lines, and the training waves (R87). -/
structure Oll where
  lanes   : Store Lane
  lines   : Store Line
  holdoffTicks : Nat
  fastPath : Bool
  waves    : Bool
  txSwing  : Nat
  /-- The wave in training, and the ticks since it began. -/
  wave    : Option Nat
  waveTicks : Nat
  /-- LANE_ENABLE commands awaiting the rest of the lanes they disable: the lane mask left, and who asked. -/
  enWaits : List (Nat × Src)
deriving DecidableEq, Repr

def Oll.reset : Oll where
  lanes := []
  lines := []
  holdoffTicks := 8000
  fastPath := true
  waves := true
  txSwing := 1
  wave := none
  waveTicks := 0
  enWaits := []

end Sys2Proof.Machine
end

