-- ==== Sys2Proof/Machine/UnitSch.lean ====
section
/-! DEFINITION. What the Barista holds (chapter 8): the thread table, the Ready queues, groups, and what it knows of
each logical tile. -/
namespace Sys2Proof.Machine
open Sys2Proof

/-- STATE of a thread (Table 8.1). -/
inductive TState where
  | dormant | waiting | ready | running | cancelled
deriving DecidableEq, Repr

/-- A thread entry (Table 8.1). The default is the Reset column. -/
structure Thread where
  state   : TState := .dormant
  flags   : Word := 0
  mask    : Word := 0
  /-- MODE: true is ALL. -/
  all     : Bool := false
  group   : Nat := 0
  level   : Nat := 0
  preempt : Bool := true
  ctx     : Word := 0
  /-- TILE, none for 0x3F. -/
  tile    : Option Nat := none
  resumed : Bool := false
deriving DecidableEq, Repr

/-- Group settings (Table 8.4) and whether the group is stranded (R225). -/
structure Group where
  weight   : Nat := 1
  ceiling  : Nat := 64
  aff      : BitVec 34 := 0x0FFFFFFFF
  stranded : Bool := false
deriving DecidableEq, Repr

/-- A request the Barista has sent to a tile: a pre-emption, a hold for an evacuation (R224), or a cancel. -/
inductive Req where
  | preempt | hold | cancel
deriving DecidableEq, Repr

/-- What the Barista knows of a logical tile. -/
structure STile where
  /-- The thread of CURTH, none before a thread has resumed. -/
  running : Option Nat := none
  /-- The thread selected for the tile and not yet resumed, that of NXTTH. -/
  bound   : Option Nat := none
  idle    : Bool := false
  frozen  : Bool := false
  within  : Bool := false
  stopped : Bool := false
  req     : Option Req := none
  /-- The clock's reading when a cancel request was sent (R213). -/
  cancelAt : Option Clock := none
  cause   : Option Nat := none
  cur     : Nat := 0
deriving DecidableEq, Repr

/-- A Barista command as a packet of CMD_HOP spells it (R229), a THREAD_CANCEL with the flag sets of its cycle; `other` where its words spell none. -/
inductive SchCmd where
  | groupConfig (g weight ceiling : Nat) (aff : BitVec 34)
  | groupStatus (g : Nat)
  | threadConfig (th g level : Nat) (preempt : Bool) (ctx : Word)
  | threadStart (th : Nat) (waiting : Bool) (mask : Word) (all clear : Bool)
  | threadSignal (th : Nat) (flags : Word)
  | threadCancel (th : Nat) (sets : List (Nat × Nat × Nat))
  | threadRead (th : Nat)
  | tileStatus (t : Nat)
  | other
deriving DecidableEq, Repr

/-- The Barista. -/
structure Sch where
  threads : Store Thread
  /-- The Ready queue of group g and level l, at key 4 g + l, head first (R214). -/
  fifos   : Store (List Nat)
  groups  : Store Group
  tiles   : Store STile
  /-- Deficits and pass counts, at key 64 t + g (R216). -/
  deficit : Store Nat
  pass    : Store Nat
  /-- CMD_HOP, STATUS_HOP and CMD_EN as weighed at the lock (R230). -/
  cmdHop    : Nat
  statusHop : Nat
  cmdEn     : Bool
deriving DecidableEq, Repr

def Sch.reset : Sch where
  threads := []
  fifos := []
  groups := []
  tiles := []
  deficit := []
  pass := []
  cmdHop := 1023
  statusHop := 1023
  cmdEn := false

end Sys2Proof.Machine
end

