-- ==== Sys2Proof/Machine/UnitSys.lean ====
section
/-! DEFINITION. What starting, restarting and service hold (chapters 17, 18 and 20): SYS_START, the start in progress, the
pins, evacuations, SRAM rows, staged images, slot writes, the watchdog and the Ash dump. -/
namespace Sys2Proof.Machine
open Sys2Proof

/-- An image as flash or a staging copy holds it: its header and what R343 finds of it, and its segments for program memory
and for data memory (Table 13.5). -/
structure FlashImg where
  x    : ImageIn
  code : List Quad
  data : List (Nat × List Byte)
deriving DecidableEq, Repr

/-- A tile image that a start loads at the lock, with the logical tiles it is for. -/
structure TileImg where
  img   : FlashImg
  tiles : List Nat
deriving DecidableEq, Repr

/-- An evacuation (R468, R469): its tile, the physical spare and its position, boundary, whether E2 has begun, the image of a
RELOAD. -/
structure Evac where
  tile  : Nat
  spare : Nat
  pos   : Nat
  at_   : Nat
  held  : Bool := false
  reload : Option FlashImg := none
deriving DecidableEq, Repr

/-- A fatal log record (R489). -/
structure FatalRec where
  stamp : Nat
  cls   : Nat
  warm  : Bool
  dumpId : Nat
  pc0   : Nat
  pc1   : Nat
deriving DecidableEq, Repr

/-- STATE of the Ash directory. -/
inductive AshState where
  | empty | capturing | captured | packing | ready | delivered
deriving DecidableEq, Repr

/-- A slot write in progress (R479): the slot written (true is B) and its entries, each an image and a TILES mask. -/
structure SlotWrite where
  slotB : Bool
  entries : List (FlashImg × Nat)
deriving DecidableEq, Repr

/-- An image slot of the boot flash: whether MAGIC, the reserved fields and the offsets of its directory are good, and its
entries, each with its TILES mask (R465). -/
structure BootSlot where
  dirOk : Bool := false
  entries : List (FlashImg × Nat) := []
deriving DecidableEq, Repr

/-- A start that the internal reset leads to. -/
inductive StartKind where
  | cold | warm
deriving DecidableEq, Repr

/-- What the training of a rank finds at a cold start (R423, R427, R428): its MR8 density, whether command/address training and
write leveling succeed, the byte lanes in error at each point of the read and of the write eye step, and whether the test of a
spare's reserved region passes. -/
structure RankFind where
  present : Bool := false
  density : Nat := 0
  leveled : Bool := false
  rd      : List (BitVec 4) := []
  wr      : List (BitVec 4) := []
  testOk  : Bool := true
deriving DecidableEq, Repr

/-- A valid board configuration (Table 17.5). -/
structure BoardCfg where
  spareEn : Bool
  spare   : Nat
  rate    : Nat
  unused  : List (BitVec 7)
deriving DecidableEq, Repr

/-- What a tile's built-in self-test finds: whether the tile passes but for rows that fail, and those rows of program and of
data memory, each a bank and a row. -/
structure TileFind where
  pass : Bool := true
  pm   : List (Nat × Nat) := []
  dm   : List (Nat × Nat) := []
deriving DecidableEq, Repr

/-- What a step of Table 17.2 finds outside the device as it ends. -/
structure StartFind where
  /-- Step 1: the part's fused AVS code. -/
  avs    : Nat := 10
  /-- Step 2: the OTP check, the known-answer tests and the entropy start-up test pass; the owner record slots read back
  good; the failing attempts of a root's burn. -/
  katOk  : Bool := true
  ownA   : Bool := true
  ownB   : Bool := true
  burnBad : Nat := 0
  /-- Step 3: what the image slots and the calibration record slots of the boot flash hold, where a programmer has written
  them since. -/
  slotA  : Option BootSlot := none
  slotB  : Option BootSlot := none
  calA   : Option CalRec := none
  calB   : Option CalRec := none
  /-- Step 4 of a cold start: the board configuration, none where it is not valid; ranks 0 to 3; physical tiles 0 to 33. -/
  board  : Option BoardCfg := none
  ranks  : List RankFind := []
  tiles  : List TileFind := []
deriving DecidableEq, Repr

structure Sys where
  /-- Power good has been reached and no supply has failed since. -/
  powered : Bool
  /-- SYS_START: KIND, CAUSE, NO_CAL_RECORD, STEP and WARM_COUNT. -/
  kind  : Nat
  cause : Nat
  noCal : Bool
  step  : Nat
  warmCount : Nat
  /-- The Ember domain passes its check; it records that step 4 was completed. -/
  emberOk : Bool
  step4  : Bool
  /-- A supply other than VDD_AON has left its range while VDD_AON held, since the last cold start (R504). -/
  supplyFault : Bool
  /-- Failed warm attempts in a row (R454). -/
  failed : Nat
  /-- An internal reset is in progress, with the start and cause that follow it. -/
  inReset : Option (StartKind × Nat)
  rstN   : Bool
  pfwN   : Bool
  /-- The pin TEST_MODE, which the board must tie to VSS (R512). -/
  testMode : Bool
  /-- The AVS code driven, none while the pins are high-impedance, and the ticks since its last step. -/
  avs    : Option Nat
  avsTicks : Nat
  /-- SERVICE_POLICY, and the settings that wait for nothing. -/
  evacRow : Bool
  evacUe  : Bool
  evacFrame : Nat
  wdogTicks : Nat
  qrowLimit : Nat
  /-- Tick boundaries since control firmware last serviced its watchdog. -/
  wdog   : Nat
  evac   : Option Evac
  /-- Automatic triggers that wait for the evacuation in progress, oldest first. -/
  evacQ  : List Nat
  /-- Physical tiles under the self-test of R472, with whether TILE_SPARE_TEST asked. -/
  tests  : List (Nat × Bool)
  /-- The copy of each position's program memory in the tile image region. -/
  copies : Store (List Quad)
  /-- Images of a start waiting for the lock, and the image table of the loaded tiles. -/
  images : List TileImg
  /-- Queue SRAM: errors of each row (bank × 4,096 + row), spare rows used of each bank, and candidates left in use. -/
  qCe    : Store Nat
  qUsed  : Store Nat
  qDone  : Store Nat
  qLeft  : List Nat
  /-- Control SRAM: corrected errors of each row, the candidate list of the Ember domain, and spare rows used. -/
  cCe    : Store Nat
  cCand  : List Nat
  cUsed  : Store Nat
  cDone  : Store Nat
  staged : List FlashImg
  slotWr : Option SlotWrite
  slotA  : BootSlot
  slotB  : BootSlot
  /-- A warm start waits for the capture in progress, with its cause (R453); the control restart in progress has passed
  its step 6 (R461). -/
  warmDue : Option Nat
  checked : Bool
  /-- FATAL_N is low (R511); the ticks left of TAMPER_N's pulse. -/
  fatal  : Bool
  tamperLow : Nat
  ash    : AshState
  dumpId : Nat
  dumpCls : Nat
  rawLen : Nat
  envLen : Nat
  /-- The bytes of the container that packing has made, 0 before. -/
  contLen : Nat
  complete : Bool
  noKey  : Bool
  /-- The bytes of the envelope delivered so far in the offer in progress, and the ring it goes to. -/
  offer  : Option (Nat × Nat)
  delivered : Nat
  env    : List Nat
  log    : List FatalRec
deriving DecidableEq, Repr

def Sys.reset : Sys where
  powered := false
  kind := 0
  cause := 0
  noCal := false
  step := 0
  warmCount := 0
  emberOk := false
  step4 := false
  supplyFault := false
  failed := 0
  inReset := none
  rstN := false
  pfwN := true
  testMode := false
  avs := none
  avsTicks := 0
  evacRow := true
  evacUe := true
  evacFrame := 20
  wdogTicks := 800
  qrowLimit := 4
  wdog := 0
  evac := none
  evacQ := []
  tests := []
  copies := []
  images := []
  qCe := []
  qUsed := []
  qDone := []
  qLeft := []
  cCe := []
  cCand := []
  cUsed := []
  cDone := []
  staged := []
  slotWr := none
  slotA := {}
  slotB := {}
  warmDue := none
  checked := false
  fatal := false
  tamperLow := 0
  ash := .empty
  dumpId := 0
  dumpCls := 0
  rawLen := 0
  envLen := 0
  contLen := 0
  complete := false
  noKey := false
  offer := none
  delivered := 0
  env := []
  log := []

end Sys2Proof.Machine
end

