-- ==== Sys2Proof/Machine/UnitTil.lean ====
section
/-! DEFINITION. What the tiles hold (chapters 6 and 7): the tile map, each tile's registers, pipeline, entry state and
DMA engine, and each physical tile's error history. -/
namespace Sys2Proof.Machine
open Sys2Proof

/-- A physical tile's state (Table 6.1). -/
inductive PState where
  | active | spare | vacated | retired
deriving DecidableEq, Repr

/-- One row of an error history (R156). -/
structure RowHist where
  bank : Nat
  row  : Nat
  ce   : Nat
  ue   : Nat
  cand : Bool
deriving DecidableEq, Repr

/-- A physical tile: its state, whether its data memory's clearing is done (R153), the histories and spare row
assignments of its program and data memory, and the words held with check bits that mark them uncorrectable
(R155). -/
structure Phys where
  state   : PState := .retired
  cleared : Bool := false
  pmHist  : List RowHist := []
  dmHist  : List RowHist := []
  pmSpare : List (Nat × Nat) := []
  dmSpare : List (Nat × Nat) := []
  ueWords : Store Bool := []
deriving DecidableEq, Repr

/-- What one operation of a bundle writes when its latency has passed (Table 7.12). -/
inductive TWrite where
  | x (n : Nat) (v : Word)
  | xl (n : Nat) (v : BitVec 16)
  | xh (n : Nat) (v : BitVec 16)
  | p (n : Nat) (v : Word)
  | b (n : Nat) (v : Word)
  | l (n : Nat) (v : BitVec 17)
  | m (n : Nat) (v : Word)
  /-- An accumulator takes an exact result, checked under R161 and R162 with the SAT of the issue. -/
  | accSet (k : Nat) (v : Int) (sat : Bool)
  /-- An accumulator is cleared, flags unchanged (ACCZ). -/
  | accZero (k : Nat)
  /-- An exact sum is added to the accumulator as it stands then (R188). -/
  | accAdd (k : Nat) (v : Int) (sat : Bool)
  | sr (v : Word)
  | zn (z n : Bool)
  | znCv (z n c v : Bool)
  | sticky (mask : Word)
  | spc (v : Word)
  | ssr (v : Word)
  | ks (n : Nat) (v : Word)
deriving DecidableEq, Repr

/-- A write on its way: the bundles still to be issued before it is seen. -/
structure PendW where
  left : Nat
  w    : TWrite
deriving DecidableEq, Repr

/-- What an operation changes for the choices of R168 (R193). -/
inductive FWrite where
  | lc (k : Nat) (v : BitVec 16)
  | ls (k : Nat) (v : BitVec 14)
  | le (k : Nat) (v : BitVec 14)
  | len (v : Bool)
deriving DecidableEq, Repr

structure PendF where
  left : Nat
  w    : FWrite
deriving DecidableEq, Repr

/-- Where an operation stands: its tile, whether it is the last of its bundle, what the program memory's check bits
say of the bundle's fetch (0 good, 1 corrected, 2 uncorrectable), and the 32-bit words of an ALMARM block whose check bits have
been corrected or found uncorrectable (R154, R155). -/
structure Slot where
  tile  : Nat
  fin   : Bool
  pmEcc : Nat := 0
  blkCe : List Nat := []
  blkUe : List Nat := []
deriving DecidableEq, Repr

/-- A channel whose next descriptor is read, and the 32-bit words of the descriptor whose check bits have been corrected or found
uncorrectable (R154, R155). -/
structure ChanRead where
  chan : Nat
  ces  : List Nat := []
  ues  : List Nat := []
deriving DecidableEq, Repr

/-- How a thread's turn ends (R195). -/
inductive Turn where
  | wait (mask : Word) (all : Bool) | yield | texit
deriving DecidableEq, Repr

/-- What happens once the two slots of a redirecting operation have run (R191, R195, R204). -/
inductive After where
  | onward | jump (target : BitVec 14) | resume (target : BitVec 14) | turn (k : Turn) | idle
deriving DecidableEq, Repr

/-- Where a tile's issue stands. -/
inductive Run where
  /-- Gated: the tile has executed IDLE, or waits for its first thread. -/
  | gated
  | issuing
  /-- The thread's turn has ended and its dispatch entry is to be taken. -/
  | ended (k : Turn)
  /-- The tile has stopped after a fault in kernel state (R203). -/
  | stopped
deriving DecidableEq, Repr

/-- An operation of the bundle's control slot on another unit, with the register values it read (R194 to R199). -/
inductive UnitOp where
  | signal (th flag : Nat)
  | flagtake (xd : Nat) (mask : Word)
  | time (xd : Nat)
  | almarm (xd : Nat) (addr : Word) (ces ues : List Nat)
  | almdis (xd : Nat) (slot : Nat)
  | hput (h : Nat) (w : Word)
  | hcommit (xd h prio : Nat)
  | habort (xd h : Nat)
  | hget (xd h : Nat) (ecc : Nat)
  | hnext (xd h : Nat)
  | hmark (xd h : Nat)
  | hrewind (xd h : Nat)
  | hrelease (xd h : Nat)
  | dmapost (xd ch : Nat) (addr : Word)
  | dmaabort (xd ch : Nat)
  | dmaq (xd ch : Nat)
deriving DecidableEq, Repr

/-- A store of the bundle: byte address, size in bytes and value. -/
structure TStore where
  addr : Nat
  size : Nat
  val  : BitVec 64
  /-- The other half of a 16-bit store's word holds an uncorrectable error (R155). -/
  mark : Bool := false
deriving DecidableEq, Repr

/-- The bundle being issued: how many operations each slot holds, what they write, store and start, the registers
they name as destinations, and the faults they meet with their data addresses, in slot order. -/
structure Bundle where
  macN   : Nat := 0
  memN   : Nat := 0
  ctlN   : Nat := 0
  longN  : Nat := 0
  writes : List PendW := []
  fws    : List PendF := []
  stores : List TStore := []
  unit   : Option UnitOp := none
  flow   : Option After := none
  dests  : List Nat := []
  /-- Corrected and uncorrectable errors the bundle's reads met, as word addresses. -/
  ces    : List Nat := []
  ues    : List Nat := []
  faults : List (Nat × Nat) := []
  /-- Bytes of data memory that the DMA engine has written in the bundle's cycle, with what they held before it (R152). -/
  was    : List (Nat × Byte) := []
deriving DecidableEq, Repr

/-- A DMA descriptor as the engine has read it (Table 6.6). -/
structure Desc where
  kind   : Nat
  notify : Bool
  prio   : Nat
  flag   : Nat
  thread : Nat
  loc    : Nat
  remote : Nat
  len    : Nat
  rows   : Nat
  lstride : Int
  rstride : Int
  /-- A reserved field is not zero. -/
  bad : Bool
deriving DecidableEq, Repr

/-- The descriptor a channel is running: its address and what was read. -/
structure DmaRun where
  addr : Nat
  desc : Desc
  /-- The status its checks gave it, ST_OK where it moves data. -/
  st   : Status
  /-- The requester port of its DRAM traffic (R149). -/
  port : Nat := 0
  /-- The bytes moved so far, row after row, and the first row that has met poisoned or uncorrectable data. -/
  moved : Nat := 0
  bad  : Option Nat := none
deriving DecidableEq, Repr

structure Chan where
  queue : List Nat := []
  /-- The first descriptors of the queue that a DMA_ABORT has ended and that wait for the one in progress (R175). -/
  cut   : Nat := 0
  run   : Option DmaRun := none
deriving DecidableEq, Repr

/-- A tile, by logical position (Table 6.3, Table 7.15). Reset values: SR 0x17, every other register zero. -/
structure Tile where
  x  : Store Word := []
  a  : Store (BitVec 40) := []
  p  : Store Word := []
  b  : Store Word := []
  l  : Store (BitVec 17) := []
  m  : Store Word := []
  lc : Store (BitVec 16) := []
  ls : Store (BitVec 14) := []
  le : Store (BitVec 14) := []
  sr : Word := 0x00000017
  /-- SR.LEN as the choices of R168 see it. -/
  len : Bool := true
  pc : BitVec 14 := 0
  /-- The choice of R168 that followed the fetch of the open bundle, and LC0 to LC2 before it (R203). -/
  next   : BitVec 14 := 0
  lcWas  : Store (BitVec 16) := []
  run    : Run := .gated
  pend   : List PendW := []
  pendF  : List PendF := []
  /-- The slots still to be fetched after a redirecting operation, and what follows them. -/
  slots  : Nat := 0
  after  : After := .onward
  /-- The next fetch is that of RESUME's target (R204). -/
  resuming : Bool := false
  opened : Option Bundle := none
  eblk   : Bool := true
  spc    : BitVec 14 := 0
  ssr    : Word := 0
  ecause : Word := 0
  faddr  : Word := 0
  curth  : Option Nat := none
  curctx : Word := 0
  nxtth  : Option Nat := none
  nxtctx : Word := 0
  ks0    : Word := 0
  ks1    : Word := 0
  chans  : Store Chan := []
deriving DecidableEq, Repr

/-- The tiles. -/
structure Til where
  /-- The physical tile of each logical position, where it holds one, as that number plus one. -/
  map   : Store Nat
  phys  : Store Phys
  tiles : Store Tile
  /-- The tile DRAM window in bytes, as weighed at the lock (R171, R178). -/
  winLo : Nat
  winHi : Nat
  ceLimit : Nat
  ceEvt : Bool
deriving DecidableEq, Repr

def Til.reset : Til where
  map := []
  phys := []
  tiles := []
  winLo := 0
  winHi := 0
  ceLimit := 4
  ceEvt := true

end Sys2Proof.Machine
end

