-- ==== Sys2Proof/Machine/UnitTmp.lean ====
section
/-! DEFINITION. What the Tamper engine holds (chapter 15). -/
namespace Sys2Proof.Machine
open Sys2Proof

/-- A job descriptor (Table 15.1), with whether its reserved fields are zero. -/
structure TmpDesc where
  rsvOk : Bool
  dir   : Nat
  cls   : Nat
  effort : Nat
  dyn   : Bool
  inLen : Nat
  src   : Nat
  dst   : Nat
  cap   : Nat
  first : Nat
  blocks : Nat
deriving DecidableEq, Repr

/-- Who submitted a job (R405): host software, tile code with its request's word 0 and where its answer goes, or control
firmware. -/
inductive TmpSrc where
  | host
  | tile (w0 : Word) (thread flag : Nat) (notify : Bool) (rsp : Nat)
  | ctrl
deriving DecidableEq, Repr

/-- A job, how many source bytes it has read, and the bytes. -/
structure TmpJob where
  id   : Nat
  who  : TmpSrc
  desc : TmpDesc
  done : Nat := 0
  data : List Nat := []
deriving DecidableEq, Repr

structure Tmp where
  enabled : Bool
  /-- Ticks left of the 160 of a disable in progress. -/
  disabling : Option Nat
  nextId  : Nat
  active  : List TmpJob
  waitCtrl : List TmpJob
  waitTile : List TmpJob
  waitHost : List TmpJob
  /-- The source whose turn is next: 0 control firmware, 1 tile code, 2 host software; and the job that advances next. -/
  turn    : Nat
  jobHop  : Nat
  jobEn   : Bool
deriving DecidableEq, Repr

def Tmp.reset : Tmp where
  enabled := true
  disabling := none
  nextId := 0
  active := []
  waitCtrl := []
  waitTile := []
  waitHost := []
  turn := 0
  jobHop := 1023
  jobEn := false

end Sys2Proof.Machine
end

