-- ==== Sys2Proof/Syntax.lean ====
section
/-! DEFINITION. The commands of the block: one constructor per row of spec/opcode_table.json, in the table's order,
with the operands the row's command or event carries. -/
namespace Sys2Proof
open Sys2Proof.Machine

inductive Instr where
  /-- POWER_ON, R452: Power good at power-on starts a cold start that runs the steps of Table 17.2. -/
  | powerOn
  /-- RST_N_ASSERT, R453: A fall of RST_N with power held writes back the ECC cache, puts ranks in self-refresh and resets every domain except the Ember domain. -/
  | rstNAssert
  /-- INTERNAL_RESET_END, R453: The internal reset ends at the later of the RST_N rise and 50 µs after its fall, and the start chosen by R452 begins. -/
  | internalResetEnd (ember : Bool)
  /-- SUPPLY_FAULT, R504: A supply other than VDD_AON leaving its range clears the Ember record of DRAM initialisation so that the next start is cold. -/
  | supplyFault
  /-- CONTROL_RESTART, R461: The control cores are reloaded from their verified DRAM copy while the media plane carries every call. -/
  | controlRestart (digestOk stateOk : Bool)
  /-- CONTROL_RESTART_DONE, R461: At step 7 the servo resumes, PAUSED returns to 0, RESTARTS advances and held events are delivered. -/
  | controlRestartDone
  /-- PFW_ASSERT, R466: Assertion of PFW_N stops new flash erases and programs and finishes or abandons record and image writes. -/
  | pfwAssert (last : Bool)
  /-- PFW_RELEASE, R466: Release of PFW_N without loss of power lets the device continue and defers record writes. -/
  | pfwRelease
  /-- PERST_ASSERT, R456: After step 5 an assertion of PCIE_PERST_N resets only the PCI Express function and its link. -/
  | perstAssert
  /-- PCIE_HOT_RESET, R374: A hot or link-down reset clears configuration space only, keeping rings, indices and the lock. -/
  | pcieHotReset
  /-- PCIE_CONFIG_WRITE, R374: A configuration write changes Bus Master Enable, MSI-X masks or power state, which stops or resumes device DMA and may release masked messages. -/
  | pcieConfigWrite (bme d3hot msixEn fmask : Bool) (devCtl : BitVec 16)
  /-- TICK, R37: At sub-tick 0 of every tick the Hearth delivers the TICK event to subscribing units. -/
  | tick (cyclesA cyclesB : Nat) (fault0 fault1 service : Bool) (ctrlCe : List Nat)
  /-- FRAME_BOUNDARY, R37: At a tick divisible by a frame length the Hearth delivers FRAME_L, which sets due on scheduled Hoppers and starts channel frame windows. -/
  | frameBoundary (len : Nat)
  /-- WINDOW_CLOSE, R38: At a tick of L/4 mod L the Hearth delivers CLOSE_L, forcing scheduled swaps and making unfinished channel frames late. -/
  | windowClose (len : Nat)
  /-- REF_RECOVER, R43: A lost reference becomes valid again after 8,000 consecutive good ticks, and the Hearth reverts if REVERTIVE is 1. -/
  | refRecover (b : Bool)
  /-- PPS_IN_EDGE, R41: A PPS_IN edge is captured as the start of a second, or rejected when more than 100 µs from expectation in LOCKED. -/
  | ppsInEdge (dev : Int)
  /-- PTP_EVENT_RX, R325: A received PTP event message is timestamped and delivered to control firmware. -/
  | ptpEventRx (port typ age : Nat)
  /-- ESMC_RX, R42: A received ESMC message updates the port's quality level and may change the frequency source. -/
  | esmcRx (port : Nat) (dnu : Bool)
  /-- SERVO_UPDATE, R45: A PTP servo update computes the offset, disciplines the media clock and moves the Hearth between states under Table 2.7. -/
  | servoUpdate (slave0 slave1 : Bool) (data0 data1 : Nat) (offset utc : Int)
  /-- SOURCE_LOSS_TIMEOUT, R45: SOURCE_LOSS consecutive ticks without a time source move the Hearth to HOLDOVER. -/
  | sourceLossTimeout
  /-- HOLDOVER_LIMIT, R45: HOLD_LIMIT × 480,000 ticks in HOLDOVER move the Hearth to FREE_RUN. -/
  | holdoverLimit
  /-- TIME_STEP, R48: At the first tick divisible by 160 a pending step changes the tick count and delivers the new tick's boundary events. -/
  | timeStep
  /-- ALARM_FIRE, R52: An armed slot reaching its target sub-tick issues its action, at most eight per sub-tick, and re-arms or disarms. -/
  | alarmFire (sub : Nat)
  /-- HEARTH_STATUS, R58: Returns the current stamp, state, sources, offset estimate and UTC offset. -/
  | hearthStatus (o : Origin)
  /-- SET_TIME_OF_DAY, R49: Sets time of day as a step of whole multiples of 160 ticks plus a slewed residue. -/
  | setTimeOfDay (o : Origin) (stamp : Nat)
  /-- SOURCE_ENABLE, R58: Enables or disables time and frequency sources from the next tick boundary. -/
  | sourceEnable (o : Origin) (enables : BitVec 6)
  /-- FORCE_HOLDOVER, R45: Forces or releases holdover of the Hearth. -/
  | forceHoldover (o : Origin) (hold : Bool)
  /-- ALARM_ARM, R55: Arms a host-owned alarm slot with target, period, anchor and action. -/
  | alarmArm (o : Origin) (slot : Nat) (absolute replace : Bool) (target period typ targets : Nat)
  /-- ALARM_DISARM, R56: Disarms a host-owned alarm slot and reports whether it fired. -/
  | alarmDisarm (o : Origin) (slot : Nat)
  /-- ALARM_READ, R58: Returns the armed bit and fields of a host-owned alarm slot. -/
  | alarmRead (o : Origin) (slot : Nat)
  /-- STEP_POLICY, R47: Sets STEP_THRESH, SLEW_MAX and STEP_IN_SERVICE. -/
  | stepPolicy (o : Origin) (thresh slew : Nat) (svc : Bool)
  /-- DOWNSTREAM_FRAME_TX, R66: The device starts sending downstream frame n at Hearth(n) − 128 UI − f, moving f by at most one step per tick. -/
  | downstreamFrameTx (q : Nat)
  /-- LATCH_POINT, R77: At sub-tick 1,152 the line state and command bytes of downstream frame n are fixed from software, alarm and reflex changes in order. -/
  | latchPoint
  /-- LANE_CMD_PACKET, R81: A packet from a lane's command Hopper is consumed as the equivalent line command and its outcome posted as a status packet. -/
  | laneCmdPacket (q : Nat) (c : LaneCmd)
  /-- UPSTREAM_FRAME, R65: A received upstream frame is checked for code errors, CRC and number, and its samples, line state, telemetry and mailbox chunk are taken. -/
  | upstreamFrame (q comma : Nat) (codes : List Nat) (spaced : Bool) (rt : Nat)
  /-- TELEMETRY_PACKET, R80: Every 2^TELEM_LOG2 ticks the lane commits the active lines' telemetry to its status Hopper. -/
  | telemetryPacket (q : Nat)
  /-- TURNAROUND_MISS, R89: A tick without a valid upstream frame in its window is a miss, and eight consecutive misses move the lane to FRAME_LOCK and withdraw ringing. -/
  | turnaroundMiss (q : Nat)
  /-- LOS_ASSERT, R92: Loss of signal puts the lane in DARK, disconnects and deactivates its lines and aborts their commands. -/
  | losAssert (q : Nat)
  /-- LOS_RELEASE, R86: LOS released for 8 consecutive ticks on an enabled lane without holdoff moves it from DARK to BIT_LOCK. -/
  | losRelease (q : Nat)
  /-- TRAIN_TIMEOUT, R87: A training state's timeout expires and the lane fails with its reason, possibly into holdoff. -/
  | trainTimeout (q : Nat)
  /-- HOLDOFF_END, R87: RETRY_HOLDOFF ticks in DARK end and the failure count restarts. -/
  | holdoffEnd (q : Nat)
  /-- TRAINING_WAVE_START, R87: A wave of eight lanes begins training when the previous wave is done or 480 ticks have passed. -/
  | trainingWaveStart
  /-- RELOCK_TIMEOUT, R88: A lane in FRAME_LOCK from LIVE that does not regain lock within 32 ticks leaves the re-entry path. -/
  | relockTimeout (q : Nat)
  /-- LINE_CMD_TIMEOUT, R76: A line command unacknowledged after 16 transmissions ends with ST_DROPPED. -/
  | lineCmdTimeout (n : Nat)
  /-- STATE_ACK_TIMEOUT, R96: LINE_SET_STATE without SEQ_ACK after 16 ticks completes with ST_DROPPED. -/
  | stateAckTimeout (n : Nat)
  /-- MAILBOX_TIMEOUT, R83: A mailbox request unanswered within its time ends and is counted. -/
  | mailboxTimeout (q : Nat)
  /-- LANE_DISABLE_END, R94: After 16 ticks of DISCONNECT the disabled lane's remaining work aborts and it rests in DARK. -/
  | laneDisableEnd (q : Nat)
  /-- LOOPBACK_END, R95: At the end of a loopback the errors are reported and training restarts from DARK. -/
  | loopbackEnd (q : Nat)
  /-- RETRAIN_BEGIN, R96: A LANE_RETRAIN with PARTNER_RESET begins when the chunk is acknowledged or 40 ticks pass. -/
  | retrainBegin (q : Nat)
  /-- LANE_ENABLE, R94: Enables or disables lanes by mask. -/
  | laneEnable (o : Origin) (mask : Nat) (enable : Bool)
  /-- LANE_STATUS, R96: Returns a lane's state, timing values and capability block. -/
  | laneStatus (o : Origin) (lane : Nat)
  /-- LANE_RETRAIN, R96: Retrains a lane fully or from DELAY_MEASURE, optionally resetting the partner. -/
  | laneRetrain (o : Origin) (lane : Nat) (full reset : Bool)
  /-- LANE_LOOPBACK, R95: Loops a lane's downstream frames back internally for a number of ticks. -/
  | laneLoopback (o : Origin) (lane ticks : Nat)
  /-- LINE_ACTIVATE, R96: Activates or deactivates a line on its lane. -/
  | lineActivate (o : Origin) (line : Nat) (active : Bool)
  /-- LINE_SET_STATE, R96: Sets a line's downstream line state and completes on SEQ_ACK. -/
  | lineSetState (o : Origin) (line mask feed ring feedP : Nat)
  /-- LINE_COMMAND, R75: Queues a command record for a line. -/
  | lineCommand (o : Origin) (line opc : Nat) (args : List Nat)
  /-- LINE_ACTION_WRITE, R96: Writes a line action entry, effective at the next latch point. -/
  | lineActionWrite (o : Origin) (line entry : Nat) (a : LAction)
  /-- REFLEX_WRITE, R96: Writes a reflex entry of a line. -/
  | reflexWrite (o : Origin) (line reflex : Nat) (x : Reflex)
  /-- MAILBOX_SEND, R84: Queues a host mailbox request to a lane partner and completes on its response. -/
  | mailboxSend (o : Origin) (lane typ : Nat) (payload : List Nat)
  /-- LANE_EXPECT, R93: Sets the capability expectations applied at the next CAPABILITY state. -/
  | laneExpect (o : Origin) (lane cls minVer lines feats : Nat)
  /-- LINE_READ, R96: Returns a line's states, telemetry and action and reflex tables. -/
  | lineRead (o : Origin) (line : Nat)
  /-- STREAM_SLOT, R98: In its slot of each tick the filter engine processes one stream's samples and makes its results available. -/
  | streamSlot (n : Nat)
  /-- FILTER_BOUNDARY_APPLY, R115: At a tick boundary accepted starts, stops, swaps and ramps take effect in order. -/
  | filterBoundaryApply
  /-- FCE_CMD_PACKET, R122: A filter command packet from FCE_CMD_HOP is executed and its completion committed to STATUS_HOP. -/
  | fceCmdPacket (c : FceCmd)
  /-- FILTER_STREAM_CONFIG, R106: Configures a stopped stream's tap, channel rate and Hoppers. -/
  | filterStreamConfig (o : Origin) (stream tap rate hop ticks prio alt : Nat)
  /-- FILTER_COEF_WRITE, R114: Writes words of a coefficient bank of a stopped stream. -/
  | filterCoefWrite (o : Origin) (stream : Nat) (bankB : Bool) (first : Nat) (ws : List Word)
  /-- FILTER_COEF_READ, R122: Returns words of a coefficient bank. -/
  | filterCoefRead (o : Origin) (stream : Nat) (bankB : Bool) (first n : Nat)
  /-- FILTER_BANK_SELECT, R114: Selects the active bank of a stopped stream. -/
  | filterBankSelect (o : Origin) (stream : Nat) (bankB : Bool)
  /-- FILTER_START, R115: Starts a stopped stream at the next tick boundary. -/
  | filterStart (o : Origin) (stream : Nat) (flush : Bool)
  /-- FILTER_STOP, R116: Stops a stream at the next boundary, or after its ramp. -/
  | filterStop (o : Origin) (stream : Nat)
  /-- FILTER_STOP_SWAP_START, R117: Stops a stream for one tick, swaps its bank and runs it again. -/
  | filterStopSwapStart (o : Origin) (stream : Nat) (named bankB : Bool)
  /-- FILTER_RAMP, R113: Ramps a transmit stream's gains to targets over 1 to 256 ticks. -/
  | filterRamp (o : Origin) (stream gm ga ticks : Nat)
  /-- FILTER_DETECTOR_SET, R120: Sets a stream detector's settings. -/
  | filterDetectorSet (o : Origin) (stream det : Nat) (x : Det)
  /-- FILTER_ACTION_WRITE, R121: Writes a pre-armed filter action entry. -/
  | filterActionWrite (o : Origin) (stream entry : Nat) (a : FAction)
  /-- FILTER_PROTO_WRITE, R122: Writes rows of a resampler prototype set. -/
  | filterProtoWrite (o : Origin) (set t first rows : Nat) (cs : List (BitVec 24))
  /-- FILTER_STATUS, R122: Returns a stream's state, gains, detectors and saturation bits. -/
  | filterStatus (o : Origin) (stream : Nat)
  /-- SENSOR_CONVERT, R124: Each temperature sensor converts once every 8 ticks. -/
  | sensorConvert (vals : List Int)
  /-- SENSOR_UPDATE, R126: At each tick divisible by 64 the sensor means update and items beyond DELTA_T are queued for calibration. -/
  | sensorUpdate
  /-- LANE_SCAN_START, R128: A queued lane's four-tick eye scan starts at a tick divisible by 8 when no other scan is in progress. -/
  | laneScanStart (q : Nat)
  /-- LANE_SCAN_END, R129: At b + 4 the scan's result is chosen and application begins. -/
  | laneScanEnd (q : Nat) (errs errsT : List Nat)
  /-- LANE_CAL_APPLY_STEP, R131: At each tick boundary DELAY and THRESH move one code towards the new result. -/
  | laneCalApplyStep (q : Nat)
  /-- RANK_RECAL_MEASURE, R135: A DRAM recalibration measurement writes and reads back the rank's calibration block, at most once per sub-tick. -/
  | rankRecalMeasure (r : Nat) (bad : BitVec 4)
  /-- RANK_RECAL_APPLY_STEP, R136: New DRAM delays are applied one code per tick at a transaction boundary. -/
  | rankRecalApplyStep (r : Nat)
  /-- RECORD_INTERVAL, R140: At each RECORD_INTERVAL a changed calibration state starts a record write. -/
  | recordInterval
  /-- CAL_RECORD_WRITE_DONE, R140: A calibration record write completes with COMMIT written last. -/
  | calRecordWriteDone
  /-- CAL_STATUS, R144: Returns an item's settings, temperatures, pin and state. -/
  | calStatus (o : Origin) (kind n ch : Nat)
  /-- CAL_RUN, R137: Queues an item for calibration and completes when applied. -/
  | calRun (o : Origin) (kind n ch : Nat)
  /-- CAL_PIN, R138: Pins or unpins an item. -/
  | calPin (o : Origin) (kind n ch pin : Nat)
  /-- CAL_SET, R139: Pins a lane and moves it to given DELAY and THRESH. -/
  | calSet (o : Origin) (kind n delay thresh : Nat)
  /-- CAL_SAVE, R140: Writes a calibration record now. -/
  | calSave (o : Origin)
  /-- CAL_RECORD_READ, R144: Returns SEQ, STAMP and validity of a record slot. -/
  | calRecordRead (o : Origin) (slot : Nat)
  /-- DATA_MEMORY_CLEAR_DONE, R153: Hardware clearing of a tile's data memory completes, after which the tile may be dispatched. -/
  | dataMemoryClearDone (p : Nat)
  /-- DMA_DESC_START, R171: A posted DMA descriptor reaches the head of its channel, is read once and validated. -/
  | dmaDescStart (t : Nat) (c : ChanRead)
  /-- DMA_DESC_COMPLETE, R172: A DMA descriptor completes: data made visible, RESULT written, and the flag set if NOTIFY. -/
  | dmaDescComplete (t c moved : Nat) (poison : Option Nat) (ces ues : List Nat)
  /-- TILE_STATUS, R176: Returns a logical tile's physical tile, state, error counts and DMA queue depths. -/
  | tileStatus (o : Origin) (t : Nat)
  /-- TILE_MAP_READ, R176: Returns the 34 entries of the tile map. -/
  | tileMapRead (o : Origin)
  /-- TILE_ROW_STATUS, R176: Returns a physical tile's row history and spare-row assignments. -/
  | tileRowStatus (o : Origin) (p memory : Nat)
  /-- MNOP, R180: MAC slot no-operation. -/
  | mnop (sl : Slot) (f : BitVec 17)
  /-- MAC1, R161: One 16 × 16 multiply into an accumulator. -/
  | mac1 (sl : Slot) (f : BitVec 17)
  /-- QCOEF, R161: A scalar sample times four coefficients into A0 to A3. -/
  | qcoef (sl : Slot) (f : BitVec 17)
  /-- QSAMP, R161: Four samples times a scalar coefficient into A0 to A3. -/
  | qsamp (sl : Slot) (f : BitVec 17)
  /-- DOT4, R161: A four-term dot product into one accumulator. -/
  | dot4 (sl : Slot) (f : BitVec 17)
  /-- CMPLX, R161: A complex multiply into an accumulator pair. -/
  | cmplx (sl : Slot) (f : BitVec 17)
  /-- CMPLXC, R161: A conjugate complex multiply into an accumulator pair. -/
  | cmplxc (sl : Slot) (f : BitVec 17)
  /-- WIDESS, R161: Two signed 32 × 16 products into an accumulator pair. -/
  | widess (sl : Slot) (f : BitVec 17)
  /-- WIDEUS, R161: Two unsigned-by-signed 32 × 16 products into an accumulator pair. -/
  | wideus (sl : Slot) (f : BitVec 17)
  /-- WIDESU, R161: Two signed-by-unsigned 32 × 16 products into an accumulator pair. -/
  | widesu (sl : Slot) (f : BitVec 17)
  /-- ACCADD, R162: Adds, subtracts or moves one accumulator into another. -/
  | accadd (sl : Slot) (f : BitVec 17)
  /-- ACCNEG, R162: Negates an accumulator. -/
  | accneg (sl : Slot) (f : BitVec 17)
  /-- ACCSHI, R164: Shifts an accumulator by an immediate. -/
  | accshi (sl : Slot) (f : BitVec 17)
  /-- ACCSHX, R164: Shifts an accumulator by a register amount. -/
  | accshx (sl : Slot) (f : BitVec 17)
  /-- ACCLD, R163: Loads a 32-bit value sign-extended into an accumulator. -/
  | accld (sl : Slot) (f : BitVec 17)
  /-- ACCLDH, R163: Loads a 16-bit value into Ak.H with Ak.L zeroed. -/
  | accldh (sl : Slot) (f : BitVec 17)
  /-- EXT16, R163: Rounded, saturated 16-bit extraction from an accumulator. -/
  | ext16 (sl : Slot) (f : BitVec 17)
  /-- EXT32, R163: Saturated 32-bit extraction from an accumulator. -/
  | ext32 (sl : Slot) (f : BitVec 17)
  /-- EXTG, R163: Guard-bit extraction, sign-extended. -/
  | extg (sl : Slot) (f : BitVec 17)
  /-- EXPA, R165: Exponent of an accumulator. -/
  | expa (sl : Slot) (f : BitVec 17)
  /-- EXPH, R165: Exponent of a 16-bit half. -/
  | exph (sl : Slot) (f : BitVec 17)
  /-- NORM, R165: Normalises an accumulator and writes the shift. -/
  | norm (sl : Slot) (f : BitVec 17)
  /-- EXPMAXA, R166: Keeps the minimum exponent over accumulators. -/
  | expmaxa (sl : Slot) (f : BitVec 17)
  /-- EXPMAXH, R166: Keeps the minimum exponent over halves. -/
  | expmaxh (sl : Slot) (f : BitVec 17)
  /-- ACCZ, R180: Clears an accumulator. -/
  | accz (sl : Slot) (f : BitVec 17)
  /-- DNOP, R180: Memory slot no-operation. -/
  | dnop (sl : Slot) (f : BitVec 16)
  /-- LDH_L, R182: Loads 16 bits into the low half of a register. -/
  | ldhL (sl : Slot) (f : BitVec 16) (ecc : Nat)
  /-- LDH_H, R182: Loads 16 bits into the high half of a register. -/
  | ldhH (sl : Slot) (f : BitVec 16) (ecc : Nat)
  /-- LDHS, R182: Loads 16 bits sign-extended. -/
  | ldhs (sl : Slot) (f : BitVec 16) (ecc : Nat)
  /-- LDW, R182: Loads 32 bits into a register. -/
  | ldw (sl : Slot) (f : BitVec 16) (ecc : Nat)
  /-- LDD, R182: Loads 64 bits into a register pair. -/
  | ldd (sl : Slot) (f : BitVec 16) (ecc : Nat)
  /-- STH_L, R154: Stores the low half of a register. -/
  | sthL (sl : Slot) (f : BitVec 16) (mark : Bool)
  /-- STH_H, R154: Stores the high half of a register. -/
  | sthH (sl : Slot) (f : BitVec 16) (mark : Bool)
  /-- STW, R182: Stores 32 bits. -/
  | stw (sl : Slot) (f : BitVec 16)
  /-- STD, R182: Stores a register pair. -/
  | std (sl : Slot) (f : BitVec 16)
  /-- LDA, R182: Loads an accumulator from a 64-bit word. -/
  | lda (sl : Slot) (f : BitVec 16) (ecc : Nat)
  /-- STA, R182: Stores an accumulator sign-extended to 64 bits. -/
  | sta (sl : Slot) (f : BitVec 16)
  /-- LEA, R182: Computes an address and updates the pointer without an access. -/
  | lea (sl : Slot) (f : BitVec 16)
  /-- NOP, R180: Control slot no-operation. -/
  | nop (sl : Slot) (f : BitVec 14)
  /-- ADD, R183: Adds two X registers and sets flags. -/
  | add (sl : Slot) (f : BitVec 14)
  /-- SUB, R183: Subtracts two X registers and sets flags. -/
  | sub (sl : Slot) (f : BitVec 14)
  /-- AND, R183: Bitwise and of two X registers. -/
  | and (sl : Slot) (f : BitVec 14)
  /-- OR, R183: Bitwise or of two X registers. -/
  | or (sl : Slot) (f : BitVec 14)
  /-- XOR, R183: Bitwise exclusive or of two X registers. -/
  | xor (sl : Slot) (f : BitVec 14)
  /-- SHL, R183: Left shift by a register amount. -/
  | shl (sl : Slot) (f : BitVec 14)
  /-- SHR, R183: Arithmetic right shift by a register amount. -/
  | shr (sl : Slot) (f : BitVec 14)
  /-- SHRU, R183: Logical right shift by a register amount. -/
  | shru (sl : Slot) (f : BitVec 14)
  /-- CMP, R183: Sets flags from a register subtraction. -/
  | cmp (sl : Slot) (f : BitVec 14)
  /-- ADDI, R183: Adds an immediate to a register. -/
  | addi (sl : Slot) (f : BitVec 14)
  /-- MOVI, R183: Moves a sign-extended immediate into a register. -/
  | movi (sl : Slot) (f : BitVec 14)
  /-- CMPI, R183: Sets flags from a register less an immediate. -/
  | cmpi (sl : Slot) (f : BitVec 14)
  /-- SHLI, R183: Left shift by an immediate. -/
  | shli (sl : Slot) (f : BitVec 14)
  /-- SHRI, R183: Arithmetic right shift by an immediate. -/
  | shri (sl : Slot) (f : BitVec 14)
  /-- SHRUI, R183: Logical right shift by an immediate. -/
  | shrui (sl : Slot) (f : BitVec 14)
  /-- MOVR, R184: Moves between registers of any class. -/
  | movr (sl : Slot) (f : BitVec 14)
  /-- PADD, R182: Adds an X register to a pointer linearly. -/
  | padd (sl : Slot) (f : BitVec 14)
  /-- MOVC, R200: Moves to or from a control register. -/
  | movc (sl : Slot) (f : BitVec 14)
  /-- BCC, R191: Conditional relative branch with two delay slots. -/
  | bcc (sl : Slot) (f : BitVec 14)
  /-- BRX, R191: Conditional branch to a register address. -/
  | brx (sl : Slot) (f : BitVec 14)
  /-- REP, R192: Sets up a hardware repeat with a register count. -/
  | rep (sl : Slot) (f : BitVec 14)
  /-- ENDREP, R193: Ends a repeat level. -/
  | endrep (sl : Slot) (f : BitVec 14)
  /-- RESUME, R204: Leaves kernel state and resumes the selected thread at SPC. -/
  | resume (sl : Slot) (f : BitVec 14)
  /-- IDLE, R204: Ends issue and gates the tile clock until a thread is selected. -/
  | idle (sl : Slot) (f : BitVec 14)
  /-- SIGNAL, R195: Sets a flag of a thread named by a register. -/
  | signal (sl : Slot) (f : BitVec 14)
  /-- WAIT, R195: Ends the thread's turn as Waiting on a mask. -/
  | wait (sl : Slot) (f : BitVec 14)
  /-- YIELD, R195: Ends the thread's turn as Ready. -/
  | yield (sl : Slot) (f : BitVec 14)
  /-- TEXIT, R195: Ends the thread as Dormant. -/
  | texit (sl : Slot) (f : BitVec 14)
  /-- FLAGTAKE, R196: Reads and clears the running thread's named flags. -/
  | flagtake (sl : Slot) (f : BitVec 14)
  /-- TIME, R197: Reads the current Hearth Stamp. -/
  | time (sl : Slot) (f : BitVec 14)
  /-- ALMARM, R197: Arms a tile-owned alarm slot from a block in data memory. -/
  | almarm (sl : Slot) (f : BitVec 14)
  /-- ALMDIS, R197: Disarms a tile-owned alarm slot. -/
  | almdis (sl : Slot) (f : BitVec 14)
  /-- HPUT, R234: Appends a word to the tile's open put-buffer packet. -/
  | hput (sl : Slot) (f : BitVec 14)
  /-- HCOMMIT, R234: Hands the open packet over for delivery at a priority. -/
  | hcommit (sl : Slot) (f : BitVec 14)
  /-- HABORT, R234: Voids the open packet and ends any voided state. -/
  | habort (sl : Slot) (f : BitVec 14)
  /-- HGET, R236: Reads the next word in reading order or the idle item. -/
  | hget (sl : Slot) (f : BitVec 14) (ecc : Nat)
  /-- HNEXT, R236: Moves the read position past the current packet. -/
  | hnext (sl : Slot) (f : BitVec 14)
  /-- HMARK, R236: Marks the read position. -/
  | hmark (sl : Slot) (f : BitVec 14)
  /-- HREWIND, R236: Returns the read position to the mark, or reports it lost. -/
  | hrewind (sl : Slot) (f : BitVec 14)
  /-- HRELEASE, R236: Releases packets wholly behind the read position. -/
  | hrelease (sl : Slot) (f : BitVec 14)
  /-- DMAPOST, R199: Posts a DMA descriptor to a channel. -/
  | dmapost (sl : Slot) (f : BitVec 14)
  /-- DMAABORT, R175: Aborts a DMA channel's descriptors. -/
  | dmaabort (sl : Slot) (f : BitVec 14)
  /-- DMAQ, R199: Reports a DMA channel's queue depth. -/
  | dmaq (sl : Slot) (f : BitVec 14)
  /-- LMOVI, R185: Moves a 32-bit immediate into an X register. -/
  | lmovi (sl : Slot) (f : BitVec 36)
  /-- LMOVA, R185: Moves a 32-bit immediate into a pointer or base. -/
  | lmova (sl : Slot) (f : BitVec 36)
  /-- LMOVN, R185: Moves a 32-bit immediate into a length or modifier. -/
  | lmovn (sl : Slot) (f : BitVec 36)
  /-- LBCC, R191: Conditional branch to an absolute target. -/
  | lbcc (sl : Slot) (f : BitVec 36)
  /-- LCALL, R191: Conditional call that saves the return address in X15. -/
  | lcall (sl : Slot) (f : BitVec 36)
  /-- REPI, R192: Sets up a hardware repeat with an immediate count. -/
  | repi (sl : Slot) (f : BitVec 36)
  /-- SIGNALI, R195: Sets a flag of an immediately named thread. -/
  | signali (sl : Slot) (f : BitVec 36)
  /-- ENTRY, R201: A tile takes a pending pre-emption, cancel, dispatch or idle entry, saves PC and SR and fetches its vector. -/
  | entry (t : Nat)
  /-- FLAG_SET, R208: A flag source sets a thread flag and the Barista wakes waiting threads, selects for idle tiles and issues pre-emption requests. -/
  | flagSet (sets : List (Nat × Nat × Nat))
  /-- SCH_CMD_PACKET, R229: A Barista command packet from CMD_HOP is applied and its completion committed. -/
  | schCmdPacket (c : SchCmd) (short : Bool)
  /-- GROUP_CONFIG, R228: Sets a group's weight, ceiling and affinity. -/
  | groupConfig (o : Origin) (g weight ceiling : Nat) (aff : BitVec 34)
  /-- GROUP_STATUS, R228: Returns a group's settings and ready threads. -/
  | groupStatus (o : Origin) (g : Nat)
  /-- THREAD_CONFIG, R228: Sets a dormant thread's group, level, pre-emptibility and context pointer. -/
  | threadConfig (o : Origin) (th g level : Nat) (preempt : Bool) (ctx : Word)
  /-- THREAD_START, R211: Starts a dormant or cancelled thread as Ready or Waiting. -/
  | threadStart (o : Origin) (th : Nat) (waiting : Bool) (mask : Word) (all clear : Bool)
  /-- THREAD_SIGNAL, R228: Sets flags of a thread. -/
  | threadSignal (o : Origin) (th : Nat) (flags : Word)
  /-- THREAD_CANCEL, R221: Cancels a thread, sending a cancel request if it is Running. -/
  | threadCancel (o : Origin) (th : Nat) (sets : List (Nat × Nat × Nat))
  /-- THREAD_READ, R228: Returns every field of a thread entry. -/
  | threadRead (o : Origin) (th : Nat)
  /-- SCHED_TILE_STATUS, R228: Returns a tile's running and bound threads and selection state. -/
  | schedTileStatus (o : Origin) (t : Nat)
  /-- BURST_START, R236: A producer's burst begins in its turn, overflowing and swapping the Hopper if the packet does not fit. -/
  | burstStart (h : Nat) (p : Prod) (prio : Nat) (words : List Word)
  /-- BURST_END, R236: A burst ends with commit or abort, raising a notice and making any deferred swap. -/
  | burstEnd (h : Nat) (ok auth authNext : Bool)
  /-- HOPPER_DESTROY_END, R247: At the end of GRACE the destroyed Hopper's remainder is discarded and it stops being set up. -/
  | hopperDestroyEnd (h : Nat)
  /-- HOPPER_CREATE, R249: Sets up a Hopper with region and mode. -/
  | hopperCreate (o : Origin) (h base lg : Nat) (m : HopMode)
  /-- HOPPER_DESTROY, R247: Stops admission to a Hopper and destroys it after a grace period. -/
  | hopperDestroy (o : Origin) (h grace : Nat)
  /-- HOPPER_FLUSH, R246: Discards every unreleased packet and voids open packets. -/
  | hopperFlush (o : Origin) (h : Nat)
  /-- HOPPER_SWAP, R240: Forces a bank swap. -/
  | hopperSwap (o : Origin) (h : Nat)
  /-- HOPPER_MODE, R249: Changes a Hopper's swap mode and notice settings. -/
  | hopperMode (o : Origin) (h : Nat) (m : HopMode)
  /-- HOPPER_STATUS, R249: Returns a Hopper's region, mode, pointers and counters. -/
  | hopperStatus (o : Origin) (h : Nat)
  /-- LINE_FRAME_PROCESS, R258: A line channel thread processes a frame's receive block, runs the canceller and detectors and reports line events. -/
  | lineFrameProcess (n : Nat) (work : Option LineWork)
  /-- ON_HOOK_TIMEOUT, R262: An on-hook interval reaching FLASH_MAX is reported as LINE_ON_HOOK. -/
  | onHookTimeout (n : Nat)
  /-- LINE_CHANNEL_DESTROY_END, R271: At the first frame boundary 16 ticks after acceptance the line channel's work has ended and the destroy completes. -/
  | lineChannelDestroyEnd (n : Nat)
  /-- LINE_CHANNEL_CREATE, R251: Creates a line channel for a line. -/
  | lineChannelCreate (o : Origin) (line : Nat) (set : LineSet)
  /-- LINE_CHANNEL_DESTROY, R271: Stops admission to a line channel and destroys it. -/
  | lineChannelDestroy (o : Origin) (line : Nat)
  /-- LINE_CHANNEL_MODIFY, R274: Changes line channel settings at the next frame boundary. -/
  | lineChannelModify (o : Origin) (line : Nat) (m : LineMod)
  /-- LINE_CHANNEL_STATUS, R274: Returns a line channel's settings and state. -/
  | lineChannelStatus (o : Origin) (line : Nat)
  /-- LINE_RING, R264: Rings a line with a cadence, optionally with caller display. -/
  | lineRing (o : Origin) (line cadence profile cycles : Nat) (cid : Bool)
  /-- LINE_RING_STOP, R264: Stops ringing at the next latch point. -/
  | lineRingStop (o : Origin) (line : Nat)
  /-- LINE_CADENCE_SET, R264: Sets a device-wide ringing cadence. -/
  | lineCadenceSet (o : Origin) (cadence : Nat) (pairs : List (Nat × Nat))
  /-- LINE_FEED, R266: Sets a line's idle or talk feed. -/
  | lineFeed (o : Origin) (line mode : Nat)
  /-- LINE_POLARITY, R266: Sets a line's polarity. -/
  | linePolarity (o : Origin) (line rev : Nat)
  /-- LINE_METER, R266: Sends a metering burst. -/
  | lineMeter (o : Origin) (line count on off freq level : Nat)
  /-- LINE_CID_SEND, R267: Sends or arms a caller display message. -/
  | lineCidSend (o : Origin) (line : Nat) (m : CidMsg)
  /-- LINE_TONE_PLAY, R269: Plays a tone on ALT with a cadence. -/
  | lineTonePlay (o : Origin) (line : Nat) (tones : List (Nat × Int)) (cad : List (Nat × Nat)) (count : Nat) (mix : Bool)
      (ramp : Option Nat)
  /-- LINE_TONE_STOP, R269: Fades a tone out. -/
  | lineToneStop (o : Origin) (line : Nat)
  /-- LINE_HYB_CHAR, R259: Requests hybrid characterisation. -/
  | lineHybChar (o : Origin) (line : Nat)
  /-- LINE_CPT_SET, R260: Sets a call progress definition. -/
  | lineCptSet (o : Origin) (defn : Nat) (x : CptDef)
  /-- LINE_EQ_SET, R259: Installs equalisers by the one-tick stop. -/
  | lineEqSet (o : Origin) (line mask : Nat) (rx tx : List Word)
  /-- RTP_RECEIVE, R280: A packet channel takes a received packet, tests it and places it in its jitter buffer or drops it. -/
  | rtpReceive (hop : Nat) (judged : Option Judged) (udptl : Bool)
  /-- PKT_FRAME_PROCESS, R279: A packet channel forms its playout frame and sends one RTP packet for the frame. -/
  | pktFrameProcess (c : Nat) (w : PktWork)
  /-- RTCP_REPORT, R282: At the drawn report tick a packet channel sends a compound RTCP report. -/
  | rtcpReport (c : Nat) (voip : List Nat)
  /-- RTCP_RECEIVE, R283: A received compound RTCP packet is checked and reported. -/
  | rtcpReceive (hop : Nat)
  /-- MEDIA_TIMEOUT, R283: MEDIA_TIMEOUT ticks without accepted packets raise PKT_MEDIA_TIMEOUT. -/
  | mediaTimeout (c : Nat)
  /-- BRIDGE_MIX, R296: A bridge mixes frame b when all talkers are present or at its mix alarm and commits each listener's mix. -/
  | bridgeMix (n : Nat) (fades : List (List Int))
  /-- PKT_CHANNEL_DESTROY_END, R302: At the first frame boundary a frame after acceptance the packet channel's work has ended and the destroy completes. -/
  | pktChannelDestroyEnd (c : Nat)
  /-- BRIDGE_DESTROY_END, R303: At the next frame boundary the bridge's legs are removed and the destroy completes. -/
  | bridgeDestroyEnd (n : Nat)
  /-- PKT_CHANNEL_CREATE, R275: Creates a packet channel. -/
  | pktChannelCreate (o : Origin) (chan : Nat) (set : PktSet)
  /-- PKT_CHANNEL_DESTROY, R302: Stops admission to a packet channel and destroys it. -/
  | pktChannelDestroy (o : Origin) (chan : Nat)
  /-- PKT_CHANNEL_MODIFY, R305: Changes packet channel settings at the next frame boundary. -/
  | pktChannelModify (o : Origin) (chan : Nat) (set : PktSet)
  /-- PKT_CHANNEL_STATUS, R305: Returns a packet channel's settings and statistics. -/
  | pktChannelStatus (o : Origin) (chan : Nat)
  /-- PKT_MODE_SET, R293: Switches a channel to voice, voiceband data or T.38. -/
  | pktModeSet (o : Origin) (chan mode : Nat)
  /-- PKT_EVENT_SEND, R291: Sends a host-given RFC 4733 event. -/
  | pktEventSend (o : Origin) (chan ev vol ticks : Nat)
  /-- BRIDGE_CREATE, R295: Creates a conference or paging bridge. -/
  | bridgeCreate (o : Origin) (bridge : Nat) (set : BridgeSet)
  /-- BRIDGE_DESTROY, R303: Destroys a bridge at the next frame boundary. -/
  | bridgeDestroy (o : Origin) (bridge : Nat)
  /-- BRIDGE_LEG_ADD, R295: Attaches a channel as a leg of a bridge. -/
  | bridgeLegAdd (o : Origin) (bridge : Nat) (l : Leg)
  /-- BRIDGE_LEG_REMOVE, R303: Removes a leg at the next frame boundary. -/
  | bridgeLegRemove (o : Origin) (bridge : Nat) (pkt : Bool) (chan : Nat)
  /-- BRIDGE_LEG_MODIFY, R305: Changes a leg's role and gain. -/
  | bridgeLegModify (o : Origin) (bridge : Nat) (pkt : Bool) (chan role : Nat) (gain : Int)
  /-- BRIDGE_STATUS, R305: Returns a bridge's settings and legs. -/
  | bridgeStatus (o : Origin) (bridge : Nat)
  /-- FRAME_RECEIVE, R319: A received frame is address-filtered, parsed, classified and sent to its Hopper, a host ring or dropped. -/
  | frameReceive (port : Nat) (bs : List Nat) (pcsErr fcsErr : Bool) (age : Nat)
  /-- PAUSE_FRAME_RX, R317: An accepted PAUSE frame pauses all queues of the port for its quanta. -/
  | pauseFrameRx (port quanta : Nat)
  /-- PFC_FRAME_RX, R317: An accepted PFC frame pauses the queues of each enabled class. -/
  | pfcFrameRx (port enables : Nat) (times : List Nat)
  /-- PAUSE_EXPIRY, R317: A queue's pause time runs out and it becomes eligible. -/
  | pauseExpiry (port queue : Nat)
  /-- TX_SELECT, R310: A port selects its highest eligible queue's packet and builds, protects, checksums and commits the frame. -/
  | txSelect (port : Nat)
  /-- LINK_DOWN, R307: A port goes down at a tick boundary after a tick with a link fault. -/
  | linkDown (port : Nat)
  /-- LINK_UP, R307: A port comes up after 8 consecutive good ticks. -/
  | linkUp (port : Nat)
  /-- PROTECT_SWITCH, R331: After HOLDOFF ticks of active-port loss with the standby up, the pair switches ports. -/
  | protectSwitch
  /-- PROTECT_REVERT, R331: With REVERT, the pair returns to E0 after WTR × 8,000 ticks of E0 up. -/
  | protectRevert
  /-- PORT_DISABLE_DONE, R332: A port disable completes when its receive buffer is empty. -/
  | portDisableDone (port : Nat)
  /-- FLOW_DELETE_DONE, R329: A flow deletion completes when every frame it classified has ended. -/
  | flowDeleteDone (h : Nat)
  /-- PORT_STATUS, R334: Returns a port's mode, link, pause and ceiling state. -/
  | portStatus (o : Origin) (port : Nat)
  /-- PORT_ENABLE, R332: Enables or disables a port. -/
  | portEnable (o : Origin) (port : Nat) (enable : Bool)
  /-- PORT_PROTECT_SWITCH, R331: Makes a named port of the pair active. -/
  | portProtectSwitch (o : Origin) (port : Nat)
  /-- QUEUE_CEILING_SET, R311: Sets a queue's rate ceiling and burst. -/
  | queueCeilingSet (o : Origin) (port queue rate burst : Nat)
  /-- DEST_WRITE, R312: Writes a destination entry. -/
  | destWrite (o : Origin) (h : Nat) (entry : List Nat)
  /-- DEST_CLEAR, R334: Clears a destination entry. -/
  | destClear (o : Origin) (h : Nat)
  /-- DEST_READ, R334: Returns a destination entry. -/
  | destRead (o : Origin) (h : Nat)
  /-- FLOW_ADD, R327: Inserts a flow entry, displacing entries if needed. -/
  | flowAdd (o : Origin) (entry : List Nat)
  /-- FLOW_DELETE, R329: Removes a flow entry from lookup. -/
  | flowDelete (o : Origin) (h : Nat)
  /-- FLOW_MODIFY, R328: Replaces a flow entry's action bytes in one write. -/
  | flowModify (o : Origin) (h : Nat) (tail : List Nat)
  /-- FLOW_READ, R334: Returns a flow entry and its hit count. -/
  | flowRead (o : Origin) (h : Nat)
  /-- FLOW_LOOKUP, R334: Looks up a key and returns its flow handle. -/
  | flowLookup (o : Origin) (key : List Nat)
  /-- FLOW_TABLE_STATUS, R334: Returns flow table occupancy. -/
  | flowTableStatus (o : Origin)
  /-- KILN_STATUS, R371: Returns Kiln state and occupancy. -/
  | kilnStatus (o : Origin)
  /-- IDENTITY_READ, R338: Returns the identity certificate chain if its digest matches. -/
  | identityRead (o : Origin) (addr len : Nat) (chain : List Nat) (match_ : Bool)
  /-- CHALLENGE, R340: Issues a 32-byte challenge from the DRBG. -/
  | challenge (o : Origin)
  /-- CHALLENGE_EXPIRY, R340: A challenge expires 2,400,000 ticks after issue. -/
  | challengeExpiry
  /-- OWNER_STATEMENT, R340: Checks and applies an owner statement, burning OTP steps. -/
  | ownerStatement (o : Origin) (addr len : Nat) (x : Statement) (bad1 bad2 : Nat) (pfw : Bool)
  /-- ATTEST, R360: Returns a signed attestation report. -/
  | attest (o : Origin) (nonce addr len : Nat)
  /-- CTX_ALLOC, R348: Allocates the lowest free SRTP context. -/
  | ctxAlloc (o : Origin)
  /-- CTX_FREE, R353: Stops admission to a context and zeroises its keys. -/
  | ctxFree (o : Origin) (h : Nat)
  /-- CTX_LINK, R352: Links a receive handle to a NEXT receive handle. -/
  | ctxLink (o : Origin) (h next : Nat)
  /-- CTX_RESET_RX, R353: Clears the receive direction's latch, windows, index and ROC. -/
  | ctxResetRx (o : Origin) (h : Nat)
  /-- CTX_STATUS, R371: Returns a context's state without key material. -/
  | ctxStatus (o : Origin) (h : Nat)
  /-- SEALED_IMPORT, R359: Verifies and loads one direction from a sealed import. -/
  | sealedImport (o : Origin) (addr len : Nat) (x : Sealed)
  /-- IMPORT_KEY_INFO, R371: Returns the endorsed import public keys. -/
  | importKeyInfo (o : Origin) (addr len : Nat)
  /-- CERT_INFO, R358: Returns the media certificate fingerprints. -/
  | certInfo (o : Origin)
  /-- CERT_RENEW, R358: Creates a new media certificate in the other slot. -/
  | certRenew (o : Origin)
  /-- DTLS_OPEN, R354: Opens a DTLS-SRTP session for a context. -/
  | dtlsOpen (o : Origin) (target role versions profiles fpAlg peerFp : Nat) (flight : List (List Nat))
  /-- DTLS_FEED, R355: Feeds a received datagram and collects output datagrams. -/
  | dtlsFeed (o : Origin) (h addr len outAddr outLen : Nat) (f : Feed)
  /-- DTLS_POLL, R355: Collects pending output datagrams. -/
  | dtlsPoll (o : Origin) (h outAddr outLen : Nat)
  /-- DTLS_CLOSE, R357: Sends close_notify and ends a session. -/
  | dtlsClose (o : Origin) (h outAddr outLen : Nat) (notify : List Nat)
  /-- DTLS_RETRANSMIT_DUE, R356: A flight's retransmission timer expires and DTLS_TX_DUE is raised, or the session fails after six. -/
  | dtlsRetransmitDue (j : Nat)
  /-- DTLS_SESSION_TIMEOUT, R356: A session incomplete 1,440,000 ticks after DTLS_OPEN fails with DETAIL 4. -/
  | dtlsSessionTimeout (n : Nat)
  /-- DTLS_LINGER_END, R357: A successful session ends 80,000 ticks after completion. -/
  | dtlsLingerEnd (n : Nat)
  /-- IMAGE_VERIFY, R346: Verifies a host-supplied image and stages it. -/
  | imageVerify (o : Origin) (addr len : Nat) (x : FlashImg)
  /-- ROLLBACK_ADVANCE, R345: Burns ULITHEN_SVN steps and optionally revokes root 0. -/
  | rollbackAdvance (o : Origin) (target : Nat) (revoke : Bool) (bads : List Nat) (badR : Nat)
  /-- DEBUG_UNLOCK, R368: Opens debug scopes under a verified statement for TICKS. -/
  | debugUnlock (o : Origin) (addr len : Nat) (x : Statement)
  /-- DEBUG_LOCK, R369: Locks debug access. -/
  | debugLock (o : Origin)
  /-- DEBUG_TICKS_EXPIRY, R369: A debug unlock's TICKS run out and debug access locks. -/
  | debugTicksExpiry
  /-- KILN_JOB_CONFIG, R371: Sets the Kiln's tile job Hopper and event ring. -/
  | kilnJobConfig (o : Origin) (hop : Nat) (en : Bool) (ring : Nat)
  /-- RANDOM, R362: Tile job returning random bytes from the DRBG. -/
  | random
  /-- EXPORT_OPEN, R362: Tile job writing an export envelope header and returning a handle. -/
  | exportOpen
  /-- EXPORT_WRITE, R362: Tile job encrypting one chunk of an export. -/
  | exportWrite
  /-- EXPORT_CLOSE, R362: Tile job writing the export trailer and freeing the handle. -/
  | exportClose
  /-- TAMPER_TRIP, R364: A tamper sensor trips and every context, session and export is zeroised or aborted within 1 µs. -/
  | tamperTrip (sensor bad : Nat)
  /-- ENTROPY_TEST_FAIL, R363: A continuous entropy test fails, the DRBG stops serving and a retest begins. -/
  | entropyTestFail
  /-- ENTROPY_RETEST_DONE, R363: The 1,024-sample retest ends, resuming service or raising an integrity alarm. -/
  | entropyRetestDone (ok : Bool)
  /-- BAR0_WRITE, R494: A BAR0 write before the lock changes only the register written. -/
  | bar0Write (a : Nat) (v : Word) (good : Bool)
  /-- SEALED_BAR0_ACCESS, R376: A BAR0 access after the lock reads zero or is ignored and is counted. -/
  | sealedBar0Access (write : Bool)
  /-- SYS_SETUP_LOCK, R375: A write of the lock key checks set-up, seals BAR0 and runs every unit's lock checks. -/
  | sysSetupLock (v : Word)
  /-- DOORBELL_FETCH, R380: Every P sub-ticks the device reads the doorbell page, accepts producer indices and writes the shadow page. -/
  | doorbellFetch (sub : Nat) (page : Option Page)
  /-- MSIX_MODERATION_EXPIRY, R395: MOD_TICKS tick boundaries after a ring's first pending item its vector is requested. -/
  | msixModerationExpiry (n : Nat)
  /-- COUNTER_SNAPSHOT, R403: Writes every matching counter as it stood at one sub-tick. -/
  | counterSnapshot (o : Origin) (zeros : Bool) (pre : List Nat)
  /-- RING_CREATE, R401: Creates a ring with indices 0. -/
  | ringCreate (o : Origin) (n addr typ sizeLog2 gen bind cplRing vector : Nat) (irqEn : Bool) (modTicks modCount : Nat)
  /-- RING_DESTROY, R401: Stops admission to a ring and destroys it. -/
  | ringDestroy (o : Origin) (n : Nat)
  /-- RING_STATUS, R401: Returns a ring's configuration and indices. -/
  | ringStatus (o : Origin) (n : Nat)
  /-- SYS_INFO, R401: Returns image versions, Revision ID and tile count. -/
  | sysInfo (o : Origin)
  /-- ECHO, R401: Returns the first 8 argument bytes. -/
  | echo (o : Origin) (args : List Nat)
  /-- TAMPER_JOB, R405: Submits a host compression or decompression job. -/
  | tamperJob (o : Origin) (x : TmpDesc)
  /-- TAMPER_JOB_PACKET, R418: A tile job request packet from JOB_HOP is submitted as a job. -/
  | tamperJobPacket
  /-- TAMPER_JOB_TURN, R417: An active job advances by 65,536 source bytes in its round-robin turn. -/
  | tamperJobTurn (host : List Nat)
  /-- TAMPER_JOB_DONE, R414: A job completes and its result is delivered to its source. -/
  | tamperJobDone (id : Nat)
  /-- TAMPER_STATUS, R421: Returns Tamper's enable and job state. -/
  | tamperStatus (o : Origin)
  /-- TAMPER_ENABLE, R419: Stops or restores admission of jobs. -/
  | tamperEnable (o : Origin) (en : Bool)
  /-- TAMPER_DISABLE_TIMEOUT, R419: Jobs still active 160 ticks after a disable complete with ST_ABORTED. -/
  | tamperDisableTimeout
  /-- DRAM_REQUEST, R429: A requester port accepts a DRAM request and starts its age. -/
  | dramRequest (who : Requester) (addr len : Nat) (data : Option (List Byte))
  /-- DRAM_TRANSACTION, R431: At a channel transaction boundary the controller issues the next refresh or request chosen by urgency, with inline ECC. -/
  | dramTransaction (ch ecc : Nat)
  /-- REQUEST_LATE, R429: A request's age reaches its port's target and it becomes U3. -/
  | requestLate (id : Nat)
  /-- REFRESH_ACCRUE, R437: Every N sub-ticks one refresh is added to a rank's owed count. -/
  | refreshAccrue (r : Nat)
  /-- MR4_POLL, R437: At each tick divisible by 64 MR4 of each rank is read to set the refresh rate. -/
  | mr4Poll (reports : List (Nat × Nat × Bool × Bool))
  /-- POWER_DOWN_ENTRY, R440: A rank idle for PD_IDLE memory clocks enters power-down. -/
  | powerDownEntry (r : Nat)
  /-- SCRUB_QUEUE, R443: At every TICK the scrubber queues RATE reads on the SCRUB port. -/
  | scrubQueue
  /-- RANK_RETIRE_START, R445: A retirement trigger with a spare and no migration starts a migration. -/
  | rankRetireStart
  /-- MIG_SPARE_TRAINED, R446: The spare finishes training and the dual write and copy begin, or the migration fails. -/
  | migSpareTrained (ok : Bool) (rd wr : List (BitVec 4))
  /-- MIGRATION_FLIP, R446: After the last block is copied the slot maps to the spare and the source is retired. -/
  | migrationFlip
  /-- SPARE_TEST_DONE, R448: The spare's March test ends and it returns to self-refresh or is retired. -/
  | spareTestDone (trained : Bool) (errors : Nat) (offsets : List Nat)
  /-- DRAM_STATUS, R450: Returns rank states, map, migration and port state. -/
  | dramStatus (o : Origin)
  /-- DRAM_PORT_SET, R450: Sets a port's target, RT and panic settings. -/
  | dramPortSet (o : Origin) (port target : Nat) (rt panicEn : Bool) (level : Nat)
  /-- DRAM_RETIRE, R445: Requests retirement of a rank in service. -/
  | dramRetire (o : Origin) (r : Nat)
  /-- DRAM_MIGRATE_ABORT, R447: Aborts a running migration. -/
  | dramMigrateAbort (o : Origin)
  /-- DRAM_SPARE_TEST, R448: Runs the built-in test on the spare rank. -/
  | dramSpareTest (o : Origin) (r : Nat)
  /-- DRAM_SCRUB_SET, R450: Sets scrub enable, rate and retirement threshold. -/
  | dramScrubSet (o : Origin) (en : Bool) (rate ceRetire : Nat) (ceEvt : Bool)
  /-- DRAM_ERROR_LOG, R450: Returns the last 32 DRAM errors. -/
  | dramErrorLog (o : Origin)
  /-- EVAC_BOUNDARY, R469: At boundary b the Barista freezes the tile and steps E2 to E5 move it to the spare. -/
  | evacBoundary
  /-- EVAC_COMPLETE, R469: At E5 the spare takes the position, the freeze clears and TILE_MAP events are raised. -/
  | evacComplete
  /-- VACATED_SELF_TEST_DONE, R472: A vacated tile's self-test and row repair end and it becomes SPARE or RETIRED. -/
  | vacatedSelfTestDone (p : Nat) (pass : Bool) (pm dm : List (Nat × Nat))
  /-- TILE_EVACUATE, R468: Evacuates a logical tile to a spare, optionally with a new image. -/
  | tileEvacuate (o : Origin) (t : Nat) (reload : Option Nat)
  /-- TILE_SPARE_TEST, R483: Runs self-test and repair on a spare tile. -/
  | tileSpareTest (o : Origin) (p : Nat)
  /-- TILE_FILL, R473: Maps a spare into an unavailable position. -/
  | tileFill (o : Origin) (t : Nat)
  /-- SERVICE_POLICY, R492: Sets evacuation, watchdog and queue SRAM policies. -/
  | servicePolicy (o : Origin) (row ue : Bool) (frame wdog qrow : Nat)
  /-- IMAGE_SLOT_WRITE, R479: Writes staged images and a directory into the idle boot slot. -/
  | imageSlotWrite (o : Origin) (slot : Nat) (entries : List (Nat × Nat))
  /-- CTRL_FW_SWITCH, R480: Installs staged control firmware by a control restart. -/
  | ctrlFwSwitch (o : Origin) (dig : Nat)
  /-- SYS_RESTART, R492: Requests a control restart or a warm start. -/
  | sysRestart (o : Origin) (kind : Nat)
  /-- DUMP_STATUS, R492: Returns the Ash area's state and dump details. -/
  | dumpStatus (o : Origin)
  /-- DUMP_OFFER, R491: Offers a ready or delivered dump envelope again. -/
  | dumpOffer (o : Origin)
  /-- DUMP_DISCARD, R491: Discards the current dump. -/
  | dumpDiscard (o : Origin) (id : Nat)
  /-- FATAL_LOG_READ, R492: Returns the 64 fatal log records. -/
  | fatalLogRead (o : Origin)
  /-- SRAM_ROW_STATUS, R492: Returns queue or control SRAM row repair state. -/
  | sramRowStatus (o : Origin) (memory : Nat)
  /-- WATCHDOG_EXPIRY, R484: WDOG_TICKS unserviced tick boundaries raise a fatal WATCHDOG error. -/
  | watchdogExpiry (mark : Bool) (applying : Option Nat) (pc0 pc1 : Nat)
  /-- LOCKSTEP_MISMATCH, R485: Differing outputs of a lockstep pair raise a fatal error. -/
  | lockstepMismatch (mark : Bool) (applying : Option Nat) (pc0 pc1 : Nat)
  /-- CTRL_SRAM_UE, R485: An uncorrectable control SRAM read raises a fatal error. -/
  | ctrlSramUe (row : Nat) (mark : Bool) (applying : Option Nat) (pc0 pc1 : Nat)
  /-- ASH_CAPTURE_DONE, R488: The capture engine finishes copying the dump sections into the raw region. -/
  | ashCaptureDone (secs : List (Nat × List Nat)) (all : Bool)
  /-- ASH_PACK_DONE, R490: Compression and encryption of a captured dump end and STATE becomes READY. -/
  | ashPackDone
  /-- AVS_STEP, R502: At most once per 8,000 ticks control firmware moves the AVS code one step. -/
  | avsStep (up : Bool)
  /-- ANNOUNCE_RECEIPT_TIMEOUT, R39: A PTP port that receives no Announce for the profile's announce receipt timeout of 3 to 10 intervals leaves the SLAVE state and the time source is chosen again. -/
  | announceReceiptTimeout (port : Nat)
  /-- COMMA_FOUND, R86: In BIT_LOCK the lane receiver finds a comma followed by 1,024 consecutive valid code groups and the lane moves to FRAME_LOCK. -/
  | commaFound (q : Nat)
  /-- PERST_DEASSERT, R456: The deassertion of PCIE_PERST_N starts PCI Express link training within 20 ms. -/
  | perstDeassert
  /-- START_STEP_END, R458: A step of Table 17.2 ends, such as step 4 opening set-up or step 6 ending so that a waiting lock request is checked. -/
  | startStepEnd (n : Nat) (f : StartFind)
  /-- IMAGE_SLOT_WRITE_DONE, R479: The flash write of an image slot ends with MAGIC read back, or with a read-back mismatch, and IMAGE_SLOT_WRITE completes. -/
  | imageSlotWriteDone (ok : Bool)
  /-- KILN_INTEGRITY_FAULT, R367: A Kiln self-check fault, Kiln SRAM uncorrectable error, OTP read-check failure or inline key parity error raises a Kiln integrity alarm. -/
  | kilnIntegrityFault
  /-- TAMPER_N_PULSE_END, R511: GPIO2 TAMPER_N is released 80,000 ticks after a tamper trip. -/
  | tamperNPulseEnd
  /-- VDD_AON_LOSS, R452: VDD_AON leaves its operating range and the Ember domain's contents are lost, so that the next release of RST_N makes a cold start. -/
  | vddAonLoss
deriving DecidableEq, Repr

end Sys2Proof
end

