-- ==== Sys2Proof/Decode.lean ====
section
/-! DEFINITION. The command that a word spells by the opcode table's bits: the table gives no row bits. -/
namespace Sys2Proof

/-- No row of the opcode table carries bits (host commands travel in CMD descriptors whose argument layouts the chapters
give as ordered fields only), so no word spells a command. -/
def decodeTableWord (_nbits _w : Nat) : Option Instr := none

end Sys2Proof
end

