-- ==== Sys2Proof/Config.lean ====
section
/-! DEFINITION. What the part's identity fixes, and what the spec leaves open, as constants without a body: nothing can be proved
of a value of one. -/
namespace Sys2Proof.Config
open Sys2Proof

/-- Vendor ID, Device ID and Revision ID (R4, Table 14.1). -/
def vendorId : Nat := 0x1D7A
def pciDeviceId : Nat := 0x8256
def revisionId : Nat := 0x10

/-- Ulithen's default half-band coefficients c[0] to c[11] (Table 4.5): the chapters state their response only. -/
opaque halfBand : Nat → BitVec 24

/-- Ulithen's default prototype h of set 0, 4,097 long (Table 4.5). -/
opaque proto : Nat → BitVec 24

/-- The Hopper priority of the completion packets of the filter engine and of the Barista (R122, R229) and of the responses
of the Kiln and of the Tamper engine to tile code (R362, R405), which the chapters do not name. -/
opaque completionPrio : BitVec 3

/-- The Hopper priority of the packets that Sirboroth's threads commit (chapters 10 and 11), which the chapters do not
name. -/
opaque mediaPrio : BitVec 3

/-- Byte `i` of what the inline crypto unit makes of a packet's payload and of its tag, under a suite, the number that stands
for a key, SRTCP or SRTP, and an index. The ciphers are RFC 3711's and RFC 7714's; their arithmetic is not modelled. -/
opaque srtpByte : (suite key : Nat) → (rtcp : Bool) → (index : Nat) → (content : List Nat) → (i : Nat) → BitVec 8

/-- Byte `i` of the payload that decryption gives, under the same. -/
opaque srtpPlain : (suite key : Nat) → (rtcp : Bool) → (index : Nat) → (packet : List Nat) → (i : Nat) → BitVec 8

/-- The hash function of a way of the flow table under the seeds drawn at a start, and a key of 40 bytes read as a number. -/
opaque flowHash : (seed way key : Nat) → BitVec 13

/-- The bits of a DEFLATE block behind its three header bits, for a segment under an EFFORT and DYNAMIC behind the bytes before
it (R407, R408), and the DEFLATE stream of an archive block (R411). The match search is not modelled. -/
opaque deflateBits : (effort : Nat) → (dyn : Bool) → (before segment : List Nat) → List Bool
opaque deflateRaw : (effort : Nat) → (dyn : Bool) → (block : List Nat) → List (BitVec 8)

/-- DEVICE_ID (R338), 32 bytes least significant first. -/
opaque deviceId : Nat

/-- The import public keys of an epoch (R359), and SHA-384 of a key or of keys as the number they stand as. -/
opaque importKey : (epoch : Nat) → Nat
opaque sha384 : Nat → Nat

/-- A sample under a gain of so many tenths of a decibel (chapters 10 and 11), whose rounding the chapters do not state. -/
opaque gain : (tenths : Int) → (x : Int) → Int

/-- Sample `i` of a frame of samples taken from one rate to another (R284, R296), whose filter the chapters do not state. -/
opaque convert : (fi fo : Nat) → (l : List Int) → (i : Nat) → Int

/-- Sample `n`, at a rate, of one or two tones given by frequency and level in dBFS (R267, R269, R292), of a frame of bits
modulated at 1,200 bit/s (R267), and of the probe noise (R259): the chapters state no sample of them. -/
opaque tone : (rate : Nat) → (tones : List (Nat × Int)) → (n : Nat) → Int
opaque fsk : (modulation : Nat) → (level : Int) → (bits : List Bool) → (n : Nat) → Int
opaque probe : (level : Int) → (n : Nat) → Int

/-- Whether a frequency between the limits of R260 counts as the nominal one, and whether a measured frequency that is not that of
a call progress definition counts as it: both in tenths of a hertz. -/
opaque dtmfEdge : (nominal measured : Nat) → Bool
opaque cptEdge : (nominal measured : Nat) → Bool

/-- A value that the chapters leave open, drawn by position: nothing constrains it. -/
opaque free : Nat → Nat

end Sys2Proof.Config
end

