-- ==== Sys2Proof/Machine/Bits.lean ====
section
/-! DEFINITION. Bit fields, sign extension, byte order and list helpers used by every unit. -/
namespace Sys2Proof.Machine
open Sys2Proof

/-- Bits [lo + n − 1 : lo] of a number. -/
def bitsOf (x lo n : Nat) : Nat := (x >>> lo) % 2 ^ n

/-- Bit `i` of a number. -/
def bitOf (x i : Nat) : Bool := x.testBit i

/-- 0 or 1. -/
def b2n (b : Bool) : Nat := if b then 1 else 0

/-- The `n` low bytes of a number, least significant first (R11). -/
def bytesLE : Nat → Nat → List Nat
  | 0, _ => []
  | n + 1, x => x % 256 :: bytesLE n (x / 256)

/-- The number that bytes spell, least significant first. -/
def ofBytesLE : List Nat → Nat
  | [] => 0
  | b :: r => b % 256 + 256 * ofBytesLE r

/-- A number of `n` bits read as two's complement. -/
def sext (n x : Nat) : Int := if x % 2 ^ n < 2 ^ (n - 1) then ((x % 2 ^ n : Nat) : Int) else ((x % 2 ^ n : Nat) : Int) - (2 : Int) ^ n

/-- An integer's two's complement in `n` bits. -/
def toBits (n : Nat) (x : Int) : Nat := (x % (2 : Int) ^ n).toNat

/-- An integer held within bounds. -/
def clampI (lo hi x : Int) : Int := if x < lo then lo else if hi < x then hi else x

/-- The list with position `i` rewritten. -/
def setAt {α : Type} : List α → Nat → α → List α
  | [], _, _ => []
  | _ :: r, 0, v => v :: r
  | a :: r, i + 1, v => a :: setAt r i v

/-- The list with position `i` changed by `f`. -/
def modAt {α : Type} : List α → Nat → (α → α) → List α
  | [], _, _ => []
  | a :: r, 0, f => f a :: r
  | a :: r, i + 1, f => a :: modAt r i f

/-- The least number below `n` that a test accepts. -/
def leastFrom : Nat → Nat → (Nat → Bool) → Option Nat
  | 0, _, _ => none
  | n + 1, i, p => if p i then some i else leastFrom n (i + 1) p

/-- The least number below `n` that a test accepts. -/
def least (n : Nat) (p : Nat → Bool) : Option Nat := leastFrom n 0 p

/-- The Hearth Stamp of an instant (R33, Table 2.1). -/
def clockStamp (k : Clock) : Nat := k.tick * 4096 + k.sub

/-- A stamp's tick and sub-tick. -/
def stampTick (s : Nat) : Nat := s / 4096
def stampSub (s : Nat) : Nat := s % 4096

/-- A stamp's place on the line of sub-ticks, and the stamp of a place (3,072 sub-ticks to a tick). -/
def stampAbs (s : Nat) : Nat := stampTick s * 3072 + stampSub s
def absStamp (n : Nat) : Nat := (n / 3072) * 4096 + n % 3072

/-- `a` is an element of an array of `n` registers from `lo`, `step` bytes apart. -/
def inArr (a lo step n : Nat) : Bool := decide (lo ≤ a) && (a - lo) % step == 0 && decide ((a - lo) / step < n)

end Sys2Proof.Machine
end

