-- ==== Sys2Proof/Machine/Counters.lean ====
section
/-! DEFINITION. Every counter the chapters name (R15, R16): its kind, its range of numbers and its name. -/
namespace Sys2Proof.Machine
open Sys2Proof

/-- The kinds of counter, named unit, instance word, event. -/
inductive CEv where
  | htbTimeSourceChange | htbPpsInReject | htbFreqSourceChange | htbRefaLoss | htbRefbLoss | htbHoldoverEntry 
  | htbFreerunEntry | htbStepRefused | htbTimeStep | htbAlarmStepFire | htbAlarmCongested | htbAlarmPast 
  | htbAlarmSkipped | htbAlarmTargetGone | htbCfgInvalid | htbEPtpMgmtDrop | ollLCodeError | ollLCrcError 
  | ollLSeqError | ollLTurnaroundMiss | ollLRelock | ollLDsDiscard | ollLMbxRetry | ollLMbxTimeout | ollLMbxUnmatched 
  | ollLPartnerNotice | ollLDelayAdjust | ollLDelayTrackLimit | ollLTrainFail | ollLineReflexFire | ollLineActionEmpty 
  | ollLineActionInactive | ollLineCmdTimeout | ollLineCmdQueueFull | ollLineStateAckTimeout | ollLineRingWithdrawn 
  | ollCfgInvalid | fceLineRxSat | fceLineTxSat | fceLineBlockDrop | fceLineTxBadPacket | fceLineTxUnderrun 
  | fceLineAltUnderrun | fceLineStopDeferred | fceLineDetCross | fceLineActionRefused | fceLineActionEmpty 
  | fceCfgInvalid | calSensorInvalid | calLScan | calLScanAbort | calLPinnedSkip | calRankPinnedSkip | calRankRecal 
  | calRankNoWindow | calRecordWrite | calRecordInvalid | calRecordAbandon | tilTPmCe | tilTDmCe | tilTPmUe | tilTDmUe 
  | tilTRowCandidate | tilTDmaQueueFull | tilTDmaBadDesc | tilTDmaDenied | tilTDmaPoisoned | tilTDmaAbort 
  | tilTPreempt | tilTDispatch | tilTDoubleFault | tilTHopPutDrop | tilTFault | tilRetired | tilCfgInvalid 
  | schThFlagInactive | schThCancelCoincidence | schGStarveWin | schGStranded | schTPreemptRequest | schTEvacHold 
  | schTTileStopped | schFlagBackpressure | schCmdBadPacket | schCfgInvalid | hopHLostItem | hopHOverflowSwap 
  | hopHSwapResidueLost | hopHAbort | hopHTooLong | hopHPutVoid | hopHFlushVoid | hopHMarkLost | hopHFlushDiscard 
  | hopHClosedDrop | hopHDestroyDiscard | hopHCe | hopHUe | hopCfgInvalid | medLineStateOverride | medLineToneDisable 
  | medLineLateFrame | medLineHybApplySlip | medLineHookGlitch | medLineHookEdgesLost | medLineCadenceOverrun 
  | medLineDestroyAbort | medNoChannelDrop | medUdpCsumDrop | medRtpBadHeader | medRtpPtDrop | medRtpSsrcDrop 
  | medRtpBadPayload | medJbDupDrop | medJbLateDrop | medJbEarlyDrop | medJbReanchor | medRtcpBadDrop 
  | medPktLateFrame | medRfc4733Drop | medT38NoResource | medBridgeLegLate | medBridgeMixLate | medBridgeLateMix 
  | medPageSkip | medDestroyDiscard | medAlarmSlotExhausted | ethELinkDown | ethETxBadPacket | ethETxNoKey 
  | ethETxCsumSkip | ethERxAddrDrop | ethERxRunt | ethERxOversize | ethERxFcsError | ethERxPcsError | ethEMacCtrlDrop 
  | ethEPauseFrames | ethEPauseQuanta | ethERxIpCsumDrop | ethERxL4CsumDrop | ethEPtpRestartDrop | ethEFlowDrop 
  | ethERxBufferDrop | ethERxTooLong | ethERxNoHopper | ethERxDisabledDrop | ethEQLinkDownDrop | ethEQDisableDrop 
  | ethEQSwitchLost | ethEQCeilingHold | ethEQPfcFrames | ethEQPauseQuanta | ethProtectSwitch | ethCfgInvalid 
  | klnOtpBurn | klnOtpBurnFail | klnStatementReject | klnRecordAbandon | klnImageReject | klnBootSlotReject 
  | klnReloadMismatch | klnDtlsBadRecord | klnImportReject | klnJobBad | klnEntropyFail | klnTamper | klnTamperHold 
  | klnHoldOtpExhausted | klnIntegrityAlarm | klnDebugUnlock | klnDbgBarAccess | klnEvtOverwrite | klnESrtpNoKey 
  | klnESrtpSsrcDrop | klnESrtpReplayDrop | klnESrtpAuthFail | klnESrtpLinkHit | klnEKeyExhausted | klnETamperDrop 
  | hifLockRefused | hifLockBadValue | hifSealedRead | hifSealedWrite | hifWindowDenied | hifDbFetchError 
  | hifDmaReadError | hifCmdAdmitHold | hifBmeDrop | hifRxRestartDrop | hifEvtMisrouted | hifEvtDiscard 
  | hifEvtRestartOverwrite | hifCfgInvalid | hifRingDbBad | hifRingDbStale | hifRingDbInvalid | hifRingCplFullHold 
  | hifRingTxpBad | hifRingRxpBadBuf | hifRingDmpBadBuf | hifRingRxNobufDrop | hifRingRxNoRing | hifRingEvtOverflow 
  | hifRingCpl | tmpJobBad | tmpStoredBlock | tmpRawBlock | tmpCheckFail | tmpPartial | tmpPoisoned | tmpRspLost 
  | tmpAbort | tmpCfgInvalid | dmcRankCe | dmcRankUe | dmcRankPoisonRead | dmcRankPoisonMerge | dmcRankTrainFail 
  | dmcRankRefreshPostponed | dmcRankRefreshUrgent | dmcRankOvertemp | dmcRankRetire | dmcRankMigFail 
  | dmcRankMigAbort | dmcRankMigPoisonCopied | dmcRankBistError | dmcPortLate | dmcPortPanic | dmcInorderEntry 
  | dmcEccMiss | dmcScrubPass | dmcNoSpare | dmcAddrDenied | dmcCfgInvalid | sysWarmStart | sysControlRestart 
  | sysStateCheckFail | sysBoardCfgInvalid | sysPfwAssert | sysBarBadAccess | sysEmberEventOverwrite | sysEvacNoSpare 
  | sysQsramRowRepair | sysQsramRowExhausted | sysCtrlSramCe | sysCtrlRowRepair | sysCtrlRowExhausted 
  | sysStageDiscard | sysImageWriteFail | sysImageWriteAbandon | sysFatalLockstep | sysFatalCtrlUe | sysFatalWatchdog 
  | sysFatalKiln | sysAshCapture | sysAshBusy | sysAshNoKey | sysAshPackRestart | sysAshDiscard | sysTEvac 
  | sysTEvacOverrun 
deriving DecidableEq, Repr

/-- How a kind of counter is named (R16): the unit, the word before the first number, how many numbers there are
(0 where the instance is dev), the word before the second number, how many of those, the event, and the event's
endings where the second number names one. -/
structure CInfo where
  unit : String
  word : String
  ni   : Nat
  sub  : String
  nj   : Nat
  ev   : String
  ends : List String
deriving DecidableEq, Repr

def CEv.info : CEv → CInfo
  | .htbTimeSourceChange => ⟨"htb", "dev", 0, "", 0, "time_source_change", []⟩
  | .htbPpsInReject => ⟨"htb", "dev", 0, "", 0, "pps_in_reject", []⟩
  | .htbFreqSourceChange => ⟨"htb", "dev", 0, "", 0, "freq_source_change", []⟩
  | .htbRefaLoss => ⟨"htb", "dev", 0, "", 0, "refa_loss", []⟩
  | .htbRefbLoss => ⟨"htb", "dev", 0, "", 0, "refb_loss", []⟩
  | .htbHoldoverEntry => ⟨"htb", "dev", 0, "", 0, "holdover_entry", []⟩
  | .htbFreerunEntry => ⟨"htb", "dev", 0, "", 0, "freerun_entry", []⟩
  | .htbStepRefused => ⟨"htb", "dev", 0, "", 0, "step_refused", []⟩
  | .htbTimeStep => ⟨"htb", "dev", 0, "", 0, "time_step", []⟩
  | .htbAlarmStepFire => ⟨"htb", "dev", 0, "", 0, "alarm_step_fire", []⟩
  | .htbAlarmCongested => ⟨"htb", "dev", 0, "", 0, "alarm_congested", []⟩
  | .htbAlarmPast => ⟨"htb", "dev", 0, "", 0, "alarm_past", []⟩
  | .htbAlarmSkipped => ⟨"htb", "dev", 0, "", 0, "alarm_skipped", []⟩
  | .htbAlarmTargetGone => ⟨"htb", "dev", 0, "", 0, "alarm_target_gone", []⟩
  | .htbCfgInvalid => ⟨"htb", "dev", 0, "", 0, "cfg_invalid", []⟩
  | .htbEPtpMgmtDrop => ⟨"htb", "e", 2, "", 0, "ptp_mgmt_drop", []⟩
  | .ollLCodeError => ⟨"oll", "l", 32, "", 0, "code_error", []⟩
  | .ollLCrcError => ⟨"oll", "l", 32, "", 0, "crc_error", []⟩
  | .ollLSeqError => ⟨"oll", "l", 32, "", 0, "seq_error", []⟩
  | .ollLTurnaroundMiss => ⟨"oll", "l", 32, "", 0, "turnaround_miss", []⟩
  | .ollLRelock => ⟨"oll", "l", 32, "", 0, "relock", []⟩
  | .ollLDsDiscard => ⟨"oll", "l", 32, "", 0, "ds_discard", []⟩
  | .ollLMbxRetry => ⟨"oll", "l", 32, "", 0, "mbx_retry", []⟩
  | .ollLMbxTimeout => ⟨"oll", "l", 32, "", 0, "mbx_timeout", []⟩
  | .ollLMbxUnmatched => ⟨"oll", "l", 32, "", 0, "mbx_unmatched", []⟩
  | .ollLPartnerNotice => ⟨"oll", "l", 32, "", 0, "partner_notice", []⟩
  | .ollLDelayAdjust => ⟨"oll", "l", 32, "", 0, "delay_adjust", []⟩
  | .ollLDelayTrackLimit => ⟨"oll", "l", 32, "", 0, "delay_track_limit", []⟩
  | .ollLTrainFail => ⟨"oll", "l", 32, "", 13, "train_fail_", ["none", "no_bit_lock", "no_frame_lock", "delay_unstable", "turn_range", "no_capability", "cap_mismatch", "delay_range", "no_activate", "los", "relock", "disabled", "retrain"]⟩
  | .ollLineReflexFire => ⟨"oll", "line", 256, "", 0, "reflex_fire", []⟩
  | .ollLineActionEmpty => ⟨"oll", "line", 256, "", 0, "action_empty", []⟩
  | .ollLineActionInactive => ⟨"oll", "line", 256, "", 0, "action_inactive", []⟩
  | .ollLineCmdTimeout => ⟨"oll", "line", 256, "", 0, "cmd_timeout", []⟩
  | .ollLineCmdQueueFull => ⟨"oll", "line", 256, "", 0, "cmd_queue_full", []⟩
  | .ollLineStateAckTimeout => ⟨"oll", "line", 256, "", 0, "state_ack_timeout", []⟩
  | .ollLineRingWithdrawn => ⟨"oll", "line", 256, "", 0, "ring_withdrawn", []⟩
  | .ollCfgInvalid => ⟨"oll", "dev", 0, "", 0, "cfg_invalid", []⟩
  | .fceLineRxSat => ⟨"fce", "line", 256, "", 11, "rx_sat_", ["dc", "hyb", "eq0", "eq1", "eq2", "eq3", "hb0", "hb1", "hb2", "rs", "out"]⟩
  | .fceLineTxSat => ⟨"fce", "line", 256, "", 10, "tx_sat_", ["rs", "int0", "int1", "int2", "eq0", "eq1", "eq2", "eq3", "ramp", "out"]⟩
  | .fceLineBlockDrop => ⟨"fce", "line", 256, "", 0, "block_drop", []⟩
  | .fceLineTxBadPacket => ⟨"fce", "line", 256, "", 0, "tx_bad_packet", []⟩
  | .fceLineTxUnderrun => ⟨"fce", "line", 256, "", 0, "tx_underrun", []⟩
  | .fceLineAltUnderrun => ⟨"fce", "line", 256, "", 0, "alt_underrun", []⟩
  | .fceLineStopDeferred => ⟨"fce", "line", 256, "", 0, "stop_deferred", []⟩
  | .fceLineDetCross => ⟨"fce", "line", 256, "", 0, "det_cross", []⟩
  | .fceLineActionRefused => ⟨"fce", "line", 256, "", 0, "action_refused", []⟩
  | .fceLineActionEmpty => ⟨"fce", "line", 256, "", 0, "action_empty", []⟩
  | .fceCfgInvalid => ⟨"fce", "dev", 0, "", 0, "cfg_invalid", []⟩
  | .calSensorInvalid => ⟨"cal", "dev", 0, "", 8, "sensor", ["0_invalid", "1_invalid", "2_invalid", "3_invalid", "4_invalid", "5_invalid", "6_invalid", "7_invalid"]⟩
  | .calLScan => ⟨"cal", "l", 32, "", 0, "scan", []⟩
  | .calLScanAbort => ⟨"cal", "l", 32, "", 0, "scan_abort", []⟩
  | .calLPinnedSkip => ⟨"cal", "l", 32, "", 0, "pinned_skip", []⟩
  | .calRankPinnedSkip => ⟨"cal", "rank", 4, "", 0, "pinned_skip", []⟩
  | .calRankRecal => ⟨"cal", "rank", 4, "", 0, "recal", []⟩
  | .calRankNoWindow => ⟨"cal", "rank", 4, "", 0, "no_window", []⟩
  | .calRecordWrite => ⟨"cal", "dev", 0, "", 0, "record_write", []⟩
  | .calRecordInvalid => ⟨"cal", "dev", 0, "", 0, "record_invalid", []⟩
  | .calRecordAbandon => ⟨"cal", "dev", 0, "", 0, "record_abandon", []⟩
  | .tilTPmCe => ⟨"til", "t", 34, "", 0, "pm_ce", []⟩
  | .tilTDmCe => ⟨"til", "t", 34, "", 0, "dm_ce", []⟩
  | .tilTPmUe => ⟨"til", "t", 34, "", 0, "pm_ue", []⟩
  | .tilTDmUe => ⟨"til", "t", 34, "", 0, "dm_ue", []⟩
  | .tilTRowCandidate => ⟨"til", "t", 34, "", 0, "row_candidate", []⟩
  | .tilTDmaQueueFull => ⟨"til", "t", 34, "", 0, "dma_queue_full", []⟩
  | .tilTDmaBadDesc => ⟨"til", "t", 34, "", 0, "dma_bad_desc", []⟩
  | .tilTDmaDenied => ⟨"til", "t", 34, "", 0, "dma_denied", []⟩
  | .tilTDmaPoisoned => ⟨"til", "t", 34, "", 0, "dma_poisoned", []⟩
  | .tilTDmaAbort => ⟨"til", "t", 34, "", 0, "dma_abort", []⟩
  | .tilTPreempt => ⟨"til", "t", 34, "", 0, "preempt", []⟩
  | .tilTDispatch => ⟨"til", "t", 34, "", 0, "dispatch", []⟩
  | .tilTDoubleFault => ⟨"til", "t", 34, "", 0, "double_fault", []⟩
  | .tilTHopPutDrop => ⟨"til", "t", 34, "", 0, "hop_put_drop", []⟩
  | .tilTFault => ⟨"til", "t", 34, "", 5, "fault_", ["none", "pm_ue", "addr", "align", "illegal"]⟩
  | .tilRetired => ⟨"til", "dev", 0, "", 0, "retired", []⟩
  | .tilCfgInvalid => ⟨"til", "dev", 0, "", 0, "cfg_invalid", []⟩
  | .schThFlagInactive => ⟨"sch", "th", 8192, "", 0, "flag_inactive", []⟩
  | .schThCancelCoincidence => ⟨"sch", "th", 8192, "", 0, "cancel_coincidence", []⟩
  | .schGStarveWin => ⟨"sch", "g", 64, "", 0, "starve_win", []⟩
  | .schGStranded => ⟨"sch", "g", 64, "", 0, "stranded", []⟩
  | .schTPreemptRequest => ⟨"sch", "t", 34, "", 0, "preempt_request", []⟩
  | .schTEvacHold => ⟨"sch", "t", 34, "", 0, "evac_hold", []⟩
  | .schTTileStopped => ⟨"sch", "t", 34, "", 0, "tile_stopped", []⟩
  | .schFlagBackpressure => ⟨"sch", "dev", 0, "", 0, "flag_backpressure", []⟩
  | .schCmdBadPacket => ⟨"sch", "dev", 0, "", 0, "cmd_bad_packet", []⟩
  | .schCfgInvalid => ⟨"sch", "dev", 0, "", 0, "cfg_invalid", []⟩
  | .hopHLostItem => ⟨"hop", "h", 1024, "", 0, "lost_item", []⟩
  | .hopHOverflowSwap => ⟨"hop", "h", 1024, "", 0, "overflow_swap", []⟩
  | .hopHSwapResidueLost => ⟨"hop", "h", 1024, "", 0, "swap_residue_lost", []⟩
  | .hopHAbort => ⟨"hop", "h", 1024, "", 0, "abort", []⟩
  | .hopHTooLong => ⟨"hop", "h", 1024, "", 0, "too_long", []⟩
  | .hopHPutVoid => ⟨"hop", "h", 1024, "", 0, "put_void", []⟩
  | .hopHFlushVoid => ⟨"hop", "h", 1024, "", 0, "flush_void", []⟩
  | .hopHMarkLost => ⟨"hop", "h", 1024, "", 0, "mark_lost", []⟩
  | .hopHFlushDiscard => ⟨"hop", "h", 1024, "", 0, "flush_discard", []⟩
  | .hopHClosedDrop => ⟨"hop", "h", 1024, "", 0, "closed_drop", []⟩
  | .hopHDestroyDiscard => ⟨"hop", "h", 1024, "", 0, "destroy_discard", []⟩
  | .hopHCe => ⟨"hop", "h", 1024, "", 0, "ce", []⟩
  | .hopHUe => ⟨"hop", "h", 1024, "", 0, "ue", []⟩
  | .hopCfgInvalid => ⟨"hop", "dev", 0, "", 0, "cfg_invalid", []⟩
  | .medLineStateOverride => ⟨"med", "line", 256, "", 0, "state_override", []⟩
  | .medLineToneDisable => ⟨"med", "line", 256, "", 0, "tone_disable", []⟩
  | .medLineLateFrame => ⟨"med", "line", 256, "", 0, "late_frame", []⟩
  | .medLineHybApplySlip => ⟨"med", "line", 256, "", 0, "hyb_apply_slip", []⟩
  | .medLineHookGlitch => ⟨"med", "line", 256, "", 0, "hook_glitch", []⟩
  | .medLineHookEdgesLost => ⟨"med", "line", 256, "", 0, "hook_edges_lost", []⟩
  | .medLineCadenceOverrun => ⟨"med", "line", 256, "", 0, "cadence_overrun", []⟩
  | .medLineDestroyAbort => ⟨"med", "line", 256, "", 0, "destroy_abort", []⟩
  | .medNoChannelDrop => ⟨"med", "dev", 0, "", 0, "no_channel_drop", []⟩
  | .medUdpCsumDrop => ⟨"med", "dev", 0, "", 0, "udp_csum_drop", []⟩
  | .medRtpBadHeader => ⟨"med", "dev", 0, "", 0, "rtp_bad_header", []⟩
  | .medRtpPtDrop => ⟨"med", "dev", 0, "", 0, "rtp_pt_drop", []⟩
  | .medRtpSsrcDrop => ⟨"med", "dev", 0, "", 0, "rtp_ssrc_drop", []⟩
  | .medRtpBadPayload => ⟨"med", "dev", 0, "", 0, "rtp_bad_payload", []⟩
  | .medJbDupDrop => ⟨"med", "dev", 0, "", 0, "jb_dup_drop", []⟩
  | .medJbLateDrop => ⟨"med", "dev", 0, "", 0, "jb_late_drop", []⟩
  | .medJbEarlyDrop => ⟨"med", "dev", 0, "", 0, "jb_early_drop", []⟩
  | .medJbReanchor => ⟨"med", "dev", 0, "", 0, "jb_reanchor", []⟩
  | .medRtcpBadDrop => ⟨"med", "dev", 0, "", 0, "rtcp_bad_drop", []⟩
  | .medPktLateFrame => ⟨"med", "dev", 0, "", 0, "pkt_late_frame", []⟩
  | .medRfc4733Drop => ⟨"med", "dev", 0, "", 0, "rfc4733_drop", []⟩
  | .medT38NoResource => ⟨"med", "dev", 0, "", 0, "t38_no_resource", []⟩
  | .medBridgeLegLate => ⟨"med", "dev", 0, "", 0, "bridge_leg_late", []⟩
  | .medBridgeMixLate => ⟨"med", "dev", 0, "", 0, "bridge_mix_late", []⟩
  | .medBridgeLateMix => ⟨"med", "dev", 0, "", 0, "bridge_late_mix", []⟩
  | .medPageSkip => ⟨"med", "dev", 0, "", 0, "page_skip", []⟩
  | .medDestroyDiscard => ⟨"med", "dev", 0, "", 0, "destroy_discard", []⟩
  | .medAlarmSlotExhausted => ⟨"med", "dev", 0, "", 0, "alarm_slot_exhausted", []⟩
  | .ethELinkDown => ⟨"eth", "e", 2, "", 0, "link_down", []⟩
  | .ethETxBadPacket => ⟨"eth", "e", 2, "", 0, "tx_bad_packet", []⟩
  | .ethETxNoKey => ⟨"eth", "e", 2, "", 0, "tx_no_key", []⟩
  | .ethETxCsumSkip => ⟨"eth", "e", 2, "", 0, "tx_csum_skip", []⟩
  | .ethERxAddrDrop => ⟨"eth", "e", 2, "", 0, "rx_addr_drop", []⟩
  | .ethERxRunt => ⟨"eth", "e", 2, "", 0, "rx_runt", []⟩
  | .ethERxOversize => ⟨"eth", "e", 2, "", 0, "rx_oversize", []⟩
  | .ethERxFcsError => ⟨"eth", "e", 2, "", 0, "rx_fcs_error", []⟩
  | .ethERxPcsError => ⟨"eth", "e", 2, "", 0, "rx_pcs_error", []⟩
  | .ethEMacCtrlDrop => ⟨"eth", "e", 2, "", 0, "mac_ctrl_drop", []⟩
  | .ethEPauseFrames => ⟨"eth", "e", 2, "", 0, "pause_frames", []⟩
  | .ethEPauseQuanta => ⟨"eth", "e", 2, "", 0, "pause_quanta", []⟩
  | .ethERxIpCsumDrop => ⟨"eth", "e", 2, "", 0, "rx_ip_csum_drop", []⟩
  | .ethERxL4CsumDrop => ⟨"eth", "e", 2, "", 0, "rx_l4_csum_drop", []⟩
  | .ethEPtpRestartDrop => ⟨"eth", "e", 2, "", 0, "ptp_restart_drop", []⟩
  | .ethEFlowDrop => ⟨"eth", "e", 2, "", 0, "flow_drop", []⟩
  | .ethERxBufferDrop => ⟨"eth", "e", 2, "", 0, "rx_buffer_drop", []⟩
  | .ethERxTooLong => ⟨"eth", "e", 2, "", 0, "rx_too_long", []⟩
  | .ethERxNoHopper => ⟨"eth", "e", 2, "", 0, "rx_no_hopper", []⟩
  | .ethERxDisabledDrop => ⟨"eth", "e", 2, "", 0, "rx_disabled_drop", []⟩
  | .ethEQLinkDownDrop => ⟨"eth", "e", 2, "q", 8, "link_down_drop", []⟩
  | .ethEQDisableDrop => ⟨"eth", "e", 2, "q", 8, "disable_drop", []⟩
  | .ethEQSwitchLost => ⟨"eth", "e", 2, "q", 8, "switch_lost", []⟩
  | .ethEQCeilingHold => ⟨"eth", "e", 2, "q", 8, "ceiling_hold", []⟩
  | .ethEQPfcFrames => ⟨"eth", "e", 2, "q", 8, "pfc_frames", []⟩
  | .ethEQPauseQuanta => ⟨"eth", "e", 2, "q", 8, "pause_quanta", []⟩
  | .ethProtectSwitch => ⟨"eth", "dev", 0, "", 0, "protect_switch", []⟩
  | .ethCfgInvalid => ⟨"eth", "dev", 0, "", 0, "cfg_invalid", []⟩
  | .klnOtpBurn => ⟨"kln", "dev", 0, "", 0, "otp_burn", []⟩
  | .klnOtpBurnFail => ⟨"kln", "dev", 0, "", 0, "otp_burn_fail", []⟩
  | .klnStatementReject => ⟨"kln", "dev", 0, "", 0, "statement_reject", []⟩
  | .klnRecordAbandon => ⟨"kln", "dev", 0, "", 0, "record_abandon", []⟩
  | .klnImageReject => ⟨"kln", "dev", 0, "", 0, "image_reject", []⟩
  | .klnBootSlotReject => ⟨"kln", "dev", 0, "", 0, "boot_slot_reject", []⟩
  | .klnReloadMismatch => ⟨"kln", "dev", 0, "", 0, "reload_mismatch", []⟩
  | .klnDtlsBadRecord => ⟨"kln", "dev", 0, "", 0, "dtls_bad_record", []⟩
  | .klnImportReject => ⟨"kln", "dev", 0, "", 0, "import_reject", []⟩
  | .klnJobBad => ⟨"kln", "dev", 0, "", 0, "job_bad", []⟩
  | .klnEntropyFail => ⟨"kln", "dev", 0, "", 0, "entropy_fail", []⟩
  | .klnTamper => ⟨"kln", "dev", 0, "", 0, "tamper", []⟩
  | .klnTamperHold => ⟨"kln", "dev", 0, "", 0, "tamper_hold", []⟩
  | .klnHoldOtpExhausted => ⟨"kln", "dev", 0, "", 0, "hold_otp_exhausted", []⟩
  | .klnIntegrityAlarm => ⟨"kln", "dev", 0, "", 0, "integrity_alarm", []⟩
  | .klnDebugUnlock => ⟨"kln", "dev", 0, "", 0, "debug_unlock", []⟩
  | .klnDbgBarAccess => ⟨"kln", "dev", 0, "", 0, "dbg_bar_access", []⟩
  | .klnEvtOverwrite => ⟨"kln", "dev", 0, "", 0, "evt_overwrite", []⟩
  | .klnESrtpNoKey => ⟨"kln", "e", 2, "", 0, "srtp_no_key", []⟩
  | .klnESrtpSsrcDrop => ⟨"kln", "e", 2, "", 0, "srtp_ssrc_drop", []⟩
  | .klnESrtpReplayDrop => ⟨"kln", "e", 2, "", 0, "srtp_replay_drop", []⟩
  | .klnESrtpAuthFail => ⟨"kln", "e", 2, "", 0, "srtp_auth_fail", []⟩
  | .klnESrtpLinkHit => ⟨"kln", "e", 2, "", 0, "srtp_link_hit", []⟩
  | .klnEKeyExhausted => ⟨"kln", "e", 2, "", 0, "key_exhausted", []⟩
  | .klnETamperDrop => ⟨"kln", "e", 2, "", 0, "tamper_drop", []⟩
  | .hifLockRefused => ⟨"hif", "dev", 0, "", 0, "lock_refused", []⟩
  | .hifLockBadValue => ⟨"hif", "dev", 0, "", 0, "lock_bad_value", []⟩
  | .hifSealedRead => ⟨"hif", "dev", 0, "", 0, "sealed_read", []⟩
  | .hifSealedWrite => ⟨"hif", "dev", 0, "", 0, "sealed_write", []⟩
  | .hifWindowDenied => ⟨"hif", "dev", 0, "", 0, "window_denied", []⟩
  | .hifDbFetchError => ⟨"hif", "dev", 0, "", 0, "db_fetch_error", []⟩
  | .hifDmaReadError => ⟨"hif", "dev", 0, "", 0, "dma_read_error", []⟩
  | .hifCmdAdmitHold => ⟨"hif", "dev", 0, "", 0, "cmd_admit_hold", []⟩
  | .hifBmeDrop => ⟨"hif", "dev", 0, "", 0, "bme_drop", []⟩
  | .hifRxRestartDrop => ⟨"hif", "dev", 0, "", 0, "rx_restart_drop", []⟩
  | .hifEvtMisrouted => ⟨"hif", "dev", 0, "", 0, "evt_misrouted", []⟩
  | .hifEvtDiscard => ⟨"hif", "dev", 0, "", 0, "evt_discard", []⟩
  | .hifEvtRestartOverwrite => ⟨"hif", "dev", 0, "", 0, "evt_restart_overwrite", []⟩
  | .hifCfgInvalid => ⟨"hif", "dev", 0, "", 0, "cfg_invalid", []⟩
  | .hifRingDbBad => ⟨"hif", "ring", 256, "", 0, "db_bad", []⟩
  | .hifRingDbStale => ⟨"hif", "ring", 256, "", 0, "db_stale", []⟩
  | .hifRingDbInvalid => ⟨"hif", "ring", 256, "", 0, "db_invalid", []⟩
  | .hifRingCplFullHold => ⟨"hif", "ring", 256, "", 0, "cpl_full_hold", []⟩
  | .hifRingTxpBad => ⟨"hif", "ring", 256, "", 0, "txp_bad", []⟩
  | .hifRingRxpBadBuf => ⟨"hif", "ring", 256, "", 0, "rxp_bad_buf", []⟩
  | .hifRingDmpBadBuf => ⟨"hif", "ring", 256, "", 0, "dmp_bad_buf", []⟩
  | .hifRingRxNobufDrop => ⟨"hif", "ring", 256, "", 0, "rx_nobuf_drop", []⟩
  | .hifRingRxNoRing => ⟨"hif", "ring", 256, "", 0, "rx_no_ring", []⟩
  | .hifRingEvtOverflow => ⟨"hif", "ring", 256, "", 0, "evt_overflow", []⟩
  | .hifRingCpl => ⟨"hif", "ring", 256, "", 16, "cpl_", ["ok", "partial", "refused_busy", "bad_arg", "no_resource", "not_permitted", "stale", "mark_lost", "check_fail", "dropped", "aborted", "unknown_object", "locked", "poisoned", "auth_fail", "internal"]⟩
  | .tmpJobBad => ⟨"tmp", "dev", 0, "", 0, "job_bad", []⟩
  | .tmpStoredBlock => ⟨"tmp", "dev", 0, "", 0, "stored_block", []⟩
  | .tmpRawBlock => ⟨"tmp", "dev", 0, "", 0, "raw_block", []⟩
  | .tmpCheckFail => ⟨"tmp", "dev", 0, "", 0, "check_fail", []⟩
  | .tmpPartial => ⟨"tmp", "dev", 0, "", 0, "partial", []⟩
  | .tmpPoisoned => ⟨"tmp", "dev", 0, "", 0, "poisoned", []⟩
  | .tmpRspLost => ⟨"tmp", "dev", 0, "", 0, "rsp_lost", []⟩
  | .tmpAbort => ⟨"tmp", "dev", 0, "", 0, "abort", []⟩
  | .tmpCfgInvalid => ⟨"tmp", "dev", 0, "", 0, "cfg_invalid", []⟩
  | .dmcRankCe => ⟨"dmc", "rank", 4, "", 0, "ce", []⟩
  | .dmcRankUe => ⟨"dmc", "rank", 4, "", 0, "ue", []⟩
  | .dmcRankPoisonRead => ⟨"dmc", "rank", 4, "", 0, "poison_read", []⟩
  | .dmcRankPoisonMerge => ⟨"dmc", "rank", 4, "", 0, "poison_merge", []⟩
  | .dmcRankTrainFail => ⟨"dmc", "rank", 4, "", 0, "train_fail", []⟩
  | .dmcRankRefreshPostponed => ⟨"dmc", "rank", 4, "", 0, "refresh_postponed", []⟩
  | .dmcRankRefreshUrgent => ⟨"dmc", "rank", 4, "", 0, "refresh_urgent", []⟩
  | .dmcRankOvertemp => ⟨"dmc", "rank", 4, "", 0, "overtemp", []⟩
  | .dmcRankRetire => ⟨"dmc", "rank", 4, "", 0, "retire", []⟩
  | .dmcRankMigFail => ⟨"dmc", "rank", 4, "", 0, "mig_fail", []⟩
  | .dmcRankMigAbort => ⟨"dmc", "rank", 4, "", 0, "mig_abort", []⟩
  | .dmcRankMigPoisonCopied => ⟨"dmc", "rank", 4, "", 0, "mig_poison_copied", []⟩
  | .dmcRankBistError => ⟨"dmc", "rank", 4, "", 0, "bist_error", []⟩
  | .dmcPortLate => ⟨"dmc", "dev", 0, "", 10, "", ["tile_a_late", "tile_b_late", "macrx_late", "mactx_late", "hif_late", "kiln_late", "tamp_late", "ctrl_late", "mig_late", "scrub_late"]⟩
  | .dmcPortPanic => ⟨"dmc", "dev", 0, "", 10, "", ["tile_a_panic", "tile_b_panic", "macrx_panic", "mactx_panic", "hif_panic", "kiln_panic", "tamp_panic", "ctrl_panic", "mig_panic", "scrub_panic"]⟩
  | .dmcInorderEntry => ⟨"dmc", "dev", 0, "", 0, "inorder_entry", []⟩
  | .dmcEccMiss => ⟨"dmc", "dev", 0, "", 0, "ecc_miss", []⟩
  | .dmcScrubPass => ⟨"dmc", "dev", 0, "", 0, "scrub_pass", []⟩
  | .dmcNoSpare => ⟨"dmc", "dev", 0, "", 0, "no_spare", []⟩
  | .dmcAddrDenied => ⟨"dmc", "dev", 0, "", 0, "addr_denied", []⟩
  | .dmcCfgInvalid => ⟨"dmc", "dev", 0, "", 0, "cfg_invalid", []⟩
  | .sysWarmStart => ⟨"sys", "dev", 0, "", 0, "warm_start", []⟩
  | .sysControlRestart => ⟨"sys", "dev", 0, "", 0, "control_restart", []⟩
  | .sysStateCheckFail => ⟨"sys", "dev", 0, "", 0, "state_check_fail", []⟩
  | .sysBoardCfgInvalid => ⟨"sys", "dev", 0, "", 0, "board_cfg_invalid", []⟩
  | .sysPfwAssert => ⟨"sys", "dev", 0, "", 0, "pfw_assert", []⟩
  | .sysBarBadAccess => ⟨"sys", "dev", 0, "", 0, "bar_bad_access", []⟩
  | .sysEmberEventOverwrite => ⟨"sys", "dev", 0, "", 0, "ember_event_overwrite", []⟩
  | .sysEvacNoSpare => ⟨"sys", "dev", 0, "", 0, "evac_no_spare", []⟩
  | .sysQsramRowRepair => ⟨"sys", "dev", 0, "", 0, "qsram_row_repair", []⟩
  | .sysQsramRowExhausted => ⟨"sys", "dev", 0, "", 0, "qsram_row_exhausted", []⟩
  | .sysCtrlSramCe => ⟨"sys", "dev", 0, "", 0, "ctrl_sram_ce", []⟩
  | .sysCtrlRowRepair => ⟨"sys", "dev", 0, "", 0, "ctrl_row_repair", []⟩
  | .sysCtrlRowExhausted => ⟨"sys", "dev", 0, "", 0, "ctrl_row_exhausted", []⟩
  | .sysStageDiscard => ⟨"sys", "dev", 0, "", 0, "stage_discard", []⟩
  | .sysImageWriteFail => ⟨"sys", "dev", 0, "", 0, "image_write_fail", []⟩
  | .sysImageWriteAbandon => ⟨"sys", "dev", 0, "", 0, "image_write_abandon", []⟩
  | .sysFatalLockstep => ⟨"sys", "dev", 0, "", 0, "fatal_lockstep", []⟩
  | .sysFatalCtrlUe => ⟨"sys", "dev", 0, "", 0, "fatal_ctrl_ue", []⟩
  | .sysFatalWatchdog => ⟨"sys", "dev", 0, "", 0, "fatal_watchdog", []⟩
  | .sysFatalKiln => ⟨"sys", "dev", 0, "", 0, "fatal_kiln", []⟩
  | .sysAshCapture => ⟨"sys", "dev", 0, "", 0, "ash_capture", []⟩
  | .sysAshBusy => ⟨"sys", "dev", 0, "", 0, "ash_busy", []⟩
  | .sysAshNoKey => ⟨"sys", "dev", 0, "", 0, "ash_no_key", []⟩
  | .sysAshPackRestart => ⟨"sys", "dev", 0, "", 0, "ash_pack_restart", []⟩
  | .sysAshDiscard => ⟨"sys", "dev", 0, "", 0, "ash_discard", []⟩
  | .sysTEvac => ⟨"sys", "t", 34, "", 0, "evac", []⟩
  | .sysTEvacOverrun => ⟨"sys", "t", 34, "", 0, "evac_overrun", []⟩

/-- Every kind. -/
def CEv.all : List CEv :=
  [CEv.htbTimeSourceChange, CEv.htbPpsInReject, CEv.htbFreqSourceChange, CEv.htbRefaLoss, CEv.htbRefbLoss, CEv.htbHoldoverEntry, CEv.htbFreerunEntry, CEv.htbStepRefused] ++
  [CEv.htbTimeStep, CEv.htbAlarmStepFire, CEv.htbAlarmCongested, CEv.htbAlarmPast, CEv.htbAlarmSkipped, CEv.htbAlarmTargetGone, CEv.htbCfgInvalid, CEv.htbEPtpMgmtDrop] ++
  [CEv.ollLCodeError, CEv.ollLCrcError, CEv.ollLSeqError, CEv.ollLTurnaroundMiss, CEv.ollLRelock, CEv.ollLDsDiscard, CEv.ollLMbxRetry, CEv.ollLMbxTimeout] ++
  [CEv.ollLMbxUnmatched, CEv.ollLPartnerNotice, CEv.ollLDelayAdjust, CEv.ollLDelayTrackLimit, CEv.ollLTrainFail, CEv.ollLineReflexFire, CEv.ollLineActionEmpty, CEv.ollLineActionInactive] ++
  [CEv.ollLineCmdTimeout, CEv.ollLineCmdQueueFull, CEv.ollLineStateAckTimeout, CEv.ollLineRingWithdrawn, CEv.ollCfgInvalid, CEv.fceLineRxSat, CEv.fceLineTxSat, CEv.fceLineBlockDrop] ++
  [CEv.fceLineTxBadPacket, CEv.fceLineTxUnderrun, CEv.fceLineAltUnderrun, CEv.fceLineStopDeferred, CEv.fceLineDetCross, CEv.fceLineActionRefused, CEv.fceLineActionEmpty, CEv.fceCfgInvalid] ++
  [CEv.calSensorInvalid, CEv.calLScan, CEv.calLScanAbort, CEv.calLPinnedSkip, CEv.calRankPinnedSkip, CEv.calRankRecal, CEv.calRankNoWindow, CEv.calRecordWrite] ++
  [CEv.calRecordInvalid, CEv.calRecordAbandon, CEv.tilTPmCe, CEv.tilTDmCe, CEv.tilTPmUe, CEv.tilTDmUe, CEv.tilTRowCandidate, CEv.tilTDmaQueueFull] ++
  [CEv.tilTDmaBadDesc, CEv.tilTDmaDenied, CEv.tilTDmaPoisoned, CEv.tilTDmaAbort, CEv.tilTPreempt, CEv.tilTDispatch, CEv.tilTDoubleFault, CEv.tilTHopPutDrop] ++
  [CEv.tilTFault, CEv.tilRetired, CEv.tilCfgInvalid, CEv.schThFlagInactive, CEv.schThCancelCoincidence, CEv.schGStarveWin, CEv.schGStranded, CEv.schTPreemptRequest] ++
  [CEv.schTEvacHold, CEv.schTTileStopped, CEv.schFlagBackpressure, CEv.schCmdBadPacket, CEv.schCfgInvalid, CEv.hopHLostItem, CEv.hopHOverflowSwap, CEv.hopHSwapResidueLost] ++
  [CEv.hopHAbort, CEv.hopHTooLong, CEv.hopHPutVoid, CEv.hopHFlushVoid, CEv.hopHMarkLost, CEv.hopHFlushDiscard, CEv.hopHClosedDrop, CEv.hopHDestroyDiscard] ++
  [CEv.hopHCe, CEv.hopHUe, CEv.hopCfgInvalid, CEv.medLineStateOverride, CEv.medLineToneDisable, CEv.medLineLateFrame, CEv.medLineHybApplySlip, CEv.medLineHookGlitch] ++
  [CEv.medLineHookEdgesLost, CEv.medLineCadenceOverrun, CEv.medLineDestroyAbort, CEv.medNoChannelDrop, CEv.medUdpCsumDrop, CEv.medRtpBadHeader, CEv.medRtpPtDrop, CEv.medRtpSsrcDrop] ++
  [CEv.medRtpBadPayload, CEv.medJbDupDrop, CEv.medJbLateDrop, CEv.medJbEarlyDrop, CEv.medJbReanchor, CEv.medRtcpBadDrop, CEv.medPktLateFrame, CEv.medRfc4733Drop] ++
  [CEv.medT38NoResource, CEv.medBridgeLegLate, CEv.medBridgeMixLate, CEv.medBridgeLateMix, CEv.medPageSkip, CEv.medDestroyDiscard, CEv.medAlarmSlotExhausted, CEv.ethELinkDown] ++
  [CEv.ethETxBadPacket, CEv.ethETxNoKey, CEv.ethETxCsumSkip, CEv.ethERxAddrDrop, CEv.ethERxRunt, CEv.ethERxOversize, CEv.ethERxFcsError, CEv.ethERxPcsError] ++
  [CEv.ethEMacCtrlDrop, CEv.ethEPauseFrames, CEv.ethEPauseQuanta, CEv.ethERxIpCsumDrop, CEv.ethERxL4CsumDrop, CEv.ethEPtpRestartDrop, CEv.ethEFlowDrop, CEv.ethERxBufferDrop] ++
  [CEv.ethERxTooLong, CEv.ethERxNoHopper, CEv.ethERxDisabledDrop, CEv.ethEQLinkDownDrop, CEv.ethEQDisableDrop, CEv.ethEQSwitchLost, CEv.ethEQCeilingHold, CEv.ethEQPfcFrames] ++
  [CEv.ethEQPauseQuanta, CEv.ethProtectSwitch, CEv.ethCfgInvalid, CEv.klnOtpBurn, CEv.klnOtpBurnFail, CEv.klnStatementReject, CEv.klnRecordAbandon, CEv.klnImageReject] ++
  [CEv.klnBootSlotReject, CEv.klnReloadMismatch, CEv.klnDtlsBadRecord, CEv.klnImportReject, CEv.klnJobBad, CEv.klnEntropyFail, CEv.klnTamper, CEv.klnTamperHold] ++
  [CEv.klnHoldOtpExhausted, CEv.klnIntegrityAlarm, CEv.klnDebugUnlock, CEv.klnDbgBarAccess, CEv.klnEvtOverwrite, CEv.klnESrtpNoKey, CEv.klnESrtpSsrcDrop, CEv.klnESrtpReplayDrop] ++
  [CEv.klnESrtpAuthFail, CEv.klnESrtpLinkHit, CEv.klnEKeyExhausted, CEv.klnETamperDrop, CEv.hifLockRefused, CEv.hifLockBadValue, CEv.hifSealedRead, CEv.hifSealedWrite] ++
  [CEv.hifWindowDenied, CEv.hifDbFetchError, CEv.hifDmaReadError, CEv.hifCmdAdmitHold, CEv.hifBmeDrop, CEv.hifRxRestartDrop, CEv.hifEvtMisrouted, CEv.hifEvtDiscard] ++
  [CEv.hifEvtRestartOverwrite, CEv.hifCfgInvalid, CEv.hifRingDbBad, CEv.hifRingDbStale, CEv.hifRingDbInvalid, CEv.hifRingCplFullHold, CEv.hifRingTxpBad, CEv.hifRingRxpBadBuf] ++
  [CEv.hifRingDmpBadBuf, CEv.hifRingRxNobufDrop, CEv.hifRingRxNoRing, CEv.hifRingEvtOverflow, CEv.hifRingCpl, CEv.tmpJobBad, CEv.tmpStoredBlock, CEv.tmpRawBlock] ++
  [CEv.tmpCheckFail, CEv.tmpPartial, CEv.tmpPoisoned, CEv.tmpRspLost, CEv.tmpAbort, CEv.tmpCfgInvalid, CEv.dmcRankCe, CEv.dmcRankUe] ++
  [CEv.dmcRankPoisonRead, CEv.dmcRankPoisonMerge, CEv.dmcRankTrainFail, CEv.dmcRankRefreshPostponed, CEv.dmcRankRefreshUrgent, CEv.dmcRankOvertemp, CEv.dmcRankRetire, CEv.dmcRankMigFail] ++
  [CEv.dmcRankMigAbort, CEv.dmcRankMigPoisonCopied, CEv.dmcRankBistError, CEv.dmcPortLate, CEv.dmcPortPanic, CEv.dmcInorderEntry, CEv.dmcEccMiss, CEv.dmcScrubPass] ++
  [CEv.dmcNoSpare, CEv.dmcAddrDenied, CEv.dmcCfgInvalid, CEv.sysWarmStart, CEv.sysControlRestart, CEv.sysStateCheckFail, CEv.sysBoardCfgInvalid, CEv.sysPfwAssert] ++
  [CEv.sysBarBadAccess, CEv.sysEmberEventOverwrite, CEv.sysEvacNoSpare, CEv.sysQsramRowRepair, CEv.sysQsramRowExhausted, CEv.sysCtrlSramCe, CEv.sysCtrlRowRepair, CEv.sysCtrlRowExhausted] ++
  [CEv.sysStageDiscard, CEv.sysImageWriteFail, CEv.sysImageWriteAbandon, CEv.sysFatalLockstep, CEv.sysFatalCtrlUe, CEv.sysFatalWatchdog, CEv.sysFatalKiln, CEv.sysAshCapture] ++
  [CEv.sysAshBusy, CEv.sysAshNoKey, CEv.sysAshPackRestart, CEv.sysAshDiscard, CEv.sysTEvac, CEv.sysTEvacOverrun]

/-- One counter: its kind and the numbers of its instance (0 where the kind has none). -/
structure Ctr where
  ev : CEv
  i  : Nat := 0
  j  : Nat := 0
deriving DecidableEq, Repr

/-- The key under which a counter's count is held. -/
def Ctr.key (c : Ctr) : Nat := (c.ev.ctorIdx * 65536 + c.i) * 64 + c.j

/-- The counter's name, unit.instance.event (R16). -/
def Ctr.name (c : Ctr) : String :=
  let f := c.ev.info
  f.unit ++ "." ++ f.word ++ (if f.ni = 0 then "" else toString c.i)
    ++ (if f.sub = "" then "" else "." ++ f.sub ++ toString c.j)
    ++ "." ++ f.ev ++ f.ends.getD c.j ""

/-- Every counter of the device, kind by kind and number by number. -/
def allCtrs : List Ctr :=
  CEv.all.flatMap (fun e =>
    (List.range (max 1 e.info.ni)).flatMap (fun i =>
      (List.range (max 1 e.info.nj)).map (fun j => ({ ev := e, i := i, j := j } : Ctr))))

end Sys2Proof.Machine
end

