-- ==== Sys2Proof/Machine/UnitDram.lean ====
section
/-! DEFINITION. What the DRAM controller holds (chapter 16): ranks and their map, ports and requests, the ECC cache's
lines, refresh, power-down, the scrubber, retirements and migrations. -/
namespace Sys2Proof.Machine
open Sys2Proof

/-- RANK_STATE (DMC_STATUS). -/
inductive RState where
  | absent | inService | spare | retired
deriving DecidableEq, Repr

/-- A rank: its state and low power, owed refreshes, what MR4 last reported, its open rows (row plus one), the next bank
of the refresh rotation, the place on the line of sub-ticks of its last accrual and of its last transaction, and the
corrected errors of the present scrub pass. -/
structure Rank where
  state   : RState := .absent
  selfRef : Bool := false
  down    : Bool := false
  owed    : Nat := 0
  /-- 0: 1× or lower. 1: 2×. 2: 4×. -/
  rate    : Nat := 0
  derate  : Bool := false
  open_   : List Nat := [0, 0, 0, 0, 0, 0, 0, 0]
  bank    : Nat := 0
  accrued : Nat := 0
  used    : Nat := 0
  passCe  : Nat := 0
  unused  : BitVec 7 := 0
deriving DecidableEq, Repr

/-- A port's settings (DMC_PORT). -/
structure DPort where
  target : Nat
  rt     : Bool
  panicEn : Bool
  level  : Nat
deriving DecidableEq, Repr

/-- What a request does: a requester's read or write, a read of the scrubber, or a copy of the migration engine. -/
inductive DKind where
  | read | write (data : List Byte) | scrub | copyRead | copyWrite
deriving DecidableEq, Repr

/-- A request accepted and not yet served: its number, port, address and length in the DRAM address space, the rank and
offset it goes to, when it was accepted, and whether it has been counted late. A copy's address is its offset. -/
structure DReq where
  id   : Nat
  port : Nat
  addr : Nat
  len  : Nat
  kind : DKind
  rank : Nat
  off  : Nat
  at_  : Nat
  late : Bool
  /-- The port's settings at its acceptance (R450). -/
  set  : DPort
deriving DecidableEq, Repr

/-- A migration: source, spare, whether the spare is still in training, the blocks copied, and the block locked between its
copy read and its copy write (R446). -/
structure Mig where
  src : Nat
  dst : Nat
  training : Bool
  done : Nat
  lock : Option Nat
deriving DecidableEq, Repr

/-- An entry of the error log: kind 0 ce, 1 ue, 2 poison_read. -/
structure DErr where
  rank : Nat
  block : Nat
  kind : Nat
  stamp : Nat
deriving DecidableEq, Repr

structure Dram where
  ranks  : Store Rank
  pop    : BitVec 4
  density : Nat
  spareEn : Bool
  /-- The designated spare, as the start designated it, and the spare there is. -/
  spareCfg : Nat
  spare  : Option Nat
  rate   : Nat
  map    : List Nat
  trainErr : Bool
  ports  : List DPort
  reqs   : List DReq
  nextId : Nat
  /-- What each port was last answered: the status and the data. -/
  answer : Store (Status × List Byte)
  /-- Ports in in-order mode: the writes each waits for, at key 2 × port + channel (R433). -/
  inorder : Store (List Nat)
  /-- The sets of the ECC cache: line keys with their dirty bit, most recently used first. -/
  cache  : Store (List (Nat × Bool))
  /-- Blocks of the address space that carry the poison pattern. -/
  poison : Store Bool
  pdIdle : Nat
  allBank : Bool
  scrubEn : Bool
  scrubRate : Nat
  ceRetire : Nat
  ceEvt  : Bool
  /-- DRAM_SCRUB_SET waiting for the next tick boundary: EN, RATE, CE_RETIRE, CE_EVT. -/
  scrubNew : Option (Bool × Nat × Nat × Bool)
  /-- The next block the scrubber reads, the reads owed to this tick, and the last tick, plus one, of its reads. -/
  scrubPos : Nat
  scrubOwed : Nat
  scrubAt : Nat
  mr4At  : Nat
  mig    : Option Mig
  /-- The spare is under test (R448). -/
  testing : Bool
  /-- Retirement triggers that wait (R445). -/
  retire : List Nat
  log    : List DErr
deriving DecidableEq, Repr

/-- Table 16.2. -/
def defaultPorts : List DPort :=
  [⟨2000, true, false, 48⟩, ⟨2000, true, false, 48⟩, ⟨1000, true, false, 48⟩, ⟨1000, true, false, 48⟩,
   ⟨10000, false, false, 48⟩, ⟨5000, false, false, 48⟩, ⟨50000, false, false, 48⟩, ⟨2000, false, false, 48⟩,
   ⟨20000, false, false, 48⟩, ⟨100000, false, false, 48⟩]

def Dram.reset : Dram where
  ranks := []
  pop := 0
  density := 0
  spareEn := false
  spareCfg := 0
  spare := none
  rate := 0
  map := []
  trainErr := false
  ports := defaultPorts
  reqs := []
  nextId := 0
  answer := []
  inorder := []
  cache := []
  poison := []
  pdIdle := 64
  allBank := false
  scrubEn := true
  scrubRate := 1
  ceRetire := 0
  ceEvt := false
  scrubNew := none
  scrubPos := 0
  scrubOwed := 0
  scrubAt := 0
  mr4At := 0
  mig := none
  testing := false
  retire := []
  log := []

end Sys2Proof.Machine
end

