-- ==== Sys2Proof/Machine/UnitHtb.lean ====
section
/-! DEFINITION. What the Hearth holds beside its clock (chapter 2): states, sources, the servo's standing, the step and
slew in progress, alarm slots and settings. -/
namespace Sys2Proof.Machine
open Sys2Proof

/-- The Hearth's states (Tables 2.6 and 2.12). -/
inductive HState where
  | freeRun | coarse | locked | holdover
deriving DecidableEq, Repr

/-- An alarm slot (Tables 2.8 and 2.11). -/
structure Alarm where
  armed    : Bool := false
  absolute : Bool := false
  /-- The target stamp. -/
  target   : Nat := 0
  /-- The stamp at which the slot fires: its target, or the next sub-tick for an arming in the past (R53). -/
  due      : Nat := 0
  period   : Nat := 0
  typ      : Nat := 0
  targets  : Nat := 0
  /-- One plus the stamp of the last firing (R55). -/
  firedAt  : Nat := 0
deriving DecidableEq, Repr

/-- A 25 MHz reference input (R43). -/
structure RefIn where
  ok   : Bool := false
  lost : Bool := false
  good : Nat := 0
deriving DecidableEq, Repr

/-- One PTP port as the alternate BMCA leaves it (R40), and the quality level of its port's SyncE (R42). -/
structure PtpPort where
  slave   : Bool := false
  /-- The rank of its dataset: the lower, the better. -/
  dataset : Nat := 0
  dnu     : Bool := false
  link    : Bool := false
  /-- Seconds and nanoseconds of the last event message delivered (R324, R325). -/
  rxSec   : Nat := 0
  rxNs    : Nat := 0
  /-- The same of the last Delay_Req sent without TS_INSERT (R325). -/
  txSec   : Nat := 0
  txNs    : Nat := 0
deriving DecidableEq, Repr

structure Htb where
  state   : HState
  ticksIn : Nat
  /-- SEL_TIME_SRC and SEL_FREQ_SRC (Table 2.12). -/
  timeSrc : Nat
  freqSrc : Nat
  /-- The servo's estimate of source time minus Hearth time, in ns. -/
  offset  : Int
  utcOff  : Int
  servoOn : Bool
  forced  : Bool
  /-- Ticks with every servo update within the lock threshold; updates beyond four times it; updates since the
  selection; ticks without a time source. -/
  inTicks : Nat
  inRun   : Bool
  badUpd  : Nat
  sinceSel : Nat
  noSrc   : Nat
  /-- An offset beyond STEP_THRESH is being slewed and has been counted (R47). -/
  overRun : Bool
  /-- The step waiting for a tick divisible by 160, in ticks (R48); whether SET_TIME_OF_DAY asked for it (R49). -/
  step    : Option Int
  stepTod : Bool
  /-- The Hearth is leaving FREE_RUN or HOLDOVER: a step may be made in COARSE whatever STEP_IN_SERVICE says (R47). -/
  leaving : Bool
  /-- What is being slewed away, in twelfths of a femtosecond, and the media clock's departure from the frequency source's
  frequency in units of a 4,000th of a ppm (R46, R49). -/
  residue : Int
  rate    : Int
  /-- The media clock keeps its departure: the last disciplined frequency of HOLDOVER (Table 2.6). -/
  rateHeld : Bool
  todSet  : Bool
  /-- The Hearth has left FREE_RUN since the last cold start (R358). -/
  left    : Bool
  refA    : RefIn
  refB    : RefIn
  port0   : PtpPort
  port1   : PtpPort
  ppsRej  : Nat
  synceOpt : Bool
  ppsEdge : Bool
  synceOut : Nat
  profile : Nat
  domain  : Nat
  l2Addr  : Bool
  alarms  : Store Alarm
  /-- The last boundary event of this tick that has been delivered, in the order of R37: 0 TICK, 1 to 4 the CLOSE events,
  5 to 8 the FRAME events. -/
  bnd     : Nat
  /-- One plus the stamp of the sub-tick in which actions were last issued, and how many (R52). -/
  issueAt : Nat
  issued  : Nat
  /-- Settings (HTB_SRC_CFG to HTB_PTP_PRIO), as weighed at the lock or as a command has set them. -/
  enables : BitVec 6
  nextEn  : Option (BitVec 6)
  ptpOff  : Bool
  revertive : Bool
  lockNs  : Nat
  dwell   : Nat
  stepThr : Nat
  slewMax : Nat
  stepSvc : Bool
  srcLoss : Nat
  holdLim : Nat
  hostSlots : Nat
  ppsOut  : Bool
  ppsWidth : Nat
  ppsInComp : Int
  ppsOutComp : Int
  prio0   : Nat
  prio1   : Nat
deriving DecidableEq, Repr

def Htb.reset : Htb where
  state := .freeRun
  ticksIn := 0
  timeSrc := 0
  freqSrc := 2
  offset := 0
  utcOff := 0
  servoOn := true
  forced := false
  inTicks := 0
  inRun := false
  badUpd := 0
  sinceSel := 0
  noSrc := 0
  overRun := false
  step := none
  stepTod := false
  leaving := false
  residue := 0
  rate := 0
  rateHeld := false
  todSet := false
  left := false
  refA := {}
  refB := {}
  port0 := {}
  port1 := {}
  ppsRej := 0
  synceOpt := false
  ppsEdge := false
  synceOut := 0
  profile := 0
  domain := 24
  l2Addr := false
  alarms := []
  bnd := 8
  issueAt := 0
  issued := 0
  enables := 0x20
  nextEn := none
  ptpOff := false
  revertive := false
  lockNs := 100
  dwell := 80
  stepThr := 8
  slewMax := 100
  stepSvc := false
  srcLoss := 24000
  holdLim := 1440
  hostSlots := 256
  ppsOut := false
  ppsWidth := 100
  ppsInComp := 0
  ppsOutComp := 0
  prio0 := 128
  prio1 := 128

end Sys2Proof.Machine
end

