-- ==== Sys2Proof/Machine/Dev.lean ====
section
/-! DEFINITION. Everything the device holds but its clock, its byte memories and the queue of commands. -/
namespace Sys2Proof.Machine
open Sys2Proof

/-- The device. -/
structure Dev where
  /-- Counters that are not zero (R15). -/
  ctr   : Store Nat
  /-- Commands accepted and not yet answered. -/
  waits : List Waiter
  /-- How many free values have been drawn: the model's own field (see the assumption log). -/
  freeN : Nat
  /-- BAR0 registers that host software has written, or whose value a warm start has kept (R494, R499). -/
  regs  : Store (Option Word)
  hif   : Hif
  sch   : Sch
  hop   : Hop
  til   : Til
  htb   : Htb
  oll   : Oll
  fce   : Fce
  cal   : Cal
  dram  : Dram
  eth   : Eth
  med   : Med
  kln   : Kln
  tmp   : Tmp
  sys   : Sys
deriving DecidableEq, Repr

def Dev.reset : Dev where
  ctr := []
  waits := []
  freeN := 0
  regs := []
  hif := Hif.reset
  sch := Sch.reset
  hop := Hop.reset
  til := Til.reset
  htb := Htb.reset
  oll := Oll.reset
  fce := Fce.reset
  cal := Cal.reset
  dram := Dram.reset
  eth := Eth.reset
  med := Med.reset
  kln := Kln.reset
  tmp := Tmp.reset
  sys := Sys.reset

end Sys2Proof.Machine
end

