-- ==== Sys2Proof/Machine/Ops.lean ====
section
/-! DEFINITION. The operations every unit shares: counters, completions, events, interrupts, waiting commands. -/
namespace Sys2Proof.Machine
open Sys2Proof

/-! ### Counters (R15) -/

/-- Add `n` to a counter. -/
def Dev.bumpN (d : Dev) (c : Ctr) (n : Nat) : Dev :=
  { d with ctr := d.ctr.put 0 c.key (d.ctr.get 0 c.key + n) }

/-- Count one. -/
def Dev.bump (d : Dev) (c : Ctr) : Dev := d.bumpN c 1

/-- Count one on a counter of the whole unit. -/
def Dev.bump0 (d : Dev) (e : CEv) : Dev := d.bumpN ⟨e, 0, 0⟩ 1

/-- Count one on a counter of an object. -/
def Dev.bump1 (d : Dev) (e : CEv) (i : Nat) : Dev := d.bumpN ⟨e, i, 0⟩ 1

/-- What a counter reads. -/
def Dev.count (d : Dev) (c : Ctr) : Nat := d.ctr.get 0 c.key

/-! ### Status codes (Table 1.6) -/

def statusCode : Status → Nat
  | .ok => 0x00 | .partialDone => 0x01 | .refusedBusy => 0x02 | .badArg => 0x03 | .noResource => 0x04
  | .notPermitted => 0x05 | .stale => 0x06 | .markLost => 0x07 | .checkFail => 0x08 | .dropped => 0x09
  | .aborted => 0x0A | .unknownObject => 0x0B | .locked => 0x0C | .poisoned => 0x0D | .authFail => 0x0E
  | .internal => 0xFF

/-- The place of a status in the names of the hif.ring counters (R30). -/
def statusIdx : Status → Nat
  | .internal => 15
  | s => statusCode s

/-- The order in which one of several codes that apply is reported (R28); the codes of work done come last. -/
def statusRank : Status → Nat
  | .internal => 1 | .badArg => 2 | .unknownObject => 3 | .notPermitted => 4 | .locked => 5 | .authFail => 6
  | .noResource => 7 | .refusedBusy => 8 | _ => 9

/-- The first code that applies under R28, of those whose condition holds; `fine` where none does. -/
def firstStatus (fine : Status) : List (Bool × Status) → Status
  | [] => fine
  | (c, st) :: r =>
    let rest := firstStatus fine r
    if c && (rest == fine || decide (statusRank st ≤ statusRank rest)) then st else rest

/-! ### Rings -/

def Dev.ring (d : Dev) (n : Nat) : Ring := d.hif.rings.get {} n
def Dev.setRing (d : Dev) (n : Nat) (r : Ring) : Dev :=
  { d with hif := { d.hif with rings := d.hif.rings.put {} n r } }
def Dev.modRing (d : Dev) (n : Nat) (f : Ring → Ring) : Dev := d.setRing n (f (d.ring n))
def Dev.send (d : Dev) (x : Sent) : Dev := { d with hif := { d.hif with sent := x :: d.hif.sent } }

/-- The device makes DMA: Bus Master Enable is 1, the function is not in D3hot, and no control restart is in
progress (R374, R399). -/
def Dev.dmaOn (d : Dev) : Bool := d.hif.bme && !d.hif.d3hot && !d.hif.paused

/-- The slots the host has given and the device has not filled. -/
def Ring.free (r : Ring) : Nat := (r.p - r.c).toNat

/-- The number of entries, 2^SIZE_LOG2. -/
def Ring.size (r : Ring) : Nat := 2 ^ r.sizeLog2

/-- PHASE of the entry at index `c` (R396). -/
def Ring.phase (r : Ring) : Nat := (r.c.toNat / r.size + 1) % 2

/-- An enabled ring of a type. -/
def Dev.ringIs (d : Dev) (n typ : Nat) : Bool := (d.ring n).enabled && (d.ring n).typ == typ

/-- A request of `len` bytes at `addr` lies in one window that allows it (R377). -/
def Dev.winOk (d : Dev) (write : Bool) (addr len : Nat) : Bool :=
  d.hif.wins.any (fun w => (if write then w.write else w.read) && decide (0 < w.pages) &&
    decide (w.base ≤ addr) && decide (addr + len ≤ w.base + w.pages * 4096))

/-- The shadow words of the rings of a vector whose consumer index has moved, written before its message (R382). -/
def Dev.shadowFor (d : Dev) (sel : Nat → Ring → Bool) : Dev :=
  d.hif.rings.entries.foldl (fun d p =>
    if sel p.1 p.2 && p.2.c != p.2.shadowC then
      (d.send (.shadow p.1 p.2.c (if p.2.enabled then p.2.gen else 0))).modRing p.1 (fun r => { r with shadowC := r.c })
    else d) d

/-- A vector is masked (R395). The function sends no memory write while DMA is off (R374). -/
def Dev.vecMasked (d : Dev) (v : Nat) : Bool :=
  d.hif.vmask.getLsbD v || d.hif.tblMask.getLsbD v || d.hif.fmask || !d.hif.msixEn || !d.hif.bme || d.hif.d3hot

/-- The pending counts of every ring of a vector return to 0. -/
def Dev.clearPend (d : Dev) (v : Nat) : Dev :=
  d.hif.rings.entries.foldl (fun d p =>
    if p.2.vector == v then d.modRing p.1 (fun r => { r with pend := 0, pendTicks := 0 }) else d) d

/-- A vector is requested (R395): one message where it is not masked, its pending bit set where it is, and one message
for all the requests of one sub-tick. -/
def Dev.requestVec (k : Clock) (d : Dev) (v : Nat) : Dev :=
  if d.vecMasked v then { d with hif := { d.hif with pba := d.hif.pba ||| BitVec.twoPow 64 v } }
  else
    let d := (d.shadowFor (fun _ r => r.vector == v))
    let d := if d.hif.msgAt.get 0 v == clockStamp k + 1 then d
      else { (d.send (.msix v)) with
        hif := { (d.send (.msix v)).hif with msgAt := d.hif.msgAt.put 0 v (clockStamp k + 1),
                                             pba := d.hif.pba &&& ~~~ (BitVec.twoPow 64 v) } }
    d.clearPend v

/-- One item has been written on a ring: its pending count, and the request it may bring (R395). -/
def Dev.wrote (k : Clock) (d : Dev) (n : Nat) : Dev :=
  let r := d.ring n
  if r.irqEn then
    let d := d.setRing n { r with pend := r.pend + 1, pendTicks := if r.pend = 0 then 0 else r.pendTicks }
    if r.modTicks = 0 || decide (max 1 r.modCount ≤ r.pend + 1) then d.requestVec k r.vector else d
  else d

/-- The vectors whose pending bit is set and whose mask has gone send their message (R395). -/
def Dev.drainPba (k : Clock) (d : Dev) : Dev :=
  (List.range 64).foldl (fun d v =>
    if d.hif.pba.getLsbD v && !d.vecMasked v then
      { d with hif := { d.hif with pba := d.hif.pba &&& ~~~ (BitVec.twoPow 64 v) } }.requestVec k v
    else d) d

/-! ### Completions (R386, R387, R30) -/

def fieldsBytes (l : List RField) : List Nat := l.flatMap (fun f => bytesLE f.len f.val)

/-- One completion is written into its CPL ring's next slot and counted where it is not ST_OK. -/
def Dev.writeCpl (k : Clock) (d : Dev) (q : Nat) (e : Cpl) : Dev :=
  let r := d.ring q
  let d := d.send (.cpl q r.c r.phase e)
  let d := d.setRing q { r with c := r.c + 1 }
  let d := if e.status == .ok then d else d.bump ⟨.hifRingCpl, q, statusIdx e.status⟩
  d.wrote k q

/-- Completions held for want of a slot are written, in order, into the slots there are. -/
def Dev.flushCplN : Nat → Clock → Dev → Nat → Dev
  | 0, _, d, _ => d
  | n + 1, k, d, q =>
    match (d.ring q).held with
    | [] => d
    | e :: r =>
      if (d.ring q).enabled && decide (0 < (d.ring q).free) && d.dmaOn then
        Dev.flushCplN n k ((d.modRing q (fun x => { x with held := r })).writeCpl k q e) q
      else d

def Dev.flushCpl (k : Clock) (d : Dev) (q : Nat) : Dev := Dev.flushCplN (d.ring q).held.length k d q

/-- Bytes for a buffer in host memory; they wait while the device makes no DMA (R374). -/
def Dev.hostWr (d : Dev) (a : Nat) (bs : List Nat) : Dev :=
  if d.dmaOn then d.send (.hostWrite a bs) else { d with hif := { d.hif with heldWr := d.hif.heldWr ++ [(a, bs)] } }

/-- Buffer writes that have waited are made, in order. -/
def Dev.flushWr (d : Dev) : Dev :=
  if d.dmaOn then
    d.hif.heldWr.foldl (fun (d : Dev) (x : Nat × List Nat) => d.send (.hostWrite x.1 x.2))
      { d with hif := { d.hif with heldWr := [] } }
  else d

/-- A completion is formed: `wr` goes into the result buffer, then the completion joins those held and is written as soon as
a slot of the bound CPL ring is free. After the reset of a warm start no command completes (R400). -/
def Dev.completeWith (k : Clock) (d : Dev) (o : Origin) (opc : Nat) (st : Status) (wr : List Nat) (result : Nat) : Dev :=
  if d.sys.inReset.isSome then d
  else
    let e : Cpl := { tag := o.tag, status := st, buffered := decide (0 < o.resLen), opcode := opc, cmdRing := o.ring,
                     result := result }
    let d := if 0 < o.resLen && !wr.isEmpty then d.hostWr o.resAddr wr else d
    let mine := fun (x : Outst) => x.ring == o.ring && x.tag == o.tag && x.opcode == opc
    let q := ((d.hif.outst.find? mine).map (·.cpl)).getD (d.ring o.ring).cplRing
    let d := { d with hif := { d.hif with
      outst := d.hif.outst.eraseP mine } }
    (d.modRing q (fun r => { r with held := r.held ++ [e] })).flushCpl k q

/-- A host command is answered (R386, R387): the result is cut at its buffer's length, or at 8 bytes without one. `cut` says
that the chapter allows ST_PARTIAL. -/
def Dev.complete (k : Clock) (d : Dev) (o : Origin) (opc : Nat) (st : Status) (res : List RField)
    (cut : Bool := false) : Dev :=
  let bytes := fieldsBytes res
  let room := if o.resLen = 0 then 8 else o.resLen
  let st' := if cut && st == .ok && decide (room < bytes.length) then .partialDone else st
  let wr := bytes.take o.resLen
  d.completeWith k o opc st' wr (if o.resLen = 0 then ofBytesLE (bytes.take 8) else wr.length + bytes.length * 2 ^ 32)

/-! ### Events (R391, R392, R399) -/

/-- The entries an event and its continuations take (R392). -/
def Evt.slots (e : Evt) : Nat := 1 + (e.more.length + 13) / 14

/-- One event is written into its ring's next entries. -/
def Dev.writeEvt (k : Clock) (d : Dev) (n : Nat) (h : HeldEvt) : Dev :=
  let r := d.ring n
  let d := d.send (.evt n r.c r.phase h.held r.lost (clockStamp k) h.evt)
  let d := d.setRing n { r with c := r.c + BitVec.ofNat 32 h.evt.slots, lost := 0 }
  d.wrote k n

def Dev.flushEvtN : Nat → Clock → Dev → Nat → Dev
  | 0, _, d, _ => d
  | m + 1, k, d, n =>
    match (d.ring n).evts with
    | [] => d
    | h :: r =>
      if (d.ring n).enabled && decide (h.evt.slots ≤ (d.ring n).free) && d.dmaOn then
        Dev.flushEvtN m k ((d.modRing n (fun x => { x with evts := r })).writeEvt k n h) n
      else d

/-- Events in a ring's store are written, oldest first, into the entries there are. -/
def Dev.flushEvt (k : Clock) (d : Dev) (n : Nat) : Dev := Dev.flushEvtN (d.ring n).evts.length k d n

/-- The entries that held events take. -/
def heldSlots (l : List HeldEvt) : Nat := l.foldl (fun n h => n + h.evt.slots) 0

/-- The oldest events go until the others take no more than `room` entries: what is left, and how many went. -/
def dropOld (room : Nat) : List HeldEvt → List HeldEvt × Nat
  | [] => ([], 0)
  | h :: r =>
    if heldSlots (h :: r) ≤ room then (h :: r, 0)
    else ((dropOld room r).1, (dropOld room r).2 + 1)

/-- An event joins its ring's store of 256 entries; the oldest events give way to it where the store is full (R391, R392). -/
def Dev.storeEvt (d : Dev) (n : Nat) (h : HeldEvt) : Dev :=
  let r := d.ring n
  if 256 < heldSlots r.evts + h.evt.slots then
    let q := dropOld (256 - h.evt.slots) r.evts
    (d.bumpN ⟨.hifRingEvtOverflow, n, 0⟩ q.2).setRing n { r with evts := q.1 ++ [h], lost := r.lost + q.2 }
  else d.setRing n { r with evts := r.evts ++ [h] }

/-- An event goes to the ring named, to DEF_EVT_RING, or nowhere (R391). -/
def Dev.postEvt (k : Clock) (d : Dev) (n : Nat) (h : HeldEvt) : Dev :=
  if d.ringIs n 5 then (d.storeEvt n h).flushEvt k n
  else
    let d := if n == d.hif.defEvt then d else d.bump0 .hifEvtMisrouted
    if d.ringIs d.hif.defEvt 5 then (d.storeEvt d.hif.defEvt h).flushEvt k d.hif.defEvt
    else d.bump0 .hifEvtDiscard

/-- An event held through a control restart joins its store, the oldest giving way (R24, R370, R399). -/
def holdEvt (cap : Nat) (l : List (Nat × Evt)) (x : Nat × Evt) : List (Nat × Evt) :=
  if cap ≤ l.length then l.drop 1 ++ [x] else l ++ [x]

def Dev.holdForRestart (d : Dev) (n : Nat) (e : Evt) : Dev :=
  if 0x0880 ≤ e.typ && e.typ ≤ 0x088C then
    let d := if 4096 ≤ d.hif.lineEvts.length then d.bump0 .sysEmberEventOverwrite else d
    { d with hif := { d.hif with lineEvts := holdEvt 4096 d.hif.lineEvts (n, e) } }
  else if e.typ / 256 == 0x0A then
    let d := if 256 ≤ d.hif.klnEvts.length then d.bump0 .klnEvtOverwrite else d
    { d with hif := { d.hif with klnEvts := holdEvt 256 d.hif.klnEvts (n, e) } }
  else
    let d := if 256 ≤ d.hif.restartEvts.length then d.bump0 .hifEvtRestartOverwrite else d
    { d with hif := { d.hif with restartEvts := holdEvt 256 d.hif.restartEvts (n, e) } }

/-- A unit raises an event on the ring named; none is raised in a reset. -/
def Dev.raiseOn (k : Clock) (d : Dev) (n : Nat) (e : Evt) : Dev :=
  if d.sys.inReset.isSome then d
  else if d.hif.paused then d.holdForRestart n e else d.postEvt k n { evt := e, held := false }

/-- A unit raises an event for which no setting names a ring: it goes to DEF_EVT_RING. -/
def Dev.raise (k : Clock) (d : Dev) (e : Evt) : Dev := d.raiseOn k d.hif.defEvt e

/-- An event of the common layout, stamped now (R393). -/
def Dev.event (k : Clock) (d : Dev) (typ detail arg : Nat) (more : List Nat := []) : Dev :=
  d.raise k { typ := typ, detail := detail % 256, stamp := clockStamp k, arg := arg % 2 ^ 32, more := more }

/-! ### Free values and waiting commands -/

/-- Draw `n` free values: the position of the first. -/
def Dev.draw (d : Dev) (n : Nat) : Nat × Dev := (d.freeN, { d with freeN := d.freeN + n })

def Dev.await (d : Dev) (w : Waiter) : Dev := { d with waits := d.waits ++ [w] }

/-- Whether some command waits for this. -/
def Dev.waiting (d : Dev) (kind : WKind) (key : Nat) : Bool := d.waits.any (fun w => w.kind == kind && w.key == key)

/-- A buffer in host memory that a command names: one outside every window is denied (R377). -/
def Dev.bufOk (d : Dev) (write : Bool) (addr len : Nat) : Bool × Dev :=
  if d.winOk write addr len then (true, d) else (false, d.bump0 .hifWindowDenied)

end Sys2Proof.Machine
end

