-- ==== Sys2Proof/Machine/Sched.lean ====
section
/-! DEFINITION. The Barista's cycle (chapter 8): flags, wait conditions, Ready queues, selection, pre-emption, and what
an entry does to threads. The commands stand in Barista.lean. -/
namespace Sys2Proof.Machine
open Sys2Proof

def Dev.thr (d : Dev) (n : Nat) : Thread := d.sch.threads.get {} n
def Dev.setThr (d : Dev) (n : Nat) (t : Thread) : Dev :=
  { d with sch := { d.sch with threads := d.sch.threads.put {} n t } }
def Dev.modThr (d : Dev) (n : Nat) (f : Thread → Thread) : Dev := d.setThr n (f (d.thr n))
def Dev.grp (d : Dev) (g : Nat) : Group := d.sch.groups.get {} g
def Dev.setGrp (d : Dev) (g : Nat) (x : Group) : Dev :=
  { d with sch := { d.sch with groups := d.sch.groups.put {} g x } }
def Dev.stl (d : Dev) (t : Nat) : STile := d.sch.tiles.get {} t
def Dev.setStl (d : Dev) (t : Nat) (x : STile) : Dev :=
  { d with sch := { d.sch with tiles := d.sch.tiles.put {} t x } }
def Dev.modStl (d : Dev) (t : Nat) (f : STile → STile) : Dev := d.setStl t (f (d.stl t))
def Dev.fifo (d : Dev) (g l : Nat) : List Nat := d.sch.fifos.get [] (4 * g + l)
def Dev.setFifo (d : Dev) (g l : Nat) (q : List Nat) : Dev :=
  { d with sch := { d.sch with fifos := d.sch.fifos.put [] (4 * g + l) q } }

/-- The physical tile of a logical position, where it holds one (R145). -/
def Dev.physOf (d : Dev) (t : Nat) : Option Nat :=
  match d.til.map.get 0 t with
  | 0 => none
  | p + 1 => some p

/-- An active position that holds a tile. -/
def Dev.posActive (d : Dev) (t : Nat) : Bool := decide (t < 32) && (d.physOf t).isSome

/-! ### Ready queues (R214) -/

def Dev.pushTail (d : Dev) (n : Nat) : Dev :=
  d.setFifo (d.thr n).group (d.thr n).level (d.fifo (d.thr n).group (d.thr n).level ++ [n])
def Dev.pushHead (d : Dev) (n : Nat) : Dev :=
  d.setFifo (d.thr n).group (d.thr n).level (n :: d.fifo (d.thr n).group (d.thr n).level)
def Dev.unqueue (d : Dev) (n : Nat) : Dev :=
  d.setFifo (d.thr n).group (d.thr n).level ((d.fifo (d.thr n).group (d.thr n).level).filter (· != n))

/-! ### Wait conditions (R210) -/

/-- The wait condition of a thread's MASK and MODE is met by its flags. -/
def Thread.met (t : Thread) : Bool :=
  if t.all then t.flags &&& t.mask == t.mask else t.flags &&& t.mask != 0

/-- A thread becomes Ready at the tail of its level. -/
def Dev.makeReady (d : Dev) (n : Nat) : Dev := (d.modThr n (fun t => { t with state := .ready })).pushTail n

/-- Step 4 of R212: every Waiting thread whose condition is met becomes Ready, in ascending thread number. -/
def Dev.wake (d : Dev) : Dev :=
  d.sch.threads.entries.foldl (fun d p =>
    if p.2.state == .waiting && p.2.met then d.makeReady p.1 else d) d

/-! ### Selection (R215 to R217) -/

/-- The position that a context pointer names. -/
def ctxPos (ctx : Word) : Nat := bitsOf ctx.toNat 19 6

/-- A group's candidate: its first Ready thread whose context pointer does not name a frozen position. -/
def Dev.candidate (d : Dev) (g : Nat) : Option Nat :=
  [3, 2, 1, 0].findSome? (fun l => (d.fifo g l).find? (fun n => !(d.stl (ctxPos (d.thr n).ctx)).frozen))

/-- The groups eligible on a tile, in ascending order. -/
def Dev.eligible (d : Dev) (t : Nat) : List Nat :=
  (List.range 64).filter (fun g => (d.grp g).aff.getLsbD t && (d.candidate g).isSome)

/-- The round of R216: from `cur`, the first group of `cand` with a deficit, each group of `cand` reached on the way
taking its weight. -/
def roundRobin (cand : List Nat) (weight : Nat → Nat) : Nat → Nat → (Nat → Nat) → Nat × (Nat → Nat)
  | 0, cur, df => (cur, df)
  | n + 1, cur, df =>
    if cand.contains cur && decide (0 < df cur) then (cur, df)
    else
      let c := (cur + 1) % 64
      let df' := fun g => if g = c && cand.contains c then weight c else df g
      roundRobin cand weight n c df'

/-- The member of a list with the largest pass count, the lowest on ties. -/
def mostPassed (pass : Nat → Nat) : List Nat → Option Nat
  | [] => none
  | g :: r =>
    match mostPassed pass r with
    | none => some g
    | some h => if pass h ≤ pass g then some g else some h

/-- The group a selection on tile `t` takes from the candidate set, with the deficits, pass counts and round pointer
it leaves (R216). -/
def Dev.selectGroup (d : Dev) (t : Nat) (cand : List Nat) : Option Nat × Dev :=
  let elig := d.eligible t
  let keep := fun (p : Nat × Nat) => p.1 / 64 != t || elig.contains (p.1 % 64)
  let d := { d with sch := { d.sch with deficit := d.sch.deficit.filter keep, pass := d.sch.pass.filter keep } }
  if cand.isEmpty then (none, d)
  else
    let df := fun g => d.sch.deficit.get 0 (64 * t + g)
    let ps := fun g => d.sch.pass.get 0 (64 * t + g)
    let starving := cand.filter (fun g => decide ((d.grp g).ceiling ≤ ps g))
    let (g, d) := match mostPassed ps starving with
      | some g => (g, d.bump1 .schGStarveWin g)
      | none =>
        let (g, df') := roundRobin cand (fun g => (d.grp g).weight) 65 (d.stl t).cur df
        let deficit := cand.foldl (fun (st : Store Nat) h => st.put 0 (64 * t + h) (df' h - if h = g then 1 else 0)) d.sch.deficit
        (g, { d with sch := { d.sch with deficit := deficit } }.modStl t (fun x => { x with cur := g }))
    let pass := elig.foldl (fun (st : Store Nat) h =>
      st.put 0 (64 * t + h) (if h = g then 0 else min (ps h + 1) 65535)) d.sch.pass
    (some g, { d with sch := { d.sch with pass := pass } })

/-- A thread is bound to a tile: it leaves its queue and is Running, not yet resumed. -/
def Dev.bind (d : Dev) (t n : Nat) : Dev :=
  let d := d.unqueue n
  let d := d.modThr n (fun x => { x with state := .running, tile := some t, resumed := false })
  d.modStl t (fun x => { x with bound := some n, idle := false, within := true })

/-- A selection on tile `t` from the candidate set. -/
def Dev.selectOn (d : Dev) (t : Nat) (cand : List Nat) : Dev :=
  match d.selectGroup t cand with
  | (none, d) => d.modStl t (fun x => { x with bound := none, within := true, idle := false })
  | (some g, d) =>
    match d.candidate g with
    | some n => d.bind t n
    | none => d.modStl t (fun x => { x with bound := none, within := true, idle := false })

/-- The selection of an entry (R217, R220, R224): none on a frozen tile; at a pre-emption entry only groups whose
candidate is above the outgoing thread, which itself is taken again where there is none. -/
def Dev.selectEntry (d : Dev) (t : Nat) (out : Option Nat) : Dev :=
  if (d.stl t).frozen then d.modStl t (fun x => { x with bound := none, within := true, idle := false })
  else
    match out with
    | none => d.selectOn t (d.eligible t)
    | some o =>
      let cand := (d.eligible t).filter (fun g =>
        match d.candidate g with
        | some n => decide ((d.thr o).level < (d.thr n).level)
        | none => false)
      if cand.isEmpty then d.bind t o else d.selectOn t cand

/-! ### Pre-emption requests (R219) -/

/-- Ready threads, the highest level first and ascending within a level. -/
def Dev.readyThreads (d : Dev) : List Nat :=
  [3, 2, 1, 0].flatMap (fun l =>
    (d.sch.threads.entries.filter (fun p => p.2.state == .ready && p.2.level == l)).map (·.1))

/-- The tile that a Ready thread may pre-empt: the lowest level, then the lowest number, of those that qualify. -/
def Dev.preemptTarget (d : Dev) (n : Nat) : Option Nat :=
  let lv := (d.thr n).level
  let ok := (List.range 34).filter (fun t =>
    let x := d.stl t
    d.posActive t && (d.eligible t).contains (d.thr n).group && !x.frozen && !x.idle && !x.within && x.req.isNone &&
    (match x.running with
     | some r => (d.thr r).preempt && decide ((d.thr r).level < lv)
     | none => false))
  let lev := fun t => match (d.stl t).running with
    | some r => (d.thr r).level
    | none => 0
  [0, 1, 2].findSome? (fun l => ok.find? (fun t => lev t == l))

/-- Step 6 of R212. -/
def Dev.preempts (d : Dev) : Dev :=
  d.readyThreads.foldl (fun d n =>
    if (List.range 34).any (fun t => (d.stl t).cause == some n) then d
    else
      match d.preemptTarget n with
      | some t => (d.modStl t (fun x => { x with req := some .preempt, cause := some n })).bump1 .schTPreemptRequest t
      | none => d) d

/-! ### Stranded groups (R225) -/

def Dev.stranded (d : Dev) (g : Nat) : Bool :=
  [3, 2, 1, 0].any (fun l => !(d.fifo g l).isEmpty) &&
    !(List.range 32).any (fun t => (d.grp g).aff.getLsbD t && d.posActive t)

/-- Each group that becomes stranded is counted and reported. -/
def Dev.checkStranded (k : Clock) (d : Dev) : Dev :=
  (List.range 64).foldl (fun d g =>
    let now := d.stranded g
    if now == (d.grp g).stranded then d
    else
      let d := d.setGrp g { d.grp g with stranded := now }
      if now then (d.bump1 .schGStranded g).event k 0x06A1 g 0 else d) d

/-! ### One cycle -/

/-- Steps 4 to 6 of R212. `entering` is the tile whose entry reached step 3 of R201 in this cycle, with the outgoing
thread of a pre-emption entry. -/
def Dev.settle (k : Clock) (d : Dev) (entering : Option (Nat × Option Nat)) : Dev :=
  let d := d.wake
  let d := (List.range 34).foldl (fun d t =>
    match entering with
    | some (e, out) =>
      if t = e then d.selectEntry t out
      else if (d.stl t).idle && !(d.stl t).frozen && d.posActive t && !(d.eligible t).isEmpty then
        d.selectOn t (d.eligible t)
      else d
    | none =>
      if (d.stl t).idle && !(d.stl t).frozen && d.posActive t && !(d.eligible t).isEmpty then
        d.selectOn t (d.eligible t)
      else d) d
  d.preempts.checkStranded k

/-- Step 1 of R212: one flag is written (R208). -/
def Dev.writeFlag (d : Dev) (th f : Nat) : Dev :=
  let t := d.thr th
  let d := d.setThr th { t with flags := t.flags ||| BitVec.twoPow 32 f }
  if t.state == .dormant || t.state == .cancelled then d.bump1 .schThFlagInactive th else d

/-- A unit sets one flag of one thread, in a Barista cycle of its own (R208). -/
def Dev.setFlag (k : Clock) (d : Dev) (th f : Nat) : Dev := (d.writeFlag th f).settle k none

/-- Flag sets in the order of R209: by source, then by thread number. -/
def flagBefore (a b : Nat × Nat × Nat) : Bool := decide (a.1 < b.1) || (a.1 == b.1 && decide (a.2.1 ≤ b.2.1))

def insertFlag (a : Nat × Nat × Nat) : List (Nat × Nat × Nat) → List (Nat × Nat × Nat)
  | [] => [a]
  | b :: r => if flagBefore b a then b :: insertFlag a r else a :: b :: r

def sortFlags (l : List (Nat × Nat × Nat)) : List (Nat × Nat × Nat) := l.foldl (fun acc a => insertFlag a acc) []

/-- Sets of (source, thread, flag) that arrive together: eight a cycle, the rest from the input buffer of 4,096, the
sources held off for the cycles it is full (R209). -/
def Dev.flagCycles (k : Clock) : Nat → List (Nat × Nat × Nat) → Dev → Dev
  | 0, _, d => d
  | n + 1, l, d =>
    if l.isEmpty then d
    else
      let d := if 4096 < (l.drop 8).length then d.bump0 .schFlagBackpressure else d
      Dev.flagCycles k n (l.drop 8) (((l.take 8).foldl (fun d s => d.writeFlag s.2.1 s.2.2) d).settle k none)

def Dev.setFlags (k : Clock) (d : Dev) (l : List (Nat × Nat × Nat)) : Dev := d.flagCycles k l.length (sortFlags l)

/-! ### Entries (R201, R211, R220 to R222) -/

/-- The entries of Table 7.16 that the Barista sees. -/
inductive Entry where
  | turn (k : Turn) | preempt | hold | cancel | fault
deriving DecidableEq, Repr

/-- A thread leaves its tile and becomes Cancelled. -/
def Dev.cancelThr (d : Dev) (n : Nat) : Dev :=
  (d.unqueue n).modThr n (fun t => { t with state := .cancelled, tile := none, resumed := false })

/-- A cancel has met a WAIT entry in its own cycle: counted where the thread's condition would have been met (R213). -/
def Dev.waitCoincidence (d : Dev) (n : Nat) (mask : Word) (all : Bool) : Dev :=
  if ({ d.thr n with mask := mask, all := all } : Thread).met then d.bump1 .schThCancelCoincidence n else d

/-- The outgoing thread of an entry takes its new state (Table 8.3); a cancel request absorbed by the thread's own
turn end makes it Cancelled (R221). `same` says that the request was sent in the entry's cycle. -/
def Dev.outgoing (d : Dev) (n : Nat) (e : Entry) (absorbedCancel same : Bool) : Dev :=
  let off := fun (t : Thread) => { t with tile := none, resumed := false }
  match e with
  | .turn k =>
    if absorbedCancel then
      (match k with
       | .wait mask all => if same then d.waitCoincidence n mask all else d
       | _ => d).cancelThr n
    else match k with
      | .wait mask all => d.modThr n (fun t => { off t with state := .waiting, mask := mask, all := all })
      | .yield => (d.modThr n (fun t => { off t with state := .ready })).pushTail n
      | .texit => d.modThr n (fun t => { off t with state := .dormant })
  | .preempt | .hold => (d.modThr n (fun t => { off t with state := .ready })).pushHead n
  | .cancel | .fault => d.cancelThr n

/-- The Barista's part of an entry on tile `t`: the request it takes or absorbs, the outgoing thread, the selection.
A cancel request for a thread that a fault has cancelled is withdrawn with it. -/
def Dev.schEntry (k : Clock) (d : Dev) (t : Nat) (e : Entry) : Dev :=
  let x := d.stl t
  let gone : Bool := match e with
    | .fault => x.req == some Req.cancel
    | _ => true
  let d := d.setStl t { x with running := none, req := if gone then none else x.req,
                               cause := if gone then none else x.cause
                               cancelAt := if gone then none else x.cancelAt }
  let d := match x.running with
    | some n => d.outgoing n e (x.req == some Req.cancel) (x.cancelAt == some k)
    | none => d
  let out := match e with
    | .preempt => x.running
    | _ => none
  d.settle k (some (t, out))

/-- RESUME takes effect on tile `t` (R204). -/
def Dev.schResumed (k : Clock) (d : Dev) (t : Nat) : Dev :=
  let x := d.stl t
  let d := d.setStl t { x with running := x.bound, bound := none, within := false }
  let d := match x.bound with
    | some n => d.modThr n (fun y => { y with resumed := true })
    | none => d
  d.settle k none

/-- Tile `t` has executed IDLE (R204, R217). -/
def Dev.schIdle (k : Clock) (d : Dev) (t : Nat) : Dev :=
  (d.modStl t (fun x => { x with within := false, idle := true, running := none, bound := none })).settle k none

/-- Tile `t` stops after a fault in kernel state: its threads are Cancelled and reported, and its position is frozen
(R222). -/
def Dev.schStop (k : Clock) (d : Dev) (t : Nat) : Dev :=
  let x := d.stl t
  let ths := x.running.toList ++ x.bound.toList
  let d := d.setStl t { x with running := none, bound := none, req := none, cause := none, cancelAt := none, within := false,
                               idle := false, frozen := true, stopped := true }
  let d := ths.foldl (fun d n => (d.cancelThr n).event k 0x06A0 0 (n + t * 2 ^ 13)) d
  (d.bump1 .schTTileStopped t).settle k none

/-- Step 2 of R212 for a cancel (R221): whether the thread is Cancelled at once; a Running thread's tile is sent a
cancel request in place of any other. -/
def Dev.cancelReq (k : Clock) (d : Dev) (n : Nat) : Dev :=
  match (d.thr n).state, (d.thr n).tile with
  | .running, some t => d.modStl t (fun x => { x with req := some .cancel, cause := none, cancelAt := some k })
  | .running, none => d
  | _, _ => d.cancelThr n

end Sys2Proof.Machine
end

