-- ==== Sys2Proof/Machine/HopOps.lean ====
section
/-! DEFINITION. What a Hopper does (R231 to R247): bursts, swaps, reading, put buffers, and the void rules. The commands
and boundary events stand in Hopper.lean. -/
namespace Sys2Proof.Machine
open Sys2Proof

def Dev.hopper (d : Dev) (h : Nat) : Hopper := d.hop.hops.get {} h
def Dev.setHopper (d : Dev) (h : Nat) (x : Hopper) : Dev :=
  { d with hop := { d.hop with hops := d.hop.hops.put {} h x } }
def Dev.modHopper (d : Dev) (h : Nat) (f : Hopper → Hopper) : Dev := d.setHopper h (f (d.hopper h))
def Dev.putBuf (d : Dev) (t : Nat) : PutBuf := d.hop.puts.get {} t
def Dev.setPutBuf (d : Dev) (t : Nat) (x : PutBuf) : Dev :=
  { d with hop := { d.hop with puts := d.hop.puts.put {} t x } }
def Dev.qword (d : Dev) (i : Nat) : Word := d.hop.qsram.get 0 i
/-- A word written has valid check bits. -/
def Dev.setQword (d : Dev) (i : Nat) (v : Word) : Dev :=
  { d with hop := { d.hop with qsram := d.hop.qsram.put 0 i v, qErr := d.hop.qErr.put 0 i 0 } }

/-- A Hopper in use (R231). -/
def Dev.hopUp (d : Dev) (h : Nat) : Bool := decide (h < 1024) && (d.hopper h).setUp

/-- The bank size S in words, and the first word of a bank (R231). -/
def Hopper.size (x : Hopper) : Nat := 2 ^ x.sizeLog2
def Hopper.bankAt (x : Hopper) (b : Nat) : Nat := x.base * 256 + b * x.size
def Hopper.frameLen (x : Hopper) : Nat := 20 * 2 ^ x.frame

/-! ### Swaps -/

/-- The reading order: priority descending, commit order within a priority. -/
def readingOrder (fill : List Pkt) : List Pkt :=
  [7, 6, 5, 4, 3, 2, 1, 0].flatMap (fun p => fill.filter (fun k => k.prio == p))

/-- `swap` of R236. -/
def Dev.hopSwap (k : Clock) (d : Dev) (h : Nat) : Dev :=
  let x := d.hopper h
  let d := d.setHopper h { x with seq := readingOrder x.fill, fill := [], fb := 1 - x.fb, w := 0, rel := 0, rp := 0,
                                  ro := 0, mv := false, due := false }
  if x.swapFlagEn then d.setFlag k x.thread x.swapFlag else d

/-- `discard_drain` of R236: one count for each packet lost. -/
def Dev.discardDrain (d : Dev) (h : Nat) (c : CEv) : Dev :=
  let x := d.hopper h
  if x.seq.length ≤ x.rel then d else d.bumpN ⟨c, h, 0⟩ (x.seq.length - x.rel)

/-- `try_swap` of R236 (R238, R239). -/
def Dev.trySwap (k : Clock) (d : Dev) (h : Nat) : Dev :=
  let x := d.hopper h
  if x.setUp && x.burst.isNone && x.rel == x.seq.length &&
      ((!x.sched && !x.fill.isEmpty) || (x.sched && x.due)) then d.hopSwap k h else d

/-- `forced_swap` of R236 (R239, R240), deferred behind a burst in progress (R233). -/
def Dev.forcedSwap (k : Clock) (d : Dev) (h : Nat) : Dev :=
  let x := d.hopper h
  match x.burst with
  | some b => d.setHopper h { x with burst := some { b with swapAfter := true } }
  | none => (d.discardDrain h .hopHSwapResidueLost).hopSwap k h

/-! ### Bursts -/

def Dev.writeWords (d : Dev) : Nat → List Word → Dev
  | _, [] => d
  | i, v :: r => (d.setQword i v).writeWords (i + 1) r

/-- `burst_start` of R236: a packet that fits in no bank is refused; one that does not fit in the space left makes the
Hopper overflow (R232, R237). -/
def Dev.burstStart (k : Clock) (d : Dev) (h : Nat) (p : Prod) (prio : Nat) (words : List Word) : Status × Dev :=
  let x := d.hopper h
  let n := words.length
  if x.size < n + 1 then (.badArg, d.bump1 .hopHTooLong h)
  else
    let d := if x.size < x.w + n + 1 then
        (((d.discardDrain h .hopHLostItem).bump1 .hopHOverflowSwap h).hopSwap k h)
      else d
    let y := d.hopper h
    let d := d.writeWords (y.bankAt y.fb + y.w + 1) words
    (.ok, d.setHopper h { y with w := y.w + n + 1,
                                 burst := some { prod := p, start := y.w, prio := prio, words := words } })

/-- `burst_end` of R236, and the swap deferred behind the burst. -/
def Dev.burstEndAt (k : Clock) (d : Dev) (h : Nat) (ok : Bool) : Status × Dev :=
  let x := d.hopper h
  match x.burst with
  | none => (.ok, d)
  | some b =>
    let (st, d) :=
      if b.voided then (Status.aborted, d.setHopper h { x with burst := none })
      else if ok then
        let d := d.setHopper h { x with burst := none, fill := x.fill ++ [{ start := b.start, n := b.words.length,
                                                                             prio := b.prio }] }
        (Status.ok, if x.noticeEn then d.setFlag k x.thread x.noticeFlag else d)
      else (Status.aborted, (d.setHopper h { x with burst := none, w := b.start }).bump1 .hopHAbort h)
    (st, if b.swapAfter then d.forcedSwap k h else d)

/-- Producers waiting their turn begin (step 6 of R245): a tile DMA burst stays open until its descriptor completes,
a burst of an Ethernet port until its packet has passed R350, a put buffer's until BURST_END; every other burst is written
whole. -/
def Dev.nextBursts (k : Clock) : Nat → Dev → Nat → Dev
  | 0, d, _ => d
  | m + 1, d, h =>
    let x := d.hopper h
    match x.burst, x.queue with
    | none, w :: r =>
      let d := d.setHopper h { x with queue := r }
      let (st, d) := d.burstStart k h w.prod w.prio w.words
      match st, w.prod with
      | .ok, .dma _ _ => d
      | .ok, .eth _ => d
      | .ok, .put _ => d
      | .ok, _ => Dev.nextBursts k m (((d.burstEndAt k h true).2).trySwap k h) h
      | _, _ => Dev.nextBursts k m d h
    | _, _ => d

/-- The burst in progress ends; then the swaps that are due, then the next burst (R245). -/
def Dev.burstEnd (k : Clock) (d : Dev) (h : Nat) (ok : Bool) : Status × Dev :=
  let (st, d) := d.burstEndAt k h ok
  (st, (d.trySwap k h).nextBursts k (d.hopper h).queue.length h)

/-- The burst of this producer is in progress; it still waits its turn. -/
def Hopper.mine (x : Hopper) (pr : Prod) : Bool := match x.burst with
  | some b => b.prod == pr
  | none => false
def Hopper.waits (x : Hopper) (pr : Prod) : Bool := x.queue.any (fun w => w.prod == pr)

/-- A producer goes away before its packet is committed: the burst is aborted, or its turn is given up (R235). -/
def Dev.dropProducer (k : Clock) (d : Dev) (h : Nat) (pr : Prod) : Dev :=
  let x := d.hopper h
  if x.mine pr then (d.burstEnd k h false).2
  else d.setHopper h { x with queue := x.queue.filter (fun w => w.prod != pr) }

/-- A waiting producer takes its place: behind those that became ready before it; of those that became ready in the same cycle,
in the order of R233. Two with the same reading of the clock are taken as ready in the same cycle (DESIGN CHOICE, log entry
89). -/
def insertWait (w : Waiting) : List Waiting → List Waiting
  | [] => [w]
  | e :: r => if e.at_ = w.at_ ∧ w.prod.place < e.prod.place then w :: e :: r else e :: insertWait w r

/-- A producer begins a burst, or waits its turn; one that has not begun is refused once a destroy has stopped
admission (R233, R247), and a packet that fits in no bank is refused at once (R232). -/
def Dev.burstOpen (k : Clock) (d : Dev) (h : Nat) (p : Prod) (prio : Nat) (words : List Word) : Status × Dev :=
  if !d.hopUp h then (.unknownObject, d)
  else
    let x := d.hopper h
    if x.closing.isSome then (.aborted, d.bump1 .hopHClosedDrop h)
    else if x.burst.isSome && decide (words.length + 1 ≤ x.size) then
      (.ok, d.setHopper h { x with queue := insertWait { at_ := k, prod := p, prio := prio, words := words } x.queue })
    else d.burstStart k h p prio words

/-- A unit of the media plane delivers one whole packet (Table 9.1). -/
def Dev.hopPut (k : Clock) (d : Dev) (h : Nat) (p : Prod) (prio : Nat) (words : List Word) : Status × Dev :=
  let busy := (d.hopper h).burst.isSome
  let (st, d) := d.burstOpen k h p prio words
  if st == .ok && !busy then d.burstEnd k h true else (st, d)

/-! ### Reading (R236, R241, R242) -/

/-- What `get` delivers (Table 7.14). -/
structure Got where
  word  : Word
  idle  : Bool
  first : Bool
  last  : Bool
  prio  : Nat
  left  : Nat
deriving DecidableEq, Repr

/-- The idle item. -/
def idleItem : Got := { word := 0xFFFF0000, idle := true, first := false, last := false, prio := 0, left := 0 }

/-- An error in a word of the queue SRAM (R475): bank by the word's 65,536, row by 16 words. A row that becomes a candidate
is replaced while its bank has a spare row. -/
def Dev.qError (d : Dev) (w : Nat) (ue : Bool) : Dev :=
  let r := w / 16
  let b := r / 4096
  let n := d.sys.qCe.get 0 r + 1
  if ue || decide (d.sys.qrowLimit ≤ n) then
    if d.sys.qUsed.get 0 b < 4 then
      { d with sys := { d.sys with qUsed := d.sys.qUsed.put 0 b (d.sys.qUsed.get 0 b + 1),
                                   qDone := d.sys.qDone.put 0 r (d.sys.qDone.get 0 r + 1),
                                   qCe := d.sys.qCe.put 0 r 0 } }.bump0 .sysQsramRowRepair
    else if d.sys.qLeft.contains r then { d with sys := { d.sys with qCe := d.sys.qCe.put 0 r n } }
    else { d with sys := { d.sys with qLeft := d.sys.qLeft ++ [r],
                                      qCe := d.sys.qCe.put 0 r n } }.bump0 .sysQsramRowExhausted
  else { d with sys := { d.sys with qCe := d.sys.qCe.put 0 r n } }

/-- A word of Hopper `h`'s drain bank is read whose check bits say `e`: the error is counted, and an uncorrectable one stands until
the word is written again (R244, R475). -/
def Dev.qRead (d : Dev) (h w e : Nat) : Dev :=
  if e = 1 then (d.bump1 .hopHCe h).qError w false
  else if e = 2 then
    let d := (d.bump1 .hopHUe h).qError w true
    { d with hop := { d.hop with qErr := d.hop.qErr.put 0 w 2 } }
  else d

/-- What is delivered of a word: zero where it is uncorrectable (R244). -/
def Dev.qdata (d : Dev) (w : Nat) : Word := if d.hop.qErr.get 0 w = 2 then 0 else d.qword w

/-- `get` of R236; `ecc` says what the check bits say beside what stands in the queue SRAM: 1 is a corrected error in the word, 2
an uncorrectable one, delivered as zero (R244). -/
def Dev.hopGet (d : Dev) (h : Nat) (ecc : Nat) : Got × Dev :=
  let x := d.hopper h
  match x.seq[x.rp]? with
  | none => (idleItem, d)
  | some p =>
    let left := p.n - x.ro - 1
    let w := x.bankAt (1 - x.fb) + p.start + 1 + x.ro
    let e := max ecc (d.hop.qErr.get 0 w)
    let v := d.qword w
    let d := d.qRead h w e
    let d := d.setHopper h (if x.ro + 1 = p.n then { x with rp := x.rp + 1, ro := 0 } else { x with ro := x.ro + 1 })
    ({ word := if e = 2 then 0 else v, idle := false, first := x.ro == 0, last := left == 0, prio := p.prio,
       left := left }, d)

/-- The words from the read position to the end of its packet, without moving it. -/
def Dev.hopRest (d : Dev) (h : Nat) : List Word :=
  let x := d.hopper h
  match x.seq[x.rp]? with
  | none => []
  | some p => (List.range (p.n - x.ro)).map (fun i => d.qdata (x.bankAt (1 - x.fb) + p.start + 1 + x.ro + i))

/-- `next` of R236. -/
def Dev.hopNext (d : Dev) (h : Nat) : Dev :=
  let x := d.hopper h
  if x.rp < x.seq.length then d.setHopper h { x with rp := x.rp + 1, ro := 0 } else d

/-- `mark` of R236. -/
def Dev.hopMark (d : Dev) (h : Nat) : Dev :=
  d.modHopper h (fun x => { x with mp := x.rp, mo := x.ro, mv := true })

/-- `rewind` of R236. -/
def Dev.hopRewind (d : Dev) (h : Nat) : Status × Dev :=
  let x := d.hopper h
  if x.mv && decide (x.rel ≤ x.mp) then (.ok, d.setHopper h { x with rp := x.mp, ro := x.mo })
  else (.markLost, (d.setHopper h { x with rp := x.rel, ro := 0 }).bump1 .hopHMarkLost h)

/-- `release` of R236, and the swap it may allow. -/
def Dev.hopRelease (k : Clock) (d : Dev) (h : Nat) : Dev :=
  (d.modHopper h (fun x => { x with rel := max x.rel x.rp })).trySwap k h

/-- The words in error between the read position and the end of its packet are counted as a consumer reads them (R244). -/
def Dev.hopErrors (d : Dev) (h : Nat) : Dev :=
  let x := d.hopper h
  match x.seq[x.rp]? with
  | none => d
  | some p =>
    let a := x.bankAt (1 - x.fb) + p.start + 1
    (d.hop.qErr.entries.filter (fun e => decide (a + x.ro ≤ e.1) && decide (e.1 < a + p.n))).foldl
      (fun d e => d.qRead h e.1 e.2) d

/-- A hardware consumer takes one whole packet: reads it to its end and releases it. -/
def Dev.hopTake (k : Clock) (d : Dev) (h : Nat) : Option (Pkt × List Word) × Dev :=
  match (d.hopper h).seq[(d.hopper h).rp]? with
  | none => (none, d)
  | some p => (some (p, d.hopRest h), ((d.hopErrors h).hopNext h).hopRelease k h)

/-- A packet can be read now. -/
def Dev.hopReady (d : Dev) (h : Nat) : Bool := d.hopUp h && decide ((d.hopper h).rp < (d.hopper h).seq.length)

/-! ### The put buffer (R234, R235) -/

/-- Tile `t`'s open packet is voided and counted; its owner is in the voided state. -/
def Dev.voidPut (d : Dev) (t : Nat) (c : CEv) : Dev :=
  let b := d.putBuf t
  match b.owner with
  | none => d
  | some th =>
    let d := (d.setPutBuf t {}).bump1 c b.hop
    { d with hop := { d.hop with voided := d.hop.voided.put 0 th (b.hop + 1) } }

def Dev.isVoided (d : Dev) (th : Nat) : Bool := d.hop.voided.get 0 th != 0
def Dev.endVoided (d : Dev) (th : Nat) : Dev := { d with hop := { d.hop with voided := d.hop.voided.put 0 th 0 } }

/-- A thread leaves its tile: a packet it owns and has not committed is voided (R235). -/
def Dev.leaveTile (d : Dev) (t th : Nat) : Dev :=
  if (d.putBuf t).owner == some th then d.voidPut t .hopHPutVoid else d

/-- HPUT by thread `th` on tile `t` (R198, R234, R235). -/
def Dev.hput (d : Dev) (t th h : Nat) (v : Word) : Dev :=
  let b := d.putBuf t
  if d.isVoided th then d
  else if !d.hopUp h then d.bump1 .tilTHopPutDrop t
  else match b.owner with
    | none => d.setPutBuf t { owner := some th, hop := h, words := [v], spill := false }
    | some o =>
      if o == th && b.hop == h then
        if b.words.length < 2048 then d.setPutBuf t { b with words := b.words ++ [v] }
        else (d.setPutBuf t { b with spill := true }).bump1 .tilTHopPutDrop t
      else d.bump1 .tilTHopPutDrop t

/-- HCOMMIT (R198, R234, R235): the status as it stands at issue. The owner of a voided packet is answered ST_ABORTED, though its
Hopper be gone (R247). The packet handed over is the burst in progress, or one that waits its turn, until BURST_END. -/
def Dev.hcommit (k : Clock) (d : Dev) (t th h prio : Nat) : Status × Dev :=
  let b := d.putBuf t
  if d.isVoided th then (.aborted, d.endVoided th)
  else if !d.hopUp h then (.unknownObject, d)
  else if b.owner != some th || b.hop != h || b.words.isEmpty then (.badArg, d)
  else
    let d := d.setPutBuf t {}
    if b.spill then (.badArg, d) else d.burstOpen k h (.put t) prio b.words

/-- HABORT (R234, R235). -/
def Dev.habort (d : Dev) (t th h : Nat) : Status × Dev :=
  let d := d.endVoided th
  if !d.hopUp h then (.unknownObject, d)
  else if (d.putBuf t).owner == some th && (d.putBuf t).hop == h then (.ok, d.setPutBuf t {})
  else (.ok, d)

/-! ### Flush and destroy (R246, R247) -/

/-- The put buffers whose open packet names the Hopper are voided. -/
def Dev.voidPuts (d : Dev) (h : Nat) (c : CEv) : Dev :=
  d.hop.puts.entries.foldl (fun d p => if p.2.owner.isSome && p.2.hop == h then d.voidPut p.1 c else d) d

/-- The burst in progress is voided. -/
def Dev.voidBurst (d : Dev) (h : Nat) (c : CEv) : Dev :=
  let x := d.hopper h
  match x.burst with
  | some b => if b.voided then d else
      (d.setHopper h { x with burst := some { b with voided := true } }).bump1 c h
  | none => d

def Dev.hopFlush (k : Clock) (d : Dev) (h : Nat) : Dev :=
  let x := d.hopper h
  let n := x.fill.length + (x.seq.length - x.rel)
  let d := if n = 0 then d else d.bumpN ⟨.hopHFlushDiscard, h, 0⟩ n
  let d := (d.voidBurst h .hopHFlushVoid).voidPuts h .hopHFlushVoid
  let d := d.modHopper h (fun x => { x with w := 0, fill := [], seq := [], rel := 0, rp := 0, ro := 0, mv := false,
                                            due := false })
  d.trySwap k h

/-- Received packets that a Hopper will not take leave their ports' buffering (R233, R317). -/
def Dev.dropFlights (d : Dev) (sel : EFlight → Bool) : Dev :=
  { d with eth := { d.eth with
      flight := d.eth.flight.filter (fun f => !sel f)
      ports := (d.eth.flight.filter sel).foldl (fun (st : Store EPort) f =>
        st.put {} f.port { st.get {} f.port with rxBytes := (st.get {} f.port).rxBytes - f.bytes }) d.eth.ports } }

/-- Step 3 of R247: what is left is discarded, and the Hopper stops being set up. -/
def Dev.hopDestroyEnd (d : Dev) (h : Nat) : Dev :=
  let x := d.hopper h
  let n := x.fill.length + (x.seq.length - x.rel) + x.queue.length
  let d := if n = 0 then d else d.bumpN ⟨.hopHDestroyDiscard, h, 0⟩ n
  let d := (d.voidBurst h .hopHDestroyDiscard).voidPuts h .hopHDestroyDiscard
  let d := d.dropFlights (fun f => f.hop == h)
  let d := { d with regs := d.regs.put none (0x700000 + 8 * h) (some (BitVec.ofNat 32 (x.base + x.sizeLog2 * 2 ^ 16))) }
  d.setHopper h {}

end Sys2Proof.Machine
end

