-- ==== Sys2Proof/Machine/Mems.lean ====
section
/-! DEFINITION. The byte and bundle memories of the tiles and of the DRAM, each a sparse store in canonical form. -/
namespace Sys2Proof.Machine
open Sys2Proof

/-- The memories. An address nothing has written reads as zero (see the assumption log). -/
structure Mems where
  /-- Data memory of physical tile p, byte a, at key p × 2^19 + a. -/
  dm   : Store Byte
  /-- Program memory of physical tile p, bundle a, at key p × 2^14 + a. -/
  pm   : Store Quad
  /-- The DRAM address space, by byte (R426). -/
  dram : Store Byte
deriving DecidableEq, Repr

def Mems.reset : Mems where
  dm := []
  pm := []
  dram := []

/-- Each memory is in its canonical form. -/
abbrev Mems.wf (m : Mems) : Prop := Store.wf 0 m.dm = true ∧ Store.wf 0 m.pm = true ∧ Store.wf 0 m.dram = true

def dmKey (p a : Nat) : Nat := p * 524288 + a
def pmKey (p a : Nat) : Nat := p * 16384 + a

/-- `n` bytes from key `i` on, least significant first. -/
def readBytes (st : Store Byte) (i : Nat) : Nat → List Byte
  | 0 => []
  | n + 1 => st.get 0 i :: readBytes st (i + 1) n

/-- Bytes written from key `i` on. -/
def writeBytes (st : Store Byte) : Nat → List Byte → Store Byte
  | _, [] => st
  | i, b :: r => writeBytes (st.put 0 i b) (i + 1) r

/-- Bytes as a number, least significant first. -/
def bytesNat : List Byte → Nat
  | [] => 0
  | b :: r => b.toNat + 256 * bytesNat r

/-- The `n` low bytes of a number. -/
def natBytes : Nat → Nat → List Byte
  | 0, _ => []
  | n + 1, x => BitVec.ofNat 8 x :: natBytes n (x / 256)

/-- A data memory access of `n` bytes. -/
def Mems.dmRead (m : Mems) (p a n : Nat) : Nat := bytesNat (readBytes m.dm (dmKey p a) n)
/-- The same, with the bytes of `was` as they are given there. -/
def Mems.dmSeen (m : Mems) (was : List (Nat × Byte)) (p a n : Nat) : Nat :=
  if was.isEmpty then m.dmRead p a n
  else bytesNat ((List.range n).map (fun i => match was.find? (fun x => x.1 == a + i) with
    | some x => x.2
    | none => m.dm.get 0 (dmKey p (a + i))))
def Mems.dmWrite (m : Mems) (p a n v : Nat) : Mems := { m with dm := writeBytes m.dm (dmKey p a) (natBytes n v) }
def Mems.dmBytes (m : Mems) (p a n : Nat) : List Byte := readBytes m.dm (dmKey p a) n
def Mems.dmPut (m : Mems) (p a : Nat) (bs : List Byte) : Mems := { m with dm := writeBytes m.dm (dmKey p a) bs }
def Mems.dramBytes (m : Mems) (a n : Nat) : List Byte := readBytes m.dram a n
def Mems.dramPut (m : Mems) (a : Nat) (bs : List Byte) : Mems := { m with dram := writeBytes m.dram a bs }
def Mems.bundle (m : Mems) (p a : Nat) : Quad := m.pm.get 0 (pmKey p a)

/-- Hardware clears a tile's data memory (R153). -/
def Mems.clearDm (m : Mems) (p : Nat) : Mems := { m with dm := m.dm.clear (dmKey p 0) (dmKey (p + 1) 0) }

/-- The image loader writes a tile's program memory from bundle 0 on, and leaves none of what it held (R150). -/
def writeBundles (st : Store Quad) : Nat → List Quad → Store Quad
  | _, [] => st
  | i, b :: r => writeBundles (st.put 0 i b) (i + 1) r

def Mems.loadPm (m : Mems) (p : Nat) (img : List Quad) : Mems :=
  { m with pm := writeBundles (m.pm.clear (pmKey p 0) (pmKey (p + 1) 0)) (pmKey p 0) img }

end Sys2Proof.Machine
end

