-- ==== Sys2Proof/Machine/State.lean ====
section
/-! DEFINITION. The machine's state, its reset, and the reasons a step can stop. -/
namespace Sys2Proof.Machine
open Sys2Proof

/-- The whole of the block. -/
structure State where
  /-- Hearth time. -/
  clk : Clock
  /-- Every register, queue, table and mode. -/
  dev : Dev
  /-- The tiles' memories and the DRAM. -/
  mem : Mems
  /-- The commands and events waiting, first in, first out. -/
  pending : List Instr
deriving DecidableEq, Repr

/-- Why a step stops with a fault. No command of the block does. -/
inductive Fault where
  /-- Raised by nothing: the block counts every fault of its inputs and goes on (R25). Safe. -/
  | none
deriving DecidableEq, Repr

/-- Why a command is refused. -/
inductive Refusal where
  /-- The command has no meaning in this model yet; raised by exec alone. Safe. -/
  | notModelled (mnemonic : String)
deriving DecidableEq, Repr

/-- The device without power: tick 0, every unit at the reset values of its registers, no power-on made yet. -/
def State.reset : State where
  clk := { tick := 0, sub := 0, fine := 0 }
  dev := Dev.reset
  mem := Mems.reset
  pending := []

/-- What a command answers. -/
abbrev Out := Host.Outcome State Fault Refusal

/-- A command that changes the device alone. -/
def onDev (f : Clock → Dev → Dev) (s : State) : Out := .next { s with dev := f s.clk s.dev }

/-- A command that changes the device and the memories. -/
def onMem (f : Clock → Mems → Dev → Mems × Dev) (s : State) : Out :=
  .next { s with mem := (f s.clk s.mem s.dev).1, dev := (f s.clk s.mem s.dev).2 }

/-- A command or event that falls at sub-tick `n` of the tick: the clock moves forward to it. Nothing happens where that
sub-tick has passed. -/
def atSub (n : Nat) (f : State → Out) (s : State) : Out :=
  if s.clk.sub ≤ n ∧ n < 3072 then f { s with clk := { s.clk with sub := n } } else .next s

end Sys2Proof.Machine
end

