-- ==== Sys2Proof/Machine/Answer.lean ====
section
/-! DEFINITION. How a command's outcome reaches whoever sent it: a host completion (R386), a lane's status packet (R81),
a completion packet of the filter engine (R122) or of the Barista (R229). -/
namespace Sys2Proof.Machine
open Sys2Proof

/-- Bytes as words, four to a word, least significant first, the last padded with zeros. -/
def bytesWordsN : Nat → List Nat → List Word
  | 0, _ => []
  | n + 1, l => if l.isEmpty then [] else BitVec.ofNat 32 (ofBytesLE (l.take 4)) :: bytesWordsN n (l.drop 4)
def bytesWords (l : List Nat) : List Word := bytesWordsN l.length l

def Dev.lane (d : Dev) (q : Nat) : Lane := d.oll.lanes.get {} q
def Dev.setLane (d : Dev) (q : Nat) (x : Lane) : Dev := { d with oll := { d.oll with lanes := d.oll.lanes.put {} q x } }
def Dev.modLane (d : Dev) (q : Nat) (f : Lane → Lane) : Dev := d.setLane q (f (d.lane q))
def Dev.line (d : Dev) (n : Nat) : Line := d.oll.lines.get {} n
def Dev.setLine (d : Dev) (n : Nat) (x : Line) : Dev := { d with oll := { d.oll with lines := d.oll.lines.put {} n x } }
def Dev.modLine (d : Dev) (n : Nat) (f : Line → Line) : Dev := d.setLine n (f (d.line n))

/-- The four bytes of a line's upstream state as one word. -/
def Line.usWord (x : Line) : Word := BitVec.ofNat 32 (ofBytesLE [x.us0, x.us1, x.us2, x.us3])

/-- A lane's status packet (Table 3.13) into its STATUS_HOP. -/
def Dev.lanePacket (k : Clock) (d : Dev) (q prio frame kind lines fired reason : Nat) (recs : List Word) : Dev :=
  (d.hopPut k (d.lane q).statusHop (.lane q) prio
    (BitVec.ofNat 32 (frame % 2 ^ 24 + kind * 2 ^ 24) :: BitVec.ofNat 32 (lines + fired * 2 ^ 8 + reason * 2 ^ 16) :: recs)).2

/-- The number of the upstream frame last expected. -/
def Lane.lastNum (x : Lane) : Nat := (x.nextNum + (2 ^ 24 - 1)) % 2 ^ 24

/-- A completion packet in the layout of R122. -/
def cplWords (opc tag : Nat) (st : Status) (res : List RField) : List Word :=
  BitVec.ofNat 32 (opc + tag * 2 ^ 16) :: BitVec.ofNat 32 (statusCode st) :: bytesWords (fieldsBytes res)

/-- A command's outcome goes to whoever sent it. -/
def Dev.answer (k : Clock) (d : Dev) (src : Src) (opc : Nat) (st : Status) (res : List RField := []) : Dev :=
  match src with
  | .host o => d.complete k o opc st res
  | .lanePkt q n =>
    d.lanePacket k q 6 (d.lane q).lastNum 1 (2 ^ (n % 8)) 0 0
      [(d.line n).usWord, BitVec.ofNat 32 (statusCode st * 2 ^ 8 + opc * 2 ^ 16)]
  | .fcePkt tag => (d.hopPut k d.fce.statusHop .filter Config.completionPrio.toNat (cplWords opc tag st res)).2
  | .schPkt tag => (d.hopPut k d.sch.statusHop .barista Config.completionPrio.toNat (cplWords opc tag st res)).2
  | .self => d
  | .hostAs o c => d.complete k o c st res

/-- A command is answered now, or waits. -/
def Dev.reply (k : Clock) (d : Dev) (src : Src) (opc : Nat) : Reply → Dev
  | .now st res => d.answer k src opc st res
  | .later kind key => d.await { kind := kind, key := key, src := src, opc := opc }
  | .held => d

/-- The commands that wait for this are answered, in the order accepted. -/
def Dev.finish (k : Clock) (d : Dev) (kind : WKind) (key : Nat) (st : Status) (res : List RField := []) : Dev :=
  let ws := d.waits.filter (fun w => w.kind == kind && w.key == key)
  let d := { d with waits := d.waits.filter (fun w => !(w.kind == kind && w.key == key)) }
  ws.foldl (fun d w => d.answer k w.src w.opc st res) d

/-- The first command that waits for this is answered. -/
def Dev.finish1 (k : Clock) (d : Dev) (kind : WKind) (key : Nat) (st : Status) (res : List RField := []) : Dev :=
  match d.waits.find? (fun w => w.kind == kind && w.key == key) with
  | none => d
  | some w => ({ d with waits := d.waits.erase w }).answer k w.src w.opc st res

/-- A host command: a reserved field that is not zero is judged with the rest of R28; nothing runs while the control
cores restart (R19). `f` is the command's effect and its reply. -/
def hostCmd (o : Origin) (opc : Nat) (f : Clock → Dev → Reply × Dev) (s : State) : Out :=
  if s.dev.hif.paused then .next s
  else if o.rsvBad then onDev (fun k d => d.answer k (.host o) opc .badArg) s
  else onDev (fun k d => let r := f k d; r.2.reply k (.host o) opc r.1) s

/-- A host command answered at once, which may be cut to its result buffer with ST_PARTIAL. -/
def hostRead (o : Origin) (opc : Nat) (f : Clock → Dev → Status × List RField × Dev) (s : State) : Out :=
  if s.dev.hif.paused then .next s
  else if o.rsvBad then onDev (fun k d => d.answer k (.host o) opc .badArg) s
  else onDev (fun k d => let r := f k d; r.2.2.complete k o opc r.1 r.2.1 true) s

end Sys2Proof.Machine
end

