-- ==== Sys2Proof/Machine/Barista.lean ====
section
/-! DEFINITION. The commands and flag events of the Barista (R208, R213, R221, R228, R229, Table 8.6). -/
namespace Sys2Proof.Machine
open Sys2Proof

/-- THREAD_CANCELs whose thread is Cancelled are answered (R221). -/
def Dev.cancelsDone (k : Clock) (d : Dev) : Dev :=
  (d.waits.filter (fun w => w.kind == .threadCancel && (d.thr w.key).state == .cancelled)).foldl
    (fun d w => d.finish k .threadCancel w.key .ok) d

/-- Flag sets of the sources of Table 8.2, in one instant: (source order, thread, flag). -/
def execFlagSet (sets : List (Nat × Nat × Nat)) (s : State) : Out := onDev (fun k d => d.setFlags k sets) s

def Dev.cmdGroupConfig (k : Clock) (d : Dev) (g weight ceiling : Nat) (aff : BitVec 34) : Reply × Dev :=
  if weight = 0 || 255 < weight || ceiling = 0 || 65535 < ceiling || aff.toNat % 2 ^ 32 = 0 then (.now .badArg [], d)
  else if 63 < g then (.now .unknownObject [], d)
  else
    let d := d.setGrp g { d.grp g with weight := weight, ceiling := ceiling, aff := aff }
    let d := { d with sch := { d.sch with deficit := d.sch.deficit.filter (fun p => p.1 % 64 != g) } }
    (.now .ok [], d.settle k none)

/-- The largest pass count of a group over the tiles. -/
def Dev.maxPass (d : Dev) (g : Nat) : Nat := (List.range 34).foldl (fun m t => max m (d.sch.pass.get 0 (64 * t + g))) 0

def Dev.cmdGroupStatus (d : Dev) (g : Nat) : Reply × Dev :=
  if 63 < g then (.now .unknownObject [], d)
  else
    let x := d.grp g
    (.now .ok ([⟨2, x.weight⟩, ⟨2, x.ceiling⟩, ⟨5, x.aff.toNat⟩] ++
      (List.range 4).map (fun l => ⟨2, (d.fifo g l).length⟩) ++ [⟨2, d.maxPass g⟩, ⟨1, b2n x.stranded⟩]), d)

/-- Dormant or Cancelled. -/
def Thread.off (t : Thread) : Bool := t.state == .dormant || t.state == .cancelled

def Dev.cmdThreadConfig (d : Dev) (th g level : Nat) (preempt : Bool) (ctx : Word) : Reply × Dev :=
  let bad := decide (3 < level) || ctx.toNat % 8 != 0 || decide (2 ^ 25 ≤ ctx.toNat) || decide (31 < ctxPos ctx)
  let st := firstStatus .ok [(bad, .badArg), (decide (8191 < th) || decide (63 < g), .unknownObject),
    (!(d.thr th).off, .refusedBusy)]
  if st == .ok then
    (.now .ok [], d.modThr th (fun t => { t with group := g, level := level, preempt := preempt, ctx := ctx }))
  else (.now st [], d)

def Dev.cmdThreadStart (k : Clock) (d : Dev) (th : Nat) (waiting : Bool) (mask : Word) (all clear : Bool) : Reply × Dev :=
  let st := firstStatus .ok [(decide (8191 < th), .unknownObject), (!(d.thr th).off, .refusedBusy)]
  if st == .ok then
    let d := (d.endVoided th).modThr th (fun t => { t with
      state := .waiting, mask := mask, all := all, flags := if clear then 0 else t.flags, tile := none, resumed := false })
    let d := if waiting then d else d.makeReady th
    (.now .ok [], d.settle k none)
  else (.now st [], d)

def Dev.cmdThreadSignal (k : Clock) (d : Dev) (th : Nat) (flags : Word) : Reply × Dev :=
  if flags = 0 then (.now .badArg [], d)
  else if 8191 < th then (.now .unknownObject [], d)
  else (.now .ok [], d.setFlags k (((List.range 32).filter (fun f => flags.getLsbD f)).map (fun f => (9, th, f))))

/-- THREAD_CANCEL with the flag sets that arrive in the same cycle: the first eight are written before it (R212, R213), the
rest in the cycles that follow (R209). -/
def Dev.cmdThreadCancel (k : Clock) (d : Dev) (th : Nat) (sets : List (Nat × Nat × Nat)) : Reply × Dev :=
  let l := sortFlags sets
  let rest := fun (d : Dev) => d.flagCycles k l.length (l.drop 8)
  let d := (l.take 8).foldl (fun d s => d.writeFlag s.2.1 s.2.2) d
  if 8191 < th then (.now .unknownObject [], rest (d.settle k none))
  else
    let t := d.thr th
    let d := if t.state == .waiting && t.met then d.bump1 .schThCancelCoincidence th else d
    let d := rest ((d.cancelReq k th).settle k none)
    (if (d.thr th).state == .cancelled then .now .ok [] else .later .threadCancel th, d)

def tstateCode : TState → Nat
  | .dormant => 0 | .waiting => 1 | .ready => 2 | .running => 3 | .cancelled => 4

/-- A request is outstanding on a thread's behalf (R219). -/
def Dev.causeOf (d : Dev) (th : Nat) : Bool := (List.range 34).any (fun t => (d.stl t).cause == some th)

def Dev.cmdThreadRead (d : Dev) (th : Nat) : Reply × Dev :=
  if 8191 < th then (.now .unknownObject [], d)
  else
    let t := d.thr th
    (.now .ok [⟨1, tstateCode t.state⟩, ⟨4, t.flags.toNat⟩, ⟨4, t.mask.toNat⟩, ⟨1, b2n t.all⟩, ⟨1, t.group⟩, ⟨1, t.level⟩,
      ⟨1, b2n t.preempt⟩, ⟨4, t.ctx.toNat⟩, ⟨1, t.tile.getD 0x3F⟩, ⟨1, b2n t.resumed⟩, ⟨1, b2n (d.causeOf th)⟩], d)

def reqCode : Option Req → Nat
  | none => 0 | some .preempt => 1 | some .hold => 2 | some .cancel => 3

def Dev.cmdTileStatus (d : Dev) (t : Nat) : Reply × Dev :=
  if 33 < t then (.now .unknownObject [], d)
  else
    let x := d.stl t
    (.now .ok ([⟨2, x.running.getD 0xFFFF⟩, ⟨2, x.bound.getD 0xFFFF⟩, ⟨1, b2n x.idle + 2 * b2n x.frozen + 4 * b2n x.within⟩,
      ⟨1, reqCode x.req⟩, ⟨2, x.cause.getD 0xFFFF⟩, ⟨1, x.cur⟩] ++
      (List.range 64).map (fun g => ⟨2, d.sch.deficit.get 0 (64 * t + g)⟩) ++
      (List.range 64).map (fun g => ⟨2, d.sch.pass.get 0 (64 * t + g)⟩)), d)

def execGroupConfig (o : Origin) (g weight ceiling : Nat) (aff : BitVec 34) (s : State) : Out :=
  hostCmd o 0x0620 (fun k d => d.cmdGroupConfig k g weight ceiling aff) s
def execGroupStatus (o : Origin) (g : Nat) (s : State) : Out := hostCmd o 0x0621 (fun _ d => d.cmdGroupStatus g) s
def execThreadConfig (o : Origin) (th g level : Nat) (preempt : Bool) (ctx : Word) (s : State) : Out :=
  hostCmd o 0x0622 (fun _ d => d.cmdThreadConfig th g level preempt ctx) s
def execThreadStart (o : Origin) (th : Nat) (waiting : Bool) (mask : Word) (all clear : Bool) (s : State) : Out :=
  hostCmd o 0x0623 (fun k d => d.cmdThreadStart k th waiting mask all clear) s
def execThreadSignal (o : Origin) (th : Nat) (flags : Word) (s : State) : Out :=
  hostCmd o 0x0624 (fun k d => d.cmdThreadSignal k th flags) s
def execThreadCancel (o : Origin) (th : Nat) (sets : List (Nat × Nat × Nat)) (s : State) : Out :=
  hostCmd o 0x0625 (fun k d => d.cmdThreadCancel k th sets) s
def execThreadRead (o : Origin) (th : Nat) (s : State) : Out := hostCmd o 0x0626 (fun _ d => d.cmdThreadRead th) s
def execSchedTileStatus (o : Origin) (t : Nat) (s : State) : Out := hostCmd o 0x0627 (fun _ d => d.cmdTileStatus t) s

def schOpc : SchCmd → Nat
  | .groupConfig .. => 0x0620 | .groupStatus _ => 0x0621 | .threadConfig .. => 0x0622 | .threadStart .. => 0x0623
  | .threadSignal .. => 0x0624 | .threadCancel .. => 0x0625 | .threadRead _ => 0x0626 | .tileStatus _ => 0x0627
  | .other => 0

def Dev.schRun (k : Clock) (d : Dev) : SchCmd → Reply × Dev
  | .groupConfig g w c a => d.cmdGroupConfig k g w c a
  | .groupStatus g => d.cmdGroupStatus g
  | .threadConfig th g l p c => d.cmdThreadConfig th g l p c
  | .threadStart th w m a c => d.cmdThreadStart k th w m a c
  | .threadSignal th f => d.cmdThreadSignal k th f
  | .threadCancel th sets => d.cmdThreadCancel k th sets
  | .threadRead th => d.cmdThreadRead th
  | .tileStatus t => d.cmdTileStatus t
  | .other => (.now .badArg [], d)

/-- The next packet of CMD_HOP, whose argument block spells `c`; `short` says that it is shorter than its command's
block (R229). The Barista takes it in a control restart too. -/
def execSchCmdPacket (c : SchCmd) (short : Bool) (s : State) : Out :=
  onDev (fun k d =>
    if !d.sch.cmdEn then d
    else match d.hopTake k d.sch.cmdHop with
      | (some (_, w0 :: _), d) =>
        let opc := w0.toNat % 65536
        let r := if short then (Reply.now .badArg [], d.bump0 .schCmdBadPacket)
          else if opc == schOpc c then d.schRun k c else (Reply.now .badArg [], d)
        r.2.reply k (.schPkt (w0.toNat / 65536)) opc r.1
      | (_, d) => d) s

end Sys2Proof.Machine
end

