-- ==== Sys2Proof/Machine/Media.lean ====
section
/-! DEFINITION. The media content that the rules of chapters 10 and 11 make of what the tiles analyse: frames of samples, the
near-end frame of a line (R255 to R258), ALT's content (R259, R267, R269), the detectors (R257, R260, R261). -/
namespace Sys2Proof.Machine
open Sys2Proof

/-! ### Samples -/

def sat16 (x : Int) : Int := clampI (-32768) 32767 x

/-- A gain in tenths of a decibel. -/
def gainDb (tenths x : Int) : Int := if tenths = 0 then x else Config.gain tenths x

/-- Comfort noise: samples that nothing constrains, from the values drawn at `seed` on. -/
def noiseFrame (seed n : Nat) : List Int := (List.range n).map (fun i => sext 16 (Config.free (seed + i)))

/-- A frame of `n` samples at rate `fo`, from one at rate `fi`. -/
def convertTo (fi fo n : Nat) (l : List Int) : List Int :=
  if fi = fo then (l ++ List.replicate n 0).take n else (List.range n).map (fun i => sat16 (Config.convert fi fo l i))

/-- Samples of a frame of `len` ticks at a rate. -/
def frameSamples (rate len : Nat) : Nat := len * rate / 8000

/-- The 16-bit samples of packed words, the earlier in the low half (Table 4.4). -/
def wordSamples (n : Nat) (ws : List Word) : List Int :=
  (ws.flatMap (fun w => [sext 16 w.toNat, sext 16 (w.toNat / 65536)])).take n

/-! ### The detectors (R260, R261) -/

/-- The frequencies of DTMF in tenths of a hertz (ITU-T Q.23), and the digit of a pair (Table 10.8). -/
def dtmfLow : List Nat := [6970, 7700, 8520, 9410]
def dtmfHigh : List Nat := [12090, 13360, 14770, 16330]
def dtmfDigit (r c : Nat) : Nat := ([1, 2, 3, 12, 4, 5, 6, 13, 7, 8, 9, 14, 10, 0, 11, 15][4 * r + c]?).getD 0

def natDist (a b : Nat) : Nat := if a < b then b - a else a - b

/-- A frequency counts as a nominal one: within 1.5 % always, beyond 3.5 % never, between them as the channel has it. -/
def dtmfIs (nominal f : Nat) : Bool :=
  if natDist f nominal * 1000 ≤ 15 * nominal then true
  else if 35 * nominal < natDist f nominal * 1000 then false else Config.dtmfEdge nominal f

/-- The digit heard, with its level in tenths of a dBFS. Twist is forward where the lower tone is the stronger. -/
def Heard.digit (h : Heard) : Option (Nat × Int) :=
  match h.tones with
  | [a, b] =>
    let lo := if a.1 ≤ b.1 then a else b
    let hi := if a.1 ≤ b.1 then b else a
    let lvl := fun (x : Nat × Int) => decide (-360 ≤ x.2) && decide (x.2 ≤ 0)
    match dtmfLow.findIdx? (fun n => dtmfIs n lo.1), dtmfHigh.findIdx? (fun n => dtmfIs n hi.1) with
    | some r, some c =>
      if lvl lo && lvl hi && decide (lo.2 - hi.2 ≤ 80) && decide (hi.2 - lo.2 ≤ 40) then some (dtmfDigit r c, max lo.2 hi.2)
      else none
    | _, _ => none
  | _ => none

/-- What a detector finds: the tick of its stamp, type, detail and argument of Table 10.8. -/
abbrev Found := Nat × Nat × Nat × Nat

/-- One tick of digit detection (R260). -/
def Ears.dtmf (e : Ears) (t : Nat) (dig : Option (Nat × Int)) : Ears × List Found :=
  match e.cur, dig with
  | none, some (g, lv) =>
    if 320 ≤ e.pause then ({ e with cur := some (g, t, 1), told := false, level := lv }, []) else ({ e with pause := 0 }, [])
  | none, none => ({ e with pause := min 320 (e.pause + 1) }, [])
  | some (g, t0, n), dig =>
    if dig.any (fun x => x.1 == g) then
      ({ e with cur := some (g, t0, n + 1), told := e.told || decide (320 ≤ n + 1) },
        if !e.told && 320 ≤ n + 1 then [(t0, 0x0884, 0, g)] else [])
    else if e.told then
      ({ e with cur := none, told := false, pause := b2n dig.isNone }, [(t, 0x0884, 1, g + n % 65536 * 65536)])
    else match dig with
      | some (g', lv) => ({ e with cur := some (g', t, 1), level := lv }, [])
      | none => ({ e with cur := none }, [])

/-- One frequency within `dev` of `f`, in tenths of a hertz. -/
def Heard.single (h : Heard) (f dev : Nat) : Bool :=
  match h.tones with
  | [x] => decide (natDist x.1 f ≤ dev)
  | _ => false

/-- The signal of a DETAIL of Table 10.4 is present. -/
def Heard.fax (h : Heard) (det : Nat) : Bool :=
  if det = 1 then h.single 11000 380 && h.am.isNone
  else if det = 2 then decide (0 < h.flags)
  else if det ≤ 4 then h.single 21000 150 && h.am.isNone
  else h.single 21000 150 && h.am.any (fun a => decide (natDist a.1 1500 ≤ 10) && decide (natDist a.2 200 ≤ 50))

/-- One tick of a fax or modem detector, and whether it reports (Table 10.4). -/
def FaxDet.tick (x : FaxDet) (det : Nat) (h : Heard) : FaxDet × Bool :=
  if h.fax det then
    let since := x.rev.map (· + 1)
    let hit := h.rev && since.any (fun n => decide (3400 ≤ n) && decide (n ≤ 3800))
    let met := if det = 1 then decide (4000 ≤ x.n + 1) else if det = 2 then decide (3 ≤ h.flags)
      else if det = 3 || det = 5 then decide (3200 ≤ x.n + 1) else hit
    ({ n := x.n + 1, told := x.told || met, absent := 0, rev := if h.rev then some 0 else since }, met && !x.told)
  else ({ n := 0, told := x.told && decide (x.absent + 1 < 800), absent := x.absent + 1, rev := none }, false)

/-- The tones of a call progress definition are present (R260). -/
def CptDef.heard (x : CptDef) (h : Heard) : Bool :=
  h.tones.length == x.freqs.length && x.freqs.all (fun f => h.tones.any (fun t =>
    (t.1 == f * 10 || Config.cptEdge (f * 10) t.1) && decide (x.level * 10 ≤ t.2)))

/-- A duration within the definition's tolerance. -/
def CptDef.fits (x : CptDef) (n want : Nat) : Bool := decide (natDist n want * 100 ≤ x.tol * want)

/-- A pair has been matched: the next pair, or the next cycle; whether the cycle count has been matched. -/
def CptRun.pair (r : CptRun) (x : CptDef) : CptRun × Bool :=
  if r.seg + 1 < x.cad.length then ({ r with seg := r.seg + 1 }, false)
  else ({ r with seg := 0, cycles := r.cycles + 1 }, r.cycles + 1 == x.cycles)

/-- One tick of a definition's match, and whether it is reported. A pair without an off time ends with its on time. -/
def CptRun.tick (r : CptRun) (x : CptDef) (p : Bool) : CptRun × Bool :=
  let want := x.cad.getD r.seg (0, 0)
  if p == r.on then
    if p && r.live && want.2 = 0 && r.n + 1 = want.1 then { r with n := r.n + 1 }.pair x else ({ r with n := r.n + 1 }, false)
  else if p then
    if r.live && x.fits r.n want.2 then { r with on := true, n := 1 }.pair x
    else ({ live := true, seg := 0, on := true, n := 1, cycles := 0 }, false)
  else if r.live && x.fits r.n want.1 then ({ r with on := false, n := 1 }, false)
  else ({ live := false, seg := 0, on := false, n := 1, cycles := 0 }, false)

/-- One tick of the detectors of one direction by DETAIL. -/
def faxTick (dets : List Nat) (dir t : Nat) (h : Heard) (st : Store FaxDet) : Store FaxDet × List Found :=
  dets.foldl (fun (p : Store FaxDet × List Found) det =>
    let r := (p.1.get {} det).tick det h
    (p.1.put {} det r.1, if r.2 then p.2 ++ [(t, 0x0886, det, dir)] else p.2)) (st, [])

def cptTick (defs : Store CptDef) (t : Nat) (h : Heard) (st : Store CptRun) : Store CptRun × List Found :=
  defs.entries.foldl (fun (p : Store CptRun × List Found) x =>
    let r := (p.1.get {} x.1).tick x.2 (x.2.heard h)
    (p.1.put {} x.1 r.1, if r.2 then p.2 ++ [(t, 0x0885, x.1, r.1.cycles)] else p.2)) (st, [])

/-- A detector is in service (Table 10.1). -/
def LineMod.detects (m : LineMod) (e : Found) : Bool :=
  if e.2.1 = 0x0884 then m.detMask.testBit 0
  else if e.2.1 = 0x0885 then m.detMask.testBit 1 && m.cptMask.testBit e.2.2.1
  else if e.2.1 = 0x0886 then
    m.detMask.testBit (if e.2.2.1 = 1 then 2 else if e.2.2.1 = 2 then 3 else if e.2.2.1 ≤ 4 then 4 else 5)
  else false

/-- An answer tone with phase reversals (R257). -/
def Found.answer (e : Found) : Bool := e.2.1 == 0x0886 && (e.2.2.1 == 4 || e.2.2.1 == 6)

/-- One tick of everything that listens: the line, the far end for answer tones, and a bypass's end after 2,000 quiet ticks. The
number counts the bypasses that begin. -/
def Ears.tick (e : Ears) (m : LineMod) (defs : Store CptDef) (t : Nat) (h far : Heard) : Ears × List Found × Nat :=
  let a := e.dtmf t h.digit
  let b := faxTick [1, 2, 3, 4, 5, 6] 0 t h e.fax
  let c := faxTick [3, 4, 5, 6] 1 t far e.far
  let x := cptTick defs t h e.cpt
  let found := (a.2 ++ b.2 ++ c.2 ++ x.2).filter m.detects
  let e := { a.1 with fax := b.1, far := c.1, cpt := x.1 }
  match e.bypass with
  | none => if m.toneDis = 1 && found.any Found.answer then ({ e with bypass := some 0 }, found, 1) else (e, found, 0)
  | some q =>
    let q := if h.quiet && far.quiet then q + 1 else 0
    ({ e with bypass := if 2000 ≤ q then none else some q }, found, 0)

/-- Runs laid out tick by tick; a phase reversal is the first tick's. -/
def layOut (l : List Heard) : List Heard :=
  l.flatMap (fun h => if h.ticks = 0 then [] else h :: List.replicate (h.ticks - 1) { h with rev := false })

/-- The ticks of a frame, each with its status: those of status 2 and 3 leave the detectors as they were (R258). The flags say in
which ticks the canceller and the non-linear processor are bypassed. -/
def Ears.frame (m : LineMod) (defs : Store CptDef) : List (Nat × Nat) → List Heard → List Heard → Ears →
    Ears × List Found × Nat × List Bool
  | [], _, _, e => (e, [], 0, [])
  | (t, st) :: r, a, b, e =>
    if 2 ≤ st then
      let q := Ears.frame m defs r a.tail b.tail e
      (q.1, q.2.1, q.2.2.1, e.bypass.isSome :: q.2.2.2)
    else
      let x := e.tick m defs t (a.headD {}) (b.headD {})
      let q := Ears.frame m defs r a.tail b.tail x.1
      (q.1, x.2.1 ++ q.2.1, x.2.2 + q.2.2.1, x.1.bypass.isSome :: q.2.2.2)

/-! ### The near-end frame (R255 to R258) -/

/-- One sample of a good or stale tick: the canceller and the non-linear processor unless bypassed, the upper band, RX_GAIN.
`raw`, `clean` and `high` are the sample received, the canceller's, and what of that lies above 8 kHz; `noise` is comfort noise. -/
def nearSample (m : LineMod) (rate : Nat) (w : LineWork) (bypass : Bool) (raw clean high noise : Int) : Int :=
  let x := if bypass || m.tail = 0 then raw else clean
  let hi := if 24000 ≤ rate then high else 0
  let lo := x - hi
  let lo := if bypass || !w.farAct || w.nearAct then lo
    else if m.nlp = 1 then gainDb (-10 * (m.nlpAtten : Int)) lo
    else if m.nlp = 2 then noise else lo
  let hi := if w.farHigh && !w.nearAct then gainDb (-10 * (m.hb : Int)) hi else hi
  sat16 (gainDb m.rxGain (lo + hi))

/-- A substitute frame: comfort noise, or zeros with NLP 0 (R258). -/
def LineMod.substitute (m : LineMod) (noise : List Int) : List Int := if m.nlp = 0 then noise.map (fun _ => 0) else noise

/-- The frame for the peer, tick by tick: `ticks` gives status and bypass. -/
def nearFrame (m : LineMod) (rate : Nat) (w : LineWork) (raw noise : List Int) (ticks : List (Nat × Bool)) : List Int :=
  let n := rate / 8000
  (ticks.zip (List.range ticks.length)).flatMap (fun t => (List.range n).map (fun q =>
    let i := n * t.2 + q
    let ns := noise.getD i 0
    if 2 ≤ t.1.1 then (if m.nlp = 0 then 0 else ns)
    else nearSample m rate w t.1.2 (raw.getD i 0) (w.clean.getD i 0) (w.high.getD i 0) ns))

/-! ### ALT (R259, R267, R269) -/

/-- A byte framed by a start and a stop bit, least significant first. -/
def byteBits (b : Nat) : List Bool := false :: (List.range 8).map (fun i => b.testBit i) ++ [true]

/-- The message's bytes: type, length, body, and the two's complement of their sum. -/
def CidMsg.bytes (m : CidMsg) : List Nat :=
  let l := m.typ :: m.body.length :: m.body
  l ++ [(256 - l.sum % 256) % 256]

/-- The data (R267): seizure, mark, and the bytes. -/
def CidMsg.bits (m : CidMsg) : List Bool :=
  (List.range 300).map (fun i => i % 2 == 1) ++ List.replicate 180 true ++ m.bytes.flatMap byteBits

/-- CID_DELAY (Table 10.6). -/
def CidMsg.wait (m : CidMsg) : Nat := m.delay.getD (if m.mode = 0 || m.mode = 2 then 4800 else 480)

/-- Ticks of the data: 480 bits of seizure and mark and ten bits to each byte, at 1,200 bit/s. -/
def CidMsg.ticks (m : CidMsg) : Nat := ((480 + 10 * (m.body.length + 3)) * 20 + 2) / 3

/-- The eight samples of tick `t` that a message puts on ALT; none where it puts nothing there. The 16 ticks of the fade are
silent. -/
def CidRun.altTick (r : CidRun) (t : Nat) : Option (List Int) :=
  let at_ := fun (a : Nat) => decide (a ≤ t) && decide (t < a + 16)
  if r.dataAt ≤ t && t < r.dataEnd then
    some ((List.range 8).map (fun q => Config.fsk r.msg.mod r.msg.level r.msg.bits ((t - r.dataAt) * 8 + q)))
  else match r.tas with
    | some a =>
      if a ≤ t && t < a + 800 then
        some ((List.range 8).map (fun q => Config.tone 64000 [(2130, r.msg.level), (2750, r.msg.level)] ((t - a) * 8 + q)))
      else if at_ (a + 800) || at_ r.dataEnd then some (List.replicate 8 0) else none
    | none => if at_ r.dataEnd then some (List.replicate 8 0) else none

def cadTicks (cad : List (Nat × Nat)) : Nat := cad.foldl (fun (a : Nat) (p : Nat × Nat) => a + p.1 + p.2) 0

/-- Position `t` of a cadence's cycle lies in an on time. -/
def cadOn : List (Nat × Nat) → Nat → Bool
  | [], _ => false
  | (on, off) :: r, t => if t < on then true else if t < on + off then false else cadOn r (t - on - off)

/-- The tick at which a tone has faded out, where it does. -/
def ToneRun.gone (x : ToneRun) : Option Nat :=
  match x.fade, x.stop with
  | some f, _ => some f
  | none, some e => some (e + x.ramp)
  | none, none => none

/-- The eight samples of tick `t` of a tone (R269). -/
def ToneRun.altTick (x : ToneRun) (t : Nat) : Option (List Int) :=
  if t < x.start || x.gone.any (fun g => decide (g ≤ t)) then none
  else if cadOn x.cad ((t - x.start) % max 1 (cadTicks x.cad)) then
    some ((List.range 8).map (fun q => Config.tone 64000 x.tones ((t - x.start) * 8 + q)))
  else some (List.replicate 8 0)

/-- The probe is on ALT in a tick. -/
def HybRun.on (h : HybRun) (t : Nat) : Bool := decide (h.start ≤ t) && decide (t < h.start + 3200)

/-- The ticks of a probe, and the one of its fade (R259). -/
def HybRun.altTick (h : HybRun) (level : Int) (t : Nat) : Option (List Int) :=
  if h.on t then some ((List.range 8).map (fun q => Config.probe level ((t - h.start) * 8 + q)))
  else if t = h.start + 3200 then some (List.replicate 8 0) else none

/-- A page's samples of tick `t` (R298). -/
def pageTick (x : Nat × List Int) (t : Nat) : Option (List Int) :=
  if x.1 ≤ t && 8 * (t - x.1) < x.2.length then some ((x.2.drop (8 * (t - x.1))).take 8) else none

/-- What a channel has on ALT in tick `t`: its signals added. -/
def LineCh.altTick (c : LineCh) (t : Nat) : List Int :=
  let l := [c.cid.bind (fun r => r.altTick t), c.tone.bind (fun x => x.altTick t),
            c.hyb.bind (fun h => h.altTick c.set.m.probe t), c.page.bind (fun x => pageTick x t)].filterMap id
  if l.isEmpty then [] else (List.range 8).map (fun q => sat16 ((l.map (fun s => s.getD q 0)).sum))

end Sys2Proof.Machine
end

