-- ==== Sys2Proof/Machine/MedBase.lean ====
section
/-! DEFINITION. What a line channel does at an upstream frame and when its line is lost (R262, R270), and the report of
its events (R272). The commands and turns stand in LineChan.lean. -/
namespace Sys2Proof.Machine
open Sys2Proof

def Dev.lineCh (d : Dev) (n : Nat) : Option LineCh := d.med.lines.get none n
def Dev.setLineCh (d : Dev) (n : Nat) (c : Option LineCh) : Dev :=
  { d with med := { d.med with lines := d.med.lines.put none n c } }
def Dev.modLineCh (d : Dev) (n : Nat) (f : LineCh → LineCh) : Dev := d.setLineCh n ((d.lineCh n).map f)

/-- Events in the order of R272: by stamp, then by type. -/
def evBefore (a b : Nat × Nat × Nat × Nat) : Bool := decide (a.1 < b.1) || (a.1 == b.1 && decide (a.2.1 ≤ b.2.1))
def insertEv (a : Nat × Nat × Nat × Nat) : List (Nat × Nat × Nat × Nat) → List (Nat × Nat × Nat × Nat)
  | [] => [a]
  | b :: r => if evBefore b a then b :: insertEv a r else a :: b :: r
def sortEvs (l : List (Nat × Nat × Nat × Nat)) : List (Nat × Nat × Nat × Nat) := l.foldl (fun acc a => insertEv a acc) []

/-- The command that an event of Table 10.8 ends, and the status it then completes with (R267, R270). -/
def evtEnds (typ detail : Nat) : Option (WKind × Status) :=
  if typ = 0x0887 then some (.lineRing, if detail = 3 then .aborted else .ok)
  else if typ = 0x0888 then some (.lineCid, if detail = 0 then .ok else .aborted)
  else if typ = 0x0889 then some (.lineHyb, if detail = 0 then .ok else .aborted)
  else if typ = 0x088C then some (.lineTone, if detail = 2 then .aborted else .ok)
  else none

/-- Events whose stamps are known though it is not yet known whether they come: a line gone on hook (R262), a tone that is not
yet a digit (R260). -/
def LineCh.pending (c : LineCh) : List (Nat × Nat × Nat × Nat) :=
  (match c.onAt with
    | some a => [(a, 0x0881, 0, 0)]
    | none => []) ++
  (match c.ears.cur with
    | some g => if c.ears.told then [] else [(g.2.1, 0x0884, 0, 0)]
    | none => [])

/-- An event waits for one of those, to keep the order of R272. -/
def LineCh.holds (c : LineCh) (e : Nat × Nat × Nat × Nat) : Bool := c.pending.any (fun p => !evBefore e p)

/-- The channel's events are reported in their order, each ending the command it ends. A DETAIL of 256 and more is that of a command
that has been answered already. -/
def Dev.lineFlush (k : Clock) (d : Dev) (n : Nat) : Dev :=
  match d.lineCh n with
  | none => d
  | some c =>
    let evs := sortEvs c.evq
    let d := d.setLineCh n (some { c with evq := evs.filter c.holds })
    (evs.filter (fun e => !c.holds e)).foldl (fun d e =>
      let d := d.raiseOn k c.set.evtRing { typ := e.2.1, detail := e.2.2.1 % 256, obj := n, stamp := e.1 * 4096, arg := e.2.2.2 }
      match evtEnds e.2.1 e.2.2.1 with
      | some w => if 256 ≤ e.2.2.1 then d else d.finish1 k w.1 n w.2
      | none => d) d

def LineCh.evt (c : LineCh) (tick typ detail arg : Nat) : LineCh := { c with evq := c.evq ++ [(tick, typ, detail, arg)] }

/-- Cycles of a cadence completed. -/
def Ringing.done (r : Ringing) : Nat := (r.fired - 1) / (2 * r.cad.length)

/-- Bytes of caller display sent by a tick: ten bits to a byte after 480 of seizure and mark, twenty ticks to three bits
(R267). -/
def CidRun.sentBy (r : CidRun) (tick : Nat) : Nat :=
  min (r.msg.body.length + 3) (((tick - r.dataAt) * 3 / 20 - 480) / 10)

/-- The key under which the command of a message waits that is armed for a ring. -/
def armedCid (n : Nat) : Nat := 256 + n

/-- A ramp of the line's ALT and MAIN sources, from the next boundary (R113). -/
def Dev.rampTx (d : Dev) (n gm ga ticks : Nat) : Dev :=
  { d with fce := { d.fce with cmds := d.fce.cmds ++ [{ stream := 256 + n, kind := .ramp gm ga ticks, who := some (.self, 0x0408) }] } }

/-- The channel's alarm slot is armed for nothing. -/
def Dev.disarmSlot (d : Dev) (n : Nat) : Dev :=
  match (d.lineCh n).bind (fun c => c.slot) with
  | some x => { d with htb := { d.htb with alarms := d.htb.alarms.put ({} : Alarm) x { d.htb.alarms.get ({} : Alarm) x with armed := false } } }
  | none => d

/-- The channel's alarm slot is disarmed and returned (R277). -/
def Dev.dropSlot (d : Dev) (n : Nat) : Dev :=
  match d.lineCh n with
  | some c => if c.slot.isSome then (d.disarmSlot n).setLineCh n (some { c with slot := none }) else d
  | none => d

/-- The slot is returned where nothing of the channel uses it any more. -/
def Dev.freeSlot (d : Dev) (n : Nat) : Dev :=
  match d.lineCh n with
  | some c => if c.ring.isNone && c.cid.isNone && c.tone.isNone then d.dropSlot n else d
  | none => d

/-- Cycles of a tone's cadence played by a tick. -/
def ToneRun.cycles (t : ToneRun) (tick : Nat) : Nat :=
  let c := cadTicks t.cad
  if c = 0 then 0 else if t.count = 0 then (tick - t.start) / c else min t.count ((tick - t.start) / c)

/-- A characterisation is in progress, its filter's installation included (R259). -/
def LineCh.charac (c : LineCh) : Bool := c.hyb.isSome || c.swaps.any (fun w => w.hyb.isSome)

/-- Ringing, caller display, tone and characterisation end (R270, R271), with RING_DONE 3, CID_DONE 2, TONE_DONE 2 and
HYB_DONE 1; a tone that is not yet a digit is forgotten. A stream stopped for a new bank still starts again. -/
def LineCh.endWork (c : LineCh) (tick : Nat) : LineCh :=
  let c := match c.ring with
    | some r => { (c.evt tick 0x0887 3 r.done) with ring := none }
    | none => c
  let c := match c.cid with
    | some r => { (c.evt tick 0x0888 2 (r.sentBy tick)) with cid := none }
    | none => c
  let c := if c.cidArm.isSome then { (c.evt tick 0x0888 258 0) with cidArm := none } else c
  let c := match c.tone with
    | some t => { (c.evt tick 0x088C 2 (t.cycles tick)) with tone := none }
    | none => c
  let c := if c.charac then c.evt tick 0x0889 1 0 else c
  { c with hyb := none, swaps := c.swaps.map (fun w => { w with hyb := none }), onAt := none,
           ears := if c.ears.told then c.ears else { c.ears with cur := none } }

/-- The idle feed of a line that is lost: a talk feed falls back to STANDBY, and so do RINGING and OHT (R270). -/
def LineCh.lostFeed (c : LineCh) : Nat := if c.offHook || c.feed = 4 || c.feed = 6 then 1 else c.feed

/-- The line is lost (R270). -/
def Dev.lineLost (k : Clock) (d : Dev) (n : Nat) : Dev :=
  match d.lineCh n with
  | none => d
  | some c =>
    let alt := c.tone.isSome || c.cid.isSome || c.hyb.isSome
    let d := d.setLineCh n (some { (c.endWork k.tick) with lost := true, recs := [], feed := c.lostFeed })
    let d := if alt then d.rampTx n 32768 0 8 else d
    ((d.dropSlot n).finish k .lineCid (armedCid n) .aborted).lineFlush k n

/-- An active line's part of a valid upstream frame, as its channel sees it (R262): a change is kept for the thread. -/
def Dev.hookSeen (k : Clock) (d : Dev) (n old new edges : Nat) : Dev :=
  match d.lineCh n with
  | none => d
  | some c =>
    let adv := (edges + 256 - c.lastEdges) % 256
    let r : HookRec := { tick := k.tick - 1, old := old, new := new, edges := adv, gap := k.tick - c.lastTick - 1 }
    d.setLineCh n (some { c with
      lastTick := k.tick, lastEdges := edges,
      recs := if (old != new || adv != 0) && !c.lost then c.recs ++ [r] else c.recs })

/-- Host software has issued what R253 forbids on a line with a channel. -/
def Dev.lineTouched (d : Dev) (n : Nat) : Dev := d.modLineCh n (fun c => { c with override_ := true })

end Sys2Proof.Machine
end

