-- ==== Sys2Proof/Machine/CalOps.lean ====
section
/-! DEFINITION. What the calibration unit does (R126 to R141): items, queues, the choice of R129, scans that a lane's
training ends, and records. The commands and events stand in Cal.lean. -/
namespace Sys2Proof.Machine
open Sys2Proof

def Dev.calItem (d : Dev) (n : Nat) : CalItem := d.cal.items.get {} n
def Dev.setCal (d : Dev) (c : Cal) : Dev := { d with cal := c }
def Dev.setItem (d : Dev) (n : Nat) (x : CalItem) : Dev := d.setCal { d.cal with items := d.cal.items.put {} n x }
def Dev.modItem (d : Dev) (n : Nat) (f : CalItem → CalItem) : Dev := d.setItem n (f (d.calItem n))

def rankKey (r : Nat) : Nat := 32 + r

/-- The sensor that watches an item (Table 5.1). -/
def itemSensor (n : Nat) : Nat := if n < 32 then n / 8 else 4 + (n - 32) / 2
def Dev.reading (d : Dev) (n : Nat) : Int := (d.cal.sensors.get {} (itemSensor n)).temp
/-- The reading of an item's sensor, where there is a valid one. -/
def Dev.refNow (d : Dev) (n : Nat) : Option Int :=
  if (d.cal.sensors.get {} (itemSensor n)).valid then some (d.reading n) else none
/-- An item's sensor reports an invalid temperature: the item keeps its settings (R125). -/
def Dev.readingBad (d : Dev) (n : Nat) : Bool :=
  let x := d.cal.sensors.get {} (itemSensor n)
  decide (16 ≤ x.conv.length) && !x.valid

/-- An item joins its queue. -/
def Dev.calQueue (d : Dev) (n : Nat) : Dev :=
  let d := d.modItem n (fun x => { x with phase := .queued })
  d.setCal (if n < 32 then { d.cal with laneQ := d.cal.laneQ ++ [n] } else { d.cal with rankQ := d.cal.rankQ ++ [n] })

/-- An item leaves its queue. -/
def Dev.calUnqueue (d : Dev) (n : Nat) : Dev :=
  d.setCal { d.cal with laneQ := d.cal.laneQ.filter (· != n), rankQ := d.cal.rankQ.filter (· != n) }

/-- An item's calibration ends with its settings as they stand. -/
def Dev.calEnd (k : Clock) (d : Dev) (n : Nat) (st : Status) : Dev :=
  let d := (d.calUnqueue n).modItem n (fun x => { x with
    phase := .idle, setting := false, discard := false, goalD := x.delay, goalT := x.thresh, goalRd := x.rd, goalWr := x.wr, points := [],
    last := if st == .ok then clockStamp k else x.last })
  (d.finish k .calRun n st).finish k .calSet n st

/-! ### The choice of R129 -/

/-- How many points from `i` on pass. -/
def runLen (p : Nat → Bool) (n : Nat) (wrap : Bool) : Nat → Nat → Nat
  | 0, _ => 0
  | m + 1, i => if (wrap || decide (i < n)) && p (i % n) then 1 + runLen p n wrap m (i + 1) else 0

/-- The distance of two codes, around the circle where the codes wrap. -/
def codeDist (n : Nat) (wrap : Bool) (a b : Nat) : Nat :=
  let x := if a ≤ b then b - a else a - b
  if wrap then min x (n - x) else x

/-- The centre of the longest run of points that pass; of equal runs the nearest to `old`, then the lower. None where no
run begins. -/
def bestRun (n : Nat) (wrap : Bool) (old : Nat) (p : Nat → Bool) : Option Nat :=
  let starts := (List.range n).filter (fun i => p i && (if i = 0 then !(wrap && p (n - 1)) else !p (i - 1)))
  let runs := starts.map (fun i =>
    let l := runLen p n wrap n i
    (l, (i + (l - 1) / 2) % n))
  let better := fun (a b : Nat × Nat) =>
    decide (b.1 < a.1) || (a.1 == b.1 && (decide (codeDist n wrap a.2 old < codeDist n wrap b.2 old) ||
      (codeDist n wrap a.2 old == codeDist n wrap b.2 old && decide (a.2 < b.2))))
  (runs.foldl (fun acc r => match acc with
    | none => some r
    | some b => if better r b then some r else some b) (none : Option (Nat × Nat))).map (·.2)

/-- The points of a sweep with the smallest error count. -/
def leastErrs (errs : List Nat) (i : Nat) : Bool :=
  match errs[i]? with
  | some e => errs.all (fun x => decide (e ≤ x))
  | none => false

/-- DELAY by R129. Where every code has the same count the rule names no centre: a free value. -/
def Dev.chooseDelay (d : Dev) (errs : List Nat) (old : Nat) : Nat × Dev :=
  match bestRun 64 true old (leastErrs errs) with
  | some c => (c, d)
  | none => let q := d.draw 1; (Config.free q.1 % 64, q.2)

/-- The sums over THRESH of a map of 2,048 error counts, DELAY by DELAY (R134). -/
def rowSums (errs : List Nat) : List Nat := (List.range 64).map (fun i => ((errs.drop (32 * i)).take 32).foldl (· + ·) 0)

/-- THRESH by R129. -/
def chooseThresh (errs : List Nat) (old : Nat) : Nat := (bestRun 32 false old (leastErrs errs)).getD old

/-- A byte lane's delay by R136: points are the codes from 16 below the old one on, none outside 0 to 255. -/
def chooseLine (old : Nat) (bad : Nat → Bool) : Option Nat :=
  (bestRun 32 false 16 (fun i => decide (16 ≤ old + i) && decide (old + i < 272) && !bad i)).map (fun c => old + c - 16)

/-- The delay of a byte lane after an eye step of a full training (R427): `bad` is its error at each point. With a valid record the
points are the 65 codes about the record's delay `old`, without one all 256 codes. None where no 16 codes in a row are free of
errors; the centre is that of R136. -/
def eyeCode (hadRec : Bool) (old : Nat) (bad : Nat → Bool) : Option Nat :=
  let pass := fun c => decide (c < 256) &&
    (if hadRec then decide (old ≤ c + 32) && decide (c ≤ old + 32) && !bad (c + 32 - old) else !bad c)
  if (List.range 241).any (fun c => pass c && decide (16 ≤ runLen pass 256 false 16 c)) then bestRun 256 false old pass else none

/-- The delays of the four byte lanes, where every one has its run: `points` holds the byte lanes in error at each point. -/
def eyeCodes (hadRec : Bool) (old : List Nat) (points : List (BitVec 4)) : Option (List Nat) :=
  let l := (List.range 4).map (fun b => eyeCode hadRec ((old[b]?).getD 0) (fun i => (points[i]?).all (fun v => v.getLsbD b)))
  if l.all (·.isSome) then some (l.map (·.getD 0)) else none

/-! ### A lane's training and its calibration (R127, R133, R134) -/

/-- A lane leaves LIVE: a scan ends and nothing is applied, an application stops; the lane stays queued, but for one pinned
during its scan (R138). -/
def Dev.calLeave (k : Clock) (d : Dev) (q : Nat) : Dev :=
  let x := d.calItem q
  let d := d.modLane q (fun y => { y with scanFrom := none })
  match x.phase with
  | .measuring =>
    let d := d.bump1 .calLScanAbort q
    if x.pinned || x.discard then d.calEnd k q .aborted
    else (d.modItem q (fun y => { y with goalD := y.delay, goalT := y.thresh })).calQueue q
  | .applying =>
    if x.setting then d else (d.modItem q (fun y => { y with goalD := y.delay, goalT := y.thresh })).calQueue q
  | _ => d

/-- A lane enters LIVE after the scan of its start: it leaves the queue without being measured. -/
def Dev.calLive (k : Clock) (d : Dev) (q : Nat) : Dev :=
  if (d.lane q).scanDone then
    let d := d.modLane q (fun y => { y with scanDone := false })
    if (d.calItem q).phase == .queued then d.calEnd k q .ok else d
  else d

/-- A rank is no longer in service: its calibration ends. -/
def Dev.calRankGone (k : Clock) (d : Dev) (r : Nat) : Dev :=
  if (d.calItem (rankKey r)).phase == .idle then d else d.calEnd k (rankKey r) .aborted

/-! ### Records (R140 to R142) -/

def CalRec.valid (r : CalRec) : Bool := r.commit && r.magic && r.crc

/-- The slot that holds the newer valid record: true is B. -/
def Cal.newer (c : Cal) : Option Bool :=
  match c.slotA.valid, c.slotB.valid with
  | true, true =>
    let x := (c.slotB.seq - c.slotA.seq).toNat
    some (decide (1 ≤ x) && decide (x < 2 ^ 31))
  | true, false => some false
  | false, true => some true
  | false, false => none

def Cal.slot (c : Cal) (b : Bool) : CalRec := if b then c.slotB else c.slotA
def Cal.setSlot (c : Cal) (b : Bool) (r : CalRec) : Cal := if b then { c with slotB := r } else { c with slotA := r }

/-- What a record holds of an item: settings, pin and reference. -/
def CalItem.record (x : CalItem) : CalItem :=
  { pinned := x.pinned, ref := x.ref, delay := x.delay, thresh := x.thresh, goalD := x.delay, goalT := x.thresh,
    rd := x.rd, wr := x.wr, goalRd := x.rd, goalWr := x.wr }

/-- An item in calibration that stays queued, or is queued again, where its calibration is cut short (R133, R139): a pinned one,
or one that a CAL_SET moves, does not. -/
def CalItem.requeues (x : CalItem) : Bool :=
  match x.phase with
  | .queued => true
  | .measuring => !x.pinned && !x.discard
  | .applying => !x.setting
  | .idle => false

/-- A record write begins: the slot that does not hold the newer record is erased. DESIGN CHOICE (log entry 87): with neither slot
valid the record's SEQ is 1. -/
def Dev.calWrite (k : Clock) (d : Dev) : Dev :=
  let c := d.cal
  let b := match c.newer with
    | some x => !x
    | none => false
  let seq : Word := match c.newer with
    | some x => (c.slot x).seq + 1
    | none => 1
  let items := c.items.entries.foldl (fun (st : Store CalItem) p => st.put {} p.1 p.2.record) []
  let r : CalRec := { commit := true, magic := true, crc := true, seq := seq, stamp := clockStamp k, items := items }
  d.setCal { c.setSlot b {} with writing := some (b, r), dirty := false }

/-- A record write stops with COMMIT unwritten. -/
def Dev.calAbandon (k : Clock) (d : Dev) : Dev :=
  match d.cal.writing with
  | none => d
  | some _ => (({ d with cal := { d.cal with writing := none, dirty := true } }).bump0 .calRecordAbandon).finish k .calSave 0 .aborted

end Sys2Proof.Machine
end

