-- ==== Sys2Proof/Machine/Code8b10b.lean ====
section
/-! DEFINITION. The 8b/10b code of R62 with its running disparity. The tables are those of IEEE 802.3 Clause 36 (PRESUMED, log
entry 86). A code group is a number of ten bits, bit a, the first one sent, the most significant. A running disparity is true
where it is positive. -/
namespace Sys2Proof.Machine
open Sys2Proof

/-- The six-bit sub-blocks abcdei of x = 0 to 31 at negative running disparity. -/
def subs6 : List Nat :=
  [0b100111, 0b011101, 0b101101, 0b110001, 0b110101, 0b101001, 0b011001, 0b111000,
   0b111001, 0b100101, 0b010101, 0b110100, 0b001101, 0b101100, 0b011100, 0b010111,
   0b011011, 0b100011, 0b010011, 0b110010, 0b001011, 0b101010, 0b011010, 0b111010,
   0b110011, 0b100110, 0b010110, 0b110110, 0b001110, 0b101110, 0b011110, 0b101011]
/-- The four-bit sub-blocks fghj of y = 0 to 7 at negative running disparity, the primary one of y = 7. -/
def subs4 : List Nat := [0b1011, 0b1001, 0b0101, 0b1100, 0b1101, 0b1010, 0b0110, 0b1110]

/-- The ones of the low `n` bits. -/
def onesOf : Nat → Nat → Nat
  | 0, _ => 0
  | n + 1, v => v % 2 + onesOf n (v / 2)

/-- The running disparity after a sub-block of `2 * h` bits: it follows the side in excess, and the two balanced sub-blocks
that stand at one end. -/
def subDisp (h v : Nat) (rd : Bool) : Bool :=
  if onesOf (2 * h) v = h then (if v = 2 ^ h - 1 then true else if v = (2 ^ h - 1) * 2 ^ h then false else rd)
  else decide (h < onesOf (2 * h) v)

/-- A sub-block at a running disparity: those out of balance, and the balanced one that stands at an end, are complemented
at a positive one. -/
def subAt (h v : Nat) (rd : Bool) : Nat :=
  if rd && (onesOf (2 * h) v != h || v == (2 ^ h - 1) * 2 ^ h) then 2 ^ (2 * h) - 1 - v else v

def enc6 (rd : Bool) (x : Nat) : Nat := subAt 3 (subs6.getD x 0) rd
/-- The four-bit sub-block; the alternate one of y = 7 where the primary would make a run of five. -/
def enc4 (rd : Bool) (x y : Nat) : Nat :=
  if y = 7 && (if rd then [11, 13, 14] else [17, 18, 20]).contains x then (if rd then 0b1000 else 0b0111)
  else subAt 2 (subs4.getD y 0) rd

/-- The running disparity after a code group. -/
def groupDisp (rd : Bool) (g : Nat) : Bool := subDisp 2 (g % 16) (subDisp 3 (g / 16) rd)

/-- The code group of a data byte. -/
def encData (rd : Bool) (b : Nat) : Nat :=
  let a := enc6 rd (b % 32)
  16 * a + enc4 (subDisp 3 a rd) (b % 32) (b / 32)

/-- K28.5 at a running disparity. -/
def comma (rd : Bool) : Nat := if rd then 0b1100000101 else 0b0011111010

/-- The data byte of a code group at a running disparity; none for a control code group, an invalid one or a disparity error. -/
def decData (rd : Bool) (g : Nat) : Option Nat :=
  match (List.range 32).find? (fun x => enc6 rd x == g / 16) with
  | some x => ((List.range 8).find? (fun y => enc4 (subDisp 3 (g / 16) rd) x y == g % 16)).map (fun y => x + 32 * y)
  | none => none

def encDatas : Bool → List Nat → List Nat × Bool
  | rd, [] => ([], rd)
  | rd, b :: r =>
    let g := encData rd b
    let p := encDatas (groupDisp rd g) r
    (g :: p.1, p.2)

def decDatas : Bool → List Nat → Option (List Nat) × Bool
  | rd, [] => (some [], rd)
  | rd, g :: r =>
    let p := decDatas (groupDisp rd g) r
    (match decData rd g, p.1 with
      | some b, some l => some (b :: l)
      | _, _ => none, p.2)

/-- A frame's code groups: K28.5 stands for byte 0 and nowhere else (R62). -/
def encFrame (rd : Bool) (bytes : List Nat) : List Nat × Bool :=
  let p := encDatas (groupDisp rd (comma rd)) (bytes.drop 1)
  (comma rd :: p.1, p.2)

/-- The bytes of a frame's code groups, none where it holds a code error, and the running disparity after it. Where the running
disparity before it is not known, its comma shows it. -/
def decFrame (rd : Option Bool) (groups : List Nat) : Option (List Nat) × Bool :=
  match groups with
  | [] => (none, rd.getD false)
  | g :: r =>
    let a := rd.getD (g == comma true)
    let p := decDatas (groupDisp a g) r
    (if g == comma a then p.1.map (fun l => 0xBC :: l) else none, p.2)

end Sys2Proof.Machine
end

