-- ==== Sys2Proof/Machine/Lanes.lean ====
section
/-! DEFINITION. What an Obnos lane does (R59 to R95): frames and CRC, training, round-trip timing, the mailbox, and losing
a lane. The commands and latch points stand in Lines.lean and LaneCmds.lean. -/
namespace Sys2Proof.Machine
open Sys2Proof

/-! ### CRC-32 (R64) -/

/-- One bit of the reflected polynomial 0x04C1_1DB7. -/
def crcBit (c : Nat) : Nat := if c % 2 = 1 then (c / 2) ^^^ 0xEDB88320 else c / 2
def crcByte (c b : Nat) : Nat :=
  crcBit (crcBit (crcBit (crcBit (crcBit (crcBit (crcBit (crcBit (c ^^^ b))))))))
def crc32 (bs : List Nat) : Nat := (bs.foldl (fun c b => crcByte c (b % 256)) 0xFFFFFFFF) ^^^ 0xFFFFFFFF

/-- Bytes `n` long from offset `i` of a frame. -/
def slice (bs : List Nat) (i n : Nat) : List Nat := (bs.drop i).take n
def leAt (bs : List Nat) (i n : Nat) : Nat := ofBytesLE (slice bs i n)

/-- A frame of 384 bytes whose CRC matches. -/
def frameCrcOk (bs : List Nat) : Bool := bs.length == 384 && crc32 (slice bs 4 376) == leAt bs 380 4

/-! ### Round-trip arithmetic (R68), in 3,072nds of a half nanosecond: a UI is 200,000 of them -/

/-- x of R68: 128 UI − d − CAP_SAMPLE_LAT. -/
def phaseX (rt turn lat : Nat) : Int := 25600000 - ((rt : Int) - turn) * 1536 - (lat : Int) * 3072

/-- N_DLY and f of R68. -/
def timing (rt turn lat : Nat) : Nat × Nat :=
  let x := phaseX rt turn lat
  let n := (x + 199999) / 200000
  let st := (2 * (n * 200000 - x) + 3125) / 6250
  if st = 64 then ((n - 1).toNat, 0) else (n.toNat, st.toNat)

/-- The steps of f that R90 recomputes with N_DLY unchanged. -/
def stepsFor (nDly rt turn lat : Nat) : Int :=
  (2 * ((nDly : Int) * 200000 - phaseX rt turn lat) + 3125) / 6250

/-- RT within the range of R70, 105,000 to 125,000 ns. -/
def rtInRange (rt : Nat) : Bool := decide (210000 ≤ rt) && decide (rt ≤ 250000)

/-- Two round trips within ±4 ns. -/
def rtNear (a b : Nat) : Bool := decide (a ≤ b + 8) && decide (b ≤ a + 8)

/-- A mean to the nearest half nanosecond. -/
def meanOf (sum n : Nat) : Nat := (2 * sum + n) / (2 * n)

/-! ### Training states (R86, R87) -/

def trainCode : Train → Nat
  | .dark => 0 | .bitLock => 1 | .frameLock => 2 | .delayMeasure => 3 | .capability => 4 | .activate => 5 | .live => 6

/-- The lines of a lane, ascending. -/
def laneLines (q : Nat) : List Nat := (List.range 8).map (fun p => 8 * q + p)

/-- The mask of a lane's active lines. -/
def Dev.activeMask (d : Dev) (q : Nat) : Nat :=
  (List.range 8).foldl (fun m p => if (d.line (8 * q + p)).active then m + 2 ^ p else m) 0

/-- What restarting a mailbox leaves (R82). -/
def Mbx.restart (m : Mbx) : Mbx :=
  { m with txSeq := 1, rxSeq := none, cur := none, done := 0, resent := false, own := [], rx := none }

/-- The statuses of the requests and messages that a lane's mailbox drops, for whom they were. -/
def Dev.dropMsg (k : Clock) (st : Status) (d : Dev) (m : Msg) : Dev :=
  match m.who with
  | .host o => d.answer k (.host o) 0x030A st
  | .lineAct _ src => d.answer k src 0x0305 st
  | _ => d

/-- Requests that nobody waits for any more. A message in flight is not withdrawn: its chunks go on until they are
acknowledged (R82), and nothing is answered at its end. -/
def Mbx.endReqs (m : Mbx) (p : MbxReq → Bool) : Mbx :=
  { m with reqs := m.reqs.filter (fun r => !p r),
           cur := m.cur.map (fun c => if m.reqs.any (fun r => p r && r.msg == c) then { c with who := .ended } else c) }

/-- A chunk of the message in flight has been sent. -/
def Mbx.begun (m : Mbx) : Bool := m.resent || m.done != 0

/-- Host requests waiting or in flight, and LINE_ACTIVATE requests, end with ST_ABORTED (R84, R92). -/
def Dev.abortMail (k : Clock) (d : Dev) (q : Nat) : Dev :=
  let m := (d.lane q).mbx
  let rest := m.reqs.map (·.msg) ++ (if m.begun then [] else m.cur.toList) ++ m.own ++ m.host
  let e := m.endReqs (fun _ => true)
  let d := d.modLane q (fun x => { x with mbx := { e with host := [], own := [], cur := if m.begun then e.cur else none } })
  rest.foldl (fun d x => d.dropMsg k .aborted x) d

/-- A line's command in flight and its queue end with a status. -/
def Dev.dropCmds (k : Clock) (st : Status) (d : Dev) (n : Nat) : Dev :=
  let x := d.line n
  let cs := x.flight.toList.map (·.cmd) ++ x.queue
  (cs.foldl (fun d (c : LCmd) => d.answer k c.src 0x0307 st) (d.setLine n { x with flight := none, queue := [] }))

/-- Line states still awaiting their SEQ_ACK, latched or not, end; a deactivation not yet latched is made here. -/
def Dev.dropAcks (k : Clock) (d : Dev) (n : Nat) : Dev :=
  let x := d.line n
  let d := d.setLine n { x with acks := [], ops := x.ops.filter (fun o => match o with
    | .actionWrite _ _ => true
    | _ => false) }
  let d := x.acks.foldl (fun d a => d.answer k a.2.2 0x0306 .aborted) d
  x.ops.foldl (fun d o => match o with
    | .state _ _ _ _ src => d.answer k src 0x0306 .aborted
    | .deactivate src => (d.modLine n (fun y => { y with enabled := false })).answer k src 0x0305 .ok
    | _ => d) d

/-- A line is deactivated: DISCONNECT, zero samples, and what is under way ends with ST_ABORTED. -/
def Dev.deactivate (k : Clock) (d : Dev) (n : Nat) : Dev :=
  let was := (d.line n).active
  let d := d.modLine n (fun x => { x with active := false, feed := 0 })
  let d := (d.dropCmds k .aborted n).dropAcks k n
  if was then d.lineLost k n else d

/-- The lines of a lane are lost (R92): each active line with a LINE_LOST event. -/
def Dev.linesLost (k : Clock) (d : Dev) (q : Nat) : Dev :=
  (laneLines q).foldl (fun d n =>
    let was := (d.line n).active
    let d := d.deactivate k n
    if was then d.event k 0x0381 n 0 else d) d

/-- A lane enters a training state: the LANE_STATE event and the status packet of KIND 3 (R80, R87). -/
def Dev.setTrain (k : Clock) (d : Dev) (q : Nat) (new : Train) (reason : Nat) : Dev :=
  let old := (d.lane q).train
  let leaves := old == .live && new != .live
  let d := if leaves then d.abortMail k q else d
  let d := if old == .bitLock && (d.lane q).startScan then d.bump1 .calLScanAbort q else d
  let d := d.modLane q (fun x => { x with
    train := new, reason := reason, inTicks := 0, good := 0, misses := 0, rtLast := [],
    f := if new == .dark then 0 else x.f,
    fromLive := new == .frameLock && old == .live,
    mbx := if new == .frameLock then x.mbx.restart else x.mbx,
    scanDone := new != .dark && x.scanDone,
    waveDone := x.waveDone || new == .live })
  let d := if leaves then d.calLeave k q else d
  let d := if new == .live then d.calLive k q else d
  let d := d.event k 0x0380 q (trainCode new + 16 * trainCode old + 256 * reason)
  d.lanePacket k q 7 k.tick 3 0 (trainCode new + 16 * trainCode old) reason []

/-- The reasons whose failure carries holdoff (Table 3.19). -/
def holdsOff (reason : Nat) : Bool := reason == 4 || reason == 6 || reason == 7

/-- A training failure (R86, R87). -/
def Dev.trainFail (k : Clock) (d : Dev) (q reason : Nat) : Dev :=
  let x := d.lane q
  let d := d.bump ⟨.ollLTrainFail, q, reason⟩
  let n := x.fails + 1
  let hold := holdsOff reason || decide (4 ≤ n)
  let d := d.setLane q { x with fails := n, waveDone := true, fast := false,
                                holdoff := if hold then d.oll.holdoffTicks + 1 else x.holdoff }
  d.setTrain k q (if reason = 2 && !hold then .bitLock else .dark) reason

/-- A lane may leave DARK (Table 3.18, R87): LOS has been released for eight ticks. -/
def Dev.leaveDark (k : Clock) (d : Dev) (q : Nat) : Dev :=
  let x := d.lane q
  if x.train == .dark && x.en && x.disabling.isNone && x.loop.isNone && x.holdoff == 0 && !x.los && decide (8 ≤ x.losOff) && !x.waveWait then
    let d := d.setTrain k q .bitLock 0
    match x.fast, x.kept with
    | true, some p => d.modLane q (fun y => { y with f := p.f })
    | _, _ => d
  else d

/-! ### The mailbox (R82 to R85) -/

def Mbx.push (m : Mbx) (own : Bool) (typ : Nat) (data : List Nat) (who : MbxFor) : Mbx :=
  let x : Msg := { typ := typ, tag := m.nextTag, data := data, who := who }
  let m := { m with nextTag := (m.nextTag + 1) % 65536 }
  if own then { m with own := m.own ++ [x] } else { m with host := m.host ++ [x] }

def Dev.mail (d : Dev) (q : Nat) (own : Bool) (typ : Nat) (data : List Nat) (who : MbxFor) : Dev :=
  d.modLane q (fun x => { x with mbx := x.mbx.push own typ data who })

/-- A message's bytes: the header of Table 3.15 and its payload. -/
def Msg.bytes (m : Msg) : List Nat := bytesLE 2 m.typ ++ bytesLE 2 m.data.length ++ bytesLE 2 m.tag ++ [0, 0] ++ m.data

/-- The ticks in which a request must be answered (R83). -/
def answerTicks (typ : Nat) : Nat := if typ = 1 then 40 else if typ = 6 then 80000 else 400

/-- A mailbox carries messages from DELAY_MEASURE on. -/
def Train.mailOn (t : Train) : Bool := decide (3 ≤ trainCode t)

/-- The next message is taken where none is in flight: the device's own first, then a host request in LIVE. -/
def Mbx.takeNext (m : Mbx) (live : Bool) : Mbx :=
  match m.cur, m.own, m.host with
  | some _, _, _ => m
  | none, x :: r, _ => { m with cur := some x, own := r, done := 0, resent := false }
  | none, [], x :: r => if live then { m with cur := some x, host := r, done := 0, resent := false } else m
  | none, [], [] => m

/-- The mailbox chunk of the downstream frame being started (Table 3.14), and the mailbox after it; the third component
says that the chunk repeats the one before. -/
def Lane.chunk (x : Lane) : List Nat × Mbx × Bool :=
  let ack := x.mbx.rxSeq.getD 0
  let blank := fun (flags : Nat) => [flags, 0, ack, 0, 0, 0, 0, 0] ++ List.replicate 56 0
  if x.train == .frameLock then (blank 8, x.mbx, false)
  else if !x.train.mailOn then (blank 0, x.mbx, false)
  else
    let m := x.mbx.takeNext (x.train == .live)
    match m.cur with
    | none => (blank 0, m, false)
    | some c =>
      let all := c.bytes
      let part := slice all m.done 56
      let first := m.done == 0
      let last := decide (all.length ≤ m.done + 56)
      let bs := [1 + 2 * b2n first + 4 * b2n last, m.txSeq, ack, part.length, 0, 0, 0, 0] ++ part ++
        List.replicate (56 - part.length) 0
      let reqs := if first && !m.resent && c.typ != 7 then m.reqs ++ [{ msg := c, age := 0 }] else m.reqs
      (bs, { m with resent := true, reqs := reqs }, m.resent)

/-- A chunk is acknowledged: the message moves on, or ends. -/
def Mbx.acked (m : Mbx) (seq : Nat) : Mbx :=
  match m.cur with
  | some c =>
    if m.resent && seq == m.txSeq then
      let n := m.done + 56
      let m := { m with txSeq := if m.txSeq = 255 then 1 else m.txSeq + 1, resent := false }
      if c.bytes.length ≤ n then { m with cur := none, done := 0 } else { m with done := n }
    else m
  | none => m

/-- The capability block of a payload (Table 3.17). -/
def capOf (bs : List Nat) : Cap :=
  { version := leAt bs 0 1, lineMask := leAt bs 1 1, features := leAt bs 2 2, turn := leAt bs 4 4,
    sampleLat := leAt bs 8 2, cls := leAt bs 16 2, serial := slice bs 20 16, raw := bs.take 64 }

/-- LANE_EXPECT is met (R93). -/
def Expect.meets (e : Expect) (c : Cap) : Bool :=
  (e.cls == 0 || e.cls == c.cls) && decide (e.minVer ≤ c.version) && e.lines &&& c.lineMask == e.lines &&
    e.feats &&& c.features == e.feats

/-- The lines a lane's ACTIVATE names: enabled and populated (R93). -/
def Dev.wantLines (d : Dev) (q mask : Nat) : Nat :=
  (List.range 8).foldl (fun m p =>
    if (d.line (8 * q + p)).enabled && mask.testBit p then m + 2 ^ p else m) 0

/-- TIMING_SET's payload (Table 3.16). -/
def timingData (nDly f rt d2 : Nat) : List Nat :=
  bytesLE 2 nDly ++ [f, 0] ++ bytesLE 4 rt ++ bytesLE 2 (d2 / 2)

/-- ACTIVATE is entered: TIMING_SET, the retained profiles and ACTIVATE are queued (R85, Table 3.18). -/
def Dev.enterActivate (k : Clock) (d : Dev) (q : Nat) (c : Cap) : Dev :=
  let d := d.setTrain k q .activate 0
  let x := d.lane q
  let d := d.mail q true 2 (timingData x.nDly x.fGoal x.rt (x.rt - c.turn)) .train
  let d := x.profiles.entries.foldl (fun d p => d.mail q true (p.1 / 8) p.2 .train) d
  let d := d.mail q true 3 [d.wantLines q c.lineMask] .train
  d.modLane q (fun y => { y with timingOk := false, actOk := false, profLeft := x.profiles.length })

/-- DELAY_MEASURE is entered on the full path. -/
def Dev.toMeasure (k : Clock) (d : Dev) (q reason : Nat) : Dev :=
  (d.modLane q (fun x => { x with fast := false })).setTrain k q .delayMeasure reason

def Dev.toCapability (k : Clock) (d : Dev) (q : Nat) : Dev :=
  (d.setTrain k q .capability 0).mail q true 1 [] .train

/-- The capability block arrives (Table 3.18, R88, R93). -/
def Dev.capArrived (k : Clock) (d : Dev) (q : Nat) (c : Cap) : Dev :=
  let x := d.lane q
  let d := d.setLane q { x with cap := some c }
  if c.version != 1 || !x.expect.meets c then d.trainFail k q 6
  else
    match x.fast, x.kept with
    | true, some p =>
      if p.serial == c.serial && p.turn == c.turn && p.sampleLat == c.sampleLat then
        (d.modLane q (fun y => { y with rt := p.rt, nDly := p.nDly, fGoal := p.f })).enterActivate k q c
      else d.toMeasure k q 0
    | _, _ =>
      if x.rt < c.turn || 2000 < x.rt - c.turn then d.trainFail k q 7
      else
        let t := timing x.rt c.turn c.sampleLat
        (d.modLane q (fun y => { y with nDly := t.1, fGoal := t.2 })).enterActivate k q c

/-- The lines a mask names become active. -/
def Dev.activateLines (d : Dev) (q mask : Nat) : Dev :=
  (List.range 8).foldl (fun d p => if mask.testBit p then d.modLine (8 * q + p) (fun x => { x with active := true })
    else d) d

/-- What the Ember domain holds of a lane that is LIVE (R88). -/
def Lane.keeps (x : Lane) : Kept :=
  let c := x.cap.getD {}
  { rt := x.rt, nDly := x.nDly, f := x.f, turn := c.turn, sampleLat := c.sampleLat, serial := c.serial }

/-- The values in use of a LIVE lane are those that the Ember domain holds. -/
def Lane.keep (x : Lane) : Lane := if x.train == .live then { x with kept := some x.keeps } else x

/-- A lane reaches LIVE once ACTIVATE's conditions hold (Table 3.18); what the Ember domain retains is set (R88). -/
def Dev.tryLive (k : Clock) (d : Dev) (q : Nat) : Dev :=
  let x := d.lane q
  if x.train == .activate && x.timingOk && x.actOk && x.profLeft == 0 && x.f == x.fGoal then
    ((d.setLane q { x with fails := 0, fast := false, kept := some x.keeps }).activateLines q x.actMask).setTrain k q .live 0
  else d

/-- A response of the partner (R83, R84): `data` is its payload. -/
def Dev.mailResponse (k : Clock) (d : Dev) (q typ tag status : Nat) (data raw : List Nat) : Dev :=
  let x := d.lane q
  match x.mbx.reqs.find? (fun r => r.msg.typ == typ && r.msg.tag == tag) with
  | none => d.bump1 .ollLMbxUnmatched q
  | some r =>
    let d := d.setLane q { x with mbx := x.mbx.endReqs (· == r) }
    match r.msg.who with
    | .train =>
      if status != 0 then d
      else if typ = 1 then (if x.train == .capability then d.capArrived k q (capOf data) else d)
      else if typ = 2 then (d.modLane q (fun y => { y with timingOk := true })).tryLive k q
      else if typ = 3 then
        (d.modLane q (fun y => { y with actOk := true, actMask := leAt data 0 1 })).tryLive k q
      else (d.modLane q (fun y => { y with profLeft := y.profLeft - 1 })).tryLive k q
    | .host o =>
      let d := d.event k 0x0383 q (tag + data.length * 65536) raw
      let d := if status == 0 && (typ == 4 || typ == 5) then
          d.modLane q (fun y => { y with profiles := y.profiles.put [] (typ * 8 + leAt r.msg.data 0 1 % 8) r.msg.data })
        else d
      d.answer k (.host o) 0x030A .ok
    | .lineAct n src =>
      let got := leAt data 0 1
      if status == 0 && got.testBit (n % 8) then
        ((d.activateLines q got).modLine n (fun y => { y with enabled := true })).answer k src 0x0305 .ok [⟨1, got⟩]
      else d.answer k src 0x0305 .refusedBusy
    | .reset | .ended => d

/-- A whole message of the partner: a response, or a notice. -/
def Dev.mailMessage (k : Clock) (d : Dev) (q : Nat) (bs : List Nat) : Dev :=
  let typ := leAt bs 0 2
  let data := slice bs 8 (leAt bs 2 2)
  if 0x8000 ≤ typ then d.mailResponse k q (typ - 0x8000) (leAt bs 4 2) (leAt bs 6 1) data (bs.take (8 + data.length))
  else if typ = 0x4001 || (0x6000 ≤ typ && typ ≤ 0x7FFF) then
    (d.bump1 .ollLPartnerNotice q).event k 0x0382 q (typ + data.length * 65536) data
  else d

/-- The mailbox chunk of a valid upstream frame (R82). -/
def Dev.chunkIn (k : Clock) (d : Dev) (q : Nat) (c : List Nat) : Dev :=
  let x := d.lane q
  let m := x.mbx.acked (leAt c 2 1)
  let more := match m.linkErr with
    | some e => (leAt c 4 1 + 256 - e) % 256
    | none => 0
  let m := { m with linkErr := some (leAt c 4 1) }
  let flags := leAt c 0 1
  let retry := match x.retrain with
    | some (full, some a, acked) => some (full, some a, acked || (m.cur.isNone || m.cur.map (·.who) != some .reset))
    | r => r
  let d := if 0 < more then d.bumpN ⟨.ollLDsDiscard, q, 0⟩ more else d
  let d := d.setLane q { x with mbx := m, retrain := retry }
  if flags.testBit 0 && m.rxSeq != some (leAt c 1 1) then
    let part := slice c 8 (min (leAt c 3 1) 56)
    let rx := match flags.testBit 1, m.rx with
      | true, _ => some part
      | false, some b => some (b ++ part)
      | false, none => none
    let d := d.setLane q { (d.lane q) with mbx := { m with rxSeq := some (leAt c 1 1),
                                                           rx := if flags.testBit 2 then none else rx } }
    match flags.testBit 2, rx with
    | true, some b => d.mailMessage k q b
    | _, _ => d
  else d

/-! ### Losing a lane -/

/-- A miss in LIVE (R89); at the eighth in a row the lane enters FRAME_LOCK, lines stop ringing and metering ends. -/
def Dev.laneMiss (k : Clock) (d : Dev) (q : Nat) : Dev :=
  let x := d.lane q
  if x.misses + 1 < 8 then d.setLane q { x with misses := x.misses + 1 }
  else
    let d := (d.bump1 .ollLRelock q).setTrain k q .frameLock 10
    (laneLines q).foldl (fun d n =>
      let d := match (d.line n).flight with
        | some fl => if fl.cmd.opc = 1 then
            (d.modLine n (fun y => { y with flight := none })).answer k fl.cmd.src 0x0307 .aborted else d
        | none => d
      if (d.line n).feed = 6 then
        (d.modLine n (fun y => { y with ops := y.ops ++ [.state 1 1 0 0 .self] })).bump1 .ollLineRingWithdrawn n
      else d) d

/-- R90: RT tracking in LIVE. -/
def Dev.trackDelay (d : Dev) (q rt : Nat) : Dev :=
  let x := d.lane q
  let l := (rt :: x.rtLast).take 1024
  let d := d.setLane q { x with rtLast := l }
  if l.length < 1024 then d
  else
    let sum := l.foldl (· + ·) 0
    if 4096 < sum - 1024 * x.rt || 4096 < 1024 * x.rt - sum then
      let rt := meanOf sum 1024
      let c := x.cap.getD {}
      let st := stepsFor x.nDly rt c.turn c.sampleLat
      let goal := (clampI 0 63 st).toNat
      let d := (d.modLane q (fun y => ({ y with rt := rt, fGoal := goal } : Lane).keep)).bump1 .ollLDelayAdjust q
      if (goal : Int) = st then d else d.bump1 .ollLDelayTrackLimit q
    else d

/-- The lane's own lines are cut off and it takes the full path from DELAY_MEASURE (R88, R92, R96). -/
def Dev.remeasure (k : Clock) (d : Dev) (q reason : Nat) : Dev := (d.linesLost k q).toMeasure k q reason

/-- Four good frames have established FRAME_LOCK; `rt` is their mean round trip (R88, Table 3.18). -/
def Dev.frameLocked (k : Clock) (d : Dev) (q rt : Nat) : Dev :=
  let x := d.lane q
  if x.fromLive then
    if rtNear rt x.rt then d.setTrain k q .live 0 else d.remeasure k q 0
  else
    match x.fast, x.kept with
    | true, some p => if rtNear rt p.rt then (d.modLane q (fun y => { y with rt := p.rt })).toCapability k q else d.toMeasure k q 0
    | _, _ => d.toMeasure k q 0

/-- A valid upstream frame has ended in this tick. -/
def Lane.took (x : Lane) (tick num : Nat) : Lane := { x with nextNum := (num + 1) % 2 ^ 24, lastAt := some tick }

/-- The number that the upstream frame of this tick has where frames follow the last valid one tick by tick. -/
def Lane.nextAt (x : Lane) (tick : Nat) : Nat := (x.nextNum + (tick - 1 - x.lastAt.getD (tick - 1))) % 2 ^ 24

/-- A frame while frame lock is sought: `ok` says that code groups and CRC are good. -/
def Dev.seekFrame (k : Clock) (d : Dev) (q num rt : Nat) (ok spaced : Bool) : Dev :=
  let x := d.lane q
  if !ok then d.setLane q { x with good := 0 }
  else
    let cont := decide (0 < x.good) && num == x.nextNum && spaced
    let n := if cont then x.good + 1 else 1
    let sum := if cont then x.rtSum + rt else rt
    let d := d.setLane q (({ x with good := n, rtSum := sum } : Lane).took k.tick num)
    if 4 ≤ n then d.frameLocked k q (meanOf sum 4) else d

/-- A valid frame in DELAY_MEASURE; `next` says that it follows the last one by a tick, for the 64 are consecutive. -/
def Dev.measure (k : Clock) (d : Dev) (q rt : Nat) (next : Bool) : Dev :=
  if !rtInRange rt then d.trainFail k q 4
  else
    let x := d.lane q
    let l := (rt :: (if next then x.rtLast else [])).take 64
    let d := d.setLane q { x with rtLast := l }
    if l.length = 64 && decide (l.foldl max 0 ≤ l.foldl min rt + 8) then
      (d.modLane q (fun y => { y with rt := meanOf (l.foldl (· + ·) 0) 64 })).toCapability k q
    else d

end Sys2Proof.Machine
end

