-- ==== Sys2Proof/Machine/Lines.lean ====
section
/-! DEFINITION. What a line does (R73 to R79): latch points, commands, line actions and reflexes, and a valid upstream
frame's line state and telemetry. -/
namespace Sys2Proof.Machine
open Sys2Proof

/-! ### The latch point (R77) -/

/-- The command queue of a line has no room: one in flight and eight behind it (R76). -/
def Line.full (x : Line) : Bool := decide ((if x.flight.isSome then 8 else 9) ≤ x.queue.length)

/-- The masked fields of a line state change. -/
def Line.setFields (x : Line) (mask feed ring feedP : Nat) : Line :=
  { x with feed := if mask.testBit 0 then feed else x.feed,
           ring := if mask.testBit 1 then ring else x.ring,
           feedP := if mask.testBit 2 then feedP else x.feedP }

/-- A line action entry's change (R77 to R79): its state part, and its command at the head of the queue. The third
component says that the state changed. DESIGN CHOICE (log entry 85): of several commands placed at the head at one latch point
the last placed stands first, and with none in flight it goes ahead of one that waited for this latch point. -/
def Dev.runAction (d : Dev) (n : Nat) (a : LAction) : Dev × Bool :=
  let d := if a.kind % 2 = 1 then d.modLine n (fun x => x.setFields a.mask a.feed a.ring a.feedP) else d
  let d := if 2 ≤ a.kind then
      if (d.line n).full then d.bump1 .ollLineCmdQueueFull n
      else d.modLine n (fun x => { x with queue := { opc := a.opc, args := a.args, src := .self } :: x.queue })
    else d
  (d, a.kind % 2 = 1)

/-- The order of R77: software, then alarms by slot, then reflexes by number. -/
def LOp.rank : LOp → Nat
  | .action slot _ => 1 + slot
  | .reflex r _ => 2000 + r
  | _ => 0

def insertOp (a : LOp) : List LOp → List LOp
  | [] => [a]
  | b :: r => if b.rank ≤ a.rank then b :: insertOp a r else a :: b :: r
def sortOps (l : List LOp) : List LOp := l.foldl (fun acc a => insertOp a acc) []

/-- One change is latched. The flag gathers whether the line's state changed in this frame. What stands behind a deactivation
latched at the same point finds the line not active (R79, R96). -/
def Dev.latchOp (k : Clock) (n : Nat) (p : Dev × Bool) (o : LOp) : Dev × Bool :=
  let d := p.1
  let up := (d.line n).active
  match o with
  | .state mask feed ring feedP src =>
    if up then (d.modLine n (fun x => { (x.setFields mask feed ring feedP) with
      acks := if src == .self then x.acks else x.acks ++ [((x.seq + 1) % 256, 0, src)] }), true)
    else (d.answer k src 0x0306 .aborted, p.2)
  | .command c =>
    if up then (d.modLine n (fun x => { x with queue := x.queue ++ [c] }), p.2) else (d.answer k c.src 0x0307 .aborted, p.2)
  | .action _ e =>
    if up then
      let r := d.runAction n ((d.line n).actions.get {} e)
      (r.1, p.2 || r.2)
    else (d.bump1 .ollLineActionInactive n, p.2)
  | .reflex _ e =>
    if up then
      let r := d.runAction n ((d.line n).actions.get {} e)
      (r.1, p.2 || r.2)
    else p
  | .actionWrite e a => (d.modLine n (fun x => { x with actions := x.actions.put {} e a }), p.2)
  | .deactivate src =>
    let d := d.modLine n (fun x => { x with enabled := false })
    ((d.deactivate k n).answer k src 0x0305 .ok, true)

/-- The next CSEQ: 1 to 255, skipping 0 (R75). -/
def nextCseq (c : Nat) : Nat := if c = 255 then 1 else c + 1

/-- The latch point of one line: its changes in order, SEQ, and the next command in flight. DESIGN CHOICE (log entry 85): SEQ
advances by one in a latch point at which the state changed, however many changes were taken up there. -/
def Dev.latchLine (k : Clock) (d : Dev) (n : Nat) : Dev :=
  let ops := sortOps (d.line n).ops
  let d := d.modLine n (fun x => { x with ops := [] })
  let r := ops.foldl (fun p o => Dev.latchOp k n p o) (d, false)
  let d := if r.2 then r.1.modLine n (fun x => { x with seq := (x.seq + 1) % 256 }) else r.1
  let x := d.line n
  match x.flight, x.queue with
  | none, c :: rest =>
    let q := nextCseq x.cseq
    d.setLine n { x with flight := some { cmd := c, cseq := q, sent := 1 }, queue := rest, cseq := q }
  | some fl, _ => d.setLine n { x with flight := some { fl with sent := fl.sent + 1 } }
  | none, [] => d

/-- A lane sends its lines' own states and commands: in LIVE and in a FRAME_LOCK reached from LIVE (R86, R88). -/
def Lane.carries (x : Lane) : Bool := x.train == .live || (x.train == .frameLock && x.fromLive)

/-- The line's four bytes of downstream state (Table 3.5). -/
def lineStateBytes (l : Lane) (x : Line) : List Nat :=
  if l.carries && l.disabling.isNone then [x.feed, x.ring + 8 * x.feedP, 0, x.seq] else [0, 0, 0, x.seq]

/-- The line's command record (Table 3.8). -/
def lineCmdBytes (l : Lane) (x : Line) : List Nat :=
  match l.carries, x.flight with
  | true, some fl => [fl.cmd.opc, fl.cseq] ++ (fl.cmd.args ++ List.replicate 14 0).take 14
  | _, _ => List.replicate 16 0

/-- A lane's transmitter runs (R86, R94). -/
def Lane.sends (x : Lane) : Bool := x.en || x.disabling.isSome

/-- The samples that a downstream frame carries for a line: what its stream of the tick before put out, and zeros for a line
that is not active (R17, R71). -/
def Dev.lineOut (d : Dev) (l : Lane) (n : Nat) : List Nat :=
  let out := if (d.line n).active && l.carries then (d.fce.streams.get {} (256 + n)).out else []
  ((out ++ List.replicate 8 0).take 8).flatMap (fun v => bytesLE 2 (toBits 16 v))

/-- The downstream frame `num` as its latch point completes it: 384 bytes, K28.5 first. No stream of tick t stands before slot
256, so that at the latch point each stream's samples are still those of the tick before. -/
def Dev.frameOf (d : Dev) (q num : Nat) : List Nat :=
  let l := d.lane q
  let body := 0xBC :: bytesLE 3 num ++ (laneLines q).flatMap (d.lineOut l) ++ l.dsHead ++ (laneLines q).flatMap (fun n => lineStateBytes l (d.line n)) ++
    (laneLines q).flatMap (fun n => lineCmdBytes l (d.line n)) ++ List.replicate 24 0
  body ++ bytesLE 4 (crc32 (body.drop 4))

/-- The latch point of every line and lane. -/
def Dev.latchAll (k : Clock) (d : Dev) : Dev :=
  let d := (List.range 256).foldl (fun d n =>
    if (d.line n).ops.isEmpty && (d.line n).flight.isNone && (d.line n).queue.isEmpty then d else d.latchLine k n) d
  (List.range 32).foldl (fun d q =>
    let l := d.lane q
    match l.dsNum with
    | some n => if l.sends && !l.dsHead.isEmpty then
        let c := encFrame l.txDisp (d.frameOf q n)
        (d.send (.lane q n c.1)).modLane q (fun x => { x with dsHead := [], txDisp := c.2 }) else d
    | none => d) d

/-! ### A valid upstream frame (R75, R78, R80) -/

/-- The status that CMD_STATUS maps to (Table 3.10). DESIGN CHOICE (log entry 85): the table lists none above 4; the model takes
such a value for ST_ABORTED. -/
def cmdStatus (c : Nat) : Status :=
  if c = 0 then .ok else if c ≤ 2 then .badArg else if c = 3 then .refusedBusy else .aborted

/-- An edge of a reflex's bit. -/
def Reflex.fires (r : Reflex) (feed old new : Nat) : Bool :=
  let a := old.testBit r.bit
  let b := new.testBit r.bit
  r.enable && ((r.edge.testBit 0 && !a && b) || (r.edge.testBit 1 && a && !b)) && (!r.condEn || feed == r.condMode)

/-- A line's reflexes on a new state byte, ascending: the mask of those that fired (R78). -/
def Dev.reflexes (d : Dev) (n new : Nat) : Dev × Nat :=
  (List.range 8).foldl (fun p r =>
    let x := p.1.line n
    let e := x.reflexes.get {} r
    if e.fires x.feed x.us0 new then
      let d := p.1.bump1 .ollLineReflexFire n
      let d := if e.oneShot then d.modLine n (fun y => { y with reflexes := y.reflexes.put {} r { e with enable := false } }) else d
      let d := if (x.actions.get {} e.action).kind = 0 then d.bump1 .ollLineActionEmpty n
        else d.modLine n (fun y => { y with ops := y.ops ++ [.reflex r e.action] })
      (d, p.2 + 2 ^ r)
    else p) (d, 0)

/-- Sixteen-bit samples of a line's block. -/
def lineSamples (bs : List Nat) (p : Nat) : List Int :=
  (List.range 8).map (fun j => sext 16 (leAt bs (4 + 16 * p + 2 * j) 2))

/-- One line's part of a valid frame: its state and telemetry, and for an active line its samples and acknowledgements too, and
its reflexes in LIVE. The result gathers the active lines changed or fired, those that fired, and the records of the status
packet. -/
def Dev.lineIn (k : Clock) (bs : List Nat) (q : Nat) (acc : Dev × Nat × Nat × List Word) (p : Nat) : Dev × Nat × Nat × List Word :=
  let n := 8 * q + p
  let d := acc.1
  let x := d.line n
  let s := slice bs (196 + 4 * p) 4
  let t := slice bs (228 + 16 * p) 16
  let seen := fun (y : Line) => { y with
    us0 := s.getD 0 0, us1 := s.getD 1 0, us2 := s.getD 2 0, us3 := s.getD 3 0, telem := t,
    fresh := if y.active then some (lineSamples bs p) else none }
  if !x.active then (d.modLine n seen, acc.2)
  else
    let changed := s != [x.us0, x.us1, x.us2, x.us3]
    let r := if (d.lane q).train == .live then d.reflexes n (s.getD 0 0) else (d, 0)
    let d := r.1.modLine n seen
    let d := d.hookSeen k n x.us0 (s.getD 0 0) (s.getD 3 0)
    let y := d.line n
    let d := match y.flight with
      | some fl => if fl.cseq == t.getD 7 0 then
          (d.setLine n { y with flight := none }).answer k fl.cmd.src 0x0307 (cmdStatus (t.getD 8 0)) else d
      | none => d
    let y := d.line n
    let mine := y.acks.filter (fun a => a.1 == s.getD 2 0)
    let d := d.setLine n { y with acks := y.acks.filter (fun a => a.1 != s.getD 2 0) }
    let d := mine.foldl (fun d a => d.answer k a.2.2 0x0306 .ok) d
    if changed || r.2 != 0 then
      (d, acc.2.1 + 2 ^ p, acc.2.2.1 + (if r.2 = 0 then 0 else 2 ^ p),
        acc.2.2.2 ++ [BitVec.ofNat 32 (ofBytesLE s), BitVec.ofNat 32 r.2])
    else (d, acc.2)

/-- The lines' part of a valid upstream frame, and the status packet of KIND 1 (R80). -/
def Dev.linesIn (k : Clock) (d : Dev) (q num : Nat) (bs : List Nat) : Dev :=
  let r := (List.range 8).foldl (fun acc p => Dev.lineIn k bs q acc p) (d, 0, 0, [])
  if r.2.1 = 0 then r.1 else r.1.lanePacket k q 6 num 1 r.2.1 r.2.2.1 0 r.2.2.2

/-- A valid upstream frame of a LIVE lane. -/
def Dev.liveFrame (k : Clock) (d : Dev) (q num rt : Nat) (bs : List Nat) : Dev :=
  let d := d.modLane q (fun x => ({ x with misses := 0 } : Lane).took k.tick num)
  ((d.linesIn k q num bs).trackDelay q rt).chunkIn k q (slice bs 132 64)

/-- A tick lies in an eye scan's frames (R130). -/
def Lane.scanned (x : Lane) (tick : Nat) : Bool :=
  match x.scanFrom with
  | some b => decide (b < tick) && decide (tick ≤ b + 4)
  | none => false

/-- The number expected of an upstream frame: one more than that of the downstream frame it follows (R65). In DELAY_MEASURE,
where the round trip is still to be judged, it is the one that follows the last valid frame's (log entry 48). -/
def Lane.expectNum (x : Lane) (tick : Nat) : Nat :=
  match x.train, x.lastAt, x.dsPrev with
  | .delayMeasure, some _, _ => x.nextAt tick
  | _, _, some n => (n + 1) % 2 ^ 24
  | _, _, none => tick % 2 ^ 24

/-- A frame that a lane's receiver checks: it has signal, has found code groups, and its eye is not being scanned. -/
def Lane.hears (x : Lane) (tick : Nat) : Bool := !x.los && decide (2 ≤ trainCode x.train) && !x.scanned tick

/-- What a frame's code groups say at a lane's receiver (R62, R64): its bytes where no code error discards it, and whether its
CRC matches too. -/
def Lane.reads (x : Lane) (codes : List Nat) : Option (List Nat) × Bool :=
  let b := (decFrame x.rxDisp codes).1
  (b, b.any frameCrcOk)

/-- An upstream frame has ended: its code groups, the corrected round trip, and whether its comma follows the one before by
3,840 UI. -/
def Dev.upFrame (k : Clock) (d : Dev) (q : Nat) (codes : List Nat) (spaced : Bool) (rt : Nat) : Dev :=
  let x := d.lane q
  let codeErr := (x.reads codes).1.isNone
  let crc := (x.reads codes).2
  let y := { x with rxDisp := some (decFrame x.rxDisp codes).2 }
  if x.loop.isSome then
    d.setLane q { y with loopCode := x.loopCode + b2n codeErr, loopCrc := x.loopCrc + b2n (!codeErr && !crc) }
  else if !x.hears k.tick then d.setLane q { x with rxDisp := none }
  else
    let d := d.setLane q y
    let bs := (x.reads codes).1.getD []
    let num := leAt bs 1 3
    let err := fun (d : Dev) => if codeErr then d.bump1 .ollLCodeError q else if !crc then d.bump1 .ollLCrcError q else d
    if x.train == .frameLock then
      let d := if crc then d.linesIn k q num bs else d
      (err d).seekFrame k q num rt crc spaced
    else if x.train == .live && !(decide (rt ≤ x.rt + 4000) && decide (x.rt ≤ rt + 4000)) then
      (d.bump1 .ollLTurnaroundMiss q).laneMiss k q
    else
      if !(crc && num == x.expectNum k.tick) then
        let d := if crc then d.bump1 .ollLSeqError q else err d
        if x.train == .live then d.laneMiss k q else d
      else if x.train == .live then d.liveFrame k q num rt bs
      else
        let d := (d.modLane q (fun y => y.took k.tick num)).linesIn k q num bs
        let d := d.chunkIn k q (slice bs 132 64)
        if (d.lane q).train == .delayMeasure && x.train == .delayMeasure then
          d.measure k q rt (x.lastAt == some (k.tick - 1))
        else d

/-- The samples of each line's last tick for the filter engine (R72), at a tick boundary. -/
def Dev.lineTick (d : Dev) (n : Nat) : Dev :=
  let x := d.line n
  let l := d.lane (n / 8)
  if !x.active || l.train != .live then
    d.setLine n { x with samples := [], stale := false, down := true, fresh := none }
  else match x.fresh with
    | some s => d.setLine n { x with samples := s, stale := false, down := false, fresh := none, lastGood := s.getLastD 0 }
    | none => d.setLine n { x with samples := List.replicate 8 x.lastGood, stale := true, down := false }

/-- An alarm's LINE_ACTION (R79). -/
def Dev.alarmAction (d : Dev) (slot n e : Nat) : Dev :=
  let x := d.line n
  if !x.active || (d.lane (n / 8)).train != .live then d.bump1 .ollLineActionInactive n
  else if (x.actions.get {} e).kind = 0 then d.bump1 .ollLineActionEmpty n
  else d.setLine n { x with ops := x.ops ++ [.action slot e] }

end Sys2Proof.Machine
end

