-- ==== Sys2Proof/Machine/LaneCmds.lean ====
section
/-! DEFINITION. The commands and events of the lanes and lines (Table 3.20, chapter 3). -/
namespace Sys2Proof.Machine
open Sys2Proof

/-! ### What time brings -/

/-- A lane at a tick boundary: its timers, and an idle lane that may start training. -/
def Dev.laneTick (k : Clock) (d : Dev) (q : Nat) : Dev :=
  let x := d.lane q
  let d := d.setLane q { x with
    inTicks := if x.train == .dark then 0 else x.inTicks + 1,
    losOff := if x.los then 0 else min 8 (x.losOff + 1),
    holdoff := if 1 < x.holdoff then x.holdoff - 1 else x.holdoff,
    disabling := x.disabling.map (· - 1),
    loop := x.loop.map (· - 1),
    retrain := x.retrain.map (fun r => (r.1, r.2.1.map (· + 1), r.2.2)),
    mbx := { x.mbx with reqs := x.mbx.reqs.map (fun r => { r with age := r.age + 1 }) } }
  d.leaveDark k q

/-- A line at a tick boundary: its samples for the filter engine, and the ages of states not acknowledged. -/
def Dev.lineTickAll (d : Dev) (n : Nat) : Dev :=
  (d.lineTick n).modLine n (fun x => { x with acks := x.acks.map (fun a => (a.1, a.2.1 + 1, a.2.2)) })

/-- The lanes and lines at a tick boundary. -/
def Dev.ollTick (k : Clock) (d : Dev) : Dev :=
  let d := (List.range 32).foldl (fun d q => if (d.oll.lanes.any (fun p => p.1 == q)) then d.laneTick k q else d) d
  let d := (List.range 256).foldl (fun d n => if (d.oll.lines.any (fun p => p.1 == n)) then d.lineTickAll n else d) d
  { d with oll := { d.oll with waveTicks := d.oll.waveTicks + 1 } }

/-- The downstream frame whose transmission starts here, in the last part of a tick or at its boundary: f moves by a step at
most, and the frame's number and mailbox chunk are fixed (R65, R66). -/
def Dev.startFrame (k : Clock) (d : Dev) (q : Nat) : Dev :=
  let x := d.lane q
  if !x.sends || x.loop.isSome then d
  else
    let goal := match x.train with
      | .dark => 0
      | .live | .activate => x.fGoal
      | _ => if x.fromLive then x.f else if x.fast then x.f else 0
    let f := if x.train == .dark then 0 else if x.f < goal then x.f + 1 else if goal < x.f then x.f - 1 else x.f
    let n := if 1536 ≤ k.sub then k.tick + 1 else k.tick
    let c := x.chunk
    let retrain := match x.retrain, c.2.1.cur with
      | some (full, none, a), some m => if m.who == .reset then some (full, some 0, a) else x.retrain
      | r, _ => r
    let d := if c.2.2 then d.bump1 .ollLMbxRetry q else d
    (d.setLane q ({ x with
      f := f, mbx := c.2.1, retrain := retrain, dsPrev := x.dsNum, dsNum := some (n % 2 ^ 24), dsHead := c.1 } : Lane).keep).tryLive k q

def execDownstreamFrameTx (q : Nat) (s : State) : Out := onDev (fun k d => d.startFrame k q) s

def execLatchPoint (s : State) : Out := atSub 1152 (onDev (fun k d => d.latchAll k)) s

/-- `comma` is the frame's first code group, `codes` are the 383 behind it. -/
def execUpstreamFrame (q comma : Nat) (codes : List Nat) (spaced : Bool) (rt : Nat) (s : State) : Out :=
  onDev (fun k d => d.upFrame k q (comma :: codes) spaced rt) s

/-- R80: the telemetry of the active lines. -/
def execTelemetryPacket (q : Nat) (s : State) : Out :=
  onDev (fun k d =>
    let x := d.lane q
    if x.en && decide (0 < x.telemLog2) && k.tick % 2 ^ x.telemLog2 == 0 then
      let act := (laneLines q).filter (fun n => (d.line n).active)
      d.lanePacket k q 2 x.lastNum 2 (d.activeMask q) 0 0
        (act.flatMap (fun n => bytesWords (((d.line n).telem ++ List.replicate 16 0).take 16)))
    else d) s

/-- R89: no comma arrived in the window. -/
def execTurnaroundMiss (q : Nat) (s : State) : Out :=
  onDev (fun k d =>
    let d := d.modLane q (fun y => { y with rxDisp := none })
    let x := d.lane q
    if x.train == .live && !x.scanned (k.tick + 1) then (d.bump1 .ollLTurnaroundMiss q).laneMiss k q
    else if x.train == .frameLock then d.setLane q { x with good := 0 }
    else d) s

def execLosAssert (q : Nat) (s : State) : Out :=
  onDev (fun k d =>
    let d := d.modLane q (fun x => { x with los := true })
    let x := d.lane q
    if x.train == .dark then d
    else
      let d := (d.linesLost k q).abortMail k q
      if x.train == .live || x.fromLive then d.setTrain k q .dark 9 else d.trainFail k q 9) s

/-- R86: the lane may leave DARK once the release has lasted eight ticks. -/
def execLosRelease (q : Nat) (s : State) : Out :=
  onDev (fun _ d => if (d.lane q).los then d.modLane q (fun x => { x with los := false, losOff := 0 }) else d) s

/-- R86: a comma and 1,024 valid code groups. -/
def execCommaFound (q : Nat) (s : State) : Out :=
  onDev (fun k d =>
    let x := d.lane q
    if x.train == .bitLock && !x.startScan then (d.setLane q { x with align := 0 }).setTrain k q .frameLock 0 else d) s

/-- The timeout of a training state and its reason (Table 3.18). -/
def trainLimit : Train → Option (Nat × Nat)
  | .bitLock => some (64, 1)
  | .frameLock => some (32, 2)
  | .delayMeasure => some (128, 3)
  | .capability => some (256, 5)
  | .activate => some (512, 8)
  | _ => none

def execTrainTimeout (q : Nat) (s : State) : Out :=
  onDev (fun k d =>
    let x := d.lane q
    match trainLimit x.train with
    | some (n, reason) => if n ≤ x.inTicks && !x.fromLive then d.trainFail k q reason else d
    | none => d) s

/-- R88: the lane leaves the re-entry path and its lines are deactivated. -/
def execRelockTimeout (q : Nat) (s : State) : Out :=
  onDev (fun k d =>
    let x := d.lane q
    if x.train == .frameLock && x.fromLive && decide (32 ≤ x.inTicks) then (d.linesLost k q).trainFail k q 2 else d) s

def execHoldoffEnd (q : Nat) (s : State) : Out :=
  onDev (fun k d =>
    let x := d.lane q
    if x.holdoff = 1 then (d.setLane q { x with holdoff := 0, fails := 0 }).leaveDark k q else d) s

/-- The lanes of wave `w`. -/
def waveLanes (w : Nat) : List Nat := (List.range 8).map (fun i => 8 * w + i)

def Dev.startWave (k : Clock) (d : Dev) (w : Nat) : Dev :=
  let d := { d with oll := { d.oll with wave := some w, waveTicks := 0 } }
  (waveLanes w).foldl (fun d q =>
    if (d.lane q).waveWait then (d.modLane q (fun x => { x with waveWait := false, waveDone := false })).leaveDark k q else d) d

def execTrainingWaveStart (s : State) : Out :=
  onDev (fun k d =>
    match d.oll.wave with
    | some w =>
      let done := (waveLanes w).all (fun q => !(d.lane q).en || (d.lane q).waveDone)
      if w < 3 && (done || decide (480 ≤ d.oll.waveTicks)) then d.startWave k (w + 1) else d
    | none => d) s

def execLineCmdTimeout (n : Nat) (s : State) : Out :=
  onDev (fun k d =>
    match (d.line n).flight with
    | some fl => if 16 ≤ fl.sent then
        ((d.modLine n (fun x => { x with flight := none })).bump1 .ollLineCmdTimeout n).answer k fl.cmd.src 0x0307 .dropped
      else d
    | none => d) s

def execStateAckTimeout (n : Nat) (s : State) : Out :=
  onDev (fun k d =>
    let x := d.line n
    let late := x.acks.filter (fun a => decide (16 ≤ a.2.1))
    let d := d.setLine n { x with acks := x.acks.filter (fun a => !decide (16 ≤ a.2.1)) }
    late.foldl (fun d a => (d.bump1 .ollLineStateAckTimeout n).answer k a.2.2 0x0306 .dropped) d) s

def execMailboxTimeout (q : Nat) (s : State) : Out :=
  onDev (fun k d =>
    let x := d.lane q
    let late := fun (r : MbxReq) => decide (answerTicks r.msg.typ ≤ r.age)
    let d := d.setLane q { x with mbx := x.mbx.endReqs late }
    (x.mbx.reqs.filter late).foldl (fun d r => (d.bump1 .ollLMbxTimeout q).dropMsg k .dropped r.msg) d) s

/-- A lane comes to rest in DARK with reason DISABLED: what is under way ends, and an enable that waited takes effect (R94). -/
def Dev.restDark (k : Clock) (d : Dev) (q : Nat) : Dev :=
  let d := (d.linesLost k q).abortMail k q
  let d := if (d.lane q).train == .dark then d.modLane q (fun y => { y with reason := 11 }) else d.setTrain k q .dark 11
  let d := (d.modLane q (fun y => { y with disabling := none, en := y.enAfter, enAfter := false, holdoff := 0,
                                           loop := none, retrain := none })).finish k .laneLoopback q .aborted
  (d.finish k .laneRetrain q .aborted).leaveDark k q

/-- The LANE_ENABLE commands whose last lane rests are answered. -/
def Dev.enableDone (k : Clock) (d : Dev) (q : Nat) : Dev :=
  let ws := d.oll.enWaits.map (fun w => (if w.1.testBit q then w.1 - 2 ^ q else w.1, w.2))
  let d := { d with oll := { d.oll with enWaits := ws.filter (fun w => w.1 != 0) } }
  (ws.filter (fun w => w.1 == 0)).foldl (fun d w => d.answer k w.2 0x0301 .ok) d

/-- The end of a disable's 16 ticks (R94). -/
def execLaneDisableEnd (q : Nat) (s : State) : Out :=
  onDev (fun k d => if (d.lane q).disabling = some 0 then (d.restDark k q).enableDone k q else d) s

def execLoopbackEnd (q : Nat) (s : State) : Out :=
  onDev (fun k d =>
    let x := d.lane q
    if x.loop = some 0 then
      let d := d.setLane q { x with loop := none, loopCode := 0, loopCrc := 0 }
      (d.finish k .laneLoopback q .ok [⟨4, x.loopCode⟩, ⟨4, x.loopCrc⟩]).leaveDark k q
    else d) s

/-- A retrain begins (R96). -/
def Dev.beginRetrain (k : Clock) (d : Dev) (q : Nat) (full : Bool) : Dev :=
  let d := d.modLane q (fun x => { x with retrain := none, fast := false })
  if full then
    let d := (d.modLane q (fun x => { x with kept := none })).linesLost k q
    if (d.lane q).train == .dark then d else d.setTrain k q .dark 12
  else if (d.lane q).train.mailOn then d.remeasure k q 12
  else (d.linesLost k q).modLane q (fun x => { x with fromLive := false })

def execRetrainBegin (q : Nat) (s : State) : Out :=
  onDev (fun k d =>
    let x := d.lane q
    match x.retrain with
    | some (full, age, acked) =>
      if acked || decide (40 ≤ age.getD 0) || !x.train.mailOn then
        (d.beginRetrain k q full).finish k .laneRetrain q .ok
      else d
    | none => d) s

/-! ### Host commands -/

def execLaneEnable (o : Origin) (mask : Nat) (enable : Bool) (s : State) : Out :=
  hostCmd o 0x0301 (fun k d =>
    let qs := (List.range 32).filter (fun q => mask.testBit q)
    if enable then
      (.now .ok [], qs.foldl (fun d q =>
        let x := d.lane q
        if x.disabling.isSome then d.setLane q { x with enAfter := true }
        else if x.en then d else (d.setLane q { x with en := true, waveWait := false }).leaveDark k q) d)
    else
      let off := qs.filter (fun q => (d.lane q).en)
      let running := qs.filter (fun q => (d.lane q).disabling.isSome)
      let d := off.foldl (fun d q => d.modLane q (fun x => { x with en := false, disabling := some 16, waveWait := false })) d
      let d := running.foldl (fun d q => d.modLane q (fun x => { x with enAfter := false })) d
      let wait := (off ++ running).foldl (fun m q => m + 2 ^ q) 0
      if wait = 0 then (.now .ok [], d)
      else (.held, { d with oll := { d.oll with enWaits := d.oll.enWaits ++ [(wait, .host o)] } })) s

def execLaneStatus (o : Origin) (lane : Nat) (s : State) : Out :=
  hostCmd o 0x0302 (fun _ d =>
    if 31 < lane then (.now .unknownObject [], d)
    else
      let x := d.lane lane
      let c := x.cap.getD {}
      (.now .ok ([⟨1, trainCode x.train⟩, ⟨1, x.reason⟩, ⟨4, x.rt⟩, ⟨4, (x.rt - c.turn) / 2⟩, ⟨2, x.nDly⟩, ⟨1, x.f⟩,
        ⟨4, x.holdoff - 1⟩] ++ ((c.raw ++ List.replicate 64 0).take 64).map (fun b => ⟨1, b⟩)), d)) s

def execLaneRetrain (o : Origin) (lane : Nat) (full reset : Bool) (s : State) : Out :=
  hostCmd o 0x0303 (fun k d =>
    if 31 < lane then (.now .unknownObject [], d)
    else
      let x := d.lane lane
      if !x.en then (.now .refusedBusy [], d)
      else if x.retrain.isSome then
        (.later .laneRetrain lane, d.setLane lane { x with retrain := x.retrain.map (fun r => (r.1 || full, r.2)) })
      else if reset && x.train.mailOn then
        (.later .laneRetrain lane, (d.mail lane true 7 [] .reset).modLane lane (fun y => { y with retrain := some (full, none, false) }))
      else (.now .ok [], d.beginRetrain k lane full)) s

def execLaneLoopback (o : Origin) (lane ticks : Nat) (s : State) : Out :=
  hostCmd o 0x0304 (fun k d =>
    if ticks < 8 || 80000 < ticks then (.now .badArg [], d)
    else if 31 < lane then (.now .unknownObject [], d)
    else if d.activeMask lane != 0 || (d.lane lane).loop.isSome || (d.lane lane).disabling.isSome then (.now .refusedBusy [], d)
    else
      let d := if (d.lane lane).train == .dark then d else d.setTrain k lane .dark 0
      (.later .laneLoopback lane, d.modLane lane (fun x => { x with loop := some ticks, loopCode := 0, loopCrc := 0 }))) s

/-- A line that takes commands: active, on a lane that is not being disabled (R94, R96). -/
def Dev.lineUp (d : Dev) (n : Nat) : Bool := (d.line n).active && (d.lane (n / 8)).disabling.isNone

def Dev.cmdLineActivate (d : Dev) (src : Src) (n : Nat) (act : Bool) : Reply × Dev :=
  if 255 < n then (.now .unknownObject [], d)
  else if (d.lane (n / 8)).disabling.isSome then (.now .refusedBusy [], d)
  else
    let x := d.line n
    if act then
      if !x.active && (d.lane (n / 8)).train == .live then (.held, d.mail (n / 8) true 3 [2 ^ (n % 8)] (.lineAct n src))
      else (.now .ok [], d.setLine n { x with enabled := true })
    else if x.active then (.held, d.setLine n { x with ops := x.ops ++ [.deactivate src] })
    else (.now .ok [], d.setLine n { x with enabled := false })

def Dev.cmdLineSetState (d : Dev) (src : Src) (n mask feed ring feedP : Nat) : Reply × Dev :=
  if 7 < feed || 7 < ring || 7 < feedP || 7 < mask then (.now .badArg [], d)
  else if 255 < n then (.now .unknownObject [], d)
  else if !d.lineUp n then (.now .refusedBusy [], d)
  else (.held, d.modLine n (fun x => { x with ops := x.ops ++ [.state mask feed ring feedP src] }))

/-- A command opcode that a host or an action may send (Table 3.9). -/
def lineOpcodeOk (c : Nat) : Bool := (decide (1 ≤ c) && decide (c ≤ 3)) || (decide (0x80 ≤ c) && decide (c ≤ 0xFE))

def Dev.cmdLineCommand (d : Dev) (src : Src) (n opc : Nat) (args : List Nat) : Reply × Dev :=
  if !lineOpcodeOk opc || 14 < args.length then (.now .badArg [], d)
  else if 255 < n then (.now .unknownObject [], d)
  else if (d.line n).full then (.now .noResource [], d)
  else if !d.lineUp n then (.now .refusedBusy [], d)
  else (.held, d.modLine n (fun x => { x with queue := x.queue ++ [{ opc := opc, args := args, src := src }] }))

def Dev.cmdLineActionWrite (d : Dev) (n e : Nat) (a : LAction) : Reply × Dev :=
  if 7 < e || 3 < a.kind || 7 < a.feed || 7 < a.ring || 7 < a.feedP || 7 < a.mask ||
      (decide (2 ≤ a.kind) && !lineOpcodeOk a.opc) || 14 < a.args.length then (.now .badArg [], d)
  else if 255 < n then (.now .unknownObject [], d)
  else if (d.lane (n / 8)).disabling.isSome then (.now .refusedBusy [], d)
  else (.now .ok [], d.modLine n (fun x => { x with ops := x.ops ++ [.actionWrite e a] }))

def Dev.cmdReflexWrite (d : Dev) (n r : Nat) (x : Reflex) : Reply × Dev :=
  if 7 < r || x.edge = 0 || 3 < x.edge || 5 < x.bit || 15 < x.condMode || 7 < x.action then (.now .badArg [], d)
  else if 255 < n then (.now .unknownObject [], d)
  else if (d.lane (n / 8)).disabling.isSome then (.now .refusedBusy [], d)
  else (.now .ok [], d.modLine n (fun y => { y with reflexes := y.reflexes.put {} r x }))

def actionFields (a : LAction) : List RField :=
  [⟨1, a.kind + 4 * a.mask⟩, ⟨1, a.feed + 16 * a.ring⟩, ⟨1, a.feedP⟩, ⟨1, 0⟩, ⟨1, a.opc⟩] ++
    ((a.args ++ List.replicate 14 0).take 14).map (fun b => ⟨1, b⟩)

def reflexFields (x : Reflex) : List RField :=
  [⟨1, b2n x.enable + 2 * x.bit + 16 * x.edge + 64 * b2n x.oneShot + 128 * b2n x.condEn⟩, ⟨1, x.condMode + 16 * x.action⟩]

def Dev.cmdLineRead (d : Dev) (n : Nat) : Reply × Dev :=
  if 255 < n then (.now .unknownObject [], d)
  else if (d.lane (n / 8)).disabling.isSome then (.now .refusedBusy [], d)
  else
    let x := d.line n
    (.now .ok ([⟨1, x.feed⟩, ⟨1, x.ring + 8 * x.feedP⟩, ⟨1, 0⟩, ⟨1, x.seq⟩, ⟨1, x.us0⟩, ⟨1, x.us1⟩, ⟨1, x.us2⟩, ⟨1, x.us3⟩] ++
      ((x.telem ++ List.replicate 16 0).take 16).map (fun b => ⟨1, b⟩) ++
      (List.range 8).flatMap (fun i => actionFields (x.actions.get {} i)) ++
      (List.range 8).flatMap (fun i => reflexFields (x.reflexes.get {} i))), d)

/-- A reply that turns its command away, with nothing changed (R27). -/
def Reply.refuses : Reply → Bool
  | .now st _ => st != .ok
  | _ => false

/-- A host command that is not turned away has touched what the line's channel keeps (R253). -/
def touching (kept : Bool) (line : Nat) (r : Reply × Dev) : Reply × Dev :=
  if kept && !r.1.refuses then (r.1, r.2.lineTouched line) else r

def execLineActivate (o : Origin) (line : Nat) (active : Bool) (s : State) : Out :=
  hostCmd o 0x0305 (fun _ d => d.cmdLineActivate (.host o) line active) s
def execLineSetState (o : Origin) (line mask feed ring feedP : Nat) (s : State) : Out :=
  hostCmd o 0x0306 (fun _ d => touching true line (d.cmdLineSetState (.host o) line mask feed ring feedP)) s
def execLineCommand (o : Origin) (line opc : Nat) (args : List Nat) (s : State) : Out :=
  hostCmd o 0x0307 (fun _ d => touching true line (d.cmdLineCommand (.host o) line opc args)) s
def execLineActionWrite (o : Origin) (line entry : Nat) (a : LAction) (s : State) : Out :=
  hostCmd o 0x0308 (fun _ d => touching (entry < 4) line (d.cmdLineActionWrite line entry a)) s
def execReflexWrite (o : Origin) (line reflex : Nat) (x : Reflex) (s : State) : Out :=
  hostCmd o 0x0309 (fun _ d => touching (reflex < 4) line (d.cmdReflexWrite line reflex x)) s
def execLineRead (o : Origin) (line : Nat) (s : State) : Out :=
  hostCmd o 0x030C (fun _ d => d.cmdLineRead line) s

/-- Message types that host software may send (R84, Table 3.16). -/
def hostMailTyp (t : Nat) : Bool := t == 4 || t == 5 || t == 6 || (decide (0x2000 ≤ t) && decide (t ≤ 0x3FFF))

def execMailboxSend (o : Origin) (lane typ : Nat) (payload : List Nat) (s : State) : Out :=
  hostCmd o 0x030A (fun _ d =>
    let x := d.lane lane
    let own := typ == 1 || typ == 2 || typ == 3 || typ == 7
    let st := firstStatus .ok [
      (decide (1016 < payload.length) || (!own && !hostMailTyp typ), .badArg), (decide (31 < lane), .unknownObject),
      (own, .notPermitted), (decide (4 ≤ x.mbx.host.length), .noResource),
      (x.train != .live || x.disabling.isSome, .refusedBusy)]
    if st == .ok then (.held, d.mail lane false typ payload (.host o)) else (.now st [], d)) s

def execLaneExpect (o : Origin) (lane cls minVer lines feats : Nat) (s : State) : Out :=
  hostCmd o 0x030B (fun _ d =>
    if 31 < lane then (.now .unknownObject [], d)
    else (.now .ok [], d.modLane lane (fun x => { x with expect := { cls := cls, minVer := minVer, lines := lines, feats := feats } }))) s

/-! ### Command Hoppers (R81) -/

def laneCmdOpc : LaneCmd → Nat
  | .activate .. => 0x0305 | .setState .. => 0x0306 | .command .. => 0x0307 | .actionWrite .. => 0x0308
  | .reflexWrite .. => 0x0309 | .read _ => 0x030C | .other => 0

def laneCmdLine : LaneCmd → Nat
  | .activate n _ | .setState n _ _ _ _ | .command n _ _ | .actionWrite n _ _ | .reflexWrite n _ _ | .read n => n
  | .other => 0

/-- What a packet's command does, as the host command of its opcode (R81). -/
def Dev.laneCmd (d : Dev) (src : Src) : LaneCmd → Reply × Dev
  | .activate n a => d.cmdLineActivate src n a
  | .setState n m f r p => d.cmdLineSetState src n m f r p
  | .command n o a => d.cmdLineCommand src n o a
  | .actionWrite n e a => d.cmdLineActionWrite n e a
  | .reflexWrite n e x => d.cmdReflexWrite n e x
  | .read n => d.cmdLineRead n
  | .other => (.now .badArg [], d)

/-- The next packet of a lane's command Hopper, whose argument block spells `c`, is consumed. DESIGN CHOICE (log entry 85): a
packet may name a line of any lane. -/
def execLaneCmdPacket (q : Nat) (c : LaneCmd) (s : State) : Out :=
  onDev (fun k d =>
    match d.hopTake k (d.lane q).cmdHop with
    | (some (_, w0 :: _), d) =>
      let n := bitsOf w0.toNat 16 8
      let src := Src.lanePkt q n
      let opc := bitsOf w0.toNat 0 16
      let r := if opc != laneCmdOpc c || n != laneCmdLine c || bitsOf w0.toNat 24 8 != 0 then (Reply.now .badArg [], d)
        else d.laneCmd src c
      r.2.reply k src opc r.1
    | (_, d) => d) s

end Sys2Proof.Machine
end

