-- ==== Sys2Proof/Machine/FilterArith.lean ====
section
/-! DEFINITION. The filter engine's arithmetic (R100 to R108, R113, R120, R519). -/
namespace Sys2Proof.Machine
open Sys2Proof

/-! ### Banks (Table 4.5) -/

/-- What a bank word holds until it is written; DC_A and HYB are a receive stream's. -/
def bankDefault (rx : Bool) (i : Nat) : Word :=
  if i = 3 then (if rx then 0x003FF000 else 0)
  else if i = 36 || i = 41 || i = 46 || i = 51 then 0x00400000
  else if 56 ≤ i && i ≤ 91 then (Config.halfBand ((i - 56) % 12)).setWidth 32
  else 0

def bankWord (rx : Bool) (st : Store (Option Word)) (i : Nat) : Word := (st.get none i).getD (bankDefault rx i)

/-- The bits of a bank word that are not reserved. -/
def bankMask (rx : Bool) (i : Nat) : Nat :=
  if i = 0 then (if rx then 0x3F else 0x3C)
  else if i = 1 then 0xFFFFFFFF
  else if i = 2 then (if rx then 0x3FFFF else 0x30FFF)
  else if i ≤ 35 then (if rx then 0xFFFFFF else 0)
  else if i ≤ 91 then 0xFFFFFF else 0

/-- A stream's active bank, as a function of the word. -/
def FStream.word (x : FStream) (rx : Bool) (i : Nat) : Word := bankWord rx (if x.bankB then x.bank1 else x.bank0) i
/-- The Q2.22 coefficient of a bank word. -/
def FStream.coef (x : FStream) (rx : Bool) (i : Nat) : Int := sext 24 (x.word rx i).toNat
def FStream.bypass (x : FStream) (rx : Bool) (i : Nat) : Bool := bitOf (x.word rx 0).toNat i
def FStream.shift (x : FStream) (rx : Bool) (st : Nat) : Nat :=
  if st < 8 then bitsOf (x.word rx 1).toNat (4 * st) 4 else bitsOf (x.word rx 2).toNat (4 * (st - 8)) 4
def FStream.protoNo (x : FStream) (rx : Bool) : Nat := bitsOf (x.word rx 2).toNat 16 2

/-- A prototype coefficient c[p][k] (R106). -/
def FProto.coef (x : FProto) (set p k : Nat) : Int :=
  if x.t ≤ k then 0
  else match x.rows.get none (16 * p + k) with
    | some v => sext 24 v.toNat
    | none => if set = 0 && !x.own then sext 24 (Config.proto (256 * k + p)).toNat else 0

/-! ### Output steps (R101, R102) -/

/-- A sum rounded half up and shifted, saturated to `n` bits; whether it saturated. -/
def roundSat (n sh : Nat) (acc : Int) : Int × Bool :=
  let y := (acc + (2 : Int) ^ (sh - 1)) / (2 : Int) ^ sh
  let c := clampI (-((2 : Int) ^ (n - 1))) ((2 : Int) ^ (n - 1) - 1) y
  (c, c != y)

def outStep (shift : Nat) (acc : Int) : Int × Bool := roundSat 24 (22 + shift) acc
def outStep16 (shift : Nat) (y : Int) : Int × Bool := roundSat 16 (8 + shift) y

/-- A stage run over a tick's samples: its state, its outputs in order, and how many of them saturated. -/
def runStage {σ : Type} (f : σ → Int → σ × Int × Bool) : σ → List Int → σ × List Int × Nat
  | s, [] => (s, [], 0)
  | s, x :: r =>
    let a := f s x
    let b := runStage f a.1 r
    (b.1, a.2.1 :: b.2.1, b2n a.2.2 + b.2.2)

/-- A stage without state. -/
def mapStage (f : Int → Int × Bool) (xs : List Int) : List Int × Nat :=
  (runStage (fun (_ : Unit) x => ((), (f x).1, (f x).2)) () xs).2

/-- The DC blocker. A bypassed stage hands its input to its output step; its histories follow its input. -/
def dcStep (a : Int) (shift : Nat) (byp : Bool) (h : Int × Int) (x : Int) : (Int × Int) × Int × Bool :=
  if byp then let o := outStep shift (x * 4194304); ((x, x), o.1, o.2)
  else
    let acc := (x - h.1) * 4194304 + a * h.2
    let fb := outStep 0 acc
    let o := outStep shift acc
    ((x, fb.1), o.1, o.2 || fb.2)

def dot : List Int → List Int → Int
  | a :: r, b :: t => a * b + dot r t
  | _, _ => 0

/-- Hybrid balance over a tick (R103): `refs` holds the 39 reference samples up to the tick's last, newest first. -/
def hybRun (cs refs : List Int) (shift : Nat) (byp : Bool) (xs : List Int) : List Int × Nat :=
  (runStage (fun (i : Nat) x =>
    let acc := if byp then x * 4194304 else x * 4194304 - dot cs ((refs.drop (7 - i)).map (· * 256))
    let o := outStep shift acc
    (i + 1, o.1, o.2)) 0 xs).2

/-- A biquad, direct form I. -/
def bqStep (b0 b1 b2 a1 a2 : Int) (shift : Nat) (byp : Bool) (h : Bq) (x : Int) : Bq × Int × Bool :=
  if byp then
    let o := outStep shift (x * 4194304)
    ({ x1 := x, x2 := h.x1, y1 := x, y2 := h.y1 }, o.1, o.2)
  else
    let acc := b0 * x + b1 * h.x1 + b2 * h.x2 - a1 * h.y1 - a2 * h.y2
    let fb := outStep 0 acc
    let o := outStep shift acc
    ({ x1 := x, x2 := h.x1, y1 := fb.1, y2 := h.y1 }, o.1, o.2 || fb.2)

/-- The half-band sum over a window of 47 inputs, newest first (R104). -/
def halfSum (cs w : List Int) : Int :=
  2097152 * w.getD 23 0 +
    (List.range 12).foldl (fun s j => s + cs.getD j 0 * (w.getD (24 + 2 * j) 0 + w.getD (22 - 2 * j) 0)) 0

/-- Half-band decimation by 2. -/
def decimate (cs : List Int) (shift : Nat) : List Int → List Int → List Int × List Int × Nat
  | h, x0 :: x1 :: r =>
    let w := (x0 :: h).take 47
    let o := outStep shift (halfSum cs w)
    let b := decimate cs shift ((x1 :: w).take 47) r
    (b.1, o.1 :: b.2.1, b2n o.2 + b.2.2)
  | h, _ => (h, [], 0)

/-- Half-band interpolation by 2 (R105). -/
def interpolate (cs : List Int) (shift : Nat) : List Int → List Int → List Int × List Int × Nat
  | h, u :: r =>
    let w := (u :: h).take 47
    let o := outStep shift (2 * halfSum cs w)
    let w2 := (0 :: w).take 47
    let o2 := outStep shift (2 * halfSum cs w2)
    let b := interpolate cs shift w2 r
    (b.1, o.1 :: o2.1 :: b.2.1, b2n o.2 + b2n o2.2 + b.2.2)
  | h, [] => (h, [], 0)

/-! ### The resampler (R107) -/

/-- Output `m` from the inputs up to its newest, newest first. -/
def rsOutput (proto : Nat → Nat → Int) (t fi fo shift m : Nat) (hist : List Int) : Int × Bool :=
  let phi := (((m * fi) % fo) * 4194304) / fo
  let p := phi / 16384
  let mu : Int := ((phi % 16384 : Nat) : Int)
  let row := fun q => (List.range t).map (proto q)
  let a0 := dot (row p) hist
  let a1 := dot (row (p + 1)) hist
  outStep shift ((a0 * (16384 - mu) + a1 * mu) / 16384)

/-- The outputs whose newest input is the one just taken. -/
def rsDrain (proto : Nat → Nat → Int) (t fi fo shift : Nat) : Nat → FPath → FPath × List Int × Nat
  | 0, p => (p, [], 0)
  | n + 1, p =>
    if p.rsOut * fi < p.rsIn * fo then
      let o := rsOutput proto t fi fo shift p.rsOut p.rsHist
      let b := rsDrain proto t fi fo shift n { p with rsOut := p.rsOut + 1 }
      (b.1, o.1 :: b.2.1, b2n o.2 + b.2.2)
    else (p, [], 0)

/-- A receive resampler over a tick's tap-rate inputs. -/
def rsReceive (proto : Nat → Nat → Int) (t fi fo shift : Nat) : FPath → List Int → FPath × List Int × Nat
  | p, [] => (p, [], 0)
  | p, x :: r =>
    let a := rsDrain proto t fi fo shift 3 { p with rsHist := (x :: p.rsHist).take 16, rsIn := p.rsIn + 1 }
    let b := rsReceive proto t fi fo shift a.1 r
    (b.1, a.2.1 ++ b.2.1, a.2.2 + b.2.2)

/-- Channel samples that the next `n` outputs of a transmit resampler need beyond those taken. -/
def rsNeed (fi fo n : Nat) (p : FPath) : Nat :=
  if n = 0 then 0 else ((p.rsOut + n - 1) * fi) / fo + 1 - p.rsIn

/-- Inputs are taken until index `i` has been. -/
def rsFeed : Nat → Nat → FPath → List Int → FPath × List Int
  | 0, _, p, xs => (p, xs)
  | n + 1, i, p, xs =>
    if p.rsIn ≤ i then
      rsFeed n i { p with rsHist := (xs.headD 0 :: p.rsHist).take 16, rsIn := p.rsIn + 1 } (xs.drop 1)
    else (p, xs)

/-- A transmit resampler: `n` outputs in order. -/
def rsTransmit (proto : Nat → Nat → Int) (t fi fo shift : Nat) : Nat → FPath → List Int → FPath × List Int × Nat
  | 0, p, _ => (p, [], 0)
  | n + 1, p, xs =>
    let i := (p.rsOut * fi) / fo
    let a := rsFeed (i + 1 - p.rsIn) i p xs
    let o := rsOutput proto t fi fo shift a.1.rsOut a.1.rsHist
    let b := rsTransmit proto t fi fo shift n { a.1 with rsOut := a.1.rsOut + 1 } a.2
    (b.1, o.1 :: b.2.1, b2n o.2 + b.2.2)

/-! ### Paths -/

/-- What one tick of a path gives: the path, the output samples, and each stage's outputs and saturations. -/
structure PathOut where
  path : FPath
  out  : List Int
  taps : List (Nat × List Int × Nat)

def FStream.bq (x : FStream) (rx : Bool) (i st : Nat) (h : Bq) (xs : List Int) : Bq × List Int × Nat :=
  let c := fun j => x.coef rx (36 + 5 * i + j)
  runStage (bqStep (c 0) (c 1) (c 2) (c 3) (c 4) (x.shift rx st) (x.bypass rx (2 + i))) h xs

def FStream.half (x : FStream) (rx : Bool) (i : Nat) : List Int := (List.range 12).map (fun j => x.coef rx (56 + 12 * i + j))

/-- The receive path over a tick (Table 4.2). -/
def FStream.runRx (x : FStream) (pr : FProto) (refs xs16 : List Int) : PathOut :=
  let p := x.path
  let s0 := mapStage (fun v => outStep (x.shift true 0) (v * 1073741824)) xs16
  let s1 := runStage (dcStep (x.coef true 3) (x.shift true 1) (x.bypass true 0)) (p.dcX, p.dcY) s0.1
  let s2 := hybRun ((List.range 32).map (fun i => x.coef true (4 + i))) refs (x.shift true 2) (x.bypass true 1) s1.2.1
  let s3 := x.bq true 0 3 p.eq0 s2.1
  let s4 := x.bq true 1 4 p.eq1 s3.2.1
  let s5 := x.bq true 2 5 p.eq2 s4.2.1
  let s6 := x.bq true 3 6 p.eq3 s5.2.1
  let s7 := if x.tap < 64000 then decimate (x.half true 0) (x.shift true 7) p.half0 s6.2.1 else (p.half0, s6.2.1, 0)
  let s8 := if x.tap < 32000 then decimate (x.half true 1) (x.shift true 8) p.half1 s7.2.1 else (p.half1, s7.2.1, 0)
  let s9 := if x.tap < 16000 then decimate (x.half true 2) (x.shift true 9) p.half2 s8.2.1 else (p.half2, s8.2.1, 0)
  let p := { p with dcX := s1.1.1, dcY := s1.1.2, eq0 := s3.1, eq1 := s4.1, eq2 := s5.1, eq3 := s6.1, half0 := s7.1,
                    half1 := s8.1, half2 := s9.1 }
  let s10 := if x.chRate = x.tap then
      ({ p with rsIn := p.rsIn + s9.2.1.length, rsOut := p.rsOut + s9.2.1.length }, s9.2.1, 0)
    else rsReceive (pr.coef (x.protoNo true)) pr.t x.tap x.chRate (x.shift true 10) p s9.2.1
  let s11 := mapStage (outStep16 (x.shift true 11)) s10.2.1
  { path := s10.1, out := s11.1,
    taps := [(0, s0.1, 0), (1, s1.2.1, s1.2.2), (2, s2.1, s2.2), (3, s3.2.1, s3.2.2), (4, s4.2.1, s4.2.2),
      (5, s5.2.1, s5.2.2), (6, s6.2.1, s6.2.2), (7, if x.tap < 64000 then s7.2.1 else [], s7.2.2),
      (8, if x.tap < 32000 then s8.2.1 else [], s8.2.2), (9, if x.tap < 16000 then s9.2.1 else [], s9.2.2),
      (10, s10.2.1, s10.2.2), (11, s11.1, s11.2)] }

/-- The gains of the ramp stage for the eight samples of a tick (R113). -/
def FStream.gains (x : FStream) : List (Int × Int) :=
  match x.ramp with
  | none => List.replicate 8 ((x.gm : Int), (x.ga : Int))
  | some r => (List.range 8).map (fun i =>
      let j : Int := ((8 * r.done + i + 1 : Nat) : Int)
      let n : Int := ((8 * r.ticks : Nat) : Int)
      ((r.gm0 : Int) + (((r.gm1 : Int) - r.gm0) * j).tdiv n, (r.ga0 : Int) + (((r.ga1 : Int) - r.ga0) * j).tdiv n))

/-- The channel samples that a transmit stream needs in a tick (R107). -/
def FStream.need (x : FStream) : Nat :=
  if x.chRate = x.tap then x.tap / 8000 else rsNeed x.chRate x.tap (x.tap / 8000) x.path

/-- The transmit path over a tick (Table 4.3), from channel samples and ALT samples. -/
def FStream.runTx (x : FStream) (pr : FProto) (main alt : List Int) : PathOut :=
  let p := x.path
  let s0 := mapStage (fun v => outStep (x.shift false 0) (v * 1073741824)) main
  let s1 := if x.chRate = x.tap then
      ({ p with rsIn := p.rsIn + s0.1.length, rsOut := p.rsOut + s0.1.length }, s0.1, 0)
    else rsTransmit (pr.coef (x.protoNo false)) pr.t x.chRate x.tap (x.shift false 1) (x.tap / 8000) p s0.1
  let p := s1.1
  let s2 := if x.tap ≤ 8000 then interpolate (x.half false 0) (x.shift false 2) p.half0 s1.2.1 else (p.half0, s1.2.1, 0)
  let s3 := if x.tap ≤ 16000 then interpolate (x.half false 1) (x.shift false 3) p.half1 s2.2.1 else (p.half1, s2.2.1, 0)
  let s4 := if x.tap ≤ 32000 then interpolate (x.half false 2) (x.shift false 4) p.half2 s3.2.1 else (p.half2, s3.2.1, 0)
  let s5 := x.bq false 0 5 p.eq0 s4.2.1
  let s6 := x.bq false 1 6 p.eq1 s5.2.1
  let s7 := x.bq false 2 7 p.eq2 s6.2.1
  let s8 := x.bq false 3 8 p.eq3 s7.2.1
  let gs := x.gains
  let s9 := runStage (fun (i : Nat) v =>
    let g := gs.getD i (0, 0)
    let o := outStep (x.shift false 9) ((g.1 * v + g.2 * (alt.getD i 0 * 256)) * 128)
    (i + 1, o.1, o.2)) 0 s8.2.1
  let s10 := mapStage (outStep16 (x.shift false 10)) s9.2.1
  { path := { p with half0 := s2.1, half1 := s3.1, half2 := s4.1, eq0 := s5.1, eq1 := s6.1, eq2 := s7.1, eq3 := s8.1 },
    out := s10.1,
    taps := [(0, s0.1, 0), (1, s1.2.1, s1.2.2), (2, if x.tap ≤ 8000 then s2.2.1 else [], s2.2.2),
      (3, if x.tap ≤ 16000 then s3.2.1 else [], s3.2.2), (4, if x.tap ≤ 32000 then s4.2.1 else [], s4.2.2),
      (5, s5.2.1, s5.2.2), (6, s6.2.1, s6.2.2), (7, s7.2.1, s7.2.2), (8, s8.2.1, s8.2.2), (9, s9.2.1, s9.2.2),
      (10, s10.1, s10.2)] }

/-! ### Detectors (R120) -/

/-- A value against the thresholds: the detector, and the crossing there is, upward or downward. -/
def Det.judge (x : Det) (v hi lo : Int) : Det × Option Bool :=
  if !x.above && decide (hi ≤ v) then ({ x with v := v, above := true }, some true)
  else if x.above && decide (v < lo) then ({ x with v := v, above := false }, some false)
  else ({ x with v := v }, none)

def Det.sample (x : Det) (s : Int) : Det × Option Bool :=
  let m := s.natAbs
  if x.typ = 1 || x.typ = 2 then
    let acc := if x.typ = 1 then max x.acc m else x.acc + m * m
    if x.count + 1 = 2 ^ x.win then
      let y := { x with count := 0, acc := 0 }
      if x.typ = 1 then y.judge ((acc : Nat) : Int) ((x.hi : Nat) : Int) ((x.lo : Nat) : Int)
      else y.judge (((acc / 2 ^ x.win : Nat)) : Int) (((x.hi * x.hi : Nat)) : Int) (((x.lo * x.lo : Nat)) : Int)
    else ({ x with count := x.count + 1, acc := acc }, none)
  else if x.typ = 3 then
    let a : Int := ((m * 65536 : Nat) : Int)
    let e := if x.v < a then x.v + (a - x.v) / (2 : Int) ^ x.attack else x.v - (x.v - a) / (2 : Int) ^ x.release
    x.judge e (((x.hi * 65536 : Nat)) : Int) (((x.lo * 65536 : Nat)) : Int)
  else (x, none)

/-- A detector over the samples of its stage: the crossings in order. -/
def Det.run : Det → List Int → Det × List Bool
  | x, [] => (x, [])
  | x, s :: r =>
    let a := x.sample s
    let b := Det.run a.1 r
    (b.1, a.2.toList ++ b.2)

/-- The settings kept, the detector's state cleared (R115, Table 4.8). -/
def Det.cleared (x : Det) : Det := { x with count := 0, acc := 0, v := 0, above := false }

end Sys2Proof.Machine
end

