-- ==== Sys2Proof/Machine/Filter.lean ====
section
/-! DEFINITION. The line filter engine (chapter 4): stream slots, sources, blocks, boundaries, actions and commands. -/
namespace Sys2Proof.Machine
open Sys2Proof

def Dev.fst (d : Dev) (i : Nat) : FStream := d.fce.streams.get {} i
def Dev.setFst (d : Dev) (i : Nat) (x : FStream) : Dev := { d with fce := { d.fce with streams := d.fce.streams.put {} i x } }
def Dev.modFst (d : Dev) (i : Nat) (f : FStream → FStream) : Dev := d.setFst i (f (d.fst i))
def Dev.proto (d : Dev) (i : Nat) : FProto := d.fce.protos.get {} i

/-- Streams 0 to 255 receive. -/
def isRx (i : Nat) : Bool := decide (i < 256)

/-! ### Sources (R111, R112) -/

/-- The next good packet of a source is opened: its header is read; bad packets are released and counted. -/
def Dev.openSource (k : Clock) (line hop : Nat) : Nat → Dev → Nat × Dev
  | 0, d => (0, d)
  | n + 1, d =>
    if !d.hopReady hop then (0, d)
    else if (d.hopper hop).ro != 0 then Dev.openSource k line hop n ((d.hopNext hop).hopRelease k hop)
    else
      let ws := d.hopRest hop
      let w := (ws.headD 0).toNat
      let m := w % 65536
      if m = 0 || 2 * (ws.length - 1) < m || 65536 ≤ w then
        Dev.openSource k line hop n (((d.hopNext hop).hopRelease k hop).bump1 .fceLineTxBadPacket line)
      else (m, (d.hopGet hop 0).2)

/-- One sample of a source; none where the source lacks it. -/
def Dev.nextSample (k : Clock) (d : Dev) (line hop : Nat) (src : FSource) : Option Int × FSource × Dev :=
  let fuel := (d.hopper hop).seq.length + (d.hopper hop).fill.length + 2
  let (left, half, d) := match src.half with
    | some v => (src.left, some v, d)
    | none =>
      if 0 < src.left && (d.hopper hop).ro != 0 then (src.left, none, d)
      else
        let r := d.openSource k line hop fuel
        (r.1, none, r.2)
  if left = 0 then (none, {}, d)
  else
    let (v, half', d) := match half with
      | some v => (v, none, d)
      | none =>
        let g := d.hopGet hop 0
        (sext 16 g.1.word.toNat, if 1 < left then some (sext 16 (g.1.word.toNat / 65536)) else none, g.2)
    if left = 1 then
      let d := if (d.hopper hop).ro != 0 then d.hopNext hop else d
      (some v, {}, d.hopRelease k hop)
    else (some v, { left := left - 1, half := half' }, d)

/-- `n` samples of a source, zeros where it lacks them; whether it lacked any. -/
def Dev.readSource (k : Clock) (line hop : Nat) : Nat → FSource → Dev → List Int × Bool × FSource × Dev
  | 0, src, d => ([], false, src, d)
  | n + 1, src, d =>
    if hop = 0xFFFF then (List.replicate (n + 1) 0, false, src, d)
    else
      let r := d.nextSample k line hop src
      let q := Dev.readSource k line hop n r.2.1 r.2.2
      (r.1.getD 0 :: q.1, r.1.isNone || q.2.1, q.2.2)

/-- Every unread packet of a source is released. -/
def Dev.flushPackets (k : Clock) (hop : Nat) : Nat → Dev → Dev
  | 0, d => d
  | n + 1, d => if d.hopReady hop then Dev.flushPackets k hop n ((d.hopNext hop).hopRelease k hop) else d

/-- A source's unread samples are released (R112): the packet whose last word has been read, and every packet behind it. -/
def Dev.flushSource (k : Clock) (d : Dev) (hop : Nat) : Dev :=
  if !d.hopUp hop then d
  else Dev.flushPackets k hop ((d.hopper hop).seq.length + (d.hopper hop).fill.length + 1) (d.hopRelease k hop)

/-! ### Blocks (R109, Table 4.4) -/

/-- Two-bit values packed sixteen to a word. -/
def statusWordsN : Nat → List Nat → List Word
  | 0, _ => []
  | n + 1, l => if l.isEmpty then [] else
      BitVec.ofNat 32 ((l.take 16).foldr (fun s acc => s % 4 + 4 * acc) 0) :: statusWordsN n (l.drop 16)

/-- Samples two to a word, a final odd one padded with zero. -/
def sampleWords : List Int → List Word
  | a :: b :: r => BitVec.ofNat 32 (toBits 16 a + 65536 * toBits 16 b) :: sampleWords r
  | [a] => [BitVec.ofNat 32 (toBits 16 a)]
  | [] => []

def blockWords (i : Nat) (b : FBlock) (short : Bool) : List Word :=
  let stamp := b.first * 4096
  [BitVec.ofNat 32 (i + b.status.length * 2 ^ 16 + b2n (b.status.contains 1) * 2 ^ 24 + b2n (b.status.contains 2) * 2 ^ 25 +
      b2n (b.status.contains 3) * 2 ^ 26 + b2n b.sat * 2 ^ 27 + b2n short * 2 ^ 28),
    BitVec.ofNat 32 stamp, BitVec.ofNat 32 (stamp / 2 ^ 32), BitVec.ofNat 32 b.samples.length] ++
    statusWordsN b.status.length b.status ++ sampleWords b.samples

/-- A block is committed, or dropped for want of a Hopper. -/
def Dev.putBlock (k : Clock) (d : Dev) (i : Nat) (b : FBlock) (short : Bool) : Dev :=
  let x := d.fst i
  if d.hopUp x.hopper then (d.hopPut k x.hopper .filter x.prio (blockWords i b short)).2 else d.bump1 .fceLineBlockDrop i

/-- The block in progress is committed. -/
def Dev.commitBlock (k : Clock) (d : Dev) (i : Nat) (short : Bool) : Dev :=
  match (d.fst i).block with
  | none => d
  | some b => (d.modFst i (fun x => { x with block := none })).putBlock k i b short

/-- The block that a stop has ended is committed SHORT. -/
def Dev.commitEnded (k : Clock) (d : Dev) (i : Nat) : Dev :=
  match (d.fst i).ended with
  | none => d
  | some b => (d.modFst i (fun x => { x with ended := none })).putBlock k i b true

/-- A tick's samples, status and saturation join the block of its capture tick `c`, which begins where `c` is divisible by
BLOCK_TICKS and lies behind no time step, and is committed at its last tick (R109, R118). -/
def Dev.toBlock (k : Clock) (d : Dev) (i c st : Nat) (out : List Int) (sat : Bool) : Dev :=
  let x := d.fst i
  let b := if c % x.blockTicks = 0 && decide (d.fce.blocksFrom ≤ c) then
      some { first := c, status := [], samples := [], sat := false } else x.block
  let b := b.map (fun b => { b with status := b.status ++ [st], samples := b.samples ++ out, sat := b.sat || sat })
  let d := d.modFst i (fun y => { y with block := b })
  if (c + 1) % x.blockTicks = 0 then d.commitBlock k i false else d

/-! ### A slot (R98) -/

/-- Saturations of one stage: counted, remembered for FILTER_STATUS, and reported (R101, FCE_EVT_CFG). -/
def Dev.saturated (k : Clock) (d : Dev) (i st n : Nat) : Dev :=
  if n = 0 then d
  else
    let x := d.fst i
    let d := d.bumpN ⟨if isRx i then .fceLineRxSat else .fceLineTxSat, i % 256, st - 1⟩ n
    let d := d.setFst i { x with satBits := if x.satBits.contains st then x.satBits else st :: x.satBits,
                                 satTotal := x.satTotal + n }
    let m := 2 ^ d.fce.satLog2
    if d.fce.satLog2 = 0 then d
    else (List.range ((x.satTotal + n) / m - x.satTotal / m)).foldl (fun d j =>
      d.event k 0x0480 0 (i + (((x.satTotal / m + 1 + j) * m) % 65536) * 65536)) d

/-- The detectors of a stream over a tick's stage outputs: their flags are set at the end of the slot. -/
def Dev.detect (k : Clock) (d : Dev) (i : Nat) (taps : List (Nat × List Int × Nat)) : Dev :=
  (List.range 4).foldl (fun d j =>
    let x := (d.fst i).dets.get {} j
    let smp := (taps.filter (fun t => t.1 == x.stage)).flatMap (fun t => t.2.1)
    let r := x.run smp
    let d := d.modFst i (fun s => { s with dets := s.dets.put {} j r.1 })
    r.2.foldl (fun d up =>
      let d := d.bump1 .fceLineDetCross (i % 256)
      let f := if up then x.up else x.down
      if f < 32 then d.setFlag k x.thread f else d) d) d

/-- The status of a receive tick (R110). -/
def lineStatus (x : Line) : Nat := if x.down then 2 else if x.stale then 1 else 0

/-- A receive stream's slot. In the stopped tick of a compound the path takes in zeros, and the tick's samples are zeros with
status 3 (R117). -/
def Dev.slotRx (k : Clock) (d : Dev) (i : Nat) : Dev :=
  let x := d.fst i
  let refs := (d.fst (256 + i)).played.drop 24
  let d := d.commitEnded k i
  if x.state == .stopped then
    match x.held with
    | none => d
    | some _ =>
      let r := x.runRx (d.proto (x.protoNo true)) refs (List.replicate 8 0)
      let d := d.modFst i (fun y => { y with path := r.path })
      if k.tick < 2 then d else d.toBlock k i (k.tick - 2) 3 (r.out.map (fun _ => 0)) false
  else
    let ln := d.line i
    let r := x.runRx (d.proto (x.protoNo true)) refs ((ln.samples ++ List.replicate 8 0).take 8)
    let st := lineStatus ln
    let d := d.modFst i (fun y => { y with path := r.path })
    let d := r.taps.foldl (fun d t => d.saturated k i t.1 t.2.2) d
    let d := if st = 0 then d.detect k i r.taps else d
    let sat := r.taps.any (fun t => t.2.2 != 0)
    if k.tick < 2 then d else d.toBlock k i (k.tick - 2) st r.out sat

/-- Samples join those placed on the lane: zeros where the stream does not run or the line is not active (R103).
DESIGN CHOICE (log entry 88): the line's activity is judged once, in the slot that produces the samples. -/
def Dev.play (d : Dev) (i : Nat) (out : List Int) : Dev :=
  let lane := if (d.line (i - 256)).active then out else List.replicate 8 0
  d.modFst i (fun y => { y with out := out, played := (lane.reverse ++ y.played).take 64 })

/-- A ramp whose last tick is over. -/
def FStream.rampOver (x : FStream) : Bool := x.ramp.any (fun r => decide (r.ticks ≤ r.done))

/-- A ramp whose last tick is over is done with. -/
def FStream.rampLeft (x : FStream) : FStream := if x.rampOver then { x with ramp := none } else x

/-- A transmit stream's slot. -/
def Dev.slotTx (k : Clock) (d : Dev) (i : Nat) : Dev :=
  let x := (d.fst i).rampLeft
  let n := i - 256
  if x.state == .stopped then
    let d := match x.held with
      | none => d
      | some _ => d.setFst i { x with path := (x.runTx (d.proto (x.protoNo false)) (List.replicate x.need 0) (List.replicate 8 0)).path }
    d.play i (List.replicate 8 0)
  else
    let m := Dev.readSource k n x.hopper x.need x.main d
    let d := if m.2.1 then m.2.2.2.bump1 .fceLineTxUnderrun n else m.2.2.2
    let fading := x.ramp.isSome
    let a := if x.ga != 0 || fading then Dev.readSource k n x.altHop 8 x.alt d else (List.replicate 8 0, false, x.alt, d)
    let d := if a.2.1 then a.2.2.2.bump1 .fceLineAltUnderrun n else a.2.2.2
    let r := x.runTx (d.proto (x.protoNo false)) m.1 a.1
    let g := x.gains.getLastD (0, 0)
    let ramp := x.ramp.map (fun p => { p with done := p.done + 1 })
    let d := d.setFst i { x with path := r.path, main := m.2.2.1, alt := a.2.2.1, gm := g.1.toNat, ga := g.2.toNat,
                                 ramp := ramp }
    let d := r.taps.foldl (fun d t => d.saturated k i t.1 t.2.2) d
    (d.detect k i r.taps).play i r.out

/-- The end of the slot that starts at sub-tick 6 i (R98). -/
def slotEnd (k : Clock) (i : Nat) : Clock :=
  if i = 511 then { k with tick := k.tick + 1, sub := 0 } else { k with sub := 6 * i + 6 }

/-- A slot's work reads the tick it lies in; what it commits, sets and reports carries the slot's end. -/
def Dev.slot (k : Clock) (d : Dev) (n : Nat) : Dev :=
  let d := d.modFst n (fun x => { x with served := k.tick + 1 })
  if n < 256 then d.slotRx { slotEnd k n with tick := k.tick } n else d.slotTx (slotEnd k n) n

/-- The last sub-tick of stream n's slot that lies in its tick: its results are available from 6 n + 6 on. -/
def slotSub (n : Nat) : Nat := min 3071 (6 * n + 6)

/-- A stream's slot has ended: once per tick, at the instant at which its results become available. -/
def execStreamSlot (n : Nat) (s : State) : Out :=
  atSub (slotSub n) (onDev (fun k d => if (d.fst n).served = k.tick + 1 then d else d.slot k n)) s

/-! ### Boundaries (R114 to R118) -/

def Dev.answerReq (k : Clock) (d : Dev) (r : FReq) (st : Status) : Dev :=
  match r.who with
  | some w => d.answer k w.1 w.2 st
  | none => if st == .ok then d else d.bump1 .fceLineActionRefused (r.stream % 256)

/-- A stream is stopped at a boundary: for good, or for the compound's one tick (R117). Its block in progress has ended. -/
def Dev.stopStream (k : Clock) (d : Dev) (i : Nat) (r : FReq) : Dev :=
  let x := d.fst i
  match r.kind with
  | .swap named b =>
    d.setFst i { x with state := .stopped, ramp := none, pend := none, held := some r, block := none, ended := x.block,
                        bankB := if named then b else !x.bankB }
  | _ => (d.setFst i { x with state := .stopped, ramp := none, pend := none, block := none, ended := x.block }).answerReq k r .ok

/-- A stream starts (R112, R113, R115). DESIGN CHOICE (log entry 88): the reference samples of the hybrid balance, which are the
transmit stream's, are none of the delay lines that START clears. -/
def Dev.startStream (k : Clock) (d : Dev) (i : Nat) (flush : Bool) : Dev :=
  let x := d.fst i
  let d := d.setFst i { x with
    state := .running, path := {}, gm := 32768, ga := 0, ramp := none, block := none,
    dets := x.dets.map (fun p => (p.1, p.2.cleared)),
    main := if flush then {} else x.main, alt := if flush then {} else x.alt }
  if flush && !isRx i then (d.flushSource k x.hopper).flushSource k x.altHop else d

/-- One request is judged against the state that those before it leave. -/
def Dev.judgeReq (k : Clock) (d : Dev) (r : FReq) : Dev :=
  let i := r.stream
  let x := d.fst i
  match r.kind with
  | .det j y => d.setFst i { x with dets := x.dets.put {} j y.cleared }
  | .start flush =>
    if x.state == .stopped && x.held.isNone then (d.startStream k i flush).answerReq k r .ok else d.answerReq k r .refusedBusy
  | .stop | .swap _ _ =>
    if x.state == .running then
      if x.ramp.isSome then
        (d.setFst i { x with state := .stopPending, pend := some r }).bump1 .fceLineStopDeferred (i % 256)
      else d.stopStream k i r
    else d.answerReq k r .refusedBusy
  | .ramp gm ga n =>
    if isRx i then d.answerReq k r .badArg
    else if x.state == .running then
      (d.setFst i { x with ramp := some { gm0 := x.gm, ga0 := x.ga, gm1 := gm, ga1 := ga, ticks := n, done := 0 } }).answerReq k r .ok
    else if x.state == .stopped && x.held.isNone then (d.setFst i { x with gm := gm, ga := ga }).answerReq k r .ok
    else d.answerReq k r .refusedBusy

/-- What takes effect at a tick boundary (R115): ramps whose last tick is over, compounds whose stopped tick is over, stops deferred
behind a ramp that has ended, then the commands in the order accepted and the actions in the order issued. -/
def Dev.filterBoundary (k : Clock) (d : Dev) : Dev :=
  let keys := d.fce.streams.entries.map (·.1)
  let d := keys.foldl (fun d i => if (d.fst i).rampOver then d.modFst i FStream.rampLeft else d) d
  let d := keys.foldl (fun d i =>
    let x := d.fst i
    match x.held with
    | some r => (d.setFst i { x with state := .running, held := none }).answerReq k r .ok
    | none => d) d
  let d := keys.foldl (fun d i =>
    let x := d.fst i
    match x.pend with
    | some r => if x.ramp.isNone then d.stopStream k i r else d
    | none => d) d
  let rs := d.fce.cmds ++ d.fce.acts
  let d := { d with fce := { d.fce with cmds := [], acts := [] } }
  rs.foldl (fun d r => d.judgeReq k r) d

def execFilterBoundaryApply (s : State) : Out := atSub 0 (onDev (fun k d => d.filterBoundary k)) s

/-- Blocks in progress end SHORT at a time step, and the next begin at the new tick count (R118). -/
def Dev.filterStep (k : Clock) (new : Nat) (d : Dev) : Dev :=
  let d := (d.fce.streams.entries.map (·.1)).foldl (fun d i => d.commitBlock k i true) d
  { d with fce := { d.fce with blocksFrom := new } }

/-- A request joins those of the next boundary: a command behind those accepted, an action behind those issued. -/
def Dev.enqueueReq (d : Dev) (r : FReq) : Dev :=
  { d with fce := if r.who.isSome then { d.fce with cmds := d.fce.cmds ++ [r] } else { d.fce with acts := d.fce.acts ++ [r] } }

/-- A request of the stream that may change its state waits. -/
def Dev.reqWaits (d : Dev) (i : Nat) : Bool :=
  (d.fce.cmds ++ d.fce.acts).any (fun r => r.stream == i && (match r.kind with
    | .det _ _ => false
    | _ => true))

/-- A request as it is accepted (R113, R116): refused for a stop, a compound or a ramp in STOP_PENDING; a stop or a compound of a
fading stream is deferred from here on; every other request is judged at its boundary. None where it is accepted. -/
def Dev.askReq (d : Dev) (r : FReq) : Option Status × Dev :=
  let x := d.fst r.stream
  match r.kind with
  | .stop | .swap _ _ =>
    if x.state == .stopPending then (some .refusedBusy, d)
    else if x.state == .running && x.ramp.isSome && !d.reqWaits r.stream then
      (none, (d.setFst r.stream { x with state := .stopPending, pend := some r }).bump1 .fceLineStopDeferred (r.stream % 256))
    else (none, d.enqueueReq r)
  | .ramp _ _ _ => if x.state == .stopPending then (some .refusedBusy, d) else (none, d.enqueueReq r)
  | _ => (none, d.enqueueReq r)

/-- An alarm issues a filter action (R121). -/
def Dev.filterAction (d : Dev) (i e : Nat) : Dev :=
  let a := (d.fst i).acts.get {} e
  let add := fun (x : FKind) =>
    let r := d.askReq { stream := i, kind := x, who := none }
    if r.1.isSome then r.2.bump1 .fceLineActionRefused (i % 256) else r.2
  if a.kind = 1 then add (.start a.flush)
  else if a.kind = 2 then add .stop
  else if a.kind = 3 then add (.swap a.named a.bank)
  else if a.kind = 4 then add (.ramp a.gm a.ga a.ticks)
  else d.bump1 .fceLineActionEmpty (i % 256)

/-! ### Commands (Table 4.8) -/

/-- A stream whose coefficients and configuration may change: STOPPED, and not held by a compound (R114, R117). -/
def FStream.open (x : FStream) : Bool := x.state == .stopped && x.held.isNone

def tapHz (t : Nat) : Nat := if t = 0 then 64000 else if t = 1 then 32000 else if t = 2 then 16000 else 8000

/-- The rates of R106. -/
def ratesOk (tap ch : Nat) : Bool :=
  decide (8000 ≤ ch) && decide (ch ≤ 48000) && (ch == tap || (decide (tap ≤ 2 * ch) && decide (ch ≤ 2 * tap)))

def Dev.cmdFilterConfig (d : Dev) (i tap rate hop ticks prio alt : Nat) : Reply × Dev :=
  let st := firstStatus .ok [
    (decide (3 < tap) || !ratesOk (tapHz tap) rate || (isRx i && (ticks == 0 || 160 % ticks != 0 || decide (7 < prio))), .badArg),
    (decide (511 < i), .unknownObject), (!(d.fst i).open, .refusedBusy)]
  if st == .ok then
    (.now .ok [], d.modFst i (fun x => { x with
      tap := tapHz tap, chRate := rate, hopper := hop,
      altHop := if isRx i then x.altHop else alt,
      blockTicks := if isRx i then ticks else x.blockTicks, prio := if isRx i then prio else x.prio }))
  else (.now st [], d)

def putWords (st : Store (Option Word)) : Nat → List Word → Store (Option Word)
  | _, [] => st
  | i, w :: r => putWords (st.put none i (some w)) (i + 1) r

def coefWordsOk (rx : Bool) : Nat → List Word → Bool
  | _, [] => true
  | i, w :: r => (w.toNat &&& bankMask rx i) == w.toNat && coefWordsOk rx (i + 1) r

def Dev.cmdCoefWrite (d : Dev) (i : Nat) (b : Bool) (first : Nat) (ws : List Word) : Reply × Dev :=
  let st := firstStatus .ok [
    (decide (96 < first + ws.length) || ws.isEmpty || !coefWordsOk (isRx i) first ws, .badArg),
    (decide (511 < i), .unknownObject), (!(d.fst i).open, .refusedBusy)]
  if st == .ok then
    (.now .ok [], d.modFst i (fun x =>
      if b then { x with bank1 := putWords x.bank1 first ws } else { x with bank0 := putWords x.bank0 first ws }))
  else (.now st [], d)

def Dev.cmdCoefRead (d : Dev) (i : Nat) (b : Bool) (first n : Nat) : Reply × Dev :=
  let st := firstStatus .ok [(decide (96 < first + n) || n == 0, .badArg), (decide (511 < i), .unknownObject)]
  let x := d.fst i
  if st == .ok then
    (.now .ok ((List.range n).map (fun j => ⟨4, (bankWord (isRx i) (if b then x.bank1 else x.bank0) (first + j)).toNat⟩)), d)
  else (.now st [], d)

def Dev.cmdBankSelect (d : Dev) (i : Nat) (b : Bool) : Reply × Dev :=
  let st := firstStatus .ok [(decide (511 < i), .unknownObject), (!(d.fst i).open, .refusedBusy)]
  if st == .ok then (.now .ok [], d.modFst i (fun x => { x with bankB := b })) else (.now st [], d)

/-- A command that waits for a boundary. -/
def Dev.queueReq (d : Dev) (src : Src) (opc i : Nat) (x : FKind) : Reply × Dev :=
  if 511 < i then (.now .unknownObject [], d)
  else match d.askReq { stream := i, kind := x, who := some (src, opc) } with
    | (some st, d) => (.now st [], d)
    | (none, d) => (.held, d)

/-- FILTER_RAMP: at once on a stopped stream that no start awaits, else at the next boundary (R113, R115). -/
def Dev.cmdRamp (d : Dev) (src : Src) (i gm ga n : Nat) : Reply × Dev :=
  if n = 0 || 256 < n || 32768 < gm || 32768 < ga || (isRx i) then (.now .badArg [], d)
  else if 511 < i then (.now .unknownObject [], d)
  else if (d.fst i).open && !d.reqWaits i then
    (.now .ok [], d.modFst i (fun x => { x with gm := gm, ga := ga }))
  else d.queueReq src 0x0408 i (.ramp gm ga n)

def Dev.cmdDetector (d : Dev) (i j : Nat) (x : Det) : Reply × Dev :=
  let bad := decide (3 < j) || decide (3 < x.typ) || decide ((if isRx i then 11 else 10) < x.stage) || decide (15 < x.win) ||
    decide (15 < x.attack) || decide (15 < x.release) || decide (8388608 < x.hi) || decide (x.hi < x.lo) ||
    decide (8191 < x.thread) || decide (32 < x.up) || decide (32 < x.down)
  if bad then (.now .badArg [], d)
  else if 511 < i then (.now .unknownObject [], d)
  else (.now .ok [], { d with fce := { d.fce with cmds := d.fce.cmds ++ [{ stream := i, kind := .det j x, who := none }] } })

def Dev.cmdFilterAction (d : Dev) (i e : Nat) (a : FAction) : Reply × Dev :=
  let bad := decide (3 < e) || decide (4 < a.kind) || (a.kind == 4 && (isRx i || a.ticks == 0 || decide (256 < a.ticks) ||
    decide (32768 < a.gm) || decide (32768 < a.ga)))
  if bad then (.now .badArg [], d)
  else if 511 < i then (.now .unknownObject [], d)
  else (.now .ok [], d.modFst i (fun x => { x with acts := x.acts.put {} e a }))

/-- A running stream selects the set. -/
def Dev.protoBusy (d : Dev) (set : Nat) : Bool :=
  d.fce.streams.entries.any (fun p => p.2.state != .stopped && p.2.protoNo (isRx p.1) == set)

def putRows (t : Nat) (st : Store (Option (BitVec 24))) : Nat → List (BitVec 24) → Store (Option (BitVec 24))
  | _, [] => st
  | n, c :: r => putRows t (st.put none (16 * (n / t) + n % t) (some c)) (n + 1) r

def Dev.cmdProto (d : Dev) (set t first rows : Nat) (cs : List (BitVec 24)) : Reply × Dev :=
  let bad := decide (3 < set) || !(t == 8 || t == 12 || t == 16) || decide (257 < first + rows) || rows == 0 ||
    cs.length != rows * t
  if bad then (.now .badArg [], d)
  else if d.protoBusy set then (.now .refusedBusy [], d)
  else
    let x := d.proto set
    let y : FProto := if x.t = t then { x with rows := putRows t x.rows (first * t) cs }
      else { t := t, own := true, rows := putRows t [] (first * t) cs }
    (.now .ok [], { d with fce := { d.fce with protos := d.fce.protos.put {} set y } })

def fstateCode : FState → Nat
  | .stopped => 0 | .running => 1 | .stopPending => 2

def Dev.cmdFilterStatus (d : Dev) (i : Nat) : Reply × Dev :=
  if 511 < i then (.now .unknownObject [], d)
  else
    let x := d.fst i
    let left := match x.ramp with
      | some r => r.ticks - r.done
      | none => 0
    (.now .ok ([⟨1, fstateCode x.state⟩, ⟨1, b2n x.bankB⟩, ⟨2, x.gm⟩, ⟨2, x.ga⟩, ⟨2, left⟩] ++
      (List.range 4).flatMap (fun j => let y := x.dets.get {} j; [⟨8, y.v.toNat⟩, ⟨1, b2n y.above⟩]) ++
      [⟨8, x.path.rsOut⟩, ⟨2, x.satBits.foldl (fun m st => m + 2 ^ st) 0⟩]),
     d.setFst i { x with satBits := [] })

def execFilterStreamConfig (o : Origin) (stream tap rate hop ticks prio alt : Nat) (s : State) : Out :=
  hostCmd o 0x0401 (fun _ d => d.cmdFilterConfig stream tap rate hop ticks prio alt) s
def execFilterCoefWrite (o : Origin) (stream : Nat) (bankB : Bool) (first : Nat) (ws : List Word) (s : State) : Out :=
  hostCmd o 0x0402 (fun _ d => d.cmdCoefWrite stream bankB first ws) s
def execFilterCoefRead (o : Origin) (stream : Nat) (bankB : Bool) (first n : Nat) (s : State) : Out :=
  hostCmd o 0x0403 (fun _ d => d.cmdCoefRead stream bankB first n) s
def execFilterBankSelect (o : Origin) (stream : Nat) (bankB : Bool) (s : State) : Out :=
  hostCmd o 0x0404 (fun _ d => d.cmdBankSelect stream bankB) s
def execFilterStart (o : Origin) (stream : Nat) (flush : Bool) (s : State) : Out :=
  hostCmd o 0x0405 (fun _ d => d.queueReq (.host o) 0x0405 stream (.start flush)) s
def execFilterStop (o : Origin) (stream : Nat) (s : State) : Out :=
  hostCmd o 0x0406 (fun _ d => d.queueReq (.host o) 0x0406 stream .stop) s
def execFilterStopSwapStart (o : Origin) (stream : Nat) (named bankB : Bool) (s : State) : Out :=
  hostCmd o 0x0407 (fun _ d => d.queueReq (.host o) 0x0407 stream (.swap named bankB)) s
def execFilterRamp (o : Origin) (stream gm ga ticks : Nat) (s : State) : Out :=
  hostCmd o 0x0408 (fun _ d => d.cmdRamp (.host o) stream gm ga ticks) s
def execFilterDetectorSet (o : Origin) (stream det : Nat) (x : Det) (s : State) : Out :=
  hostCmd o 0x0409 (fun _ d => d.cmdDetector stream det x) s
def execFilterActionWrite (o : Origin) (stream entry : Nat) (a : FAction) (s : State) : Out :=
  hostCmd o 0x040A (fun _ d => d.cmdFilterAction stream entry a) s
def execFilterProtoWrite (o : Origin) (set t first rows : Nat) (cs : List (BitVec 24)) (s : State) : Out :=
  hostCmd o 0x040B (fun _ d => d.cmdProto set t first rows cs) s
def execFilterStatus (o : Origin) (stream : Nat) (s : State) : Out :=
  hostCmd o 0x040C (fun _ d => d.cmdFilterStatus stream) s

/-- The opcode a packet's command has; 0 for one that spells none. -/
def fceOpc : FceCmd → Nat
  | .config .. => 0x0401 | .coefWrite .. => 0x0402 | .coefRead .. => 0x0403 | .bankSelect .. => 0x0404
  | .start .. => 0x0405 | .stop _ => 0x0406 | .swap .. => 0x0407 | .ramp .. => 0x0408 | .det .. => 0x0409
  | .action .. => 0x040A | .proto .. => 0x040B | .status _ => 0x040C | .other => 0

def Dev.fceRun (d : Dev) (src : Src) : FceCmd → Reply × Dev
  | .config i tap rate hop ticks prio alt => d.cmdFilterConfig i tap rate hop ticks prio alt
  | .coefWrite i b first ws => d.cmdCoefWrite i b first ws
  | .coefRead i b first n => d.cmdCoefRead i b first n
  | .bankSelect i b => d.cmdBankSelect i b
  | .start i flush => d.queueReq src 0x0405 i (.start flush)
  | .stop i => d.queueReq src 0x0406 i .stop
  | .swap i named b => d.queueReq src 0x0407 i (.swap named b)
  | .ramp i gm ga n => d.cmdRamp src i gm ga n
  | .det i j x => d.cmdDetector i j x
  | .action i e a => d.cmdFilterAction i e a
  | .proto set t first rows cs => d.cmdProto set t first rows cs
  | .status i => d.cmdFilterStatus i
  | .other => (.now .badArg [], d)

/-- The next packet of FCE_CMD_HOP, whose argument block spells `c`, is executed (R122). -/
def execFceCmdPacket (c : FceCmd) (s : State) : Out :=
  onDev (fun k d =>
    if !d.fce.cmdEn then d
    else match d.hopTake k d.fce.cmdHop with
      | (some (_, w0 :: _), d) =>
        let opc := w0.toNat % 65536
        let src := Src.fcePkt (w0.toNat / 65536)
        let r := if opc == fceOpc c then d.fceRun src c else (Reply.now .badArg [], d)
        r.2.reply k src opc r.1
      | (_, d) => d) s

end Sys2Proof.Machine
end

