-- ==== Sys2Proof/Machine/Hearth.lean ====
section
/-! DEFINITION. The Hearth timebase (chapter 2): sources, states, slew and step, alarm slots and commands. TICK and
TIME_STEP reach every unit and stand in Tick.lean. -/
namespace Sys2Proof.Machine
open Sys2Proof

def Dev.setHtb (d : Dev) (h : Htb) : Dev := { d with htb := h }

def hstateCode : HState → Nat
  | .freeRun => 0 | .coarse => 1 | .locked => 2 | .holdover => 3

/-- A state of Table 2.7 is entered and counted (R45). In HOLDOVER the last disciplined frequency is held, and no step waits,
since R47 gives none there; in FREE_RUN the media clock goes back to the frequency source's frequency (Table 2.6). -/
def Dev.enterH (d : Dev) (st : HState) : Dev :=
  let d := d.setHtb { d.htb with state := st, left := d.htb.left || st != .freeRun, ticksIn := 0, inTicks := 0, inRun := false, badUpd := 0, sinceSel := 0, ppsRej := 0 }
  match st with
  | .holdover =>
    (d.setHtb { d.htb with step := none, stepTod := false, leaving := false, residue := 0, rateHeld := true }).bump0
      .htbHoldoverEntry
  | .freeRun => (d.setHtb { d.htb with rateHeld := false }).bump0 .htbFreerunEntry
  | _ => d

/-- A time source is followed: one is selected, and holdover is not forced (R45). -/
def Htb.follows (h : Htb) : Bool := h.timeSrc != 0 && !h.forced

/-! ### Sources (R40, R42, R43) -/

/-- The time source that R40 chooses. -/
def Htb.wantTime (h : Htb) : Nat :=
  let ok0 := h.enables.getLsbD 0 && h.port0.slave && !h.ptpOff
  let ok1 := h.enables.getLsbD 1 && h.port1.slave && !h.ptpOff
  if h.forced && h.state == .freeRun then 0
  else if ok0 && ok1 then
    if h.port0.dataset < h.port1.dataset then 1
    else if h.port1.dataset < h.port0.dataset then 2
    else if h.prio1 < h.prio0 then 2 else 1
  else if ok0 then 1
  else if ok1 then 2
  else if h.enables.getLsbD 2 && h.todSet then 3 else 0

def Dev.selectTime (d : Dev) : Dev :=
  let w := d.htb.wantTime
  if w = d.htb.timeSrc then d
  else (d.setHtb { d.htb with timeSrc := w, sinceSel := 0, badUpd := 0, ppsRej := 0,
                              noSrc := if w = 0 then d.htb.noSrc else 0 }).bump0 .htbTimeSourceChange

/-- FREE_RUN is left for COARSE once a time source is selected and holdover is not forced (Table 2.7); the servo's first update
then says whether the offset requires a step (R47). -/
def Dev.leaveFreeRun (d : Dev) : Dev :=
  if d.htb.state == .freeRun && d.htb.follows && d.htb.servoOn then
    let d := d.enterH .coarse
    d.setHtb { d.htb with leaving := true }
  else d

/-- A frequency input is enabled and valid (R42). -/
def Htb.freqOk (h : Htb) (i : Nat) : Bool :=
  if i = 0 then h.enables.getLsbD 3 && h.port0.link && !h.port0.dnu
  else if i = 1 then h.enables.getLsbD 4 && h.port1.link && !h.port1.dnu
  else if i = 2 then h.refA.ok
  else h.enables.getLsbD 5 && h.refB.ok

/-- The frequency source is kept while it is valid and no reversion is due; with none valid the last frequency holds.
DESIGN CHOICE (log entry 84): with REVERTIVE 0 a higher-ranked source that becomes valid for the first time is not taken
either, as R43 has it for one that returns. -/
def Dev.selectFreq (d : Dev) : Dev :=
  let h := d.htb
  if h.freqOk h.freqSrc && !h.revertive then d
  else
    match least 4 h.freqOk with
    | some i => if i = h.freqSrc then d else (d.setHtb { h with freqSrc := i }).bump0 .htbFreqSourceChange
    | none => d

/-- One tick's count of a reference (R43). -/
def RefIn.check (r : RefIn) (cycles : Nat) : RefIn × Bool :=
  let good := decide (3000 ≤ cycles) && decide (cycles ≤ 3250)
  if r.lost then ({ r with good := if good then r.good + 1 else 0 }, false)
  else if good then ({ r with ok := true }, false)
  else ({ ok := false, lost := true, good := 0 }, true)

/-! ### Slewing (R46, R49) -/

/-- The rate of the next tick, in 4,000ths of a ppm, that removes `left` twelfths of a femtosecond soonest and ends at
rate 0: a rate of 1 removes 375 of them in a tick. -/
def slewRate (left v maxRate : Nat) : Nat :=
  let stop := fun (r : Nat) => 375 * r + 375 * (r * (r - 1) / 2)
  if v < maxRate && decide (stop (v + 1) ≤ left) then v + 1
  else if v ≤ maxRate && decide (stop v ≤ left) then v
  else v - 1

/-- The rate of the next tick with `left` still to be slewed away at rate `v`, both signed: it moves by at most one unit, which
is R46's 2 ppm per second, and back through 0 where it runs the wrong way. -/
def slewTo (left v : Int) (maxRate : Nat) : Int :=
  if left = 0 then (if v < 0 then v + 1 else if 0 < v then v - 1 else 0)
  else if left < 0 then (if 0 < v then v - 1 else -(slewRate left.natAbs v.natAbs maxRate : Int))
  else if v < 0 then v + 1 else (slewRate left.natAbs v.natAbs maxRate : Int)

/-- One tick of slewing. What is less than one tick's share at the lowest rate counts as removed. -/
def Htb.slew (h : Htb) : Htb :=
  if h.rateHeld then h
  else
    let v := slewTo h.residue h.rate (h.slewMax * 4000)
    let left := h.residue - 375 * v
    { h with residue := if v = 0 && decide (left.natAbs < 375) then 0 else left, rate := v }

/-! ### The Hearth at a tick boundary -/

def Dev.htbTick (d : Dev) (cyclesA cyclesB : Nat) : Dev :=
  let h := d.htb
  let ra := h.refA.check cyclesA
  let rb := h.refB.check cyclesB
  let d := d.setHtb { h with ticksIn := h.ticksIn + 1, inTicks := h.inTicks + 1, refA := ra.1, refB := rb.1,
                             enables := h.nextEn.getD h.enables, nextEn := none }
  let d := if ra.2 then d.bump0 .htbRefaLoss else d
  let d := if rb.2 then d.bump0 .htbRefbLoss else d
  let d := d.selectFreq.selectTime.leaveFreeRun
  let h := d.htb
  d.setHtb { h.slew with noSrc := if h.timeSrc = 0 then h.noSrc + 1 else 0 }

/-- R43: a lost reference is valid again after 8,000 good ticks; `b` is REFB. -/
def execRefRecover (b : Bool) (s : State) : Out :=
  onDev (fun _ d =>
    let r := if b then d.htb.refB else d.htb.refA
    if r.lost && decide (8000 ≤ r.good) then
      let r : RefIn := { ok := true, lost := false, good := 0 }
      (d.setHtb (if b then { d.htb with refB := r } else { d.htb with refA := r })).selectFreq
    else d) s

/-- R42: the quality level of an ESMC message on a port. -/
def execEsmcRx (port : Nat) (dnu : Bool) (s : State) : Out :=
  onDev (fun _ d =>
    if d.hif.paused then d.bump1 .ethEPtpRestartDrop port
    else
      (d.setHtb (if port = 0 then { d.htb with port0 := { d.htb.port0 with dnu := dnu } }
        else { d.htb with port1 := { d.htb.port1 with dnu := dnu } })).selectFreq) s

/-- R39: a PTP port leaves the SLAVE state for want of Announce messages. -/
def execAnnounceReceiptTimeout (port : Nat) (s : State) : Out :=
  onDev (fun _ d =>
    if !d.htb.servoOn then d
    else
      (d.setHtb (if port = 0 then { d.htb with port0 := { d.htb.port0 with slave := false } }
        else { d.htb with port1 := { d.htb.port1 with slave := false } })).selectTime) s

/-! ### The servo (R45 to R48) -/

/-- The offset rounded to the nearest multiple of 160 ticks, an exact half towards zero, in ticks; `unit` of the offset's
units make 160 ticks. -/
def stepOf (off : Int) (unit : Nat) : Int :=
  let n := (2 * off.natAbs + unit - 1) / (2 * unit)
  (if off < 0 then -1 else 1) * ((160 * n : Nat) : Int)

/-- 160 ticks in nanoseconds. -/
def stepNs : Nat := 20000000

/-- The offset calls for a step: beyond STEP_THRESH ticks. -/
def Htb.bigOffset (h : Htb) : Bool := decide (h.stepThr * 125000 < h.offset.natAbs)

/-- A step is planned for the first tick divisible by 160, unless it rounds to nothing (R48). -/
def Dev.planStep (d : Dev) : Dev :=
  let n := stepOf d.htb.offset stepNs
  d.setHtb { d.htb with step := if n = 0 then none else some n, stepTod := false, leaving := d.htb.leaving && n != 0 }

/-- No step waits. -/
def Dev.noStep (d : Dev) : Dev := d.setHtb { d.htb with step := none, stepTod := false, leaving := false }

/-- The offset of a servo update in COARSE or LOCKED is weighed (R47): within STEP_THRESH no step stands; beyond it one is
planned, anew at each update, where the Hearth is leaving FREE_RUN or HOLDOVER or STEP_IN_SERVICE is 1, and the offset is
slewed and counted once per occurrence otherwise. The answer says that it is slewed for want of STEP_IN_SERVICE. -/
def Dev.weighStep (d : Dev) : Bool × Dev :=
  if !d.htb.bigOffset then (false, (d.setHtb { d.htb with overRun := false }).noStep)
  else if d.htb.leaving || d.htb.stepSvc then (false, d.planStep)
  else if d.htb.overRun then (true, d.noStep)
  else (true, ((d.setHtb { d.htb with overRun := true }).bump0 .htbStepRefused).noStep)

/-- COARSE is entered from FREE_RUN or HOLDOVER at a servo update, with the step that the offset requires (R47). -/
def Dev.leaveFor (d : Dev) : Dev :=
  let d := d.enterH .coarse
  ((d.setHtb { d.htb with leaving := true }).weighStep).2

/-- The moves of Table 2.7 at a servo update with a time source that is followed. -/
def Dev.servoMove (d : Dev) : Dev :=
  let h := d.htb
  let near := decide (h.offset.natAbs ≤ h.lockNs)
  match h.state with
  | .freeRun => d.leaveFor
  | .holdover =>
    if !near then d.leaveFor
    else if h.sinceSel = 2 then d.noStep.enterH .locked
    else d.noStep.setHtb { d.noStep.htb with sinceSel := h.sinceSel + 1 }
  | .coarse =>
    let d := (d.weighStep).2
    let h := d.htb
    if !near then d.setHtb { h with inRun := false, inTicks := 0 }
    else if !h.inRun then d.setHtb { h with inRun := true, inTicks := 0 }
    else if h.dwell * 1000 ≤ h.inTicks then d.enterH .locked
    else d
  | .locked =>
    let r := d.weighStep
    if r.1 then r.2.enterH .coarse
    else
      let h := r.2.htb
      if 4 * h.lockNs < h.offset.natAbs then
        if h.badUpd = 2 then r.2.enterH .coarse else r.2.setHtb { h with badUpd := h.badUpd + 1 }
      else r.2.setHtb { h with badUpd := 0 }

/-- A followed source's new offset: the moves of Table 2.7, and what no step takes is slewed away (R46, R49). -/
def Dev.discipline (d : Dev) (offset : Int) : Dev :=
  if d.htb.forced then d.setHtb { d.htb with offset := offset }
  else
    let d := (d.setHtb { d.htb with offset := offset }).servoMove
    d.setHtb { d.htb with residue := (offset - d.htb.step.getD 0 * 125000) * 12000000, rateHeld := false }

/-- A servo update: what the BMCA has decided of each port, and the offset (ns) and UTC offset measured (R40, R45). The
measurements are the PTP port's: with no port as time source they say nothing. -/
def execServoUpdate (slave0 slave1 : Bool) (data0 data1 : Nat) (offset utc : Int) (s : State) : Out :=
  onDev (fun _ d =>
    if !d.htb.servoOn then d
    else
      let h := d.htb
      let d := (d.setHtb { h with port0 := { h.port0 with slave := slave0, dataset := data0 },
                                  port1 := { h.port1 with slave := slave1, dataset := data1 } }).selectTime
      if d.htb.timeSrc = 0 || d.htb.timeSrc = 3 then d
      else (d.setHtb { d.htb with utcOff := utc }).discipline offset) s

/-- R41: an edge `dev` ns after the nearest second boundary, before compensation. An edge that is taken is the servo's update of
its offset. While the step of SET_TIME_OF_DAY waits, which gives PPS_IN its time of day (R40), an edge only sets the estimate. -/
def execPpsInEdge (dev : Int) (s : State) : Out :=
  onDev (fun _ d =>
    let h := d.htb
    let x := dev - h.ppsInComp
    if h.timeSrc != 3 then d
    else if h.state == .locked && decide (100000 < x.natAbs) then
      let d := (d.setHtb { h with ppsRej := h.ppsRej + 1 }).bump0 .htbPpsInReject
      if h.ppsRej + 1 = 8 then d.enterH .coarse else d
    else
      let d := d.setHtb { h with ppsRej := 0 }
      if !h.servoOn || h.stepTod then d.setHtb { d.htb with offset := -x } else d.discipline (-x)) s

def execSourceLossTimeout (s : State) : Out :=
  onDev (fun _ d =>
    let h := d.htb
    if h.srcLoss ≤ h.noSrc && (h.state == .coarse || h.state == .locked) then d.enterH .holdover else d) s

def execHoldoverLimit (s : State) : Out :=
  onDev (fun _ d =>
    let h := d.htb
    if h.state == .holdover && h.holdLim != 0 && decide (h.holdLim * 480000 ≤ h.ticksIn) then d.enterH .freeRun else d) s

/-! ### Alarm slots (R50 to R56) -/

def Dev.alarm (d : Dev) (n : Nat) : Alarm := d.htb.alarms.get {} n
def Dev.setAlarm (d : Dev) (n : Nat) (a : Alarm) : Dev := d.setHtb { d.htb with alarms := d.htb.alarms.put {} n a }

/-- The stamp one sub-tick later. -/
def nextStamp (n : Nat) : Nat := absStamp (stampAbs n + 1)

/-- A slot's action is issued (Table 2.8). -/
def Dev.alarmAct (k : Clock) (d : Dev) (n : Nat) (a : Alarm) : Dev :=
  let t := a.targets
  if a.typ = 0 then d.setFlag k (bitsOf t 0 13) (bitsOf t 13 5)
  else if a.typ = 1 then
    let h := bitsOf t 0 10
    if d.hopUp h then (d.forcedSwap k h).trySwap k h else d.bump0 .htbAlarmTargetGone
  else if a.typ = 2 then d.alarmAction n (bitsOf t 0 8) (bitsOf t 8 3)
  else d.filterAction (bitsOf t 0 9) (bitsOf t 9 2)

/-- What a slot holds after it fires (R54), and the firings passed over. -/
def Alarm.advance (a : Alarm) (now : Nat) : Alarm × Nat :=
  if a.period = 0 then ({ a with armed := false, firedAt := now + 1 }, 0)
  else
    let p := a.period * 4096
    let t := a.target + p
    if now ≤ t then ({ a with target := t, due := t, firedAt := now + 1 }, 0)
    else
      let k := (now - t) / p + 1
      ({ a with target := t + k * p, due := t + k * p, firedAt := now + 1 }, k)

/-- A slot fires. -/
def Dev.fireAlarm (k : Clock) (d : Dev) (n : Nat) : Dev :=
  let now := clockStamp k
  let a := d.alarm n
  let r := a.advance now
  let d := if a.due < now then d.bump0 .htbAlarmCongested else d
  let d := if r.2 = 0 then d else d.bumpN ⟨.htbAlarmSkipped, 0, 0⟩ r.2
  (d.setAlarm n r.1).alarmAct k n a

/-- The slots whose action issues now: those waiting, then those due, ascending, eight to a sub-tick (R52). -/
def Dev.dueAlarms (d : Dev) (now : Nat) : List Nat :=
  let l := d.htb.alarms.entries.filter (fun p => p.2.armed && decide (p.2.due ≤ now))
  (l.filter (fun p => decide (p.2.due < now))).map (·.1) ++ (l.filter (fun p => decide (p.2.due = now))).map (·.1)

/-- The slots whose action issues in this sub-tick, of the eight that R52 allows. -/
def Dev.issuesNow (k : Clock) (d : Dev) : List Nat :=
  let now := clockStamp k
  (d.dueAlarms now).take (8 - if d.htb.issueAt = now + 1 then d.htb.issued else 0)

/-- The actions of this sub-tick are issued (R52). -/
def Dev.issueAlarms (k : Clock) (d : Dev) : Dev :=
  let now := clockStamp k
  let used := if d.htb.issueAt = now + 1 then d.htb.issued else 0
  let l := d.issuesNow k
  let d := d.setHtb { d.htb with issueAt := now + 1, issued := used + l.length }
  l.foldl (fun d n => d.fireAlarm k n) d

/-- The place in the order of R37 of the last boundary event that falls on a tick. -/
def lastBnd (tick : Nat) : Nat :=
  if tick % 160 = 0 then 8 else if tick % 80 = 0 then 7 else if tick % 40 = 0 then 6 else if tick % 20 = 0 then 5
  else if tick % 160 = 40 then 4 else if tick % 80 = 20 then 3 else if tick % 40 = 10 then 2 else if tick % 20 = 5 then 1
  else 0

/-- The boundary events of this instant have been delivered, so that alarm actions have their turn (R37, R52). -/
def Dev.bndDone (k : Clock) (d : Dev) : Bool := k.sub != 0 || decide (lastBnd k.tick ≤ d.htb.bnd)

/-- The alarm actions of sub-tick `sub`, behind the boundary events of that instant. -/
def execAlarmFire (sub : Nat) (s : State) : Out :=
  atSub sub (onDev (fun k d => if d.bndDone k then d.issueAlarms k else d)) s

/-- A slot's TARGETS has only the bits of its type (Table 2.11). -/
def alarmTargetsOk (typ t : Nat) : Bool :=
  decide (t < 2 ^ (if typ = 0 then 18 else if typ = 1 then 10 else 11))

/-- ALARM_ARM, for host software or for tile code (R51 to R55). -/
def Dev.armAlarm (k : Clock) (d : Dev) (host : Bool) (slot : Nat) (absolute replace : Bool) (target period typ targets : Nat) :
    Status × Dev :=
  let now := clockStamp k
  let st := firstStatus .ok [
    (decide (1023 < slot) || decide (3 < typ) || !alarmTargetsOk typ targets || decide (3071 < stampSub target), .badArg),
    (typ == 1 && !d.hopUp targets, .unknownObject),
    (decide (slot < d.htb.hostSlots) != host, .notPermitted),
    ((d.alarm slot).armed && !replace, .refusedBusy)]
  if st == .ok then
    let past := decide (target < now)
    let d := d.setAlarm slot { armed := true, absolute := absolute, target := target,
                               due := if past then nextStamp now else target, period := period, typ := typ,
                               targets := targets, firedAt := 0 }
    (.ok, if past then d.bump0 .htbAlarmPast else d)
  else (st, d)

/-- ALARM_DISARM: a firing of the same sub-tick comes first (R55), with the other actions of that sub-tick in their order. At
sub-tick 0, ahead of boundary events still to be delivered (R37), the slot keeps its turn and fires as a one-shot slot. The flag
is FIRED. -/
def Dev.disarmAlarm (k : Clock) (d : Dev) (host : Bool) (slot : Nat) : Status × Bool × Dev :=
  let now := clockStamp k
  let st := firstStatus .ok [(decide (1023 < slot), .badArg), (decide (slot < d.htb.hostSlots) != host, .notPermitted)]
  if st == .ok then
    if (d.issuesNow k).contains slot && !d.bndDone k then (.ok, true, d.setAlarm slot { d.alarm slot with period := 0 })
    else
      let d := if (d.issuesNow k).contains slot then d.issueAlarms k else d
      let b := d.alarm slot
      (.ok, b.firedAt == now + 1, d.setAlarm slot { b with armed := false })
  else (st, false, d)

/-- The alarm slots at a time step from stamp `old` by `step` ticks (R50); the flag says that a forward step passed over the
target. A RELATIVE slot moves with the count. An action that waits already goes on waiting. A slot armed in the past keeps the
distance of its firing, unless a backward step brings its target back. -/
def Alarm.step (a : Alarm) (old : Nat) (step : Int) : Alarm × Bool :=
  let move := fun (n : Nat) => ((n : Int) + step * 4096).toNat
  if !a.armed then (a, false)
  else if !a.absolute then ({ a with target := move a.target, due := move a.due }, false)
  else if a.due < old then ({ a with due := move old - 1 }, false)
  else if a.target < move old then
    if a.target < old then ({ a with due := move a.due }, false) else ({ a with due := move old }, true)
  else ({ a with due := a.target }, false)

/-- What a time step does to the Hearth: slots, the offset left, the count and the event (R48, R50). -/
def Dev.htbStep (d : Dev) (old : Nat) (step : Int) (k : Clock) : Dev :=
  let n := (d.htb.alarms.filter (fun p => (p.2.step old step).2)).length
  let d := d.setHtb { d.htb with step := none, stepTod := false, leaving := false,
                                 offset := if d.htb.stepTod then d.htb.offset else d.htb.offset - step * 125000,
                                 alarms := d.htb.alarms.map (fun p => (p.1, (p.2.step old step).1)) }
  let d := if n = 0 then d else d.bumpN ⟨.htbAlarmStepFire, 0, 0⟩ n
  let u := step / 160
  (d.bump0 .htbTimeStep).event k 0x0280 (toBits 40 u / 2 ^ 32) (toBits 32 u)

/-! ### Commands (Table 2.10) -/

def execHearthStatus (o : Origin) (s : State) : Out :=
  hostCmd o 0x0201 (fun k d =>
    let h := d.htb
    let off := if !h.follows && h.residue != 0 then h.residue / 12000000 else h.offset
    (.now .ok [⟨8, clockStamp k⟩, ⟨1, hstateCode h.state⟩, ⟨1, h.timeSrc⟩, ⟨1, h.freqSrc⟩, ⟨8, toBits 64 off⟩,
      ⟨4, toBits 32 h.utcOff⟩, ⟨8, h.ticksIn⟩], d)) s

/-- R49: the offset in sub-ticks; the part that is a multiple of 160 ticks is stepped, the residue slewed. With no source followed
an earlier estimate of a source's offset is none of the new time. -/
def execSetTimeOfDay (o : Origin) (stamp : Nat) (s : State) : Out :=
  hostCmd o 0x0202 (fun k d =>
    let h := d.htb
    let st := firstStatus .ok [(decide (3071 < stampSub stamp), .badArg), (h.state == .coarse || h.state == .locked, .refusedBusy)]
    if st == .ok then
      let off : Int := (stampAbs stamp : Int) - stampAbs (clockStamp k)
      let n := stepOf off 491520
      let res := off - n * 3072
      (.now .ok [], d.setHtb { h with
        step := if n = 0 then none else some n, stepTod := n != 0, leaving := false, todSet := true,
        residue := res * 488281250, rateHeld := false, offset := if h.follows then h.offset else 0 })
    else (.now st [], d)) s

/-- REFA is always enabled, so no argument leaves the device without a frequency source. -/
def execSourceEnable (o : Origin) (enables : BitVec 6) (s : State) : Out :=
  hostCmd o 0x0203 (fun _ d => (.now .ok [], d.setHtb { d.htb with nextEn := some enables })) s

def execForceHoldover (o : Origin) (hold : Bool) (s : State) : Out :=
  hostCmd o 0x0204 (fun _ d =>
    let d := d.setHtb { d.htb with forced := hold, sinceSel := 0 }
    let d := if hold && (d.htb.state == .coarse || d.htb.state == .locked) then d.enterH .holdover else d
    (.now .ok [], d.selectTime)) s

def execAlarmArm (o : Origin) (slot : Nat) (absolute replace : Bool) (target period typ targets : Nat) (s : State) : Out :=
  hostCmd o 0x0205 (fun k d => let r := d.armAlarm k true slot absolute replace target period typ targets; (.now r.1 [], r.2)) s

def execAlarmDisarm (o : Origin) (slot : Nat) (s : State) : Out :=
  hostCmd o 0x0206 (fun k d =>
    let r := d.disarmAlarm k true slot
    (.now r.1 (if r.1 == .ok then [⟨1, b2n r.2.1⟩] else []), r.2.2)) s

def execAlarmRead (o : Origin) (slot : Nat) (s : State) : Out :=
  hostCmd o 0x0207 (fun _ d =>
    let st := firstStatus .ok [(decide (1023 < slot), .badArg), (decide (d.htb.hostSlots ≤ slot), .notPermitted)]
    let a := d.alarm slot
    (.now st (if st == .ok then [⟨1, b2n a.armed⟩, ⟨2, slot⟩, ⟨2, b2n a.absolute⟩, ⟨8, a.target⟩, ⟨4, a.period⟩,
      ⟨4, a.typ * 2 ^ 30 + a.targets⟩] else []), d)) s

/-- A step that waits stands only while R47 still calls for it under the settings. -/
def Htb.keepStep (h : Htb) : Htb :=
  if h.step.isNone || h.stepTod || (h.bigOffset && (h.leaving || h.stepSvc)) then h
  else { h with step := none, leaving := false, residue := h.offset * 12000000 }

def execStepPolicy (o : Origin) (thresh slew : Nat) (svc : Bool) (s : State) : Out :=
  hostCmd o 0x0208 (fun _ d =>
    if thresh = 0 || 65535 < thresh || slew = 0 || 200 < slew then (.now .badArg [], d)
    else (.now .ok [], d.setHtb ({ d.htb with stepThr := thresh, slewMax := slew, stepSvc := svc } : Htb).keepStep)) s

end Sys2Proof.Machine
end

