-- ==== Sys2Proof/Machine/MedOps.lean ====
section
/-! DEFINITION. Operations shared by line channels, packet channels and bridges: threads, tile-owned alarm slots (R277),
transmit packets, legs, and what a line tells a packet peer (R291, R293). -/
namespace Sys2Proof.Machine
open Sys2Proof

def Dev.pkt (d : Dev) (c : Nat) : Option PktCh := d.med.pkts.get none c
def Dev.setPkt (d : Dev) (c : Nat) (x : Option PktCh) : Dev :=
  { d with med := { d.med with pkts := d.med.pkts.put none c x } }
def Dev.modPkt (d : Dev) (c : Nat) (f : PktCh → PktCh) : Dev := d.setPkt c ((d.pkt c).map f)
def Dev.bridge (d : Dev) (b : Nat) : Option Bridge := d.med.bridges.get none b
def Dev.setBridge (d : Dev) (b : Nat) (x : Option Bridge) : Dev :=
  { d with med := { d.med with bridges := d.med.bridges.put none b x } }
def Dev.modBridge (d : Dev) (b : Nat) (f : Bridge → Bridge) : Dev := d.setBridge b ((d.bridge b).map f)

/-- The objects there are, ascending. -/
def Dev.lineChs (d : Dev) : List (Nat × LineCh) := d.med.lines.entries.filterMap (fun p => p.2.map (fun c => (p.1, c)))
def Dev.pktChs (d : Dev) : List (Nat × PktCh) := d.med.pkts.entries.filterMap (fun p => p.2.map (fun c => (p.1, c)))
def Dev.bridgeList (d : Dev) : List (Nat × Bridge) := d.med.bridges.entries.filterMap (fun p => p.2.map (fun c => (p.1, c)))

/-! ### Threads (R252, R276, R295) -/

/-- The frame length of the channels a thread carries, where it carries any; a line channel that is being destroyed is carried no
more. -/
def Dev.chanFrame (d : Dev) (th : Nat) : Option Nat :=
  match d.lineChs.find? (fun p => p.2.set.thread == th && p.2.destroying.isNone) with
  | some p => some p.2.set.frame
  | none => (d.pktChs.find? (fun p => p.2.set.thread == th)).map (fun p => p.2.set.frame)

def Dev.bridgeFrame (d : Dev) (th : Nat) : Option Nat :=
  (d.bridgeList.find? (fun p => p.2.set.thread == th)).map (fun p => p.2.set.frame)

/-- A thread that carries nothing yet is configured and started; the context pointer is Sirboroth's, and open. -/
def Dev.takeThread (k : Clock) (d : Dev) (th group level : Nat) : Dev :=
  if (d.chanFrame th).isSome || (d.bridgeFrame th).isSome then d
  else
    let f := d.draw 1
    let ctx := (Config.free f.1 % 8192) * 8 + (Config.free f.1 / 8192 % 32) * 2 ^ 19
    let d := f.2.modThr th (fun t => { t with group := group, level := level, preempt := true, ctx := BitVec.ofNat 32 ctx })
    (d.cmdThreadStart k th false 0 false true).2

/-- A thread carries no channel and no bridge. -/
def Dev.idleThread (d : Dev) (th : Nat) : Bool := (d.chanFrame th).isNone && (d.bridgeFrame th).isNone

/-- Sirboroth wakes a thread that has nothing more to carry, so that its next turn is TEXIT's (R271): a Waiting one gets the flags
of its MASK. DESIGN CHOICE (log entry 90). -/
def Dev.wakeThread (k : Clock) (d : Dev) (th : Nat) : Dev :=
  if (d.thr th).state == .waiting then
    d.setFlags k (((List.range 32).filter (fun i => (d.thr th).mask.toNat.testBit i)).map (fun i => (8, th, i)))
  else d

/-- The tile on which a thread's puts are made. -/
def Dev.thProd (d : Dev) (th : Nat) : Prod := .put ((d.thr th).tile.getD 0)

/-! ### Peers (R276) -/

/-- A channel's thread and peer, where it exists. -/
def Dev.chanOf (d : Dev) : Peer → Option (Nat × Peer)
  | .none => none
  | .line n => (d.lineCh n).map (fun c => (c.set.thread, c.set.m.peer))
  | .pkt c => (d.pkt c).map (fun x => (x.set.thread, x.set.peer))

/-- A named peer does not exist. -/
def Dev.peerGone (d : Dev) (p : Peer) : Bool := p != .none && (d.chanOf p).isNone

/-- A peer on another thread, with another peer, or a leg of a bridge. -/
def Dev.peerBad (d : Dev) (th : Nat) (self p : Peer) : Bool :=
  match d.chanOf p with
  | some x => x.1 != th || (x.2 != .none && x.2 != self) || p == self
  | none => false

/-- A channel that is being destroyed is no peer to name (R271, R302). -/
def Dev.peerEnds (d : Dev) : Peer → Bool
  | .none => false
  | .line n => (d.lineCh n).any (fun c => c.destroying.isSome)
  | .pkt c => (d.pkt c).any (fun x => x.destroying.isSome)

/-- Digits that have no end yet are sent no more: they were the peer's. -/
def PktCh.dropDigits (x : PktCh) : PktCh :=
  let l := (x.evtOut.toList ++ x.evtWait).filter (fun o => o.total.isSome)
  { x with evtOut := l.head?, evtWait := l.drop 1 }

/-- One side of a pair. A packet channel's digits were those of the peer it had (R291). -/
def Dev.peerSide (d : Dev) (self p : Peer) : Dev :=
  match self with
  | .none => d
  | .line n => d.modLineCh n (fun c => { c with set := { c.set with m := { c.set.m with peer := p } },
                                                mod := c.mod.map (fun m => { m with peer := p }) })
  | .pkt n => d.modPkt n (fun x =>
      { (if x.set.peer == p then x else x.dropDigits) with
        set := { x.set with peer := p }, next := x.next.map (fun y => { y with peer := p }) })

/-- Two channels exchange frames; the peer each had before is left with none. -/
def Dev.pair (d : Dev) (self p : Peer) : Dev :=
  let old := (d.chanOf self).elim Peer.none (·.2)
  let d := if old == p then d else d.peerSide old .none
  (d.peerSide self p).peerSide p self

/-! ### Alarm slots (R277) -/

def Dev.slotHeld (d : Dev) (s : Nat) : Bool :=
  d.lineChs.any (fun p => p.2.slot == some s) || d.med.mixSlots.entries.any (fun p => p.2 == s + 1) || (d.alarm s).armed

/-- The lowest tile-owned slot that is free. -/
def Dev.freeAlarm (d : Dev) : Option Nat :=
  ((List.range (1024 - d.htb.hostSlots)).map (· + d.htb.hostSlots)).find? (fun s => !d.slotHeld s)

/-! ### Frames and packets -/

/-- The first boundary of a frame length after a tick. -/
def nextBoundary (len tick : Nat) : Nat := (tick / len + 1) * len

/-- Samples as a source packet (R111). -/
def sourceWords (l : List Int) : List Word := BitVec.ofNat 32 l.length :: sampleWords l

/-- Bytes most significant first. -/
def bytesBE (n x : Nat) : List Nat := (bytesLE n x).reverse
def beAt (bs : List Nat) (i n : Nat) : Nat := ofBytesLE ((slice bs i n).reverse)

/-- A transmit packet (Table 12.1) is committed to the Hopper of its destination's queue. -/
def Dev.sendTo (k : Clock) (d : Dev) (th dest key : Nat) (rtcp : Bool) (content : List Nat) : Dev :=
  let e := d.eth.dests.get [] dest
  if e.isEmpty then d
  else
    let b := e.getD 0 0
    let q := 8 * (b % 2) + bitsOf b 1 3
    let w0 := dest + content.length * 2 ^ 16 + b2n rtcp * 2 ^ 30
    (d.hopPut k (d.eth.queues.get {} q).hop (d.thProd th) Config.mediaPrio.toNat
      (BitVec.ofNat 32 w0 :: BitVec.ofNat 32 key :: bytesWords content)).2

/-- A received packet's record (Table 12.3). -/
structure RxRec where
  tag   : Nat
  l4bad : Bool
  stamp : Nat
  bytes : List Nat
deriving DecidableEq, Repr

def wordsBytes (ws : List Word) : List Nat := ws.flatMap (fun w => bytesLE 4 w.toNat)

def rxRecOf (ws : List Word) : RxRec :=
  let w := fun i => (ws.getD i 0).toNat
  { tag := bitsOf (w 0) 0 16, l4bad := bitsOf (w 0) 21 2 == 1, stamp := w 1 + w 2 * 2 ^ 32,
    bytes := (wordsBytes (ws.drop 8)).take (bitsOf (w 3) 0 16) }

/-! ### Legs (R295, R296) -/

def Leg.is (l : Leg) (pkt : Bool) (chan : Nat) : Bool := l.pkt == pkt && l.chan == chan
def Leg.talks (l : Leg) : Bool := l.role != 1
def Leg.hears (l : Leg) : Bool := l.role != 2

/-- The bridges a channel is a leg of, with its leg. -/
def Dev.legsOf (d : Dev) (pkt : Bool) (chan : Nat) : List (Nat × Leg) :=
  d.bridgeList.flatMap (fun p => (p.2.legs.filter (fun l => l.is pkt chan)).map (fun l => (p.1, l)))

/-- A channel's near-end frame for boundary `b`, of `len` ticks at `rate`, goes to the IN_HOP of every bridge it talks to, at the
bridge's rate, tagged with the leg and the boundary. -/
def Dev.toBridges (k : Clock) (d : Dev) (th : Nat) (pkt : Bool) (chan b rate len : Nat) (near : List Int) : Dev :=
  ((d.legsOf pkt chan).filter (fun p => p.2.talks)).foldl (fun d p =>
    match d.bridge p.1 with
    | none => d
    | some x =>
      let d := d.setBridge p.1 (some { x with
        present := if x.frameAt == some b && !x.present.contains (pkt, chan) then x.present ++ [(pkt, chan)] else x.present })
      (d.hopPut k x.set.inHop (d.thProd th) Config.mediaPrio.toNat
        (BitVec.ofNat 32 (chan + b2n pkt * 2 ^ 15) :: BitVec.ofNat 32 b ::
          sourceWords (convertTo rate x.set.rate (frameSamples x.set.rate len) near))).2) d

/-- A mix comes to a channel; the last four stay. -/
def Dev.giveMix (d : Dev) (pkt : Bool) (chan bridge b : Nat) (mix : List Int) : Dev :=
  let keep := fun (l : List (Nat × Nat × List Int)) => ((bridge, b, mix) :: l).take 4
  if pkt then d.modPkt chan (fun x => { x with mixIn := keep x.mixIn })
  else d.modLineCh chan (fun x => { x with mixIn := keep x.mixIn })

/-- A LEG_HOP is read to its end: each mix goes to its leg's channel. -/
def Dev.drainMix (k : Clock) (h : Nat) : Nat → Dev → Dev
  | 0, d => d
  | n + 1, d =>
    if d.hopReady h then
      match d.hopTake k h with
      | (some (_, ws), d) =>
        let w := (ws.getD 0 0).toNat
        Dev.drainMix k h n (d.giveMix (w.testBit 15) (w % 32768) (w / 65536) (ws.getD 1 0).toNat
          (wordSamples (bitsOf (ws.getD 2 0).toNat 0 16) (ws.drop 3)))
      | (none, d) => d
    else d

def Dev.mixOf (d : Dev) (pkt : Bool) (chan bridge b : Nat) : Option (List Int) :=
  (if pkt then (d.pkt chan).elim [] (fun x => x.mixIn) else (d.lineCh chan).elim [] (fun x => x.mixIn)).findSome?
    (fun m => if m.1 == bridge && m.2.1 == b % 2 ^ 32 then some m.2.2 else none)

/-- A listening leg takes the mix of the frame before at its own rate, or comfort noise, of bridges of the kind asked for: paging
bridges that play, or conferences (R296, R298). Whether there is such a leg at all. -/
def Dev.fromBridges (k : Clock) (d : Dev) (paging pkt : Bool) (chan b rate len : Nat) : Option (List Int) × Dev :=
  ((d.legsOf pkt chan).filter (fun p => p.2.hears)).foldl (fun (acc : Option (List Int) × Dev) p =>
    match acc.2.bridge p.1 with
    | none => acc
    | some x =>
      if x.set.paging != paging || (paging && !x.legs.any Leg.talks) then acc
      else
        let h := p.2.hop
        let d := Dev.drainMix k h ((acc.2.hopper h).seq.length + (acc.2.hopper h).fill.length) acc.2
        let n := frameSamples rate len
        match d.mixOf pkt chan p.1 (b - x.set.frame) with
        | some m => (some (convertTo x.set.rate rate n m), d)
        | none =>
          let f := d.draw n
          (some (noiseFrame f.1 n), f.2.bump0 .medBridgeMixLate)) (none, d)

/-- The codec's audio rate (Table 11.3); voiceband data are G.711. -/
def PktCh.rate (x : PktCh) : Nat :=
  if x.mode != 0 then 8000
  else if x.set.codec = 2 || x.set.codec = 5 then 16000
  else if x.set.codec = 6 then (if x.set.opts.getD 0 2 ≤ 2 then 16000 else if x.set.opts.getD 0 2 = 3 then 24000 else 48000)
  else 8000

/-- The last frame of a peer, with its rate. -/
def Dev.peerFrame (d : Dev) : Peer → Option (Nat × List Int)
  | .none => none
  | .line n => (d.lineCh n).bind (fun c => c.near.map (fun x => (c.set.rate, x.2.2)))
  | .pkt c => (d.pkt c).bind (fun p => p.near.map (fun x => (p.rate, x.2.2)))

/-- A channel's far-end frame at its rate: the mix of a conference bridge it hears, for a packet channel that of a paging bridge,
its peer's frame, or silence. -/
def Dev.farEnd (k : Clock) (d : Dev) (pkt : Bool) (chan b rate len : Nat) (peer : Peer) : List Int × Dev :=
  let r := d.fromBridges k false pkt chan b rate len
  let r := if pkt && r.1.isNone then r.2.fromBridges k true pkt chan b rate len else r
  let n := frameSamples rate len
  match r.1 with
  | some m => (m, r.2)
  | none => match r.2.peerFrame peer with
    | some p => (convertTo p.1 rate n p.2, r.2)
    | none => (List.replicate n 0, r.2)

/-- An event of a bridge (Table 11.5). -/
def Dev.bridgeEvt (k : Clock) (d : Dev) (b typ detail arg : Nat) : Dev :=
  match d.bridge b with
  | some x => d.raiseOn k x.set.evtRing { typ := typ, detail := detail, obj := b, stamp := clockStamp k, arg := arg }
  | none => d

/-- A leg leaves a bridge: BRIDGE_LEG_GONE, and BRIDGE_EMPTY with the last (R303). -/
def Dev.dropLeg (k : Clock) (d : Dev) (b : Nat) (pkt : Bool) (chan detail : Nat) : Dev :=
  let d := d.modBridge b (fun x => { x with
    legs := x.legs.filter (fun l => !l.is pkt chan), present := x.present.filter (· != (pkt, chan)),
    talkers := x.talkers.filter (· != (pkt, chan)) })
  let d := d.bridgeEvt k b 0x0898 detail (chan + b2n pkt * 2 ^ 15)
  match d.bridge b with
  | some x => if x.legs.isEmpty then d.bridgeEvt k b 0x0899 0 0 else d
  | none => d

/-- A channel is destroyed: it leaves every bridge, and joins none any more (R302). -/
def Dev.leaveBridges (k : Clock) (d : Dev) (pkt : Bool) (chan : Nat) : Dev :=
  let d := d.bridgeList.foldl (fun d p => d.modBridge p.1 (fun x => { x with ops := x.ops.filter (fun o => match o with
    | .add l => !l.is pkt chan
    | _ => true) })) d
  (d.legsOf pkt chan).foldl (fun d p => d.dropLeg k p.1 pkt chan 1) d

/-! ### What a line tells its packet peer -/

def PktCh.evt (_ : PktCh) (typ detail c stamp arg : Nat) : Evt := { typ := typ, detail := detail, obj := c, stamp := stamp, arg := arg }

/-- The RTP clock of a codec (Table 11.3). -/
def codecClock (codec : Nat) : Nat := if codec = 5 then 16000 else if codec = 6 then 48000 else 8000

/-- The clock in use: voiceband data are G.711. -/
def PktCh.clock (x : PktCh) : Nat := if x.mode = 1 then 8000 else codecClock x.set.codec

/-- Timestamp units of a number of ticks. -/
def PktCh.units (x : PktCh) (ticks : Nat) : Nat := ticks * x.clock / 8000

/-- The timestamp of the frame that holds a tick, `ts` being that of the frame of boundary `b`. -/
def PktCh.tsOf (x : PktCh) (b tick : Nat) : Nat :=
  (((x.ts : Int) + ((nextBoundary x.set.frame tick : Int) - b) * x.clock / 8000) % 4294967296).toNat

/-- Channels in T.38, or about to be, beside channel `c`. -/
def Dev.t38Count (d : Dev) (c : Nat) : Nat :=
  (d.pktChs.filter (fun p => p.1 != c && (p.2.mode == 2 || p.2.nextMode.any (fun m => m.1 == 2)))).length

/-- A fax or modem tone, or a UDPTL datagram, with its cause of Table 11.5 and the stamp of the packet that caused it
(R293, R294, R299). -/
def Dev.faxTone (d : Dev) (c cause : Nat) (stamp : Option Nat) : Dev :=
  match d.pkt c with
  | none => d
  | some x =>
    let fax := x.set.vbdMode == 2 && (cause == 1 || cause == 2 || cause == 5) && x.mode != 2 && !x.ansam
    if x.set.vbdMode = 0 then d
    else if fax then
      if d.t38Count c < 64 then d.setPkt c (some { x with nextMode := some (2, cause, stamp) })
      else (d.bump0 .medT38NoResource).setPkt c (some { x with nextMode := some (1, 6, stamp) })
    else if x.mode = 0 && x.nextMode.isNone && cause != 5 then
      d.setPkt c (some { x with nextMode := some (1, cause, stamp), ansam := cause == 4 })
    else d

/-- An event joins those to be sent: at once, or behind the one being sent. -/
def PktCh.addEvt (x : PktCh) (o : EvtOut) : PktCh :=
  if x.evtOut.isSome then { x with evtWait := x.evtWait ++ [o] } else { x with evtOut := some o }

/-- The digit in progress has ended after `ticks`. -/
def PktCh.endDigit (x : PktCh) (ticks : Nat) : PktCh :=
  let fin := fun (o : EvtOut) => if o.total.isNone then { o with total := some ticks } else o
  { x with evtOut := x.evtOut.map fin, evtWait := x.evtWait.map fin }

/-- One event of a line reaches its packet peer: digits and flashes to relay, fax and modem tones (R291, R293). -/
def Dev.peerHears (k : Clock) (d : Dev) (p : Peer) (e : Nat × Nat × Nat × Nat) (level : Int) : Dev :=
  match p with
  | .pkt c =>
    match d.pkt c with
    | none => d
    | some x =>
      let b := k.tick / x.set.frame * x.set.frame
      if e.2.1 = 0x0884 && x.set.dtmf && x.set.evtPt != 0 && x.mode == 0 then
        if e.2.2.1 = 0 then
          d.setPkt c (some (x.addEvt { ev := e.2.2.2 % 16, vol := (min 63 (max 0 (-level / 10))).toNat, ts := x.tsOf b e.1,
                                       start := some e.1, total := none }))
        else d.setPkt c (some (x.endDigit (e.2.2.2 / 2 ^ 16)))
      else if e.2.1 = 0x0882 && x.set.flash && x.set.evtPt != 0 && x.mode == 0 then
        d.setPkt c (some (x.addEvt { ev := 16, vol := 0, ts := x.tsOf b (e.1 - e.2.2.2), start := some (e.1 - e.2.2.2),
                                     total := some e.2.2.2 }))
      else if e.2.1 = 0x0886 then
        d.faxTone c (if e.2.2.1 ≤ 2 then e.2.2.1 else if e.2.2.1 ≤ 4 then 3 else 4) none
      else d
  | _ => d

end Sys2Proof.Machine
end

