-- ==== Sys2Proof/Machine/LineOps.lean ====
section
/-! DEFINITION. What a line channel keeps of its line: entries, feed, ringing, caller display, and hook transitions (R253,
R262 to R268). Turns stand in LineTurn.lean, commands in LineChan.lean. -/
namespace Sys2Proof.Machine
open Sys2Proof

/-! ### The channel's entries and line state (R253, R263) -/

/-- FEED_MODE under a channel's polarity (Table 3.6): ACTIVE and OHT have reversed forms. -/
def LineCh.feedCode (c : LineCh) (f : Nat) : Nat := if c.rev && (f = 2 || f = 4) then f + 1 else f

/-- Caller display is pending in the cadence. -/
def LineCh.cidPending (c : LineCh) : Bool := c.ring.isSome && c.cid.any (fun r => r.msg.mode == 0)

/-- RING_PROFILE of the ring in progress, or the channel's own. -/
def LineCh.ringProfile (c : LineCh) : Nat :=
  match c.ring with
  | some r => r.profile
  | none => c.set.m.ringProf

/-- Actions 0 to 3 (Table 10.5). -/
def LineCh.action (c : LineCh) (e : Nat) : LAction :=
  if e = 0 then { kind := 1, mask := 1, feed := c.feedCode 2 }
  else if e = 1 then { kind := 1, mask := 3, feed := 6, ring := c.ringProfile }
  else if e = 2 then { kind := 1, mask := 1, feed := if c.cidPending then c.feedCode 4 else 1 }
  else { kind := 1, mask := 1, feed := 1 }

/-- Reflexes 0 to 3 (Table 10.5). -/
def LineCh.reflex (c : LineCh) (r : Nat) : Reflex :=
  if r = 0 then { enable := true, bit := 1, edge := 1, condEn := true, condMode := 6, action := 0 }
  else if r = 1 then { enable := true, bit := 0, edge := 1, condEn := true, condMode := 1, action := 0 }
  else if r = 2 then { enable := true, bit := 0, edge := 1, condEn := true, condMode := c.feedCode 4, action := 0 }
  else {}

/-- The channel's action `e` is written at the next latch point. -/
def Dev.putAction (d : Dev) (n e : Nat) : Dev :=
  match d.lineCh n with
  | some c => d.modLine n (fun x => { x with ops := x.ops ++ [.actionWrite e (c.action e)] })
  | none => d

def Dev.putEntries (d : Dev) (n : Nat) : Dev :=
  match d.lineCh n with
  | some c =>
    let d := [0, 1, 2, 3].foldl (fun (d : Dev) e => d.putAction n e) d
    d.modLine n (fun x => { x with reflexes := [0, 1, 2, 3].foldl (fun st r => st.put {} r (c.reflex r)) x.reflexes })
  | none => d

/-- Fields of the line state, for the next latch point. -/
def Dev.putState (d : Dev) (n mask feed : Nat) : Dev :=
  match d.lineCh n with
  | some c => d.modLine n (fun x => { x with ops := x.ops ++ [.state mask (c.feedCode feed) c.ringProfile c.set.m.feedProf .self] })
  | none => d

/-- A FEED_MODE with the channel's FEED_PROFILE. -/
def Dev.putFeed (d : Dev) (n feed : Nat) : Dev := d.putState n 5 feed

/-- The line is active on a lane in LIVE. -/
def Dev.lineLive (d : Dev) (n : Nat) : Bool := (d.line n).active && (d.lane (n / 8)).train == .live

/-- A bit of the partner's FEATURES (Table 3.17). -/
def Dev.feature (d : Dev) (n bit : Nat) : Bool :=
  match (d.lane (n / 8)).cap with
  | some c => c.features.testBit bit
  | none => false

/-! ### Ringing (R264, R265) -/

/-- A cadence of the device-wide table; cadence 0 has a default. -/
def Dev.cadence (d : Dev) (i : Nat) : List (Nat × Nat) :=
  let c := d.med.cads.get [] i
  if c.isEmpty && i = 0 then [(8000, 32000)] else c

/-- The length of segment `j` of a cadence, on and off segments alternating. -/
def segTicks (cad : List (Nat × Nat)) (j : Nat) : Nat :=
  let p := cad.getD (j / 2 % cad.length) (0, 0)
  if j % 2 = 0 then p.1 else p.2

/-- The action of step `j`: ringing on, ringing off, and STANDBY after the last cycle. -/
def Ringing.action (r : Ringing) (j : Nat) : Nat :=
  if r.cycles != 0 && j = 2 * r.cad.length * r.cycles then 3 else if j % 2 = 0 then 1 else 2

/-- The action of the step in force at a tick, where `n` steps have fired: none before the first. The step before the last counts
for a tick before the last one. -/
def Ringing.actionAt (r : Ringing) (n tick : Nat) : Option Nat :=
  if n = 0 then none
  else
    let last := if n = r.fired then r.next - segTicks r.cad (n - 1) else r.next
    if last ≤ tick then some (r.action (n - 1)) else if n = 1 then none else some (r.action (n - 2))

/-- The steps of a ring that have fired: that of the slot is still to be followed up by a turn. -/
def Dev.stepsFired (d : Dev) (c : LineCh) (r : Ringing) : Nat :=
  if c.slot.any (fun s => !(d.alarm s).armed) then r.fired + 1 else r.fired

/-- The FEED_MODE in which the channel has the line (R253, R266 to R268, R298), before polarity. -/
def Dev.presentFeed (k : Clock) (d : Dev) (c : LineCh) : Nat :=
  let idle := if c.paging.isSome && !c.offHook then 4 else c.feed
  match c.cid with
  | some m =>
    if m.msg.mode != 0 then (if m.burst.any (fun t => decide (k.tick < t)) then 6 else 4)
    else match c.ring.bind (fun r => r.actionAt (d.stepsFired c r) k.tick) with
      | some a => if a = 1 then 6 else if a = 2 && c.cidPending then 4 else 1
      | none => idle
  | none => match c.ring.bind (fun r => r.actionAt (d.stepsFired c r) k.tick) with
    | some a => if a = 1 then 6 else 1
    | none => idle

/-- The channel's slot is armed for a ring's next step. -/
def Dev.armStep (k : Clock) (d : Dev) (n : Nat) : Dev :=
  match d.lineCh n with
  | some c => match c.ring, c.slot with
    | some r, some s => (d.armAlarm k false s false true (r.next * 4096) 0 2 (n + r.action r.fired * 256)).2
    | _, _ => d
  | none => d

/-- In a turn: the step that has fired is followed by the next (R264). -/
def Dev.ringTurn (k : Clock) (d : Dev) (n : Nat) : Dev :=
  match d.lineCh n with
  | some c => match c.ring, c.slot with
    | some r, some s =>
      if (d.alarm s).armed then d
      else
        let act := r.action r.fired
        let r' := { r with fired := r.fired + 1, next := r.next + segTicks r.cad r.fired }
        if act = 3 then
          (d.setLineCh n (some { (c.evt r.next 0x0887 0 r'.done) with ring := none, feed := 1 })).freeSlot n
        else (d.setLineCh n (some { c with ring := some r' })).armStep k n
    | _, _ => d
  | none => d

/-- Ringing ends other than by its count: the slot is disarmed; a step that fired after an off-hook is undone (R265). -/
def Dev.endRing (d : Dev) (n tick detail : Nat) (offHook : Bool) : Dev :=
  match d.lineCh n with
  | some c => match c.ring with
    | some r =>
      let late := offHook && c.slot.any (fun s => !(d.alarm s).armed) && decide (tick < r.next)
      let done := { r with fired := d.stepsFired c r }.done
      let d := (d.disarmSlot n).setLineCh n (some { (c.evt tick 0x0887 detail done) with ring := none })
      (if late then (d.bump1 .medLineCadenceOverrun n).putFeed n 2 else d).freeSlot n
    | none => d
  | none => d

/-! ### Caller display (R267, R268) -/

/-- GA where a signal leaves ALT: up where a probe goes on (R259). -/
def LineCh.gaRest (c : LineCh) (t : Nat) : Nat := if c.hyb.any (fun h => h.on t) then 32768 else 0

/-- Something of a message is or has been on ALT: its data, or DT-AS. -/
def CidRun.heard (r : CidRun) (t : Nat) : Bool := decide (r.dataAt ≤ t) || r.tas.any (fun a => decide (a ≤ t))

/-- Caller display ends: the fade of 16 ticks where it is on ALT, and the ring-off feed without it. -/
def Dev.endCid (k : Clock) (d : Dev) (n tick detail : Nat) : Dev :=
  match d.lineCh n with
  | some c => match c.cid with
    | some r =>
      let d := d.setLineCh n (some { (c.evt tick 0x0888 detail (r.sentBy tick)) with cid := none })
      let d := if r.heard k.tick then d.rampTx n (d.fst (256 + n)).gm (c.gaRest k.tick) 16 else d
      (if c.cidPending then d.putAction n 2 else d).freeSlot n
    | none => d
  | none => d

/-! ### Hook transitions (R262) -/

/-- The line rings at a tick: an on segment of the cadence, or an RP-AS burst. -/
def Dev.ringsAt (d : Dev) (c : LineCh) (tick : Nat) : Bool :=
  c.ring.any (fun r => r.actionAt (d.stepsFired c r) tick == some 1) || c.cid.any (fun r => r.burst.any (fun t => decide (tick < t)))

/-- The line is off hook at a tick: events, and the end of ringing and caller display (R262 to R265, R268). Where the mode
calls for it, characterisation begins at the next frame boundary (R259). -/
def Dev.goOffHook (k : Clock) (d : Dev) (n tick detail : Nat) : Dev :=
  match d.lineCh n with
  | none => d
  | some c =>
    let det := if detail = 0 && c.cid.any (fun r => decide (r.dataAt ≤ tick && tick < r.dataEnd)) then 2 else detail
    let want := c.set.m.hybMode = 1 || (c.set.m.hybMode = 2 && !c.hybDone)
    let d := d.setLineCh n (some { (c.evt tick 0x0880 det 0) with
      offHook := true, feed := 2, hybDone := true,
      hyb := if want && !c.charac then some { start := nextBoundary c.set.frame k.tick, bad := false, second := false } else c.hyb })
    (d.endCid k n tick 1).endRing n tick 1 true

/-- The ramp that takes a probe off ALT; a tone, a message or a page there stays. -/
def Dev.probeOff (k : Clock) (d : Dev) (n : Nat) (c : LineCh) : Dev :=
  if c.hyb.any (fun h => h.on k.tick) && c.tone.isNone && c.paging.isNone && !c.cid.any (fun r => r.heard k.tick) then
    d.rampTx n (d.fst (256 + n)).gm 0 1
  else d

/-- HOOK falls: a probe in progress has failed (R259), and the wait begins (R262). -/
def Dev.hookDown (k : Clock) (d : Dev) (n tick : Nat) : Dev :=
  match d.lineCh n with
  | none => d
  | some c =>
    if !c.offHook then d
    else
      let d := d.probeOff k n c
      let c := if c.hyb.isSome then { (c.evt tick 0x0889 1 0) with hyb := none } else c
      d.setLineCh n (some { c with onAt := some tick })

/-- The line has gone on hook at a tick: STANDBY, or OHT while a page plays on it (R262, R298). -/
def Dev.goOnHook (d : Dev) (n tick : Nat) : Dev :=
  match d.lineCh n with
  | none => d
  | some c =>
    (d.setLineCh n (some { (c.evt tick 0x0881 0 0) with onAt := none, offHook := false, feed := 1 })).putFeed n
      (if c.paging.isSome && d.feature n 1 then 4 else 1)

/-- HOOK rises: a flash or less where the wait has not reached FLASH_MAX, an on-hook and an off-hook otherwise; an off-hook of an
on-hook line, but where it rings, when RING_TRIP says so (R262, R264). -/
def Dev.hookUp (k : Clock) (d : Dev) (n tick : Nat) : Dev :=
  match d.lineCh n with
  | none => d
  | some c => match c.onAt with
    | some a =>
      if c.set.m.flashMax ≤ tick - a then (d.goOnHook n a).goOffHook k n tick 0
      else if tick - a < c.set.m.flashMin then (d.setLineCh n (some { c with onAt := none })).bump1 .medLineHookGlitch n
      else d.setLineCh n (some { (c.evt tick 0x0882 0 (tick - a)) with onAt := none })
    | none => if c.offHook || d.ringsAt c tick then d else d.goOffHook k n tick 0

/-- HOOK_EDGES has advanced by an even number over a gap with HOOK = 1 on both sides (R262). -/
def Dev.hookGap (d : Dev) (n : Nat) (m : LineMod) (r : HookRec) : Dev :=
  if r.old.testBit 0 && r.new.testBit 0 && r.edges % 2 = 0 && 2 ≤ r.edges then
    let d := if r.gap < m.flashMin then d.bump1 .medLineHookGlitch n else d.modLineCh n (fun c => c.evt r.tick 0x0882 1 r.gap)
    if 2 < r.edges then d.bumpN ⟨.medLineHookEdgesLost, n, 0⟩ (r.edges / 2 - 1) else d
  else d

/-- One change of the upstream state, in the channel's thread. -/
def Dev.hookTurn (k : Clock) (d : Dev) (n : Nat) (r : HookRec) : Dev :=
  match d.lineCh n with
  | none => d
  | some c =>
    let bit := fun (x i : Nat) => x.testBit i
    let d := d.hookGap n c.set.m r
    let d := if bit r.new 1 && !bit r.old 1 && (c.ring.isSome || c.cid.any (fun m => m.burst.isSome)) && !c.offHook then
        d.goOffHook k n r.tick 1 else d
    let d := if bit r.old 0 && !bit r.new 0 then d.hookDown k n r.tick
      else if !bit r.old 0 && bit r.new 0 then d.hookUp k n r.tick else d
    let d := if bit r.old 2 != bit r.new 2 then d.modLineCh n (fun c => c.evt r.tick 0x0883 (b2n (bit r.new 2)) 0) else d
    if bitsOf r.old 3 3 != bitsOf r.new 3 3 then d.modLineCh n (fun c => c.evt r.tick 0x088A (bitsOf r.new 3 3) 0) else d

/-- On hook for FLASH_MAX ticks (R262). -/
def execOnHookTimeout (n : Nat) (s : State) : Out :=
  onDev (fun k d =>
    match d.lineCh n with
    | some c => match c.onAt with
      | some a => if a + c.set.m.flashMax ≤ k.tick then (d.goOnHook n a).lineFlush k n else d
      | none => d
    | none => d) s

end Sys2Proof.Machine
end

