-- ==== Sys2Proof/Machine/LineTurn.lean ====
section
/-! DEFINITION. Line channels in time (chapter 10): what falls to a tick, a frame boundary and a close, and the turns of a
channel's thread. -/
namespace Sys2Proof.Machine
open Sys2Proof

/-! ### The one-tick stop (R259) -/

/-- Sirboroth's own request of a stream: nobody is answered. -/
def Dev.askStream (d : Dev) (i : Nat) (kind : FKind) : Dev := (d.askReq { stream := i, kind := kind, who := some (.self, 0x0406) }).2

/-- Bank words of a one-tick stop: the active bank's, with those given replaced, into the other bank, which is then
selected (R259). -/
def Dev.swapBank (d : Dev) (i : Nat) (ws : List (Nat × Word)) : Dev :=
  d.modFst i (fun x =>
    let src := if x.bankB then x.bank1 else x.bank0
    let dst := ws.foldl (fun (st : Store (Option Word)) p => st.put none p.1 (some p.2)) src
    if x.bankB then { x with bank0 := dst, bankB := false } else { x with bank1 := dst, bankB := true })

/-- A one-tick stop at a tick: stop issued, bank written in the stopped tick and start issued, running again (R259). -/
def Dev.swapTick (k : Clock) (n : Nat) (d : Dev) (w : Swap) : Dev × List Swap :=
  let x := d.fst w.stream
  if w.phase = 0 then
    if x.state == .stopped then ((d.swapBank w.stream w.words).askStream w.stream (.start false), [{ w with phase := 1 }])
    else (d, [w])
  else if x.state == .stopped then (d.bump1 .medLineHybApplySlip n, [w])
  else
    match w.hyb with
    | some g => (d.modLineCh n (fun c => c.evt k.tick 0x0889 0 (toBits 32 g)), [])
    | none => (d, [])

/-- The one-tick stops of a channel at a tick; LINE_EQ_SET is answered when its last is over. -/
def Dev.swapsTick (k : Clock) (d : Dev) (n : Nat) : Dev :=
  match d.lineCh n with
  | none => d
  | some c =>
    let r := c.swaps.foldl (fun (p : Dev × List Swap) w => let q := Dev.swapTick k n p.1 w; (q.1, p.2 ++ q.2)) (d, [])
    let d := r.1.modLineCh n (fun c => { c with swaps := r.2 })
    if c.swaps.any (·.eq) && !r.2.any (·.eq) then d.finish k .lineEq n .ok else d

/-! ### What falls to a tick -/

/-- Caller display at a tick: the end of an RP-AS burst, GA up and down around DT-AS and the data (R267), and the message's end. -/
def Dev.cidTick (k : Clock) (d : Dev) (n : Nat) : Dev :=
  match d.lineCh n with
  | none => d
  | some c => match c.cid with
    | none => d
    | some r =>
      let t := k.tick
      let gm := (d.fst (256 + n)).gm
      let d := if r.burst = some t then d.putFeed n 4 else d
      let d := if r.dataAt = t || r.tas = some t then d.rampTx n gm 32768 16
        else if r.tas.any (fun a => a + 800 = t) then d.rampTx n gm 0 16 else d
      if r.dataEnd ≤ t then
        let d := (d.rampTx n gm (c.gaRest t) 16).setLineCh n (some { (c.evt t 0x0888 0 (r.msg.body.length + 3)) with cid := none })
        let d := if r.msg.mode = 0 then d.putAction n 2
          else match d.lineCh n with
            | some c => d.putFeed n (d.presentFeed k c)
            | none => d
        d.freeSlot n
      else d

/-- A tone at a tick: its fade in and out, and its end (R269). -/
def Dev.toneTick (k : Clock) (d : Dev) (n : Nat) : Dev :=
  match d.lineCh n with
  | none => d
  | some c => match c.tone with
    | none => d
    | some r =>
      let t := k.tick
      let d := if r.fade.isSome then d
        else if r.start = t then d.rampTx n (if r.mix then (d.fst (256 + n)).gm else 0) 32768 r.ramp
        else if r.stop = some t then d.rampTx n 32768 (c.gaRest t) r.ramp else d
      if r.gone.any (fun e => decide (e ≤ t)) then
        (d.setLineCh n (some { (c.evt t 0x088C (b2n r.fade.isSome) (r.cycles t)) with tone := none })).freeSlot n
      else d

/-- A probe at a tick: on ALT at its first, off ALT behind its last (R259). -/
def Dev.probeTick (k : Clock) (d : Dev) (n : Nat) : Dev :=
  match d.lineCh n with
  | none => d
  | some c => match c.hyb with
    | none => d
    | some h =>
      let alone := c.tone.isNone && c.paging.isNone && !c.cid.any (fun r => r.heard k.tick)
      if !alone then d
      else if k.tick = h.start then d.rampTx n (d.fst (256 + n)).gm 32768 1
      else if k.tick = h.start + 3200 then d.rampTx n (d.fst (256 + n)).gm 0 1 else d

/-- A page's first samples are on ALT: the ramp of R298. -/
def Dev.pageTick (k : Clock) (d : Dev) (n : Nat) : Dev :=
  match d.lineCh n with
  | none => d
  | some c => match c.paging.bind d.bridge with
    | none => d
    | some x =>
      let f := d.fst (256 + n)
      let gm := if x.set.pageAdd then f.gm else 0
      if c.page.any (fun p => p.1 = k.tick) && f.ramp.isNone && !(f.gm == gm && f.ga == 32768) then
        d.rampTx n gm 32768 x.set.pageRamp
      else d

/-- What falls to a line channel at the start of a tick. -/
def Dev.lineChTick (k : Clock) (d : Dev) (n : Nat) : Dev :=
  ((((d.cidTick k n).toneTick k n).probeTick k n).pageTick k n).swapsTick k n

/-! ### Frame boundaries -/

/-- Settings of LINE_CHANNEL_MODIFY take effect; another TAIL_MS resets the canceller (R274). -/
def Dev.lineModify (d : Dev) (n : Nat) : Dev :=
  match d.lineCh n with
  | none => d
  | some c => match c.mod with
    | some m =>
      (d.pair (.line n) m.peer).setLineCh n (some { c with
        mod := none, set := { c.set with m := m }, echo := if m.tail = c.set.m.tail then c.echo else [] })
    | none => d

/-- What host software has touched is put back (R253). -/
def Dev.lineRestore (k : Clock) (d : Dev) (n : Nat) : Dev :=
  match d.lineCh n with
  | none => d
  | some c =>
    if c.override_ then
      let d := (d.setLineCh n (some { c with override_ := false })).putEntries n
      (d.putState n 7 (d.presentFeed k c)).bump1 .medLineStateOverride n
    else d

/-- The line is active again on a lane in LIVE (R270). -/
def Dev.lineReturn (k : Clock) (d : Dev) (n : Nat) : Dev :=
  match d.lineCh n with
  | none => d
  | some c =>
    if c.lost && d.lineLive n then
      let d := ((d.setLineCh n (some { c with lost := false, lastTick := k.tick, lastEdges := (d.line n).us3,
                                              offHook := false })).putEntries n).putFeed n c.feed
      if (d.line n).us0.testBit 0 then
        (d.modLineCh n (fun c => { (c.evt (k.tick - 1) 0x0880 3 0) with offHook := true, feed := 2 })).putFeed n 2
      else d
    else d

/-- A frame boundary of the channel's length (R253, R270, R274): settings, restored entries, the return of the line, and the
window of the frame. -/
def Dev.lineBoundary (k : Clock) (d : Dev) (n : Nat) : Dev :=
  if (d.lineCh n).any (fun c => c.destroying.isNone) then
    (((d.lineModify n).lineRestore k n).lineReturn k n).modLineCh n (fun c => { c with frameAt := some k.tick })
  else d

/-! ### The audio of a frame (R255 to R258) -/

/-- The statuses of a block (Table 4.4). -/
def blockStatus (ws : List Word) : List Nat :=
  (List.range (bitsOf (ws.getD 0 0).toNat 16 8)).map (fun i => bitsOf (ws.getD (4 + i / 16) 0).toNat (2 * (i % 16)) 2)

/-- The samples of a block. -/
def blockSamples (ws : List Word) : List Int :=
  wordSamples (ws.getD 3 0).toNat (ws.drop (4 + (bitsOf (ws.getD 0 0).toNat 16 8 + 15) / 16))

/-- The first tick of a block. -/
def blockFirst (ws : List Word) : Nat := ((ws.getD 1 0).toNat + (ws.getD 2 0).toNat * 2 ^ 32) / 4096

/-- The line's block that begins at tick `first` is taken from its receive Hopper, and older ones of the line are released. -/
def Dev.takeBlock (k : Clock) (hop n first : Nat) : Nat → Dev → List Word × Dev
  | 0, d => ([], d)
  | m + 1, d =>
    let ws := d.hopRest hop
    if d.hopReady hop && bitsOf (ws.getD 0 0).toNat 0 9 == n && decide (blockFirst ws ≤ first) then
      let d := (d.hopTake k hop).2
      if blockFirst ws = first then (ws, d) else Dev.takeBlock k hop n first m d
    else ([], d)

/-- The block of the frame that ends at boundary `b`. -/
def Dev.frameBlock (k : Clock) (d : Dev) (n b : Nat) (c : LineCh) : List Word × Dev :=
  let h := d.hopper c.set.rxHop
  Dev.takeBlock k c.set.rxHop n (b - c.set.frame) (h.seq.length + h.fill.length) d

/-- The ticks of the frame of boundary `b` with their statuses; what its block does not hold has status 3. -/
def frameTicks (b frame : Nat) (st : List Nat) : List (Nat × Nat) :=
  (List.range frame).map (fun i => (b - frame + i, st.getD i 3))

/-- A probe over the statuses of a frame (R259): in the window of the frame that ends it its filter is installed, or it is repeated
once, or it has failed. -/
def Dev.probeTurn (k : Clock) (d : Dev) (n b : Nat) (ticks : List (Nat × Nat)) (res : Option (List Word × Int)) : Dev :=
  match d.lineCh n with
  | none => d
  | some c => match c.hyb with
    | none => d
    | some h =>
      let h := { h with bad := h.bad || ticks.any (fun t => h.on t.1 && t.2 != 0) }
      if b < h.start + 3200 then d.setLineCh n (some { c with hyb := some h })
      else if h.bad && h.second then d.setLineCh n (some { (c.evt k.tick 0x0889 1 0) with hyb := none })
      else if h.bad then
        d.setLineCh n (some { c with hyb := some { start := nextBoundary c.set.frame k.tick, bad := false, second := true } })
      else match res with
        | some (ws, g) =>
          let w : Swap := { stream := n, words := (List.range 32).map (fun i => (4 + i, ws.getD i 0 &&& 0xFFFFFF)),
                            hyb := some g, phase := 0 }
          (d.setLineCh n (some { c with hyb := none, swaps := c.swaps ++ [w] })).askStream n .stop
        | none => d.setLineCh n (some { c with hyb := some h })

/-- What the detectors have found is to be reported, and reaches a packet peer. -/
def Dev.lineHeard (k : Clock) (d : Dev) (n : Nat) (found : List Found) : Dev :=
  match d.lineCh n with
  | none => d
  | some c =>
    let d := d.setLineCh n (some { c with evq := c.evq ++ found })
    found.foldl (fun d e => d.peerHears k c.set.m.peer e c.ears.level) d

/-- One frame of the detectors (R257, R258, R260, R261); the flags say in which ticks the canceller is bypassed. -/
def Dev.lineListen (k : Clock) (d : Dev) (n : Nat) (ticks : List (Nat × Nat)) (heard far : List Heard) : List Bool × Dev :=
  match d.lineCh n with
  | none => ([], d)
  | some c =>
    let r := c.ears.frame c.set.m d.med.cpts ticks heard far
    let d := (d.setLineCh n (some { c with ears := r.1 })).bumpN ⟨.medLineToneDisable, n, 0⟩ r.2.2.1
    (r.2.2.2, d.lineHeard k n r.2.1)

/-- The near-end frame of boundary `b` is the peer's and goes to the bridges. -/
def Dev.lineNear (k : Clock) (d : Dev) (n b : Nat) (late : Bool) (near : List Int) : Dev :=
  match d.lineCh n with
  | none => d
  | some c =>
    (d.setLineCh n (some { c with frameAt := none, near := some (b, late, near) })).toBridges k c.set.thread false n b c.set.rate
      c.set.frame near

/-- The level event of a frame (Table 10.1). -/
def LineCh.levels (c : LineCh) (tick : Nat) (rx tx : Int) : LineCh :=
  let due := decide (c.set.m.levelEvt ≤ c.levelN + 1)
  if c.set.m.levelEvt = 0 then c
  else if due then { (c.evt tick 0x088B 0 (toBits 16 rx + 2 ^ 16 * toBits 16 tx)) with levelN := 0 }
  else { c with levelN := c.levelN + 1 }

/-- Samples are committed to one of the channel's Hoppers. -/
def Dev.linePut (k : Clock) (d : Dev) (c : LineCh) (hop : Nat) (l : List Int) : Dev :=
  (d.hopPut k hop (d.thProd c.set.thread) Config.mediaPrio.toNat (sourceWords l)).2

/-- The far-end frame goes to MAIN_HOP, under TX_GAIN (Table 10.1). -/
def Dev.lineMain (k : Clock) (d : Dev) (n b : Nat) : Dev :=
  match d.lineCh n with
  | none => d
  | some c =>
    let r := d.farEnd k false n b c.set.rate c.set.frame c.set.m.peer
    r.2.linePut k c c.set.mainHop (r.1.map (fun x => sat16 (gainDb c.set.m.txGain x)))

/-- A page's mix becomes ALT's audio of the next ticks (R298). -/
def Dev.linePage (k : Clock) (d : Dev) (n b : Nat) : Dev :=
  match d.lineCh n with
  | none => d
  | some c =>
    let r := d.fromBridges k true false n b 64000 c.set.frame
    match r.1 with
    | some m => if c.paging.isSome then r.2.modLineCh n (fun c => { c with page := some (b + c.set.frame / 4, m) }) else r.2
    | none => r.2

/-- The audio of a frame: detections, levels, the far-end frame, and the near-end frame for the peer (R255 to R258, R296). A lost
line's is comfort noise (R270). The canceller keeps what the tile makes of its model where some tick of the frame is good and
not bypassed. -/
def Dev.lineFrame (k : Clock) (d : Dev) (n b : Nat) (w : LineWork) : Dev :=
  match d.lineCh n with
  | none => d
  | some c =>
    let blk := d.frameBlock k n b c
    let ticks := frameTicks b c.set.frame (blockStatus blk.1)
    let e := blk.2.lineListen k n ticks w.heard w.far
    let marks := ticks.zip e.1
    let learns := marks.any (fun t => t.1.2 == 0 && !t.2)
    let d := e.2.modLineCh n (fun c => { c.levels k.tick w.rx w.tx with echo := if learns then w.model else c.echo })
    let d := (d.lineMain k n b).linePage k n b
    let f := d.draw (frameSamples c.set.rate c.set.frame)
    let noise := noiseFrame f.1 (frameSamples c.set.rate c.set.frame)
    let near := if c.lost then noise
      else nearFrame c.set.m c.set.rate w (blockSamples blk.1) noise (marks.map (fun t => (t.1.2, t.2)))
    (f.2.lineNear k n b false near).probeTurn k n b ticks w.hyb

/-- The window of the channel's frames closes with its frame unfinished (R258): its block goes unread, the detectors hear a frame
without signal, and the peer has a substitute flagged late. -/
def Dev.lineClose (k : Clock) (d : Dev) (n : Nat) : Dev :=
  match d.lineCh n with
  | none => d
  | some c => match c.frameAt with
    | none => d
    | some b =>
      let blk := d.frameBlock k n b c
      let none_ : List Heard := [{ ticks := c.set.frame, quiet := true }]
      let ticks := frameTicks b c.set.frame (List.replicate c.set.frame 0)
      let d := (blk.2.lineListen k n ticks none_ none_).2
      let d := d.probeTurn k n b (frameTicks b c.set.frame (blockStatus blk.1)) none
      let f := d.draw (frameSamples c.set.rate c.set.frame)
      let near := c.set.m.substitute (noiseFrame f.1 (frameSamples c.set.rate c.set.frame))
      (f.2.lineNear k n b true near).bump1 .medLineLateFrame n

/-! ### ALT, and the turns -/

/-- ALT's content up to the close of the next frame's window is committed (log entry 90). -/
def Dev.feedAlt (k : Clock) (d : Dev) (n : Nat) : Dev :=
  match d.lineCh n with
  | none => d
  | some c =>
    let hi := nextBoundary c.set.frame k.tick + c.set.frame / 4
    let lo := max c.altTo (k.tick + 1)
    let l := (List.range (hi - lo)).flatMap (fun i => c.altTick (lo + i))
    let d := d.setLineCh n (some { c with altTo := max lo hi })
    if l.isEmpty then d else d.linePut k c c.set.altHop l

/-- The changes of the line since the last turn: hooks, and what a packet peer hears of them. -/
def Dev.lineHooks (k : Clock) (d : Dev) (n : Nat) (recs : List HookRec) : Dev :=
  recs.foldl (fun d r =>
    let before := (d.lineCh n).elim 0 (fun c => c.evq.length)
    let d := d.hookTurn k n r
    match d.lineCh n with
    | some c => (c.evq.drop before).foldl (fun d e => d.peerHears k c.set.m.peer e 0) d
    | none => d) d

/-- A turn of the channel's thread: the changes seen since the last, the cadence, the frame whose window is open where the
turn finishes it, ALT's content, and the events in their order. -/
def execLineFrameProcess (n : Nat) (work : Option LineWork) (s : State) : Out :=
  onDev (fun k d =>
    match d.lineCh n with
    | none => d
    | some c =>
      let d := ((d.setLineCh n (some { c with recs := [] })).lineHooks k n c.recs).ringTurn k n
      let d := match work, c.frameAt with
        | some w, some b => d.lineFrame k n b w
        | _, _ => d
      (d.feedAlt k n).lineFlush k n) s

end Sys2Proof.Machine
end

