-- ==== Sys2Proof/Machine/LineChan.lean ====
section
/-! DEFINITION. The commands of line channels (chapter 10). -/
namespace Sys2Proof.Machine
open Sys2Proof

/-! ### Commands (Table 10.10) -/

def mediaFrame (f : Nat) : Bool := f == 20 || f == 40 || f == 80 || f == 160
def mediaRate (r : Nat) : Bool := r == 8000 || r == 16000 || r == 24000 || r == 32000 || r == 48000
def gainOk (g : Int) : Bool := decide (-240 ≤ g) && decide (g ≤ 120)

/-- A setting of LINE_CHANNEL_MODIFY lies out of its range (Table 10.1). -/
def LineMod.bad (m : LineMod) : Bool :=
  !(m.tail == 0 || m.tail == 32 || m.tail == 48 || m.tail == 64 || m.tail == 96 || m.tail == 128) || decide (2 < m.nlp) ||
  decide (m.nlpAtten < 6) || decide (60 < m.nlpAtten) || decide (40 < m.hb) || decide (1 < m.toneDis) || decide (63 < m.detMask) ||
  decide (65535 < m.cptMask) || decide (2 < m.hybMode) || decide (m.probe < -60) || decide (-40 < m.probe) ||
  decide (m.flashMin < 80) || decide (8000 < m.flashMax) || decide (m.flashMax ≤ m.flashMin) || !gainOk m.rxGain ||
  !gainOk m.txGain || decide (7 < m.feedProf) || decide (7 < m.ringProf) || decide (255 < m.levelEvt)

/-- The code of TAP for a channel rate (Table 10.2). -/
def tapOf (rate : Nat) : Nat := if rate = 8000 then 3 else if rate = 16000 then 2 else if rate = 48000 then 0 else 1

/-- The receive Hopper of a thread that other lines share belongs to another thread (R252). -/
def Dev.rxShared (d : Dev) (hop th : Nat) : Bool := d.lineChs.any (fun p => p.2.set.rxHop == hop && p.2.set.thread != th)

/-- A stream is configured for the channel and starts at the next boundary (R252, R254). -/
def Dev.useStream (d : Dev) (i rate hop ticks alt : Nat) : Dev :=
  (d.cmdFilterConfig i (tapOf rate) rate hop ticks 4 alt).2.askStream i (.start false)

def execLineChannelCreate (o : Origin) (line : Nat) (set : LineSet) (s : State) : Out :=
  hostCmd o 0x0801 (fun k d =>
    let bad := set.m.bad || decide (8191 < set.thread) || decide (63 < set.group) || decide (3 < set.level) ||
      !mediaFrame set.frame || !mediaRate set.rate || decide (1023 < set.rxHop) || decide (1023 < set.mainHop) ||
      decide (1023 < set.altHop) || decide (255 < set.evtRing) ||
      (d.chanFrame set.thread).any (fun f => f != set.frame) || (d.bridgeFrame set.thread).isSome || d.rxShared set.rxHop set.thread
    let st := firstStatus .ok [(bad || d.peerBad set.thread (.line line) set.m.peer, .badArg),
      (decide (255 < line) || d.peerGone set.m.peer, .unknownObject), ((d.lineCh line).isSome || d.peerEnds set.m.peer, .refusedBusy),
      ((d.chanFrame set.thread).isNone && !(d.thr set.thread).off, .refusedBusy),
      (!(d.fst line).open || !(d.fst (256 + line)).open, .refusedBusy)]
    if st == .ok then
      let d := d.takeThread k set.thread set.group set.level
      let off := (d.line line).us0.testBit 0
      let c : LineCh := { set := set, lastTick := k.tick, lastEdges := (d.line line).us3, offHook := off,
                          lost := !d.lineLive line, feed := if off then 2 else 1 }
      let d := ((((d.setLineCh line (some c)).pair (.line line) set.m.peer)).putEntries line).putFeed line c.feed
      (.now .ok [], (d.useStream line set.rate set.rxHop set.frame 0xFFFF).useStream (256 + line) set.rate set.mainHop 80 set.altHop)
    else (.now st [], d)) s

/-- A slot for the channel's use: its own, or the lowest free one (R277). -/
def Dev.slotFor (d : Dev) (c : LineCh) : Option Nat :=
  match c.slot with
  | some s => some s
  | none => d.freeAlarm

/-- A command of a line's channel, judged by R28: its arguments, the channel there is, the alarm slot it takes where `slot` says that
it takes one (R277), a destroy in progress (R271), and `checks`. -/
def lineCmd (o : Origin) (opc line : Nat) (slot : Bool) (bad : Dev → Bool) (checks : Clock → Dev → LineCh → List (Bool × Status))
    (f : Clock → Dev → LineCh → Reply × Dev) (s : State) : Out :=
  hostCmd o opc (fun k d =>
    match d.lineCh line with
    | none => (.now (if bad d then .badArg else .unknownObject) [], d)
    | some c =>
      let none_ := slot && (d.slotFor c).isNone
      let st := firstStatus .ok ((bad d, .badArg) :: (none_, .noResource) :: (c.destroying.isSome, .refusedBusy) :: checks k d c)
      if st == .ok then f k d c
      else (.now st [], if none_ && st == .noResource then d.bump0 .medAlarmSlotExhausted else d)) s

/-- No argument of the command is out of range by itself. -/
def noBad : Dev → Bool := fun _ => false

/-- Nothing but the channel and its destroy is checked. -/
def noChecks : Clock → Dev → LineCh → List (Bool × Status) := fun _ _ _ => []

/-! ### Destroy (R271) -/

/-- Commands of a channel that are in flight. -/
def Dev.lineWaits (d : Dev) (n : Nat) : Nat :=
  (d.waits.filter (fun w => (w.key == n && (w.kind == .lineRing || w.kind == .lineCid || w.kind == .lineHyb ||
    w.kind == .lineEq || w.kind == .lineTone)) || (w.key == armedCid n && w.kind == .lineCid))).length

/-- A LINE_METER that waits or is in flight (R266). -/
def LCmd.meter (c : LCmd) : Bool :=
  match c.src with
  | .hostAs _ opc => opc == 0x080A
  | _ => false

/-- The LINE_METERs of a line are answered, and the line's commands are nobody's any more. -/
def Dev.endMeters (k : Clock) (d : Dev) (n : Nat) : Dev :=
  let x := d.line n
  let all := (x.flight.map (·.cmd)).toList ++ x.queue
  let own := fun (c : LCmd) => if c.meter then { c with src := .self } else c
  let d := d.setLine n { x with flight := x.flight.map (fun f => { f with cmd := own f.cmd }), queue := x.queue.map own }
  (all.filter (·.meter)).foldl (fun d c => (d.answer k c.src 0x080A .aborted).bump1 .medLineDestroyAbort n) d

/-- Everything that LINE_CHANNEL_DESTROY ends is ended at once: ringing is withdrawn, the slot disarmed, ALT ramped out over 8 ticks,
commands aborted and counted, the streams stopped, and a thread with nothing else to carry woken for its TEXIT (R271). -/
def Dev.lineEnd (k : Clock) (d : Dev) (n : Nat) (c : LineCh) : Dev :=
  let d := d.bumpN ⟨.medLineDestroyAbort, n, 0⟩ (d.lineWaits n)
  let d := (d.disarmSlot n).setLineCh n (some { (c.endWork k.tick) with
    destroying := some (k.tick + 16), frameAt := none, swaps := [], paging := none, feed := 1 })
  let d := if c.tone.isSome || c.cid.isSome || c.hyb.isSome || c.paging.isSome then d.rampTx n 32768 0 8 else d
  let d := [WKind.lineRing, .lineCid, .lineHyb, .lineTone, .lineEq].foldl (fun d w => d.finish k w n .aborted) (d.lineFlush k n)
  let d := ((d.finish k .lineCid (armedCid n) .aborted).endMeters k n).dropSlot n
  let d := (((d.putFeed n 1).askStream n .stop).askStream (256 + n) .stop)
  if d.idleThread c.set.thread then d.wakeThread k c.set.thread else d

def execLineChannelDestroy (o : Origin) (line : Nat) (s : State) : Out :=
  lineCmd o 0x0802 line false noBad noChecks (fun k d c => (.later .lineDestroy line, d.lineEnd k line c)) s

/-- The first frame boundary at least 16 ticks after a destroy was accepted (R271), once the thread has executed TEXIT where it
carries nothing else. -/
def execLineChannelDestroyEnd (n : Nat) (s : State) : Out :=
  onDev (fun k d =>
    match d.lineCh n with
    | some c => match c.destroying with
      | some t =>
        if t ≤ k.tick && k.tick % c.set.frame = 0 && (!d.idleThread c.set.thread || (d.thr c.set.thread).off) then
          let d := d.modLine n (fun x => { x with
            reflexes := [0, 1, 2].foldl (fun st r => st.put {} r { st.get {} r with enable := false }) x.reflexes })
          ((((d.pair (.line n) .none).leaveBridges k false n).setLineCh n none)).finish k .lineDestroy n .ok
        else d
      | none => d
    | none => d) s

/-! ### Settings and status -/

def execLineChannelModify (o : Origin) (line : Nat) (m : LineMod) (s : State) : Out :=
  lineCmd o 0x0803 line false (fun _ => m.bad)
    (fun _ d c => [(d.peerBad c.set.thread (.line line) m.peer, .badArg), (d.peerGone m.peer, .unknownObject),
      (d.peerEnds m.peer, .refusedBusy)])
    (fun _ d c => (.now .ok [], d.setLineCh line (some { c with mod := some m }))) s

/-- The loop delay in ns: four ticks and the filter delays of both directions (R255, Table 10.2); the transmit resampler's delay is
eight channel periods (R108). -/
def loopNs (rate : Nat) : Nat :=
  500000 + (if rate = 8000 then 2 * 2515625 else if rate = 16000 then 2 * 1078125 else if rate = 24000 then 609375 + 692708
    else if rate = 32000 then 2 * 359375 else 125000 + 166666)

def LineMod.fields (m : LineMod) : List RField :=
  [⟨1, m.tail⟩, ⟨1, m.nlp⟩, ⟨1, m.nlpAtten⟩, ⟨1, m.hb⟩, ⟨1, m.toneDis⟩, ⟨1, m.detMask⟩, ⟨2, m.cptMask⟩, ⟨1, m.hybMode⟩,
   ⟨1, toBits 8 m.probe⟩, ⟨2, m.flashMin⟩, ⟨2, m.flashMax⟩, ⟨2, toBits 16 m.rxGain⟩, ⟨2, toBits 16 m.txGain⟩, ⟨1, m.feedProf⟩,
   ⟨1, m.ringProf⟩, ⟨1, m.levelEvt⟩, ⟨4, match m.peer with
      | .none => 0
      | .line n => 2 ^ 30 + n
      | .pkt c => 2 ^ 31 + c⟩]

/-- Settings and state; the canceller's estimate and the levels are the tiles' and open. -/
def execLineChannelStatus (o : Origin) (line : Nat) (s : State) : Out :=
  lineCmd o 0x0804 line false noBad noChecks (fun k d c =>
    let f := d.draw 3
    let act := b2n c.ring.isSome + 2 * b2n c.cid.isSome + 4 * b2n c.tone.isSome + 8 * b2n c.charac
    (.now .ok ([⟨2, c.set.thread⟩, ⟨1, c.set.group⟩, ⟨1, c.set.level⟩, ⟨1, c.set.frame⟩, ⟨2, c.set.rate⟩, ⟨2, c.set.rxHop⟩,
      ⟨2, c.set.mainHop⟩, ⟨2, c.set.altHop⟩, ⟨1, c.set.evtRing⟩] ++ c.set.m.fields ++
      [⟨4, loopNs c.set.rate⟩, ⟨2, Config.free f.1 % 65536⟩, ⟨1, b2n c.offHook⟩, ⟨1, c.feedCode (d.presentFeed k c)⟩, ⟨1, b2n c.rev⟩,
       ⟨1, act⟩, ⟨2, Config.free (f.1 + 1) % 65536⟩, ⟨2, Config.free (f.1 + 2) % 65536⟩]), f.2)) s

/-! ### Ringing, feed, polarity, metering (R264 to R266) -/

/-- The last off segment of a cadence's first cycle. -/
def lastOff (cad : List (Nat × Nat)) : Nat := (cad.getLastD (0, 0)).2

/-- An armed message fits the off segment that ends the first cycle (R268). -/
def CidMsg.fits (m : CidMsg) (cad : List (Nat × Nat)) : Bool := decide (m.wait + m.ticks + m.guard ≤ lastOff cad)

/-- The run of an armed message with a ring whose first step falls on tick `first` (Table 10.6). -/
def CidMsg.after (m : CidMsg) (first : Nat) (cad : List (Nat × Nat)) : CidRun :=
  let at_ := first + (cadTicks cad - lastOff cad) + m.wait
  { msg := m, burst := none, dataAt := at_, dataEnd := at_ + m.ticks }

/-- The command of an armed message goes on waiting for the message of a ring. -/
def Dev.cidRings (d : Dev) (n : Nat) : Dev :=
  { d with waits := d.waits.map (fun w => if w.kind == .lineCid && w.key == armedCid n then { w with key := n } else w) }

def execLineRing (o : Origin) (line cadence profile cycles : Nat) (cid : Bool) (s : State) : Out :=
  lineCmd o 0x0805 line true (fun d => decide (7 < cadence) || decide (7 < profile) || (d.cadence cadence).isEmpty)
    (fun _ d c => [(cid && c.cidArm.any (fun m => !m.fits (d.cadence cadence)), .badArg),
      (c.offHook || c.ring.isSome || !d.lineLive line || (cid && c.cidArm.isSome && c.cid.isSome), .refusedBusy)])
    (fun k d c =>
      let cad := d.cadence cadence
      let first := match c.cid with
        | some r => r.dataEnd + r.msg.guard
        | none => nextBoundary c.set.frame k.tick
      let ring : Ringing := { cadIx := cadence, cad := cad, profile := profile, cycles := cycles, cid := cid, first := first, next := first }
      let takes := cid && c.cidArm.isSome
      let d := d.setLineCh line (some { c with
        slot := d.slotFor c, ring := some ring,
        cid := if takes then c.cidArm.map (fun m => m.after first cad) else c.cid,
        cidArm := if takes then none else c.cidArm })
      let d := if takes then d.cidRings line else d
      (.later .lineRing line, ((d.putAction line 1).putAction line 2).armStep k line)) s

def execLineRingStop (o : Origin) (line : Nat) (s : State) : Out :=
  lineCmd o 0x0806 line false noBad (fun _ _ c => [(c.ring.isNone, .refusedBusy)]) (fun k d c =>
    let d := if c.cidPending then d.endCid k line k.tick 2 else d
    let d := (d.endRing line k.tick 2 false).modLineCh line (fun c => { c with feed := 1 })
    let d := match d.lineCh line with
      | some c => d.putFeed line (d.presentFeed k c)
      | none => d
    (.now .ok [], d.lineFlush k line)) s

def execLineCadenceSet (o : Origin) (cadence : Nat) (pairs : List (Nat × Nat)) (s : State) : Out :=
  hostCmd o 0x0807 (fun _ d =>
    let seg := fun (n : Nat) => decide (400 ≤ n) && decide (n ≤ 65535)
    let bad := decide (7 < cadence) || pairs.isEmpty || decide (4 < pairs.length) || !pairs.all (fun p => seg p.1 && seg p.2)
    let busy := d.lineChs.any (fun p => p.2.ring.any (fun r => r.cadIx == cadence))
    let st := firstStatus .ok [(bad, .badArg), (busy, .refusedBusy)]
    if st == .ok then (.now .ok [], { d with med := { d.med with cads := d.med.cads.put [] cadence pairs } })
    else (.now st [], d)) s

def execLineFeed (o : Origin) (line mode : Nat) (s : State) : Out :=
  lineCmd o 0x0808 line false
    (fun d => !(mode == 0 || mode == 1 || mode == 2 || mode == 4 || mode == 7) || (mode == 7 && !d.feature line 2) ||
      (mode == 4 && !d.feature line 1))
    (fun _ d c => [(c.ring.isSome || c.cid.isSome || !d.lineLive line, .refusedBusy)])
    (fun k d c =>
      let c := { c with feed := mode }
      (.now .ok [], (d.setLineCh line (some c)).putFeed line (d.presentFeed k c))) s

/-- A polarity is recorded while the line rings, the burst of RP-AS included (R266, R267). -/
def execLinePolarity (o : Origin) (line rev : Nat) (s : State) : Out :=
  lineCmd o 0x0809 line false (fun _ => decide (1 < rev)) (fun _ d _ => [(!d.lineLive line, .refusedBusy)]) (fun k d c =>
    let c := { c with rev := rev == 1 }
    let d := (d.setLineCh line (some c)).putEntries line
    let now := d.presentFeed k c
    (.now .ok [], if c.ring.isNone && (now = 2 || now = 4) then d.putFeed line now else d)) s

def execLineMeter (o : Origin) (line count on off freq level : Nat) (s : State) : Out :=
  lineCmd o 0x080A line false
    (fun d => count = 0 || decide (255 < count) || decide (on < 8) || decide (4000 < on) || decide (off < 8) ||
      decide (4000 < off) || decide (1 < freq) || level = 0 || decide (50 < level) || !d.feature line 0)
    (fun _ d _ => [((d.line line).full, .noResource), (!d.lineLive line, .refusedBusy)])
    (fun _ d _ => d.cmdLineCommand (.hostAs o 0x080A) line 1
      ([count] ++ bytesLE 2 on ++ bytesLE 2 off ++ [freq, level])) s

/-! ### Caller display and tones (R267 to R269) -/

/-- The run of a message that starts at once, behind tick `now`, on a channel of a frame length: DT-AS begins at the close of the
next window, up to which ALT's content stands (log entry 90); the burst of RP-AS begins at the next latch point. -/
def CidMsg.now (m : CidMsg) (frame now : Nat) : CidRun :=
  let tas := nextBoundary frame now + frame / 4
  let at_ := (if m.mode = 2 then now + 2001 else tas + 800) + m.wait
  { msg := m, burst := if m.mode = 2 then some (now + 2001) else none, tas := if m.mode = 2 then none else some tas,
    dataAt := at_, dataEnd := at_ + m.ticks }

/-- A message is armed; one armed before it is dropped. -/
def Dev.armCid (k : Clock) (d : Dev) (n : Nat) (c : LineCh) (m : CidMsg) : Dev :=
  if c.cidArm.isSome then
    ((d.setLineCh n (some { c.evt k.tick 0x0888 258 0 with cidArm := some m })).finish k .lineCid (armedCid n) .aborted).lineFlush k n
  else d.setLineCh n (some { c with cidArm := some m })

/-- Caller display is on the line: a message that started at once, or the data of one with a ring. -/
def LineCh.cidOn (c : LineCh) (t : Nat) : Bool := c.cid.any (fun r => r.msg.mode != 0 || decide (r.dataAt ≤ t))

def execLineCidSend (o : Origin) (line : Nat) (m : CidMsg) (s : State) : Out :=
  lineCmd o 0x080B line (m.mode != 0)
    (fun _ => decide (3 < m.mode) || decide (1 < m.mod) || decide (m.level < -40) || decide (-6 < m.level) ||
      decide (m.guard < 400) || decide (16000 < m.guard) || m.body.isEmpty || decide (253 < m.body.length) || decide (255 < m.typ))
    (fun k d c => [(c.cidOn k.tick || (m.mode != 0 && c.cid.isSome) || c.tone.isSome || c.offHook || c.paging.isSome ||
      !d.lineLive line, .refusedBusy)])
    (fun k d c =>
      if m.mode = 0 then (.later .lineCid (armedCid line), d.armCid k line c m)
      else
        let d := (d.setLineCh line (some { c with
          slot := d.slotFor c, cid := some (m.now c.set.frame k.tick),
          rev := if m.pr && m.mode != 2 then !c.rev else c.rev })).putEntries line
        (.later .lineCid line, if m.mode = 2 then d.putState line 7 6 else d.putFeed line 4)) s

def execLineTonePlay (o : Origin) (line : Nat) (tones : List (Nat × Int)) (cad : List (Nat × Nat)) (count : Nat) (mix : Bool)
    (ramp : Option Nat) (s : State) : Out :=
  lineCmd o 0x080C line true
    (fun _ => tones.isEmpty || decide (2 < tones.length) ||
      !tones.all (fun t => decide (50 ≤ t.1) && decide (t.1 ≤ 14000) && decide (-60 ≤ t.2) && decide (t.2 ≤ -3)) ||
      cad.isEmpty || decide (4 < cad.length) || !cad.all (fun p => decide (8 ≤ p.1) && decide (8 ≤ p.2)) ||
      ramp.any (fun r => r = 0 || decide (256 < r)))
    (fun k d c => [(c.cid.any (fun r => decide (r.dataAt ≤ k.tick)) || c.tone.isSome || c.paging.isSome || !d.lineLive line,
      .refusedBusy)])
    (fun k d c =>
      let t := nextBoundary c.set.frame k.tick + c.set.frame / 4
      let run : ToneRun := { tones := tones, cad := cad, count := count, mix := mix, ramp := ramp.getD 16, start := t,
                             stop := if count = 0 then none else some (t + count * cadTicks cad) }
      (.later .lineTone line, d.setLineCh line (some { c with slot := d.slotFor c, tone := some run }))) s

def execLineToneStop (o : Origin) (line : Nat) (s : State) : Out :=
  lineCmd o 0x080D line false noBad (fun _ _ c => [(c.tone.isNone, .refusedBusy)]) (fun k d c =>
    match c.tone with
    | some t =>
      (.now .ok [], if t.fade.isSome then d
        else (d.setLineCh line (some { c with tone := some { t with fade := some (k.tick + 1 + t.ramp) } })).rampTx line 32768
          (c.gaRest k.tick) t.ramp)
    | none => (.now .ok [], d)) s

/-! ### The rest -/

/-- The probe begins at the next frame boundary; ALT's content up to the window behind it is committed. -/
def execLineHybChar (o : Origin) (line : Nat) (s : State) : Out :=
  lineCmd o 0x080E line false noBad (fun _ d c => [(!c.offHook || c.charac || !d.lineLive line, .refusedBusy)]) (fun k d c =>
    (.later .lineHyb line, (d.setLineCh line (some { c with
      hyb := some { start := nextBoundary c.set.frame k.tick, bad := false, second := false } })).feedAlt k line)) s

/-- R260: one or two frequencies, up to four on and off durations, a tolerance of 1 % to 25 %. -/
def execLineCptSet (o : Origin) (defn : Nat) (x : CptDef) (s : State) : Out :=
  hostCmd o 0x080F (fun _ d =>
    if 15 < defn || x.freqs.isEmpty || 2 < x.freqs.length || x.cad.isEmpty || 4 < x.cad.length || x.tol = 0 || 25 < x.tol then
      (.now .badArg [], d)
    else (.now .ok [], { d with med := { d.med with cpts := d.med.cpts.put {} defn x } })) s

/-- The one-tick stop that installs an equaliser of twenty coefficients in a stream. -/
def eqSwap (i : Nat) (ws : List Word) : Swap :=
  { stream := i, words := (List.range 20).map (fun j => (36 + j, ws.getD j 0 &&& 0xFFFFFF)), hyb := none, eq := true, phase := 0 }

/-- Equalisers by the one-tick stop on each stream of the mask: bit 0 receive, bit 1 transmit; twenty coefficients each. -/
def execLineEqSet (o : Origin) (line mask : Nat) (rx tx : List Word) (s : State) : Out :=
  lineCmd o 0x0810 line false
    (fun _ => mask = 0 || decide (3 < mask) || (mask.testBit 0 && rx.length != 20) || (mask.testBit 1 && tx.length != 20))
    (fun _ _ c => [(!c.swaps.isEmpty, .refusedBusy)])
    (fun _ d c =>
      let jobs := (if mask.testBit 0 then [eqSwap line rx] else []) ++ (if mask.testBit 1 then [eqSwap (256 + line) tx] else [])
      (.later .lineEq line, jobs.foldl (fun d j => d.askStream j.stream .stop) (d.setLineCh line (some { c with swaps := jobs })))) s

end Sys2Proof.Machine
end

