-- ==== Sys2Proof/Machine/PktChan.lean ====
section
/-! DEFINITION. Packet channels (chapter 11): RTP, RTCP, the jitter buffer, telephone events, voiceband data and T.38. -/
namespace Sys2Proof.Machine
open Sys2Proof

/-! ### Settings (Tables 11.1 and 11.3) -/

def optIn (l : List Nat) (i lo hi : Nat) : Bool := decide (lo ≤ l.getD i lo) && decide (l.getD i lo ≤ hi)

/-- The codec allows the frame, and its options are in range; an empty list stands for the defaults. -/
def codecOk (codec frame : Nat) (o : List Nat) : Bool :=
  if codec ≤ 2 then o.isEmpty
  else if codec = 3 then o.isEmpty || o == [16] || o == [24] || o == [32] || o == [40]
  else if codec = 4 then (frame == 80 || frame == 160) && decide (o.length ≤ 1) && optIn o 0 0 1
  else if codec = 5 then frame == 160 && (o.isEmpty || o.length == 3) && optIn o 0 0 8 && optIn o 1 0 1 && optIn o 2 0 1
  else codec == 6 && (o.isEmpty || o.length == 5) && optIn o 0 0 4 && optIn o 1 6000 128000 && optIn o 2 0 1 &&
    optIn o 3 0 1 && optIn o 4 0 1

/-- A setting lies out of its range. -/
def PktSet.bad (s : PktSet) : Bool :=
  decide (8191 < s.thread) || decide (63 < s.group) || decide (3 < s.level) ||
  !(s.frame == 20 || s.frame == 40 || s.frame == 80 || s.frame == 160) || decide (1023 < s.rxHop) ||
  s.dest == 0 || decide (8191 < s.dest) || !codecOk s.codec s.frame s.opts || decide (127 < s.txPt) || decide (127 < s.rxPt) ||
  !(s.evtPt == 0 || (decide (96 ≤ s.evtPt) && decide (s.evtPt ≤ 127))) || decide (2 ^ 32 ≤ s.txSsrc) || decide (2 ^ 32 ≤ s.rxSsrc) ||
  !(s.relatch == 0 || (decide (8 ≤ s.relatch) && decide (s.relatch ≤ 8000))) || s.cname.isEmpty || decide (64 < s.cname.length) ||
  decide (60 < s.rtcp) || decide (1 < s.jbMode) || decide (s.jbInit < s.jbMin) || decide (s.jbMax < s.jbInit) || decide (8000 < s.jbMax) ||
  decide (2 < s.vbdMode) || decide (1 < s.vbdLaw) || decide (127 < s.vbdPt) || decide (s.vbdDelay < 160) || decide (1600 < s.vbdDelay) ||
  decide (4 < s.t38Red) || !(s.mediaTo == 0 || (decide (8000 ≤ s.mediaTo) && decide (s.mediaTo ≤ 480000))) || decide (255 < s.evtRing)

/-- D outside voice is VBD_DELAY; in voice it starts at JB_INIT (R287, R293). -/
def PktCh.startDly (x : PktCh) : Nat := if x.mode = 1 then x.set.vbdDelay else x.set.jbInit

/-- D under settings that have changed (R287, R293): fixed, or within the limits of the adaptive mode. -/
def PktCh.keepDly (x : PktCh) : Nat :=
  if x.mode = 1 || x.set.jbMode = 0 then x.startDly else max x.set.jbMin (min x.set.jbMax x.dly)

def Dev.pktEvt (k : Clock) (d : Dev) (c typ detail stamp arg : Nat) : Dev :=
  match d.pkt c with
  | some x => d.raiseOn k x.set.evtRing { typ := typ, detail := detail, obj := c, stamp := stamp, arg := arg % 2 ^ 32 }
  | none => d

/-- The tick of the next report: from half to one and a half intervals on (R282). -/
def Dev.drawRtcp (d : Dev) (i tick : Nat) : Option Nat × Dev :=
  if i = 0 then (none, d)
  else
    let f := d.draw 1
    (some (tick + 4000 * i + Config.free f.1 % (8000 * i + 1)), f.2)

/-! ### Receiving (R280 to R292) -/

/-- What a payload holds: G.711, G.722 and G.726 have a fixed rate; of the others the payload is examined by the tile. Voiceband data
are G.711 (R293). -/
def judgePayload (x : PktCh) (pt bytes : Nat) (judged : Option Judged) : Option Judged :=
  let c := if x.mode = 1 && pt = x.set.vbdPt then 0 else x.set.codec
  if c ≤ 2 then some { ticks := bytes }
  else if c = 3 then
    let r := (x.set.opts.getD 0 32) / 8
    if bytes * 8 % r = 0 then some { ticks := bytes * 8 / r } else none
  else judged

/-- p(u) of R285. -/
def PktCh.playAt (x : PktCh) (a0 : Int) (ts0 u : Nat) : Int :=
  let d : Int := sext 32 ((u + 2 ^ 32 - ts0 % 2 ^ 32) % 2 ^ 32)
  a0 + x.dly + d * 8000 / x.clock

/-- The source whose packets are taken (R281): RX_SSRC, or else the one latched. -/
def PktCh.source (x : PktCh) : Option Nat := if x.set.rxSsrc != 0 then some x.set.rxSsrc else x.ssrc

/-- The packets expected of the source so far: the extended sequence numbers from the first to the highest. -/
def PktCh.expected (x : PktCh) : Int := if x.srcN = 0 then 0 else x.seqHi - x.seqLo + 1

/-- One more packet of source `ssrc`, whose extended sequence number is the one nearest the highest so far. -/
def PktCh.countSrc (x : PktCh) (ssrc q : Nat) : PktCh :=
  if x.srcN != 0 && x.srcOf == ssrc then
    { x with srcN := x.srcN + 1, seqHi := max x.seqHi (x.seqHi + sext 16 (((q : Int) - x.seqHi) % 65536).toNat) }
  else
    { x with srcOf := ssrc, srcN := 1, seqLo := q, seqHi := q, expPrior := 0, recPrior := 0, lost := x.lost + (x.expected - x.srcN).toNat }

/-- The interarrival jitter of RFC 3550, in sixteenths of a timestamp unit. -/
def PktCh.withJitter (x : PktCh) (tick ts : Nat) : PktCh :=
  let tr : Int := (tick * x.clock / 8000 : Nat) - (ts : Int)
  match x.transit with
  | none => { x with transit := some tr }
  | some o =>
    let dv := (tr - o).natAbs
    { x with transit := some tr, jitter := x.jitter + dv - (x.jitter + 8) / 16 }

/-- One event block of a payload of EVT_PT (R292): start and end are each reported once, and every repeat gives the event's
duration. The last sixteen events are held. -/
def Dev.eventBlock (k : Clock) (d : Dev) (c ts stamp : Nat) (b : List Nat) : Dev :=
  match d.pkt c with
  | none => d
  | some x =>
    let ev := b.getD 0 0
    let fin := (b.getD 1 0).testBit 7
    let vol := b.getD 1 0 % 64
    let ticks := beAt b 2 2 * 8000 / x.clock
    let same := fun (e : EvtIn) => e.ts == ts && e.ev == ev
    if 16 < ev then d.bump0 .medRfc4733Drop
    else
      let known := x.evtIn.any same
      let ended := x.evtIn.any (fun e => same e && e.ended)
      let l := if known then x.evtIn.map (fun e => if same e then { e with ticks := ticks, ended := e.ended || fin } else e)
        else ({ ts := ts, ev := ev, vol := vol, ticks := ticks, ended := fin } :: x.evtIn).take 16
      let d := d.setPkt c (some { x with evtIn := l })
      let d := if known then d else d.pktEvt k c 0x0893 0 stamp (ev + vol * 2 ^ 8)
      if fin && !ended then d.pktEvt k c 0x0893 1 stamp (ev + vol * 2 ^ 8 + (ticks % 65536) * 2 ^ 16) else d

/-- The blocks of a payload, each behind the one before it in time. -/
def Dev.eventPacket (k : Clock) (c stamp : Nat) : Nat → List (List Nat) → Dev → Dev
  | _, [], d => d
  | ts, b :: r, d => Dev.eventPacket k c stamp ((ts + beAt b 2 2) % 2 ^ 32) r (d.eventBlock k c ts stamp b)

def eventBlocks : Nat → List Nat → List (List Nat)
  | 0, _ => []
  | n + 1, l => if l.length < 4 then [] else l.take 4 :: eventBlocks n (l.drop 4)

/-- A packet is accepted from the latched source. -/
def PktCh.accept (x : PktCh) (tick : Nat) : PktCh := { x with rxTick := tick, mediaOn := true }

/-- Steps 6 and 7 of R280 and the anchor of R285 and R286: an audio packet joins the jitter buffer. -/
def Dev.toBuffer (k : Clock) (d : Dev) (c stamp : Nat) (p : JbPkt) : Dev :=
  match d.pkt c with
  | none => d
  | some x =>
    let tick := stampTick stamp
    if x.acc.contains (p.seq, p.ts) then (d.setPkt c (some { x with dup := x.dup + 1 })).bump0 .medJbDupDrop
    else
      let x := { (x.withJitter tick p.ts) with received := x.received + 1, acc := (p.seq, p.ts) :: x.acc }
      match x.anchor with
      | none => d.setPkt c (some { (x.accept tick) with anchor := some ((tick : Int), p.ts), drops := 0, jb := x.jb ++ [p] })
      | some (a0, ts0) =>
        if x.reanchor then
          let d := d.setPkt c (some { (x.accept tick) with
            anchor := some ((tick : Int), p.ts), reanchor := false, drops := 0, jb := x.jb ++ [p] })
          (d.bump0 .medJbReanchor).pktEvt k c 0x0896 0 stamp (toBits 32 ((tick : Int) - a0))
        else
          let at_ := x.playAt a0 ts0 p.ts
          let drop := fun (x : PktCh) => { x with drops := (x.drops + 1) % 4, reanchor := decide (x.drops + 1 = 4) }
          if at_ < x.formed then
            (d.setPkt c (some (drop { x with late := x.late + 1, acc := x.acc.drop 1 }))).bump0 .medJbLateDrop
          else if (k.tick : Int) + x.set.jbMax + 8000 < at_ then
            (d.setPkt c (some (drop { x with early := x.early + 1, acc := x.acc.drop 1 }))).bump0 .medJbEarlyDrop
          else d.setPkt c (some { (x.accept tick) with drops := 0, jb := x.jb ++ [p] })

/-- A payload of telephone events (R280, R292). -/
def Dev.eventIn (k : Clock) (d : Dev) (c stamp seq ts : Nat) (pay : List Nat) : Dev :=
  match d.pkt c with
  | none => d
  | some x =>
    if x.acc.contains (seq, ts) then (d.setPkt c (some { x with dup := x.dup + 1 })).bump0 .medJbDupDrop
    else
      Dev.eventPacket k c stamp ts (eventBlocks pay.length pay)
        (d.setPkt c (some { (x.accept (stampTick stamp)) with received := x.received + 1, acc := (seq, ts) :: x.acc }))

/-- Whether an SSRC passes step 4 of R280, and what it latches: none, a first latch, a relatch (R281). -/
def PktCh.latch (x : PktCh) (ssrc tick : Nat) : Option (Option Nat) :=
  if x.set.rxSsrc != 0 then (if ssrc = x.set.rxSsrc then some none else none)
  else match x.ssrc with
    | none => some (some 0)
    | some s =>
      if s = ssrc then some none
      else if x.set.relatch != 0 && x.srcTick + x.set.relatch ≤ tick then some (some 1) else none

/-- An RTP packet, from step 2 of R280. -/
def Dev.rtpIn (k : Clock) (d : Dev) (c stamp : Nat) (bs : List Nat) (judged : Option Judged) : Dev :=
  match d.pkt c with
  | none => d
  | some x =>
    let b0 := bs.getD 0 0
    let cc := b0 % 16
    let ext := b0.testBit 4
    let head := 12 + 4 * cc
    let body := head + (if ext then 4 + 4 * beAt bs (head + 2) 2 else 0)
    let pad := if b0.testBit 5 then bs.getLastD 0 else 0
    let pt := bs.getD 1 0 % 128
    if b0 / 64 != 2 || bs.length < head || (ext && bs.length < head + 4) || bs.length < body + pad ||
        (b0.testBit 5 && pad == 0) then d.bump0 .medRtpBadHeader
    else
      let evt := x.set.evtPt != 0 && pt == x.set.evtPt
      if !(pt == x.set.rxPt || evt || (x.mode == 1 && pt == x.set.vbdPt)) then d.bump0 .medRtpPtDrop
      else
        let ssrc := beAt bs 8 4
        let tick := stampTick stamp
        match x.latch ssrc tick with
        | none => d.bump0 .medRtpSsrcDrop
        | some l =>
          let d := match l with
            | none => d.setPkt c (some ({ x with srcTick := tick }.countSrc ssrc (beAt bs 2 2)))
            | some how =>
              let a0 := x.anchor.elim (0 : Int) (·.1)
              let d := (d.setPkt c (some ({ x with ssrc := some ssrc, srcTick := tick, anchor := none, drops := 0, reanchor := false,
                                                   acc := [], transit := none, jitter := 0 }.countSrc ssrc (beAt bs 2 2)))).pktEvt k c 0x0890 how stamp ssrc
              if how = 1 then d.pktEvt k c 0x0896 2 stamp (toBits 32 ((tick : Int) - a0)) else d
          let pay := slice bs body (bs.length - body - pad)
          let ts := beAt bs 4 4
          if evt then
            if pay.isEmpty || pay.length % 4 != 0 then d.bump0 .medRtpBadPayload
            else d.eventIn k c stamp (beAt bs 2 2) ts pay
          else match judgePayload x pt pay.length judged with
            | none => d.bump0 .medRtpBadPayload
            | some j =>
              if j.ticks = 0 || 960 < j.ticks then d.bump0 .medRtpBadPayload
              else d.toBuffer k c stamp { ts := ts, seq := beAt bs 2 2, pt := pt, ticks := j.ticks, sid := j.sid, fec := j.fec }

/-- The next packet of a receive Hopper, for its channel (R278, R280). `judged` is the audio of a payload of a codec whose
payloads the tile examines, none where it is not valid; `udptl` says that a datagram is UDPTL (Table 11.5, cause 5). -/
def execRtpReceive (hop : Nat) (judged : Option Judged) (udptl : Bool) (s : State) : Out :=
  onDev (fun k d =>
    if !d.hopReady hop then d
    else match d.hopTake k hop with
      | (some (_, ws), d) =>
        let r := rxRecOf ws
        match d.pkt r.tag with
        | none => d.bump0 .medNoChannelDrop
        | some x =>
          if r.l4bad then d.bump0 .medUdpCsumDrop
          else if x.mode = 2 then
            if 1400 < r.bytes.length then d.bump0 .medRtpBadPayload else d.setPkt r.tag (some (x.accept (stampTick r.stamp)))
          else if udptl && x.mode = 1 then d.faxTone r.tag 5 (some r.stamp)
          else d.rtpIn k r.tag r.stamp r.bytes judged
      | (none, d) => d) s

/-! ### RTCP (R282, R283) -/

/-- The NTP time of a stamp (R282): seconds and fraction. -/
def ntpOf (utc : Int) (stamp : Nat) : Nat × Nat :=
  let ns := (stampTick stamp % 8000) * 125000 + stampSub stamp * 125000 / 3072
  (toBits 32 (((stampTick stamp / 8000 : Nat) : Int) - utc + 2208988800), ns * 2 ^ 32 / 1000000000)

/-- The middle 32 bits. -/
def ntpMid (p : Nat × Nat) : Nat := p.1 % 65536 * 65536 + p.2 / 65536

/-- A compound packet's parts: type, count and bytes; none where a length does not fit. -/
def rtcpParts : Nat → List Nat → Option (List (Nat × Nat × List Nat))
  | 0, l => if l.isEmpty then some [] else none
  | n + 1, l =>
    if l.isEmpty then some []
    else
      let len := 4 * (beAt l 2 2 + 1)
      if l.length < 4 || l.getD 0 0 / 64 != 2 || l.length < len then none
      else (rtcpParts n (l.drop len)).map (fun r => (l.getD 1 0, l.getD 0 0 % 32, l.take len) :: r)

/-- The blocks of an XR packet: type and bytes. -/
def xrBlocks : Nat → List Nat → List (Nat × List Nat)
  | 0, _ => []
  | n + 1, l =>
    if l.length < 4 then []
    else
      let len := 4 * (beAt l 2 2 + 1)
      (l.getD 0 0, l.take len) :: xrBlocks n (l.drop len)

/-- The round trip from a report block's LSR and DLSR at byte `i`, or 0 where it has none. -/
def roundTrip (now : Nat) (bs : List Nat) (i : Nat) : Nat :=
  let lsr := beAt bs i 4
  if lsr = 0 then 0 else (now + 2 ^ 33 - lsr - beAt bs (i + 4) 4) % 2 ^ 32

/-- The next packet of a receive Hopper, as a compound RTCP packet for its channel. -/
def execRtcpReceive (hop : Nat) (s : State) : Out :=
  onDev (fun k d =>
    if !d.hopReady hop then d
    else match d.hopTake k hop with
      | (some (_, ws), d) =>
        let r := rxRecOf ws
        let c := r.tag
        match d.pkt c with
        | none => d.bump0 .medNoChannelDrop
        | some x =>
          if r.l4bad then d.bump0 .medUdpCsumDrop
          else match rtcpParts r.bytes.length r.bytes with
          | some ((pt, rc, first) :: rest) =>
            if pt != 200 && pt != 201 then d.bump0 .medRtcpBadDrop
            else
              let now := ntpMid (ntpOf d.htb.utcOff r.stamp)
              let at_ := if pt = 200 then 28 else 8
              let xr := (rest.filter (fun p => p.1 == 207)).flatMap (fun p => xrBlocks p.2.2.length (p.2.2.drop 8))
              let rt := if rc = 0 then 0 else roundTrip now first (at_ + 16)
              let rt := if rt != 0 then rt
                else match xr.find? (fun b => b.1 == 5) with
                  | some b => roundTrip now b.2 8
                  | none => 0
              let lost := if rc = 0 then 0 else first.getD (at_ + 4) 0
              let x := { (x.accept (stampTick r.stamp)) with
                rtt := if rt = 0 then x.rtt else rt,
                sr := if pt = 200 then some (beAt first 4 4, beAt first 10 4, r.stamp) else x.sr,
                rrt := match rest.findSome? (fun p => if p.1 == 207 then (xrBlocks p.2.2.length (p.2.2.drop 8)).findSome? (fun b =>
                    if b.1 == 4 then some (beAt p.2.2 4 4, beAt b.2 6 4, r.stamp) else none) else none) with
                  | some t => some t
                  | none => x.rrt,
                voip := match xr.find? (fun b => b.1 == 7) with
                  | some b => b.2
                  | none => x.voip }
              let d := (d.setPkt c (some x)).pktEvt k c 0x0891 (if pt = 200 then 0 else 1) r.stamp (lost + (rt % 2 ^ 24) * 2 ^ 8)
              let bye := rest.any (fun p => p.1 == 203 && (List.range p.2.1).any (fun i => x.source == some (beAt p.2.2 (4 + 4 * i) 4)))
              if bye then
                (d.pktEvt k c 0x0892 0 r.stamp (x.source.getD 0)).modPkt c (fun y => { y with ssrc := none })
              else d
          | _ => d.bump0 .medRtcpBadDrop
      | (none, d) => d) s

/-- Silence of MEDIA_TIMEOUT ticks (R283). -/
def execMediaTimeout (c : Nat) (s : State) : Out :=
  onDev (fun k d =>
    match d.pkt c with
    | some x =>
      if x.mediaOn && x.set.mediaTo != 0 && decide (x.rxTick + x.set.mediaTo ≤ k.tick) then
        (d.setPkt c (some { x with mediaOn := false })).pktEvt k c 0x0894 0 (clockStamp k) (k.tick - x.rxTick)
      else d
    | none => d) s

/-- The SDES packet with the CNAME. -/
def sdesBytes (ssrc : Nat) (cname : List Nat) : List Nat :=
  let item := [1, cname.length] ++ cname
  let padded := item ++ List.replicate (4 - item.length % 4) 0
  [0x81, 202] ++ bytesBE 2 (1 + padded.length / 4) ++ bytesBE 4 ssrc ++ padded

/-- A time between two stamps in units of 1/65,536 s. -/
def sinceStamp (now at_ : Nat) : Nat :=
  ((stampTick now * 3072 + stampSub now) - (stampTick at_ * 3072 + stampSub at_)) * 65536 / 24576000

/-- The middle NTP word of what `src` last sent, and the time since it came: of LSR and DLSR, and of LRR and DLRR. -/
def echoBytes (src now : Nat) (e : Option (Nat × Nat × Nat)) : List Nat :=
  match e with
  | some (o, mid, at_) => if o = src then bytesBE 4 mid ++ bytesBE 4 (sinceStamp now at_ % 2 ^ 32) else bytesBE 8 0
  | none => bytesBE 8 0

/-- The fraction lost since the report before, in 1/256. -/
def PktCh.fraction (x : PktCh) : Nat :=
  let e := x.expected - x.expPrior
  let l := e - ((x.srcN : Int) - x.recPrior)
  if e ≤ 0 || l ≤ 0 then 0 else min 255 (l * 256 / e).toNat

/-- The report block of source `src` (RFC 3550). -/
def PktCh.block (x : PktCh) (src stamp : Nat) : List Nat :=
  bytesBE 4 src ++ [x.fraction] ++ bytesBE 3 (toBits 24 (max (-8388608) (min 8388607 (x.expected - x.srcN)))) ++
    bytesBE 4 (toBits 32 x.seqHi) ++ bytesBE 4 (x.jitter / 16 % 2 ^ 32) ++ echoBytes src stamp x.sr

/-- The XR packet of blocks 4, 5 and 7 (R282). The metrics of block 7 are the tile's. -/
def PktCh.xrPacket (x : PktCh) (utc : Int) (stamp : Nat) (voip : List Nat) : List Nat :=
  let ntp := ntpOf utc stamp
  let src := x.source.getD 0
  let blocks := [4, 0, 0, 2] ++ bytesBE 4 ntp.1 ++ bytesBE 4 ntp.2 ++ [5, 0, 0, 3] ++ bytesBE 4 src ++ echoBytes src stamp x.rrt ++
    [7, 0, 0, 8] ++ bytesBE 4 src ++ voip
  [0x80, 207] ++ bytesBE 2 (1 + blocks.length / 4) ++ bytesBE 4 x.txSsrc ++ blocks

/-- The compound report (R282) without its XR packet: SR or RR with the report block of the latched source, then SDES. -/
def PktCh.report (x : PktCh) (utc : Int) (stamp : Nat) : List Nat :=
  let ntp := ntpOf utc stamp
  let b := stampTick stamp / x.set.frame * x.set.frame
  let rts := (x.ts + x.units (stampTick stamp + x.set.frame - b)) % 2 ^ 32
  let rb := match x.source with
    | some src => x.block src stamp
    | none => []
  let n := rb.length / 24
  let head := if x.sent0 || x.sent1 then
      [0x80 + n, 200] ++ bytesBE 2 (6 + 6 * n) ++ bytesBE 4 x.txSsrc ++ bytesBE 4 ntp.1 ++ bytesBE 4 ntp.2 ++ bytesBE 4 rts ++
        bytesBE 4 (x.sentN % 2 ^ 32) ++ bytesBE 4 (x.sentB % 2 ^ 32)
    else [0x80 + n, 201] ++ bytesBE 2 (1 + 6 * n) ++ bytesBE 4 x.txSsrc
  head ++ rb ++ sdesBytes x.txSsrc x.set.cname

/-- What the channel has reported is the base of its next report's fraction. -/
def PktCh.reported (x : PktCh) : PktCh :=
  if x.source.isSome then { x with expPrior := x.expected, recPrior := x.srcN } else x

/-- A report, in the window of the channel's first frame boundary at or after its tick. -/
def execRtcpReport (c : Nat) (voip : List Nat) (s : State) : Out :=
  onDev (fun k d =>
    match d.pkt c with
    | some x => match x.rtcpAt with
      | some t =>
        let b := k.tick / x.set.frame * x.set.frame
        if t ≤ b && b < t + x.set.frame && k.tick < b + x.set.frame / 4 then
          let d := d.sendTo k x.set.thread x.set.dest x.set.txKey true
            (x.report d.htb.utcOff (clockStamp k) ++ (if x.set.xr then x.xrPacket d.htb.utcOff (clockStamp k) voip else []))
          let r := d.drawRtcp x.set.rtcp k.tick
          r.2.setPkt c (some { x.reported with rtcpAt := r.1, sent1 := x.sent0, sent0 := false })
        else d
      | none => d
    | none => d) s

/-! ### Frames -/

/-- The 12 bytes of the RTP header (R279). -/
def rtpHead (m : Bool) (pt seq ts ssrc : Nat) : List Nat :=
  [0x80, b2n m * 128 + pt % 128] ++ bytesBE 2 (seq % 65536) ++ bytesBE 4 (ts % 2 ^ 32) ++ bytesBE 4 ssrc

/-- One packet is sent with the next sequence number. -/
def Dev.sendRtp (k : Clock) (d : Dev) (c : Nat) (m : Bool) (pt ts : Nat) (payload : List Nat) : Dev :=
  match d.pkt c with
  | none => d
  | some x =>
    let d := d.sendTo k x.set.thread x.set.dest x.set.txKey false (rtpHead m pt x.seq ts x.txSsrc ++ payload)
    d.setPkt c (some { x with seq := (x.seq + 1) % 65536, sentLast := true, sent0 := true, sentN := x.sentN + 1,
                              sentB := x.sentB + payload.length })

/-- An event with the frame of boundary `b` as its first where it has none yet. -/
def EvtOut.begun (o : EvtOut) (x : PktCh) (b : Nat) : EvtOut :=
  if o.start.isSome then o else { o with start := some (b - x.set.frame), ts := x.ts }

/-- Timestamp units of an event's present segment up to boundary `b`. -/
def EvtOut.units (o : EvtOut) (x : PktCh) (b : Nat) : Nat :=
  let n := b - o.start.getD b
  x.units (o.total.elim n (min n)) - o.base

/-- The frame of boundary `b` of an event being sent (R291): the payload of its packet, and the event behind it, none with its third
end packet. A segment of 65,535 units is complete before the next begins. -/
def EvtOut.frame (o : EvtOut) (x : PktCh) (b : Nat) : List Nat × Option EvtOut :=
  let u := o.units x b
  let pay := fun (e : Bool) (n : Nat) => [o.ev, b2n e * 128 + o.vol] ++ bytesBE 2 n
  if 65535 < u then
    (pay false 65535, some { o with ts := (o.ts + 65535) % 2 ^ 32, base := o.base + 65535, first := false })
  else if o.total.any (fun t => decide (o.start.getD b + t ≤ b)) then
    let left := o.ends.getD 3
    (pay true u, if left ≤ 1 then none else some { o with ends := some (left - 1), first := false })
  else (pay false u, some { o with first := false })

/-- A frame of an event being sent: one packet; the next event follows an event that is over. -/
def Dev.sendEvent (k : Clock) (d : Dev) (c b : Nat) (o : EvtOut) : Dev :=
  match d.pkt c with
  | none => d
  | some x =>
    let o := o.begun x b
    let r := o.frame x b
    (d.sendRtp k c o.first x.set.evtPt o.ts r.1).modPkt c (fun x =>
      match r.2 with
      | some o => { x with evtOut := some o }
      | none => { x with evtOut := x.evtWait.head?, evtWait := x.evtWait.drop 1 })

/-! ### UDPTL (R294) -/

/-- A length and the bytes of an IFP packet. -/
def ifpField (p : List Nat) : List Nat :=
  (if p.length < 128 then [p.length] else [128 + p.length / 256, p.length % 256]) ++ p

/-- As many secondary packets, newest first, as fit in `room` bytes. -/
def ifpFit : Nat → List (List Nat) → List (List Nat)
  | _, [] => []
  | room, p :: r => if (ifpField p).length ≤ room then p :: ifpFit (room - (ifpField p).length) r else []

/-- A datagram of up to 400 bytes: sequence number, primary packet, and the secondary packets. -/
def udptlBytes (seq : Nat) (p : List Nat) (before : List (List Nat)) : List Nat :=
  let head := bytesBE 2 seq ++ ifpField p
  let sec := ifpFit (398 - head.length) before
  head ++ [0, sec.length] ++ sec.flatMap ifpField

/-- An IFP packet is sent with the T38_REDUNDANCY packets before it. -/
def Dev.sendIfp (k : Clock) (d : Dev) (c : Nat) (p : List Nat) : Dev :=
  match d.pkt c with
  | none => d
  | some x =>
    let p := p.take 394
    (d.sendTo k x.set.thread x.set.dest x.set.txKey false (udptlBytes x.udptl p (x.ifps.take x.set.t38Red))).setPkt c
      (some { x with udptl := (x.udptl + 1) % 65536, ifps := (p :: x.ifps).take 4, sentLast := true })

/-! ### Playout (R285 to R289, R292) -/

/-- What a tick of the playout frame holds. -/
inductive Sound where
  | silence | audio | tone (ev vol n : Nat) | noise | concealed
deriving DecidableEq, Repr

/-- The frequencies of an event of DTMF, each at −`vol` dBFS. -/
def dtmfTones (ev vol : Nat) : List (Nat × Int) :=
  match (List.range 16).find? (fun i => dtmfDigit (i / 4) (i % 4) == ev) with
  | some i => [((dtmfLow.getD (i / 4) 0 + 5) / 10, -(vol : Int)), ((dtmfHigh.getD (i % 4) 0 + 5) / 10, -(vol : Int))]
  | none => []

/-- The event that plays in a tick, with the ticks since its first (R292). -/
def PktCh.eventAt (x : PktCh) (a0 : Int) (ts0 : Nat) (t : Int) : Option (Nat × Nat × Nat) :=
  if x.set.evtPlay && x.mode == 0 then
    x.evtIn.findSome? (fun e =>
      let p := x.playAt a0 ts0 e.ts
      if e.ev < 16 && p ≤ t && t < p + e.ticks then some (e.ev, e.vol, (t - p).toNat) else none)
  else none

/-- A DTX gap goes on at a tick: it follows the last packet that ends by then. -/
def PktCh.inGap (x : PktCh) (a0 : Int) (ts0 : Nat) (t : Int) : Bool :=
  let ends := (x.lastEnd.toList ++ x.jb.map (fun p => (x.playAt a0 ts0 p.ts + p.ticks, p.sid))).filter (fun e => decide (e.1 ≤ t))
  (ends.foldl (fun (m : Option (Int × Bool)) e => if m.any (fun y => decide (e.1 < y.1)) then m else some e) none).any (·.2)

/-- What tick `t` holds: silence before the anchored packet, an event, audio, the comfort noise of a DTX gap, or nothing, which is
concealed. In T.38 the relay makes the audio. -/
def PktCh.soundAt (x : PktCh) (t : Int) : Sound :=
  if x.mode = 2 then .audio
  else match x.anchor with
    | none => .silence
    | some (a0, ts0) =>
      match x.eventAt a0 ts0 t with
      | some (ev, vol, n) => .tone ev vol n
      | none =>
        if t < a0 + x.dly then .silence
        else if x.jb.any (fun p => let b := x.playAt a0 ts0 p.ts; decide (b ≤ t) && decide (t < b + p.ticks)) then .audio
        else if x.inGap a0 ts0 t then .noise else .concealed

/-- The next packet is buffered, and its in-band FEC covers the tick. -/
def PktCh.fecAt (x : PktCh) (t : Int) : Bool :=
  match x.anchor with
  | none => false
  | some (a0, ts0) =>
    x.jb.any (fun p => let b := x.playAt a0 ts0 p.ts; p.fec && decide (t < b) && decide (b ≤ t + p.ticks) &&
      !x.jb.any (fun q => let e := x.playAt a0 ts0 q.ts; decide (t < e) && decide (e < b)))

/-- The samples of the playout frame, tick by tick, and the run of concealed ticks behind it. `noise` is comfort noise at the
background level, to which 640 ticks of concealment have faded; the fade before it is the tile's. -/
def PktCh.sounds (x : PktCh) (rate : Nat) (w : PktWork) (noise : List Int) : List (Int × Nat) → Nat → List Int × Nat
  | [], run => ([], run)
  | (t, i) :: r, run =>
    let n := rate / 8000
    let cut := fun (l : List Int) => (List.range n).map (fun q => l.getD (n * i + q) 0)
    let here := match x.soundAt t with
      | .silence => (List.replicate n 0, 0)
      | .audio => (cut w.play, 0)
      | .noise => (cut w.play, 0)
      | .tone ev vol m => ((List.range n).map (fun q => Config.tone rate (dtmfTones ev vol) (n * m + q)), 0)
      | .concealed =>
        if x.mode = 1 then (List.replicate n 0, 0)
        else if 640 ≤ run then (cut noise, run + 1)
        else if x.fecAt t then (cut w.fec, run + 1) else (cut w.play, run + 1)
    let q := PktCh.sounds x rate w noise r here.2
    (here.1 ++ q.1, q.2)

/-- The ticks of the frame of boundary `b`, with their places. -/
def frameSpan (b frame : Nat) : List (Int × Nat) := (List.range frame).map (fun (i : Nat) => ((b : Int) - frame + i, i))

/-- The playout frame of boundary `b` has been formed (R285 to R289): concealed ticks are counted in voice, packets wholly played
leave the buffer, and D may move. -/
def PktCh.playout (x : PktCh) (b run : Nat) (w : PktWork) : PktCh :=
  let hidden := ((frameSpan b x.set.frame).filter (fun t => x.soundAt t.1 == .concealed)).length
  let last := fun (p : JbPkt) => x.anchor.elim (0 : Int) (fun a => x.playAt a.1 a.2 p.ts + p.ticks)
  let gone := x.jb.filter (fun p => decide (last p ≤ b))
  let free := x.set.jbMode = 1 && x.mode = 0
  let want := max x.set.jbMin (min x.set.jbMax w.dly)
  let dly := if !free || want = x.dly then x.dly
    else if w.quiet then want
    else if 8 ≤ x.dlyN then (if x.dly < want then x.dly + 1 else x.dly - 1) else x.dly
  { x with formed := b, jb := x.jb.filter (fun p => !gone.contains p), run := run,
           lastEnd := gone.foldl (fun m p => if m.any (fun y => decide (last p < y.1)) then m else some (last p, p.sid)) x.lastEnd,
           concealed := x.concealed + (if x.mode = 0 then hidden else 0), dly := dly,
           dlyN := if dly = x.dly || w.quiet then x.dlyN + 1 else 1 }

/-! ### Frames -/

/-- The near-end frame of boundary `b` is the peer's and goes to the bridges. -/
def Dev.pktNear (k : Clock) (d : Dev) (c b : Nat) (late : Bool) (near : List Int) : Dev :=
  match d.pkt c with
  | none => d
  | some x =>
    (d.setPkt c (some { x with frameAt := none, near := some (b, late, near) })).toBridges k x.set.thread true c b x.rate x.set.frame near

/-- The playout frame of boundary `b`. -/
def Dev.pktPlay (k : Clock) (d : Dev) (c b : Nat) (w : PktWork) : Dev :=
  match d.pkt c with
  | none => d
  | some x =>
    let n := frameSamples x.rate x.set.frame
    let f := d.draw n
    let r := x.sounds x.rate w (noiseFrame f.1 n) (frameSpan b x.set.frame) x.run
    (f.2.setPkt c (some (x.playout b r.2 w))).pktNear k c b false r.1

/-- The encoder is muted: from a digit's start report until its end (R291). -/
def PktCh.muted (x : PktCh) : Bool := (x.evtOut.toList ++ x.evtWait).any (fun o => o.total.isNone)

/-- The encoder is given the far-end frame of boundary `b`, or silence. -/
def Dev.pktFarEnd (k : Clock) (d : Dev) (c b : Nat) : Dev :=
  match d.pkt c with
  | none => d
  | some x =>
    let r := d.farEnd k true c b x.rate x.set.frame x.set.peer
    r.2.modPkt c (fun y => { y with encIn := if x.muted then r.1.map (fun _ => 0) else r.1 })

/-- What is sent for the frame of boundary `b` (R279, R291, R293, R294). -/
def Dev.pktSend (k : Clock) (d : Dev) (c b : Nat) (payload : Option (List Nat)) : Dev :=
  match d.pkt c with
  | none => d
  | some x =>
    let d := d.setPkt c (some { x with sentLast := false })
    match x.mode, x.evtOut, payload with
    | 0, some o, _ => d.sendEvent k c b o
    | 2, _, some p => d.sendIfp k c p
    | 0, none, some p => d.sendRtp k c (!x.sentLast) x.set.txPt x.ts p
    | 1, _, some p => d.sendRtp k c (!x.sentLast) x.set.vbdPt x.ts p
    | _, _, _ => d

/-- The frame of the open window, once every packet committed to RX_HOP has been taken (R285): the playout, and what is sent for the
frame. -/
def execPktFrameProcess (c : Nat) (w : PktWork) (s : State) : Out :=
  onDev (fun k d =>
    match d.pkt c with
    | none => d
    | some x => match x.frameAt with
      | none => d
      | some b =>
        if d.hopReady x.set.rxHop then d
        else ((d.pktPlay k c b w).pktFarEnd k c b).pktSend k c b w.payload) s

/-- Settings of PKT_CHANNEL_MODIFY take effect (R284, R287): packets of the old payload type are dropped. -/
def Dev.pktModify (k : Clock) (d : Dev) (c : Nat) : Dev :=
  match d.pkt c with
  | none => d
  | some x => match x.next with
    | none => d
    | some n =>
      let d := d.pair (.pkt c) n.peer
      let gone := if n.rxPt = x.set.rxPt then [] else x.jb.filter (fun (p : JbPkt) => p.pt == x.set.rxPt)
      let d := d.bumpN ⟨.medRtpPtDrop, 0, 0⟩ gone.length
      let y := { x with next := none, set := n, jb := x.jb.filter (fun p => !gone.contains p),
                        txSsrc := if n.txSsrc = 0 then x.txSsrc else n.txSsrc }
      let d := d.setPkt c (some { y with dly := y.keepDly })
      if n.rtcp = x.set.rtcp then d
      else
        let r := d.drawRtcp n.rtcp k.tick
        r.2.modPkt c (fun y => { y with rtcpAt := r.1 })

/-- The channel enters a mode (R293, R294, R299): events being sent end outside voice, and UDPTL begins anew. -/
def Dev.pktEnter (k : Clock) (d : Dev) (c : Nat) : Dev :=
  match d.pkt c with
  | none => d
  | some x => match x.nextMode with
    | none => d
    | some (m, cause, stamp) =>
      let y := { x with mode := m, nextMode := none, udptl := if m = 2 then 0 else x.udptl, ifps := if m = 2 then [] else x.ifps,
                        ansam := x.ansam && m != 0, evtOut := if m = 0 then x.evtOut else none,
                        evtWait := if m = 0 then x.evtWait else [], run := 0 }
      (d.setPkt c (some { y with dly := y.startDly })).pktEvt k c 0x0895 m (stamp.getD (clockStamp k)) cause

/-- A frame boundary of the channel's length: settings, mode (R284, R293, R294), the timestamp's advance (R279), and the
window of the frame. -/
def Dev.pktBoundary (k : Clock) (d : Dev) (c : Nat) : Dev :=
  ((d.pktModify k c).pktEnter k c).modPkt c (fun y =>
    { y with frameAt := some k.tick, ts := (y.ts + y.units y.set.frame) % 2 ^ 32 })

/-- The window closes with the channel's frame unfinished (R290). -/
def Dev.pktLate (k : Clock) (d : Dev) (c : Nat) : Dev :=
  match d.pkt c with
  | none => d
  | some x => match x.frameAt with
    | none => d
    | some b =>
      let n := frameSamples x.rate x.set.frame
      let f := d.draw n
      ((f.2.setPkt c (some { x with formed := b, sentLast := false })).pktNear k c b true (noiseFrame f.1 n)).bump0 .medPktLateFrame

/-- A report that its window has missed is abandoned with it, and the next is drawn (log entry 57). -/
def Dev.rtcpLate (k : Clock) (d : Dev) (c : Nat) : Dev :=
  match d.pkt c with
  | none => d
  | some x =>
    if x.rtcpAt.any (fun t => decide (t ≤ k.tick / x.set.frame * x.set.frame)) then
      let r := d.drawRtcp x.set.rtcp k.tick
      r.2.setPkt c (some { x with rtcpAt := r.1 })
    else d

def Dev.pktClose (k : Clock) (d : Dev) (c : Nat) : Dev := (d.pktLate k c).rtcpLate k c

/-- A time step of `step` ticks (R288). -/
def Dev.pktStep (k : Clock) (d : Dev) (c : Nat) (step : Int) : Dev :=
  match d.pkt c with
  | none => d
  | some x =>
    let mv := fun (n : Nat) => ((n : Int) + step).toNat
    let d := d.setPkt c (some { x with
      anchor := x.anchor.map (fun a => (a.1 + step, a.2)), srcTick := mv x.srcTick, rxTick := mv x.rxTick, formed := mv x.formed,
      rtcpAt := x.rtcpAt.map mv, destroying := x.destroying.map mv, lastEnd := x.lastEnd.map (fun e => (e.1 + step, e.2)),
      evtOut := x.evtOut.map (fun o => { o with start := o.start.map mv }),
      evtWait := x.evtWait.map (fun o => { o with start := o.start.map mv }),
      mixIn := x.mixIn.map (fun m => (m.1, mv m.2.1, m.2.2)), near := x.near.map (fun n => (mv n.1, n.2)) })
    d.pktEvt k c 0x0896 1 (clockStamp k) (toBits 32 step)

/-! ### Commands (Table 11.7) -/

/-- Room for one more jitter buffer of 32 KiB in the tile DRAM window (R276). -/
def Dev.jbRoom (d : Dev) : Bool := decide ((d.pktChs.length + 1) * 32768 ≤ d.til.winHi - d.til.winLo)

/-- RX_HOP does not name the channel's thread as its consumer. -/
def Dev.rxHopBad (d : Dev) (hop th : Nat) : Bool := !d.hopUp hop || (d.hopper hop).thread != th

def execPktChannelCreate (o : Origin) (chan : Nat) (set : PktSet) (s : State) : Out :=
  hostCmd o 0x0820 (fun k d =>
    let th := set.thread
    let bad := set.bad || (d.chanFrame th).any (fun f => f != set.frame) || (d.bridgeFrame th).isSome || d.rxHopBad set.rxHop th ||
      d.peerBad th (.pkt chan) set.peer
    let st := firstStatus .ok [(bad, .badArg), (decide (4095 < chan) || d.peerGone set.peer, .unknownObject),
      (!d.jbRoom, .noResource), ((d.pkt chan).isSome || d.peerEnds set.peer, .refusedBusy),
      ((d.chanFrame th).isNone && !(d.thr th).off, .refusedBusy)]
    if st == .ok then
      let d := d.takeThread k th set.group set.level
      let f := d.draw 3
      let r := f.2.drawRtcp set.rtcp k.tick
      let x : PktCh := { set := set, dly := set.jbInit, rxTick := k.tick, mediaOn := true, formed := k.tick / set.frame * set.frame,
                         seq := Config.free f.1 % 65536, ts := Config.free (f.1 + 1) % 2 ^ 32,
                         txSsrc := if set.txSsrc = 0 then Config.free (f.1 + 2) % 2 ^ 32 else set.txSsrc, rtcpAt := r.1 }
      (.now .ok [], (r.2.setPkt chan (some x)).pair (.pkt chan) set.peer)
    else (.now st [], d)) s

/-- A command of a packet channel, judged by R28: its arguments, the channel there is, a destroy in progress (R302), and
`checks`. -/
def pktCmd (o : Origin) (opc chan : Nat) (bad : Bool) (checks : Dev → PktCh → List (Bool × Status))
    (f : Clock → Dev → PktCh → Reply × Dev) (s : State) : Out :=
  hostCmd o opc (fun k d =>
    match d.pkt chan with
    | none => (.now (if bad then .badArg else .unknownObject) [], d)
    | some x =>
      let st := firstStatus .ok ((bad, .badArg) :: (x.destroying.isSome, .refusedBusy) :: checks d x)
      if st == .ok then f k d x else (.now st [], d)) s

def execPktChannelDestroy (o : Origin) (chan : Nat) (s : State) : Out :=
  pktCmd o 0x0821 chan false (fun _ _ => []) (fun k d x =>
    (.later .pktDestroy chan, d.setPkt chan (some { x with destroying := some (k.tick + x.set.frame) }))) s

/-- RTCP BYE with the empty report before it. -/
def byeBytes (x : PktCh) (utc : Int) (stamp : Nat) : List Nat :=
  x.report utc stamp ++ [0x81, 203] ++ bytesBE 2 1 ++ bytesBE 4 x.txSsrc

/-- The first frame boundary at least one frame after a destroy was accepted (R302). -/
def execPktChannelDestroyEnd (c : Nat) (s : State) : Out :=
  onDev (fun k d =>
    match d.pkt c with
    | some x => match x.destroying with
      | some t =>
        if t ≤ k.tick && k.tick % x.set.frame = 0 then
          let d := if x.set.rtcp = 0 then d
            else d.sendTo k x.set.thread x.set.dest x.set.txKey true (byeBytes x d.htb.utcOff (clockStamp k))
          let d := d.bumpN ⟨.medDestroyDiscard, 0, 0⟩ x.jb.length
          let d := ((d.leaveBridges k true c).pair (.pkt c) .none).setPkt c none
          (if d.idleThread x.set.thread then d.wakeThread k x.set.thread else d).finish k .pktDestroy c .ok
        else d
      | none => d
    | none => d) s

/-- Settings that MODIFY gives channel `x`: all but THREAD, GROUP, LEVEL and FRAME. -/
def PktSet.given (s : PktSet) (x : PktCh) : PktSet :=
  { s with thread := x.set.thread, group := x.set.group, level := x.set.level, frame := x.set.frame }

/-- Any setting but THREAD, GROUP, LEVEL and FRAME, from the next frame boundary. -/
def execPktChannelModify (o : Origin) (chan : Nat) (set : PktSet) (s : State) : Out :=
  pktCmd o 0x0822 chan ({ set with thread := 0, group := 0, level := 0, frame := 160 } : PktSet).bad
    (fun d x => [((set.given x).bad || d.rxHopBad set.rxHop x.set.thread || d.peerBad x.set.thread (.pkt chan) set.peer, .badArg),
      (d.peerGone set.peer, .unknownObject), (d.peerEnds set.peer, .refusedBusy)])
    (fun _ d x => (.now .ok [], d.setPkt chan (some { x with next := some (set.given x) }))) s

def PktSet.fields (s : PktSet) : List RField :=
  [⟨2, s.thread⟩, ⟨1, s.group⟩, ⟨1, s.level⟩, ⟨1, s.frame⟩, ⟨4, match s.peer with
      | .none => 0
      | .line n => 2 ^ 30 + n
      | .pkt c => 2 ^ 31 + c⟩, ⟨2, s.rxHop⟩, ⟨2, s.dest⟩, ⟨4, s.txKey⟩, ⟨4, s.rxKey⟩, ⟨1, s.codec⟩] ++
  (List.range 5).map (fun i => ⟨4, s.opts.getD i 0⟩) ++
  [⟨1, s.txPt⟩, ⟨1, s.rxPt⟩, ⟨1, s.evtPt⟩, ⟨4, s.txSsrc⟩, ⟨4, s.rxSsrc⟩, ⟨2, s.relatch⟩, ⟨1, s.rtcp⟩, ⟨1, b2n s.xr⟩, ⟨1, s.jbMode⟩,
   ⟨2, s.jbMin⟩, ⟨2, s.jbInit⟩, ⟨2, s.jbMax⟩, ⟨1, b2n s.dtmf⟩, ⟨1, b2n s.flash⟩, ⟨1, b2n s.evtPlay⟩, ⟨1, s.vbdMode⟩, ⟨1, s.vbdLaw⟩,
   ⟨1, s.vbdPt⟩, ⟨2, s.vbdDelay⟩, ⟨1, s.t38Red⟩, ⟨4, s.mediaTo⟩, ⟨1, s.evtRing⟩, ⟨1, s.cname.length⟩] ++
  s.cname.map (fun b => ⟨1, b⟩)

def execPktChannelStatus (o : Origin) (chan : Nat) (s : State) : Out :=
  pktCmd o 0x0823 chan false (fun _ _ => []) (fun _ d x =>
    (.now .ok (x.set.fields ++ [⟨1, x.mode⟩, ⟨1, b2n x.source.isSome⟩, ⟨4, x.source.getD 0⟩, ⟨4, x.received⟩,
      ⟨4, x.lost + (x.expected - x.srcN).toNat⟩,
      ⟨4, x.late⟩, ⟨4, x.early⟩, ⟨4, x.dup⟩, ⟨4, x.concealed⟩, ⟨2, x.dly⟩, ⟨4, x.jitter / 16⟩, ⟨4, x.rtt⟩] ++
      x.voip.map (fun b => ⟨1, b⟩)), d)) s

def execPktModeSet (o : Origin) (chan mode : Nat) (s : State) : Out :=
  hostCmd o 0x0824 (fun _ d =>
    match d.pkt chan with
    | none => (.now (if 2 < mode then .badArg else .unknownObject) [], d)
    | some x =>
      let full := mode = 2 && 64 ≤ d.t38Count chan
      let st := firstStatus .ok [(decide (2 < mode), .badArg), (full, .noResource), (x.destroying.isSome, .refusedBusy)]
      if st == .ok then (.now .ok [], d.setPkt chan (some { x with nextMode := some (mode, 0, none) }))
      else (.now st [], if st == .noResource then d.bump0 .medT38NoResource else d)) s

/-- A host's event is sent from the next frame on; outside voice none is sent (R291, R293, log entry 57). -/
def execPktEventSend (o : Origin) (chan ev vol ticks : Nat) (s : State) : Out :=
  pktCmd o 0x0825 chan (decide (16 < ev) || decide (63 < vol) || decide (ticks < 8) || decide (65535 < ticks))
    (fun _ x => [(x.set.evtPt == 0, .badArg), (x.evtOut.isSome, .refusedBusy)])
    (fun _ d x => (.now .ok [], if x.mode = 0 then
        d.setPkt chan (some (x.addEvt { ev := ev, vol := vol, ts := x.ts, start := none, total := some ticks }))
      else d)) s

end Sys2Proof.Machine
end

