-- ==== Sys2Proof/Machine/Bridge.lean ====
section
/-! DEFINITION. Conference bridges and paging (R295 to R298, R303), and what the boundaries, closes and time steps do to
channels and bridges. -/
namespace Sys2Proof.Machine
open Sys2Proof

/-! ### Paging (R298) -/

/-- A line hears a paging bridge no more: its ramp back, and its own feed. -/
def Dev.endPaging (k : Clock) (d : Dev) (b n : Nat) : Dev :=
  match d.lineCh n, d.bridge b with
  | some c, some x =>
    if c.paging == some b then
      let d := (d.setLineCh n (some { c with paging := none })).rampTx n 32768 (c.gaRest k.tick) x.set.pageRamp
      if c.offHook then d else d.putFeed n c.feed
    else d
  | _, _ => d

/-- A line is left out of a page (R298). -/
def Dev.pageSkips (k : Clock) (d : Dev) (n : Nat) (c : LineCh) : Bool :=
  (!c.offHook && !d.feature n 1) || c.ring.isSome || c.cidOn k.tick || c.tone.isSome

/-- A listening line of a paging bridge that plays: OHT while on hook, or its skip, which ends what it heard of the page. -/
def Dev.pageLine (k : Clock) (d : Dev) (b n : Nat) : Dev :=
  match d.lineCh n with
  | none => d
  | some c =>
    if c.destroying.isSome then d
    else if d.pageSkips k n c then (d.endPaging k b n).bump0 .medPageSkip
    else if c.paging.isSome then d
    else
      let d := d.setLineCh n (some { c with paging := some b })
      if c.offHook then d else d.putFeed n 4

/-! ### The mix (R296, R297) -/

/-- A frame that a talking leg has committed: the leg, its boundary, its samples. -/
abbrev TalkFrame := Bool × Nat × Nat × List Int

/-- IN_HOP is read to its end. -/
def Dev.drainIn (k : Clock) (h : Nat) : Nat → Dev → List TalkFrame → List TalkFrame × Dev
  | 0, d, acc => (acc, d)
  | n + 1, d, acc =>
    if d.hopReady h then
      match d.hopTake k h with
      | (some (_, ws), d) =>
        let w := (ws.getD 0 0).toNat
        Dev.drainIn k h n d (acc ++ [(w.testBit 15, w % 32768, (ws.getD 1 0).toNat,
          wordSamples (bitsOf (ws.getD 2 0).toNat 0 16) (ws.drop 3))])
      | (none, d) => (acc, d)
    else (acc, d)

/-- The energy of a frame: the sum of the squares of its samples. -/
def frameEnergy (l : List Int) : Nat := l.foldl (fun a x => a + x.natAbs ^ 2) 0

/-- Talkers by energy, the lower leg first where energies are equal. -/
def insertTalker (a : (Bool × Nat) × Nat) : List ((Bool × Nat) × Nat) → List ((Bool × Nat) × Nat)
  | [] => [a]
  | b :: r => if a.2 ≤ b.2 then b :: insertTalker a r else a :: b :: r
def rankTalkers (l : List ((Bool × Nat) × Nat)) : List (Bool × Nat) :=
  (l.foldl (fun acc a => insertTalker a acc) []).map (·.1)

/-- The mix alarm of the bridge's thread has come, or every talking leg's frame is present. -/
def Bridge.mixDue (x : Bridge) (b tick : Nat) : Bool :=
  decide (b + x.set.frame / 8 ≤ tick) || (x.legs.filter (·.talks)).all (fun l => x.present.contains (l.pkt, l.chan))

/-- The talking legs with a frame of boundary `b`, in leg order, and the frame under the leg's GAIN. -/
def Bridge.voices (x : Bridge) (b : Nat) (frames : List TalkFrame) : List ((Bool × Nat) × List Int) :=
  (x.legs.filter (·.talks)).filterMap (fun l =>
    (frames.find? (fun f => f.1 == l.pkt && f.2.1 == l.chan && f.2.2.1 == b % 2 ^ 32)).map (fun f =>
      ((l.pkt, l.chan), f.2.2.2.map (gainDb l.gain))))

/-- The talkers chosen for a frame (R297). -/
def Bridge.chosen (x : Bridge) (voices : List ((Bool × Nat) × List Int)) : List (Bool × Nat) :=
  (rankTalkers (voices.map (fun v => (v.1, frameEnergy v.2)))).take x.set.mixMax

/-- What a frame mixes: the chosen talkers, and those that have left the set; one that enters or leaves as its fade makes it, the
fades being given in leg order. -/
def fadedVoices (old new : List (Bool × Nat)) : List ((Bool × Nat) × List Int) → List (List Int) → List ((Bool × Nat) × List Int)
  | [], _ => []
  | v :: r, fades =>
    if new.contains v.1 && old.contains v.1 then v :: fadedVoices old new r fades
    else if new.contains v.1 || old.contains v.1 then
      (v.1, (List.range v.2.length).map (fun i => (fades.headD []).getD i 0)) :: fadedVoices old new r fades.tail
    else fadedVoices old new r fades

/-- The mix of a listening leg: the sum of the others, saturated. -/
def mixFor (self : Bool × Nat) (n : Nat) (voices : List ((Bool × Nat) × List Int)) : List Int :=
  let l := (voices.filter (fun v => v.1 != self)).map (·.2)
  (List.range n).map (fun i => sat16 ((l.map (fun v => v.getD i 0)).sum))

/-- A mix is committed to a leg's LEG_HOP, tagged with the leg, the bridge and the boundary. -/
def Dev.putMix (k : Clock) (d : Dev) (n b : Nat) (x : Bridge) (l : Leg) (mix : List Int) : Dev :=
  (d.hopPut k l.hop (d.thProd x.set.thread) Config.mediaPrio.toNat
    (BitVec.ofNat 32 (l.chan + b2n l.pkt * 2 ^ 15 + n * 2 ^ 16) :: BitVec.ofNat 32 b :: sourceWords mix)).2

/-- A paging bridge's listening lines (R298). -/
def Dev.pageLines (k : Clock) (d : Dev) (n : Nat) (x : Bridge) : Dev :=
  (x.legs.filter (fun l => l.hears && !l.pkt)).foldl (fun d l =>
    if x.legs.any (·.talks) then d.pageLine k n l.chan else d.endPaging k n l.chan) d

/-- Bridge `n` mixes its frame. `fades` are the samples of the talkers that enter or leave the chosen set, in leg order, whose curve
the manual does not state. -/
def execBridgeMix (n : Nat) (fades : List (List Int)) (s : State) : Out :=
  onDev (fun k d =>
    match d.bridge n with
    | none => d
    | some x => match x.frameAt with
      | none => d
      | some b =>
        if !x.mixDue b k.tick then d
        else
          let r := Dev.drainIn k x.set.inHop ((d.hopper x.set.inHop).seq.length + (d.hopper x.set.inHop).fill.length) d []
          let miss := ((x.legs.filter (·.talks)).filter (fun l => !x.present.contains (l.pkt, l.chan))).length
          let voices := x.voices b r.1
          let chosen := x.chosen voices
          let d := (r.2.bumpN ⟨.medBridgeLegLate, 0, 0⟩ miss).setBridge n (some { x with
            frameAt := none, present := [], mixed := some b, late := x.late + miss, talkers := chosen })
          let d := if x.set.paging then d.pageLines k n x else d
          let mixed := fadedVoices x.talkers chosen voices fades
          (x.legs.filter (·.hears)).foldl (fun d l =>
            d.putMix k n b x l (mixFor (l.pkt, l.chan) (frameSamples x.set.rate x.set.frame) mixed)) d) s

/-! ### Boundaries -/

/-- One change of legs takes effect. -/
def Dev.legOp (k : Clock) (n : Nat) (d : Dev) (o : LegOp) : Dev :=
  match o with
  | .add l => d.modBridge n (fun x => { x with legs := x.legs ++ [l] })
  | .remove pkt c src => (d.dropLeg k n pkt c 0).answer k src 0x0843 .ok
  | .modify pkt c role gain =>
    d.modBridge n (fun x => { x with legs := x.legs.map (fun l => if l.is pkt c then { l with role := role, gain := gain } else l) })

/-- A frame boundary of the bridge's length: changes of legs, the end of a page whose last talker has left, and the frame
to mix. -/
def Dev.bridgeBoundary (k : Clock) (d : Dev) (n : Nat) : Dev :=
  match d.bridge n with
  | none => d
  | some x =>
    let d := x.ops.foldl (fun d o => Dev.legOp k n d o) (d.setBridge n (some { x with ops := [] }))
    match d.bridge n with
    | none => d
    | some x =>
      let d := if x.set.paging && !x.legs.any (·.talks) then
          (x.legs.filter (fun l => !l.pkt)).foldl (fun d l => d.endPaging k n l.chan) d
        else d
      if x.destroying.isSome then d
      else d.modBridge n (fun x => { x with frameAt := if x.legs.isEmpty then none else some k.tick, present := [] })

/-- The window closes with the mix unfinished (R296). -/
def Dev.bridgeClose (d : Dev) (n : Nat) : Dev :=
  match d.bridge n with
  | some x => if x.frameAt.isSome then
      (d.setBridge n (some { x with frameAt := none, lateMix := x.lateMix + 1 })).bump0 .medBridgeLateMix
    else d
  | none => d

/-- FRAME of length `len`: channels by number, lines first, then bridges. -/
def Dev.medFrame (k : Clock) (d : Dev) (len : Nat) : Dev :=
  let d := d.lineChs.foldl (fun d p => if p.2.set.frame = len then d.lineBoundary k p.1 else d) d
  let d := d.pktChs.foldl (fun d p => if p.2.set.frame = len then d.pktBoundary k p.1 else d) d
  d.bridgeList.foldl (fun d p => if p.2.set.frame = len then d.bridgeBoundary k p.1 else d) d

/-- CLOSE of length `len`. -/
def Dev.medClose (k : Clock) (d : Dev) (len : Nat) : Dev :=
  let d := d.lineChs.foldl (fun d p => if p.2.set.frame = len then d.lineClose k p.1 else d) d
  let d := d.pktChs.foldl (fun d p => if p.2.set.frame = len then d.pktClose k p.1 else d) d
  d.bridgeList.foldl (fun d p => if p.2.set.frame = len then d.bridgeClose p.1 else d) d

/-- TICK. -/
def Dev.medTick (k : Clock) (d : Dev) : Dev := d.lineChs.foldl (fun d p => d.lineChTick k p.1) d

/-- A time step of `step` ticks: the ticks that channels and bridges keep move with the count (R288). -/
def LineCh.step (c : LineCh) (step : Int) : LineCh :=
  let mv := fun (n : Nat) => ((n : Int) + step).toNat
  { c with
    altTo := mv c.altTo, mixIn := c.mixIn.map (fun m => (m.1, mv m.2.1, m.2.2)), page := c.page.map (fun p => (mv p.1, p.2)),
    ears := { c.ears with cur := c.ears.cur.map (fun g => (g.1, mv g.2.1, g.2.2)) }, near := c.near.map (fun n => (mv n.1, n.2)),
    onAt := c.onAt.map mv, lastTick := mv c.lastTick, destroying := c.destroying.map mv,
    recs := c.recs.map (fun r => { r with tick := mv r.tick }),
    ring := c.ring.map (fun r => { r with first := mv r.first, next := mv r.next }),
    cid := c.cid.map (fun r => { r with burst := r.burst.map mv, tas := r.tas.map mv, dataAt := mv r.dataAt, dataEnd := mv r.dataEnd }),
    tone := c.tone.map (fun t => { t with start := mv t.start, stop := t.stop.map mv, fade := t.fade.map mv }),
    hyb := c.hyb.map (fun h => { h with start := mv h.start }) }

def Dev.medStep (k : Clock) (d : Dev) (step : Int) : Dev :=
  let d := d.lineChs.foldl (fun d p => d.modLineCh p.1 (fun c => c.step step)) d
  let d := d.bridgeList.foldl (fun d p => d.modBridge p.1 (fun x => { x with
    mixed := x.mixed.map (fun n => ((n : Int) + step).toNat), destroying := x.destroying.map (fun n => ((n : Int) + step).toNat) })) d
  d.pktChs.foldl (fun d p => d.pktStep k p.1 step) d

/-! ### Commands (Table 11.7) -/

def BridgeSet.bad (s : BridgeSet) : Bool :=
  decide (8191 < s.thread) || decide (63 < s.group) || decide (3 < s.level) || !mediaFrame s.frame || !mediaRate s.rate ||
  s.mixMax == 0 || decide (8 < s.mixMax) || decide (1023 < s.inHop) || s.pageRamp == 0 || decide (256 < s.pageRamp) || decide (255 < s.evtRing)

/-- The mix alarm of a bridge thread: its slot armed for the next b + FRAME/8, every FRAME; the flag it sets is
Sirboroth's. -/
def Dev.mixAlarm (k : Clock) (d : Dev) (th slot frame : Nat) : Dev :=
  let b := k.tick / frame * frame + frame / 8
  let at_ := if k.tick < b then b else b + frame
  let f := d.draw 1
  let d := (f.2.armAlarm k false slot false true (at_ * 4096) frame 0 (th + (Config.free f.1 % 32) * 2 ^ 13)).2
  { d with med := { d.med with mixSlots := d.med.mixSlots.put 0 th (slot + 1) } }

def execBridgeCreate (o : Origin) (bridge : Nat) (set : BridgeSet) (s : State) : Out :=
  hostCmd o 0x0840 (fun k d =>
    let th := set.thread
    let fresh := (d.bridgeFrame th).isNone
    let full := fresh && d.freeAlarm.isNone
    let bad := set.bad || (d.chanFrame th).isSome || (d.bridgeFrame th).any (fun f => f != set.frame) || d.rxHopBad set.inHop th
    let st := firstStatus .ok [(bad, .badArg), (decide (511 < bridge), .unknownObject), (full, .noResource),
      ((d.bridge bridge).isSome, .refusedBusy), (fresh && !(d.thr th).off, .refusedBusy)]
    if st != .ok then (.now st [], if st == .noResource then d.bump0 .medAlarmSlotExhausted else d)
    else if fresh then
      let d' := (d.takeThread k th set.group set.level).setBridge bridge (some { set := set })
      (.now .ok [], d'.mixAlarm k th (d.freeAlarm.getD 0) set.frame)
    else (.now .ok [], d.setBridge bridge (some { set := set }))) s

/-- A command of a bridge, judged by R28: its arguments, the bridge there is, a destroy in progress (R303), and `checks`. -/
def bridgeCmd (o : Origin) (opc bridge : Nat) (bad : Bool) (checks : Dev → Bridge → List (Bool × Status))
    (f : Clock → Dev → Bridge → Reply × Dev) (s : State) : Out :=
  hostCmd o opc (fun k d =>
    match d.bridge bridge with
    | none => (.now (if bad then .badArg else .unknownObject) [], d)
    | some x =>
      let st := firstStatus .ok ((bad, .badArg) :: (x.destroying.isSome, .refusedBusy) :: checks d x)
      if st == .ok then f k d x else (.now st [], d)) s

def execBridgeDestroy (o : Origin) (bridge : Nat) (s : State) : Out :=
  bridgeCmd o 0x0841 bridge false (fun _ _ => []) (fun k d x =>
    let d := (x.legs.filter (fun l => !l.pkt)).foldl (fun d l => d.endPaging k bridge l.chan) d
    (.later .bridgeDestroy bridge, d.modBridge bridge (fun x => { x with destroying := some (k.tick + 1) }))) s

/-- The next frame boundary after a destroy (R303). -/
def execBridgeDestroyEnd (n : Nat) (s : State) : Out :=
  onDev (fun k d =>
    match d.bridge n with
    | some x => match x.destroying with
      | some t =>
        if t ≤ k.tick && k.tick % x.set.frame = 0 then
          let d := x.ops.foldl (fun d o => match o with
            | .remove _ _ src => d.answer k src 0x0843 .ok
            | _ => d) d
          let d := x.legs.foldl (fun d l => d.dropLeg k n l.pkt l.chan 0) d
          let h := x.set.inHop
          let d := (Dev.drainIn k h ((d.hopper h).seq.length + (d.hopper h).fill.length) d []).2
          let d := d.setBridge n none
          let th := x.set.thread
          let d := if (d.bridgeFrame th).isSome then d
            else
              let sl := d.med.mixSlots.get 0 th - 1
              let d := { d with med := { d.med with mixSlots := d.med.mixSlots.put 0 th 0 } }
              let d := d.setAlarm sl { d.alarm sl with armed := false }
              if d.idleThread th then d.wakeThread k th else d
          d.finish k .bridgeDestroy n .ok
        else d
      | none => d
    | none => d) s

/-- A channel's frame and thread, where it exists. -/
def Dev.legChan (d : Dev) (pkt : Bool) (c : Nat) : Option (Nat × Nat × Peer) :=
  if pkt then (d.pkt c).map (fun x => (x.set.frame, x.set.thread, x.set.peer))
  else (d.lineCh c).map (fun x => (x.set.frame, x.set.thread, x.set.m.peer))

/-- Legs there are and legs about to join. -/
def Bridge.allLegs (x : Bridge) : List Leg := x.legs ++ x.ops.filterMap (fun o => match o with
  | .add l => some l
  | _ => none)

/-- The channel is bound (R295): a leg of a conference bridge, or paired; a paired line may listen to one paging bridge. -/
def Dev.legBound (d : Dev) (x : Bridge) (l : Leg) (peer : Peer) : Bool :=
  let on := fun (paging : Bool) => d.bridgeList.any (fun p => p.2.set.paging == paging && p.2.allLegs.any (fun y => y.is l.pkt l.chan))
  on false || x.allLegs.any (fun y => y.is l.pkt l.chan) ||
    (peer != .none && !(!l.pkt && l.role == 1 && x.set.paging && !on true))

/-- A leg's channel, or its peer, is being destroyed (R271, R302). -/
def Dev.legEnds (d : Dev) (l : Leg) : Bool := d.peerEnds (if l.pkt then .pkt l.chan else .line l.chan)

def execBridgeLegAdd (o : Origin) (bridge : Nat) (l : Leg) (s : State) : Out :=
  bridgeCmd o 0x0842 bridge (decide (2 < l.role) || !gainOk l.gain || decide (1023 < l.hop))
    (fun d x => [((d.legChan l.pkt l.chan).any (fun c => c.1 != x.set.frame || d.rxHopBad l.hop c.2.1), .badArg),
      ((d.legChan l.pkt l.chan).isNone, .unknownObject), (decide (64 ≤ x.allLegs.length), .noResource),
      ((d.legChan l.pkt l.chan).any (fun c => d.legBound x l c.2.2) || d.legEnds l, .refusedBusy)])
    (fun _ d x => (.now .ok [], d.setBridge bridge (some { x with ops := x.ops ++ [.add l] }))) s

def execBridgeLegRemove (o : Origin) (bridge : Nat) (pkt : Bool) (chan : Nat) (s : State) : Out :=
  bridgeCmd o 0x0843 bridge false (fun _ x => [(!x.allLegs.any (fun l => l.is pkt chan), .unknownObject)]) (fun k d _ =>
    let d := if pkt then d else d.endPaging k bridge chan
    (.held, d.modBridge bridge (fun x => { x with ops := x.ops ++ [.remove pkt chan (.host o)] }))) s

def execBridgeLegModify (o : Origin) (bridge : Nat) (pkt : Bool) (chan role : Nat) (gain : Int) (s : State) : Out :=
  bridgeCmd o 0x0844 bridge (decide (2 < role) || !gainOk gain)
    (fun _ x => [(!x.allLegs.any (fun l => l.is pkt chan), .unknownObject)]) (fun _ d x =>
    (.now .ok [], d.setBridge bridge (some { x with ops := x.ops ++ [.modify pkt chan role gain] }))) s

def execBridgeStatus (o : Origin) (bridge : Nat) (s : State) : Out :=
  bridgeCmd o 0x0845 bridge false (fun _ _ => []) (fun _ d x =>
    let leg := fun (l : Leg) => [(⟨2, l.chan + b2n l.pkt * 2 ^ 15⟩ : RField), ⟨1, l.role⟩, ⟨2, toBits 16 l.gain⟩, ⟨2, l.hop⟩]
    (.now .ok ([⟨2, x.set.thread⟩, ⟨1, x.set.group⟩, ⟨1, x.set.level⟩, ⟨1, x.set.frame⟩, ⟨2, x.set.rate⟩, ⟨1, b2n x.set.paging⟩,
        ⟨1, x.set.mixMax⟩, ⟨2, x.set.inHop⟩, ⟨1, b2n x.set.pageAdd⟩, ⟨2, x.set.pageRamp⟩, ⟨1, x.set.evtRing⟩, ⟨1, x.legs.length⟩] ++
      x.legs.flatMap leg ++ [⟨1, x.talkers.length⟩] ++ x.talkers.map (fun t => ⟨2, t.2 + b2n t.1 * 2 ^ 15⟩) ++
      [⟨4, x.late⟩, ⟨4, x.lateMix⟩]),
     d.setBridge bridge (some { x with late := 0, lateMix := 0 }))) s

end Sys2Proof.Machine
end

