-- ==== Sys2Proof/Machine/Cal.lean ====
section
/-! DEFINITION. The events and commands of the calibration unit (R124 to R144, Table 5.3). -/
namespace Sys2Proof.Machine
open Sys2Proof

/-! ### Sensors (R124 to R126) -/

/-- The eight sensors convert, every 8 ticks, once. -/
def execSensorConvert (vals : List Int) (s : State) : Out :=
  onDev (fun k d =>
    if k.tick % 8 == 0 && d.cal.convAt != k.tick + 1 && vals.length == 8 then
      let sensors := (List.range 8).foldl (fun (st : Store Sensor) i =>
        let x := st.get {} i
        st.put {} i { x with conv := ((vals[i]?.getD 0) :: x.conv).take 16 }) d.cal.sensors
      d.setCal { d.cal with sensors := sensors, convAt := k.tick + 1 }
    else d) s

/-- The mean of 16 conversions; how it is rounded is open. -/
def Dev.meanTemp (d : Dev) (l : List Int) : Int × Dev :=
  let sum := l.foldl (· + ·) 0
  if sum % 16 = 0 then (sum / 16, d)
  else let q := d.draw 1; (sum / 16 + (Config.free q.1 % 2 : Nat), q.2)

/-- A sensor's reading is updated, once it has 16 conversions. -/
def Dev.updateSensor (d : Dev) (i : Nat) : Dev :=
  let x := d.cal.sensors.get {} i
  if x.conv.length < 16 then d
  else
    let q := d.meanTemp x.conv
    let ok := decide (-220 ≤ q.1) && decide (q.1 ≤ 600)
    let d := q.2.setCal { q.2.cal with sensors := q.2.cal.sensors.put {} i { x with temp := q.1, valid := ok } }
    if ok then d else d.bump ⟨.calSensorInvalid, 0, i⟩

/-- The items in the order they are looked at: lanes, then ranks in service. -/
def Dev.calItems (d : Dev) : List Nat :=
  List.range 32 ++ ((List.range 4).filter (fun r => (d.dram.ranks.get {} r).state == .inService)).map rankKey

/-- An item's reading is compared with its reference. -/
def Dev.compareItem (d : Dev) (n : Nat) : Dev :=
  let x := d.calItem n
  let t := d.reading n
  match x.ref, (d.cal.sensors.get {} (itemSensor n)).valid with
  | some r, true =>
    let lim := 4 * (max 1 d.cal.deltaT : Nat)
    if (lim : Int) < t - r || (lim : Int) < r - t then
      if x.pinned then (if n < 32 then d.bump1 .calLPinnedSkip n else d.bump1 .calRankPinnedSkip (n - 32))
      else if d.cal.autoEn && x.phase == .idle then d.calQueue n else d
    else d
  | _, _ => d

/-- The update of R124 and the comparisons of R126. -/
def Dev.updateTemps (k : Clock) (d : Dev) : Dev :=
  let d := d.setCal { d.cal with updAt := k.tick + 1 }
  let d := (List.range 8).foldl (fun d i => d.updateSensor i) d
  d.calItems.foldl (fun d n => d.compareItem n) d

def execSensorUpdate (s : State) : Out :=
  onDev (fun k d => if k.tick % 64 == 0 && d.cal.updAt != k.tick + 1 then d.updateTemps k else d) s

/-! ### Lane scans (R128 to R134) -/

/-- A lane's scan or application is in progress. -/
def Dev.laneCalBusy (d : Dev) : Bool :=
  (List.range 32).any (fun q => (d.calItem q).phase == .measuring || (d.calItem q).phase == .applying)

/-- The lane to be measured next: the first queued that is in LIVE and whose sensor's reading is not invalid. -/
def Dev.nextLane (d : Dev) : Option Nat := d.cal.laneQ.find? (fun q => (d.lane q).train == .live && !d.readingBad q)

/-- A lane in BIT_LOCK whose scan or sweep of its start is being made (R134). -/
def Dev.startScans (d : Dev) (q : Nat) : Bool := (d.lane q).train == .bitLock && (d.lane q).startScan

def execLaneScanStart (q : Nat) (s : State) : Out :=
  onDev (fun k d =>
    if k.tick % 8 == 0 && k.sub == 0 && !d.laneCalBusy && d.nextLane == some q then
      let d := (d.calUnqueue q).modItem q (fun x => { x with phase := .measuring, newRef := d.refNow q, discard := false })
      d.modLane q (fun x => { x with scanFrom := some k.tick })
    else d) s

/-- The choice of R129 from a scan's error counts, the 64 of the delays and the 32 of the thresholds at the delay chosen; or of
R134 from the 2,048 of a full sweep, those of DELAY i and THRESH j at place 32 i + j. -/
def Dev.scanResult (d : Dev) (q : Nat) (errs : List Nat) : (Nat × Nat) × Dev :=
  let x := d.calItem q
  let full := errs.length == 2048
  let c := d.chooseDelay (if full then rowSums errs else errs.take 64) x.delay
  ((c.1, chooseThresh (if full then (errs.drop (32 * c.1)).take 32 else errs.drop 64) x.thresh), c.2)

/-- The counts that a lane's scan leaves: those of R128, or of a full sweep where a start found no valid record. -/
def Dev.scanLen (d : Dev) (q : Nat) : Nat := if d.startScans q && !d.cal.hadRec then 2048 else 96

/-- The scan or sweep of a lane's start ends: its result is set in one step, but for an item that is pinned or was pinned
meanwhile, and for one whose sensor's reading is invalid (R125, R134, R138). -/
def Dev.endStartScan (k : Clock) (d : Dev) (q : Nat) (errs : List Nat) : Dev :=
  let x := d.calItem q
  let r := d.scanResult q errs
  let d := if x.pinned || x.discard || d.readingBad q then r.2.modItem q (fun x => { x with discard := false })
    else
      let d := r.2.modItem q (fun x => { x with
        delay := r.1.1, thresh := r.1.2, goalD := r.1.1, goalT := r.1.2, ref := (d.refNow q).or x.ref, last := clockStamp k })
      d.setCal { d.cal with dirty := true }
  (d.modLane q (fun y => { y with startScan := false, scanDone := true })).bump1 .calLScan q

/-- A scan in LIVE ends: its result begins to be applied, or is discarded (R131, R138). -/
def Dev.endScan (k : Clock) (d : Dev) (q : Nat) (errs : List Nat) : Dev :=
  let x := d.calItem q
  let r := d.scanResult q errs
  let d := r.2.bump1 .calLScan q
  if x.pinned || x.discard then d.calEnd k q .aborted
  else
    let d := d.modItem q (fun x => { x with phase := .applying, goalD := r.1.1, goalT := r.1.2, ref := x.newRef.or x.ref })
    let d := d.setCal { d.cal with dirty := true }
    if r.1.1 == x.delay && r.1.2 == x.thresh then d.calEnd k q .ok else d

/-- The end of a lane's scan, four ticks after it began; of the scan of its start, after 4 ticks in BIT_LOCK, or after
the 32 of the full sweep where no record was valid. `errs` holds the counts of the delays and `errsT` those of the thresholds,
or `errs` the whole map of a full sweep. -/
def execLaneScanEnd (q : Nat) (errs errsT : List Nat) (s : State) : Out :=
  onDev (fun k d =>
    let errs := errs ++ errsT
    if errs.length != d.scanLen q then d
    else if d.startScans q then
      if (if d.cal.hadRec then 4 else 32) ≤ (d.lane q).inTicks then d.endStartScan k q errs else d
    else if (d.calItem q).phase == .measuring && (d.lane q).scanFrom == some (k.tick - 4) && decide (4 ≤ k.tick) then
      d.endScan k q errs
    else d) s

/-- One step of DELAY, the shorter way around, and of THRESH. -/
def stepDelay (x goal : Nat) : Nat :=
  if x = goal then x else if (goal + 64 - x) % 64 ≤ 32 then (x + 1) % 64 else (x + 63) % 64
def stepCode (x goal : Nat) : Nat := if x < goal then x + 1 else if goal < x then x - 1 else x

/-- The unit intervals by which a step of DELAY shifts the bit alignment. -/
def stepAlign (old new : Nat) : Int := if old = 63 && new = 0 then 1 else if old = 0 && new = 63 then -1 else 0

/-- A step of application may be made: once a tick, and not while the item's reading is invalid, but for a CAL_SET's (R125). -/
def Dev.stepOk (k : Clock) (d : Dev) (n : Nat) : Bool :=
  let x := d.calItem n
  x.phase == .applying && x.stepped != k.tick + 1 && (x.setting || !d.readingBad n)

/-- One step of application. -/
def execLaneCalApplyStep (q : Nat) (s : State) : Out :=
  onDev (fun k d =>
    let x := d.calItem q
    if decide (q < 32) && d.stepOk k q then
      let y : CalItem := { x with delay := stepDelay x.delay x.goalD, thresh := stepCode x.thresh x.goalT, stepped := k.tick + 1 }
      let d := (d.setItem q y).setCal { (d.setItem q y).cal with dirty := true }
      let d := if stepAlign x.delay y.delay = 0 then d
        else d.modLane q (fun l => { l with align := l.align + stepAlign x.delay y.delay })
      if y.delay == y.goalD && y.thresh == y.goalT then d.calEnd k q .ok else d
    else d) s

/-! ### Ranks (R135, R136) -/

/-- The rank being recalibrated: one whose measurements have begun, or the first queued whose reading is not invalid. -/
def Dev.rankTurn (d : Dev) : Option Nat :=
  let busy := (List.range 4).find? (fun r =>
    (d.calItem (rankKey r)).phase == .measuring || (d.calItem (rankKey r)).phase == .applying)
  match busy with
  | some r => if (d.calItem (rankKey r)).phase == .measuring then some r else none
  | none => (d.cal.rankQ.find? (fun n => !d.readingBad n)).map (· - 32)

/-- The points of byte lane `b`, from the `lo`-th on, that had errors. -/
def pointBad (pts : List (BitVec 4)) (lo b i : Nat) : Bool := ((pts[lo + i]?).getD 0).getLsbD b

/-- The 64 measurements are made: the delays are chosen, and applied. -/
def Dev.recalChoose (k : Clock) (d : Dev) (r : Nat) : Dev :=
  let x := d.calItem (rankKey r)
  let pick := fun (l : List Nat) (lo : Nat) => (List.range 4).map (fun b => chooseLine (l[b]?.getD 0) (pointBad x.points lo b))
  let rd := pick x.rd 0
  let wr := pick x.wr 32
  let none' := (rd ++ wr).countP (fun o => o.isNone)
  let d := if none' = 0 then d else d.bumpN ⟨.calRankNoWindow, r, 0⟩ none'
  if x.pinned || x.discard then d.calEnd k (rankKey r) .aborted
  else
    let keep := fun (l : List Nat) (o : List (Option Nat)) => (List.range 4).map (fun b => ((o[b]?).getD none).getD (l[b]?.getD 0))
    let d := d.setItem (rankKey r) { x with
      phase := .applying, goalRd := keep x.rd rd, goalWr := keep x.wr wr, points := [], ref := x.newRef.or x.ref }
    let d := d.setCal { d.cal with dirty := true }
    if keep x.rd rd == x.rd && keep x.wr wr == x.wr then (d.bump1 .calRankRecal r).calEnd k (rankKey r) .ok else d

/-- One measurement of rank `r`: the byte lanes in error. -/
def execRankRecalMeasure (r : Nat) (bad : BitVec 4) (s : State) : Out :=
  onDev (fun k d =>
    if d.rankTurn == some r && d.cal.measAt != clockStamp k + 1 then
      let d := d.setCal { d.cal with measAt := clockStamp k + 1 }
      let d := if (d.calItem (rankKey r)).phase == .queued then
          (d.calUnqueue (rankKey r)).modItem (rankKey r) (fun x => { x with
            phase := .measuring, points := [], newRef := d.refNow (rankKey r), discard := false })
        else d
      let d := d.modItem (rankKey r) (fun x => { x with points := x.points ++ [bad] })
      if (d.calItem (rankKey r)).points.length == 64 then d.recalChoose k r else d
    else d) s

def execRankRecalApplyStep (r : Nat) (s : State) : Out :=
  onDev (fun k d =>
    let x := d.calItem (rankKey r)
    if decide (r < 4) && d.stepOk k (rankKey r) then
      let y : CalItem := { x with
        rd := List.zipWith stepCode x.rd x.goalRd, wr := List.zipWith stepCode x.wr x.goalWr, stepped := k.tick + 1 }
      let d := d.setItem (rankKey r) y
      let d := d.setCal { d.cal with dirty := true }
      if y.rd == y.goalRd && y.wr == y.goalWr then (d.bump1 .calRankRecal r).calEnd k (rankKey r) .ok else d
    else d) s

/-! ### Records -/

/-- A record interval ends. DESIGN CHOICE (log entry 87): the intervals are those of the tick count itself. No write starts while PFW_N is low: it is deferred (R466). -/
def execRecordInterval (s : State) : Out :=
  onDev (fun k d =>
    if k.tick % (max 1 d.cal.interval * 28800000) == 0 && d.cal.dirty && d.cal.writing.isNone && !d.hif.paused && d.sys.pfwN then d.calWrite k
    else d) s

/-- COMMIT is written. -/
def execCalRecordWriteDone (s : State) : Out :=
  onDev (fun k d =>
    match d.cal.writing with
    | none => d
    | some (b, r) =>
      let d := d.setCal { d.cal.setSlot b r with writing := none }
      (d.bump0 .calRecordWrite).finish k .calSave 0 .ok) s

/-! ### Commands (Table 5.3) -/

/-- The status of an item's name, and its key: kind 0 a lane, kind 1 a rank on its channel. -/
def calName (kind n ch : Nat) : Status × Nat :=
  if 1 < kind || (kind == 1 && decide (1 < ch)) then (.badArg, 0)
  else if kind = 0 then (if n < 32 then (.ok, n) else (.unknownObject, 0))
  else if n < 4 && ch == n / 2 then (.ok, rankKey n) else (.unknownObject, 0)

/-- STATE of Table 5.3; a lane in the scan of its start is being measured. -/
def Dev.calState (d : Dev) (n : Nat) : CPhase := if decide (n < 32) && d.startScans n then .measuring else (d.calItem n).phase

def phaseCode : CPhase → Nat
  | .idle => 0 | .queued => 1 | .measuring => 2 | .applying => 3

def execCalStatus (o : Origin) (kind n ch : Nat) (s : State) : Out :=
  hostCmd o 0x0501 (fun _ d =>
    let q := calName kind n ch
    if q.1 != .ok then (.now q.1 [], d)
    else
      let x := d.calItem q.2
      let set : List RField := if kind = 0 then [⟨1, x.delay⟩, ⟨1, x.thresh⟩]
        else x.rd.map (fun v => ⟨1, v⟩) ++ x.wr.map (fun v => ⟨1, v⟩)
      (.now .ok (set ++ [⟨2, toBits 16 (x.ref.getD 0)⟩, ⟨2, toBits 16 (d.reading q.2)⟩, ⟨1, b2n x.pinned⟩,
        ⟨1, phaseCode (d.calState q.2)⟩, ⟨8, x.last⟩]), d)) s

/-- A lane, or a rank in service. -/
def Dev.calOn (d : Dev) (n : Nat) : Bool := decide (n < 32) || (d.dram.ranks.get {} (n - 32)).state == .inService

def execCalRun (o : Origin) (kind n ch : Nat) (s : State) : Out :=
  hostCmd o 0x0502 (fun _ d =>
    let q := calName kind n ch
    if q.1 != .ok then (.now q.1 [], d)
    else
      let x := d.calItem q.2
      let st := firstStatus .ok [(x.pinned, .locked), (!d.calOn q.2, .refusedBusy)]
      if st != .ok then (.now st [], d)
      else (.later .calRun q.2, if x.phase == .idle then d.calQueue q.2 else d)) s

def execCalPin (o : Origin) (kind n ch pin : Nat) (s : State) : Out :=
  hostCmd o 0x0503 (fun k d =>
    let q := calName kind n ch
    let st := firstStatus .ok [(decide (1 < pin), .badArg), (q.1 != .ok, q.1)]
    if st != .ok then (.now st [], d)
    else
      let x := d.calItem q.2
      let d := d.setCal { d.cal with dirty := true }
      if pin = 0 then
        (.now .ok [], if x.pinned then d.setItem q.2 { x with pinned := false, ref := (d.refNow q.2).or x.ref } else d)
      else
        let d := d.setItem q.2 { x with pinned := true, discard := x.discard || d.calState q.2 == .measuring }
        (.now .ok [], match x.phase with
          | .queued => d.calEnd k q.2 .aborted
          | .applying => if x.setting then d else d.calEnd k q.2 .aborted
          | _ => d)) s

def execCalSet (o : Origin) (kind n delay thresh : Nat) (s : State) : Out :=
  hostCmd o 0x0504 (fun k d =>
    let st := firstStatus .ok [
      (kind != 0 || decide (63 < delay) || decide (31 < thresh), .badArg), (decide (31 < n), .unknownObject),
      (d.calState n == .measuring, .refusedBusy)]
    if st != .ok then (.now st [], d)
    else
      let d := if (d.calItem n).phase == .idle then d else d.calEnd k n .aborted
      let d := d.setCal { d.cal with dirty := true }
      let x := d.calItem n
      if x.delay = delay && x.thresh = thresh then (.now .ok [], d.setItem n { x with pinned := true })
      else (.later .calSet n,
        d.setItem n { x with pinned := true, phase := .applying, setting := true, goalD := delay, goalT := thresh })) s

def execCalSave (o : Origin) (s : State) : Out :=
  hostCmd o 0x0505 (fun k d =>
    if d.cal.writing.isSome then (.now .refusedBusy [], d)
    else if !d.sys.pfwN then (.now .aborted [], d)
    else (.later .calSave 0, d.calWrite k)) s

def execCalRecordRead (o : Origin) (slot : Nat) (s : State) : Out :=
  hostCmd o 0x0506 (fun _ d =>
    if 1 < slot then (.now .badArg [], d)
    else
      let r := d.cal.slot (slot == 1)
      (.now .ok [⟨4, r.seq.toNat⟩, ⟨8, r.stamp⟩, ⟨1, b2n r.valid⟩], d)) s

end Sys2Proof.Machine
end

