-- ==== Sys2Proof/Machine/DramOps.lean ====
section
/-! DEFINITION. What the DRAM controller does (R423 to R448): addresses, requests and their urgency, inline ECC, the ECC
cache, refresh, the scrubber and migrations. The commands and events stand in Dram.lean. -/
namespace Sys2Proof.Machine
open Sys2Proof

def Dev.setDram (d : Dev) (x : Dram) : Dev := { d with dram := x }
def Dev.rank (d : Dev) (r : Nat) : Rank := d.dram.ranks.get {} r
def Dev.setRank (d : Dev) (r : Nat) (x : Rank) : Dev := d.setDram { d.dram with ranks := d.dram.ranks.put {} r x }
def Dev.modRank (d : Dev) (r : Nat) (f : Rank → Rank) : Dev := d.setRank r (f (d.rank r))

/-! ### Addresses (R424 to R426) -/

/-- A rank's size in bytes, its data area, and one of its eight segments. -/
def Dram.rankSize (x : Dram) : Nat := 2 ^ (30 + x.density)
def Dram.dataSize (x : Dram) : Nat := x.rankSize / 8 * 7
def Dram.segSize (x : Dram) : Nat := x.rankSize / 8
/-- The end of the address space. -/
def Dram.topAddr (x : Dram) : Nat := x.map.length * x.dataSize
def rowOf (off : Nat) : Nat := off >>> 15
def bankOf (off : Nat) : Nat := bitsOf off 12 3
/-- Where a rank keeps the check bytes of the data block at an offset. -/
def Dram.checkOff (x : Dram) (off : Nat) : Nat := x.dataSize + 8 * (off / 64)

/-- The rank and the offset of an address, where it may be accessed. -/
def Dev.dramPlace (d : Dev) (a : Nat) : Option (Nat × Nat) :=
  match d.dram.map[a / d.dram.dataSize]? with
  | none => none
  | some r =>
    let off := a % d.dram.dataSize
    if (d.rank r).unused.getLsbD (off / d.dram.segSize) then none else some (r, off)

/-- Poison of the blocks that `n` bytes at `a` touch, and its end where they are written whole (R435). -/
def Dev.dramPoisoned (d : Dev) (a n : Nat) : Bool :=
  (List.range ((a + n + 63) / 64 - a / 64)).any (fun i => d.dram.poison.get false (a / 64 + i))
def Dev.dramWrote (d : Dev) (a n : Nat) : Dev :=
  let ps := (List.range ((a + n) / 64 - (a + 63) / 64)).foldl
    (fun (st : Store Bool) i => st.put false ((a + 63) / 64 + i) false) d.dram.poison
  d.setDram { d.dram with poison := ps }

/-! ### Requests (R429 to R433) -/

/-- The requester port of a physical tile's DRAM traffic (R149): TILE_A for 0 to 16, TILE_B for 17 to 33. -/
def tilePort (p : Nat) : Nat := if p ≤ 16 then 0 else 1

/-- The port index of a requester, and whether there is such a one (Table 16.2). -/
def reqPort : Requester → Nat
  | .tile p => tilePort p
  | .port i => i
def reqOk : Requester → Bool
  | .tile p => decide (p < 34)
  | .port i => decide (2 ≤ i) && decide (i < 8)

def Dram.port (x : Dram) (p : Nat) : DPort := (x.ports[p]?).getD ⟨2000, false, false, 48⟩
/-- A port's requests for a channel. -/
def Dram.queue (x : Dram) (p ch : Nat) : List DReq := x.reqs.filter (fun r => r.port == p && r.rank / 2 == ch)

/-- Now, on the line of sub-ticks; an age of `n` sub-ticks has reached `t` nanoseconds. -/
def nowAbs (k : Clock) : Nat := stampAbs (clockStamp k)
def aged (n t : Nat) : Bool := decide (t * 3072 ≤ n * 125000)

/-- A request's urgency. -/
def Dev.urgency (k : Clock) (d : Dev) (r : DReq) : Nat :=
  if r.set.panicEn then (if (d.dram.queue r.port (r.rank / 2)).length < max 1 r.set.level then 0 else 3)
  else
    let a := nowAbs k - r.at_
    if r.late || aged a r.set.target then 3 else if aged (4 * a) (3 * r.set.target) then 2
    else if aged (2 * a) r.set.target then 1 else 0

/-- Requests that have reached their target are counted late, once each. -/
def Dev.markLate (k : Clock) (slack : Nat) (sel : DReq → Bool) (d : Dev) : Dev :=
  let hit := fun (r : DReq) => sel r && !r.late && !r.set.panicEn && aged (nowAbs k + slack - r.at_) r.set.target
  let d := (d.dram.reqs.filter hit).foldl (fun d r => d.bump ⟨.dmcPortLate, 0, r.port⟩) d
  d.setDram { d.dram with reqs := d.dram.reqs.map (fun r => if hit r then { r with late := true } else r) }

/-- A request joins its port's queue. -/
def Dev.enqueue (k : Clock) (d : Dev) (p a len : Nat) (kind : DKind) (r off : Nat) : Dev :=
  let q : DReq := { id := d.dram.nextId, port := p, addr := a, len := len, kind := kind, rank := r, off := off,
                    at_ := nowAbs k, late := false, set := d.dram.port p }
  let before := (d.dram.queue p (r / 2)).length
  let d := d.setDram { d.dram with reqs := d.dram.reqs ++ [q], nextId := d.dram.nextId + 1 }
  if q.set.panicEn && before + 1 == max 1 q.set.level then d.bump ⟨.dmcPortPanic, 0, p⟩ else d

def isRead : DKind → Bool
  | .write _ => false
  | .copyWrite => false
  | _ => true

/-- A read that matches the row of an earlier unretired write puts its port in in-order mode (R433). -/
def Dev.orderCheck (d : Dev) (p r off : Nat) : Dev :=
  let ws := (d.dram.reqs.filter (fun q => !isRead q.kind && q.rank == r && bankOf q.off == bankOf off &&
    rowOf q.off == rowOf off)).map (·.id)
  if ws.isEmpty then d
  else
    let key := 2 * p + r / 2
    let old := d.dram.inorder.get [] key
    let d := d.setDram { d.dram with inorder := d.dram.inorder.put [] key (old ++ ws.filter (fun i => !old.contains i)) }
    if old.isEmpty then d.bump0 .dmcInorderEntry else d

/-- A requester's request: 1 to 64 bytes inside one block, to a queue with room; denied under R426. -/
def Dev.dramRequest (k : Clock) (d : Dev) (p a len : Nat) (kind : DKind) : Dev :=
  match d.dramPlace a with
  | none =>
    let d := d.bump0 .dmcAddrDenied
    d.setDram { d.dram with answer := d.dram.answer.put (.ok, []) p (.notPermitted, List.replicate len 0) }
  | some (r, off) =>
    if 64 ≤ (d.dram.queue p (r / 2)).length then d
    else
      let d := if isRead kind then d.orderCheck p r off else d
      d.enqueue k p a len kind r off

/-! ### Retirement (R445) -/

def Dram.serving (x : Dram) (r : Nat) : Bool := (x.ranks.get {} r).state == .inService

/-- A trigger for rank `r`. -/
def Dev.retireTrigger (d : Dev) (r : Nat) : Dev :=
  let x := d.dram
  let migrating := match x.mig with
    | some g => g.src == r
    | none => false
  if migrating || x.retire.contains r || !x.serving r then d
  else if x.mig.isSome || x.testing || x.spare.isSome then d.setDram { x with retire := x.retire ++ [r] }
  else d.bump0 .dmcNoSpare

/-- The triggers that waited are judged again. -/
def Dev.judgeRetires (k : Clock) (d : Dev) : Dev :=
  if d.dram.spare.isSome then d.setDram { d.dram with retire := d.dram.retire.filter (fun r => d.dram.serving r) }
  else
    let l := d.dram.retire
    l.foldl (fun d r => (if d.dram.serving r then d.bump0 .dmcNoSpare else d).finish k .dramRetire r .noResource)
      (d.setDram { d.dram with retire := [] })

/-! ### Inline ECC (R435, R436) -/

def Dev.logErr (k : Clock) (d : Dev) (r blk kind : Nat) : Dev :=
  let e : DErr := { rank := r, block := blk, kind := kind, stamp := clockStamp k }
  d.setDram { d.dram with log := (e :: d.dram.log).take 32 }

def Dev.setPoison (d : Dev) (a : Nat) (v : Bool) : Dev := d.setDram { d.dram with poison := d.dram.poison.put false (a / 64) v }

/-- A corrected error of rank `r`. -/
def Dev.dramCe (k : Clock) (d : Dev) (r blk : Nat) (scrub : Bool) : Dev :=
  let d := (d.bump1 .dmcRankCe r).logErr k r blk 0
  let d := if d.dram.ceEvt then d.event k 0x0C80 r (blk % 2 ^ 26 + b2n scrub * 2 ^ 30) else d
  let n := (d.rank r).passCe + 1
  let d := d.modRank r (fun x => { x with passCe := n })
  if d.dram.ceRetire ≠ 0 && n == d.dram.ceRetire then d.retireTrigger r else d

/-- An uncorrectable error of rank `r` in the block at address `a`: the block carries the poison pattern from now on. -/
def Dev.dramUe (k : Clock) (d : Dev) (r a blk : Nat) (scrub : Bool) : Dev :=
  let d := ((d.bump1 .dmcRankUe r).logErr k r blk 1).setPoison a true
  let d := d.event k 0x0C80 r (blk % 2 ^ 26 + b2n scrub * 2 ^ 30 + 2 ^ 31)
  d.retireTrigger r

/-- A read's check of its block: `ecc` 0 good, 1 a single-bit error, 2 an uncorrectable one. Whether it is poisoned. -/
def Dev.readCheck (k : Clock) (d : Dev) (r a blk ecc : Nat) (scrub : Bool) : Bool × Dev :=
  if d.dram.poison.get false (a / 64) then (true, (d.bump1 .dmcRankPoisonRead r).logErr k r blk 2)
  else if ecc = 2 then (true, d.dramUe k r a blk scrub)
  else (false, if ecc = 1 then d.dramCe k r blk scrub else d)

/-- A line of the ECC cache is used: 512 sets of 8 ways, the least recently used evicted. -/
def Dev.eccLine (d : Dev) (r off : Nat) (write : Bool) : Dev :=
  let key := r * 2 ^ 26 + d.dram.checkOff off / 64
  let set := d.dram.cache.get [] (key % 512)
  let old := set.find? (fun l => l.1 == key)
  let dirty := write || (match old with
    | some l => l.2
    | none => false)
  let d := d.setDram { d.dram with
    cache := d.dram.cache.put [] (key % 512) (((key, dirty) :: set.filter (fun l => l.1 != key)).take 8) }
  if old.isSome then d else d.bump0 .dmcEccMiss

/-- The lines of a rank leave the cache. -/
def Dev.dropLines (d : Dev) (r : Nat) : Dev :=
  let c := d.dram.cache.entries.foldl (fun (st : Store (List (Nat × Bool))) p =>
    st.put [] p.1 (p.2.filter (fun l => l.1 / 2 ^ 26 != r))) d.dram.cache
  d.setDram { d.dram with cache := c }

/-- Every line is written back. -/
def Dev.cleanCache (d : Dev) : Dev :=
  let c := d.dram.cache.entries.foldl (fun (st : Store (List (Nat × Bool))) p =>
    st.put [] p.1 (p.2.map (fun l => (l.1, false)))) d.dram.cache
  d.setDram { d.dram with cache := c }

/-! ### The scrubber (R443) -/

/-- The last block of the address space that is in use. -/
def Dev.lastBlock (d : Dev) : Option Nat :=
  ((List.range (d.dram.map.length * 7)).reverse.find? (fun j => (d.dramPlace (j * d.dram.segSize)).isSome)).map
    (fun j => (j + 1) * d.dram.segSize / 64 - 1)

/-- Reads owed by the scrubber are queued while there is room. -/
def Dev.scrubAdmit (k : Clock) : Nat → Dev → Dev
  | 0, d => d
  | n + 1, d =>
    let x := d.dram
    if x.scrubOwed = 0 || x.map.isEmpty then d
    else
      let pos := if x.topAddr ≤ x.scrubPos * 64 then 0 else x.scrubPos
      match d.dramPlace (pos * 64) with
      | none =>
        let seg := x.segSize / 64
        Dev.scrubAdmit k n (d.setDram { x with scrubPos := (pos / seg + 1) * seg })
      | some (r, off) =>
        if 64 ≤ (x.queue 9 (r / 2)).length then d
        else
          Dev.scrubAdmit k n ((d.enqueue k 9 (pos * 64) 64 .scrub r off).setDram
            { (d.enqueue k 9 (pos * 64) 64 .scrub r off).dram with scrubPos := pos + 1, scrubOwed := x.scrubOwed - 1 })

def Dev.scrubMore (k : Clock) (d : Dev) : Dev := d.scrubAdmit k (d.dram.scrubOwed + 40)

/-! ### Migration (R446) -/

/-- The data blocks of a rank. -/
def Dram.blocks (x : Dram) : Nat := x.dataSize / 64

/-- The copy's next read is queued. -/
def Dev.copyNext (k : Clock) (d : Dev) : Dev :=
  match d.dram.mig with
  | some g => if !g.training && decide (g.done < d.dram.blocks) then d.enqueue k 8 (g.done * 64) 64 .copyRead g.src (g.done * 64) else d
  | none => d

/-- A migration that a warm start has interrupted goes on, its spare out of self-refresh and its copy at the first block (R447). -/
def Dev.migResume (k : Clock) (d : Dev) : Dev :=
  match d.dram.mig with
  | some g => (d.modRank g.dst (fun (x : Rank) => { x with selfRef := false, accrued := nowAbs k, used := nowAbs k, owed := 0 })).copyNext k
  | none => d

/-- The address of a rank's offset. -/
def Dev.slotAddr (d : Dev) (r off : Nat) : Nat := ((d.dram.map.findIdx? (· == r)).getD 0) * d.dram.dataSize + off

/-- The requests of the copy end with the migration. -/
def Dev.dropCopies (d : Dev) : Dev := d.setDram { d.dram with reqs := d.dram.reqs.filter (fun q => q.port != 8) }

/-- A migration is aborted: the spare returns to self-refresh and stays the spare (R447). -/
def Dev.migAbort (k : Clock) (d : Dev) : Dev :=
  match d.dram.mig with
  | none => d
  | some g =>
    let d := (d.dropCopies.dropLines g.dst).setDram { (d.dropCopies.dropLines g.dst).dram with mig := none }
    let d := (d.modRank g.dst (fun x => { x with selfRef := true, down := false, owed := 0 })).bump1 .dmcRankMigAbort g.src
    let d := (d.calRankGone k (g.dst)).event k 0x0C81 g.src (1 + 1 * 4 + 2 * 16)
    (d.finish k .dramRetire g.src .aborted).judgeRetires k

/-! ### Transactions (R431, R438) -/

/-- The ranks of a channel whose refreshes are owed. -/
def Dev.refreshed (d : Dev) (r : Nat) : Bool :=
  let x := d.dram
  (x.serving r || (match x.mig with
    | some g => g.dst == r
    | none => false) || (x.testing && x.spare == some r)) && !(d.rank r).selfRef

/-- A real-time port has a request pending for the rank. -/
def Dev.rtPending (d : Dev) (r : Nat) : Bool := d.dram.reqs.any (fun q => q.rank == r && q.set.rt)

/-- One owed refresh of rank `r` is issued: of the bank in turn, or of all. -/
def Dev.issueRefresh (d : Dev) (r : Nat) : Dev :=
  d.modRank r (fun x => { x with
    owed := x.owed - 1, down := false, bank := if d.dram.allBank then x.bank else (x.bank + 1) % 8,
    open_ := if d.dram.allBank then List.replicate 8 0 else setAt x.open_ x.bank 0 })

/-- The requests that may be served: those of a block in acceptance order, those of a port in in-order mode in turn, no
write of a locked block. -/
def Dev.servable (d : Dev) (ch : Nat) : List DReq :=
  let l := d.dram.reqs.filter (fun q => q.rank / 2 == ch)
  let locked := fun (q : DReq) => match d.dram.mig with
    | some g => !isRead q.kind && q.port != 8 && q.rank == g.src && g.lock == some (q.off / 64)
    | none => false
  l.filter (fun q =>
    !locked q && !(d.rank q.rank).selfRef &&
    l.all (fun e => decide (q.id ≤ e.id) || !(e.rank == q.rank && e.off / 64 == q.off / 64)) &&
    ((d.dram.inorder.get [] (2 * q.port + ch)).isEmpty || l.all (fun e => decide (q.id ≤ e.id) || e.port != q.port)))

/-- One request goes before another (R431). -/
def Dev.before (k : Clock) (d : Dev) (a b : DReq) : Bool :=
  let ua := d.urgency k a
  let ub := d.urgency k b
  let hit := fun (q : DReq) => (((d.rank q.rank).open_[bankOf q.off]?).getD 0) == rowOf q.off + 1
  let older := decide (a.at_ < b.at_) || (a.at_ == b.at_ && (decide (a.port < b.port) ||
    (a.port == b.port && decide (a.id < b.id))))
  if ua ≠ ub then decide (ub < ua)
  else if ua = 3 || hit a == hit b then older
  else hit a

def Dev.nextReq (k : Clock) (d : Dev) (ch : Nat) : Option DReq :=
  (d.servable ch).foldl (fun acc q => match acc with
    | none => some q
    | some b => if d.before k q b then some q else some b) none

/-- A request leaves: its write has retired for the ports in in-order mode. -/
def Dev.retireReq (d : Dev) (q : DReq) : Dev :=
  let io := d.dram.inorder.entries.foldl (fun (st : Store (List Nat)) p => st.put [] p.1 (p.2.filter (· != q.id))) d.dram.inorder
  d.setDram { d.dram with reqs := d.dram.reqs.filter (fun r => r.id != q.id), inorder := io }

def Dev.answerPort (d : Dev) (p : Nat) (st : Status) (data : List Byte) : Dev :=
  d.setDram { d.dram with answer := d.dram.answer.put (.ok, []) p (st, data) }

/-- What an uncorrectable error leaves of a block: bytes that the spec does not give, which are delivered as read and stay until the
block is written. -/
def spoilBlock (a : Nat) (m : Mems) (d : Dev) : Mems × Dev :=
  (m.dramPut (a / 64 * 64) ((List.range 64).map (fun i => BitVec.ofNat 8 (Config.free (d.freeN + i)))), (d.draw 64).2)

/-- A request reads its block. -/
def DReq.reads (q : DReq) : Bool :=
  match q.kind with
  | .write _ => decide (q.len < 64)
  | .copyWrite => false
  | _ => true

/-- The address that a request accesses: a copy's own address is an offset. -/
def Dev.reqAddr (d : Dev) (q : DReq) : Nat := if q.kind = .copyRead then d.slotAddr q.rank q.off else q.addr

/-- The data of a block in which a request finds an uncorrectable error are lost. -/
def spoilReq (q : DReq) (ecc : Nat) (m : Mems) (d : Dev) : Mems × Dev :=
  if ecc = 2 && q.reads && !d.dram.poison.get false (d.reqAddr q / 64) then spoilBlock (d.reqAddr q) m d else (m, d)

/-- The segments that MR17 masks in a rank's self-refresh (R441, R442): all of a spare or retired rank, the unused ones of a rank in
service. -/
def Dev.mr17 (d : Dev) (r : Nat) : BitVec 8 :=
  if (d.rank r).state = .inService then (d.rank r).unused.setWidth 8 else 0xFF

/-- A request is performed, with what the check bits of its block say. -/
def serveReq (k : Clock) (q : DReq) (ecc : Nat) (m : Mems) (d : Dev) : Mems × Dev :=
  let blk := q.off / 64
  let w := spoilReq q ecc m d
  let m := w.1
  let d := (w.2.retireReq q).modRank q.rank (fun x => { x with
    down := false, used := nowAbs k, open_ := setAt x.open_ (bankOf q.off) (rowOf q.off + 1) })
  let d := d.eccLine q.rank q.off (!isRead q.kind)
  match q.kind with
  | .read =>
    let r := d.readCheck k q.rank q.addr blk ecc false
    (m, r.2.answerPort q.port (if r.1 then .poisoned else .ok) (m.dramBytes q.addr q.len))
  | .scrub =>
    let r := d.readCheck k q.rank q.addr blk ecc true
    let d := if d.lastBlock == some (q.addr / 64) then
        let d := r.2.bump0 .dmcScrubPass
        [0, 1, 2, 3].foldl (fun d n => d.modRank n (fun x => { x with passCe := 0 })) d
      else r.2
    (m, d.scrubMore k)
  | .write data =>
    if q.len = 64 then (m.dramPut q.addr data, (d.setPoison q.addr false).answerPort q.port .ok [])
    else if d.dram.poison.get false (q.addr / 64) then
      (m.dramPut q.addr data, (d.bump1 .dmcRankPoisonMerge q.rank).answerPort q.port .ok [])
    else if ecc = 2 then
      (m.dramPut q.addr data, ((d.dramUe k q.rank q.addr blk false).bump1 .dmcRankPoisonMerge q.rank).answerPort q.port .ok [])
    else
      let d := if ecc = 1 then d.dramCe k q.rank blk false else d
      (m.dramPut q.addr data, d.answerPort q.port .ok [])
  | .copyRead =>
    let a := d.slotAddr q.rank q.off
    let d := if d.dram.poison.get false (a / 64) then d.bump1 .dmcRankMigPoisonCopied q.rank
      else if ecc = 2 then (d.dramUe k q.rank a blk false).bump1 .dmcRankMigPoisonCopied q.rank
      else if ecc = 1 then d.dramCe k q.rank blk false else d
    match d.dram.mig with
    | some g => (m, (d.setDram { d.dram with mig := some { g with lock := some blk } }).enqueue k 8 q.addr 64 .copyWrite g.dst q.off)
    | none => (m, d)
  | .copyWrite =>
    match d.dram.mig with
    | some g => (m, (d.setDram { d.dram with mig := some { g with lock := none, done := g.done + 1 } }).copyNext k)
    | none => (m, d)

/-- The next transaction of a channel: an urgent refresh, an owed refresh that no real-time port holds off, or a
request. -/
def channelTurn (k : Clock) (ch ecc : Nat) (m : Mems) (d : Dev) : Mems × Dev :=
  let d := d.markLate k 0 (fun _ => true)
  let rs := [2 * ch, 2 * ch + 1].filter (fun r => d.refreshed r)
  match rs.find? (fun r => decide (8 ≤ (d.rank r).owed)) with
  | some r => (m, (d.issueRefresh r).bump1 .dmcRankRefreshUrgent r)
  | none =>
    match rs.find? (fun r => decide (0 < (d.rank r).owed) && !d.rtPending r) with
    | some r => (m, d.issueRefresh r)
    | none =>
      match d.nextReq k ch with
      | some q => serveReq k q ecc m d
      | none => (m, d)

end Sys2Proof.Machine
end

