-- ==== Sys2Proof/Machine/Bundle.lean ====
section
/-! DEFINITION. The encodings of bundles (Tables 7.1, 7.3, 7.6, 7.8, 7.9): the operations that a 64-bit bundle spells, as
the tile of a slot issues them. -/
namespace Sys2Proof.Machine
open Sys2Proof

/-- The operation of a MAC slot. -/
def macInstr (sl : Slot) (op : Nat) (f : BitVec 17) : Option Instr :=
  match op with
  | 0x00 => some (.mnop sl f) | 0x01 => some (.mac1 sl f) | 0x02 => some (.qcoef sl f) | 0x03 => some (.qsamp sl f)
  | 0x04 => some (.dot4 sl f) | 0x05 => some (.cmplx sl f) | 0x06 => some (.cmplxc sl f) | 0x07 => some (.widess sl f)
  | 0x08 => some (.wideus sl f) | 0x09 => some (.widesu sl f) | 0x0A => some (.accadd sl f) | 0x0B => some (.accneg sl f)
  | 0x0C => some (.accshi sl f) | 0x0D => some (.accshx sl f) | 0x0E => some (.accld sl f) | 0x0F => some (.accldh sl f)
  | 0x10 => some (.ext16 sl f) | 0x11 => some (.ext32 sl f) | 0x12 => some (.extg sl f) | 0x13 => some (.expa sl f)
  | 0x14 => some (.exph sl f) | 0x15 => some (.norm sl f) | 0x16 => some (.expmaxa sl f) | 0x17 => some (.expmaxh sl f)
  | 0x18 => some (.accz sl f) | _ => none

/-- The operation of a memory slot, its data without errors. -/
def memInstr (sl : Slot) (op : Nat) (f : BitVec 16) : Option Instr :=
  match op with
  | 0x0 => some (.dnop sl f) | 0x1 => some (.ldhL sl f 0) | 0x2 => some (.ldhH sl f 0) | 0x3 => some (.ldhs sl f 0)
  | 0x4 => some (.ldw sl f 0) | 0x5 => some (.ldd sl f 0) | 0x6 => some (.sthL sl f false) | 0x7 => some (.sthH sl f false)
  | 0x8 => some (.stw sl f) | 0x9 => some (.std sl f) | 0xA => some (.lda sl f 0) | 0xB => some (.sta sl f)
  | 0xC => some (.lea sl f) | _ => none

/-- The operation of a short control slot. -/
def ctlInstr (sl : Slot) (op : Nat) (f : BitVec 14) : Option Instr :=
  match op with
  | 0x00 => some (.nop sl f) | 0x01 => some (.add sl f) | 0x02 => some (.sub sl f) | 0x03 => some (.and sl f)
  | 0x04 => some (.or sl f) | 0x05 => some (.xor sl f) | 0x06 => some (.shl sl f) | 0x07 => some (.shr sl f)
  | 0x08 => some (.shru sl f) | 0x09 => some (.cmp sl f) | 0x0A => some (.addi sl f) | 0x0B => some (.movi sl f)
  | 0x0C => some (.cmpi sl f) | 0x0D => some (.shli sl f) | 0x0E => some (.shri sl f) | 0x0F => some (.shrui sl f)
  | 0x10 => some (.movr sl f) | 0x11 => some (.padd sl f) | 0x12 => some (.movc sl f) | 0x18 => some (.bcc sl f)
  | 0x19 => some (.brx sl f) | 0x1B => some (.rep sl f) | 0x1C => some (.endrep sl f) | 0x1D => some (.resume sl f)
  | 0x1E => some (.idle sl f) | 0x20 => some (.signal sl f) | 0x22 => some (.wait sl f) | 0x23 => some (.yield sl f)
  | 0x24 => some (.texit sl f) | 0x25 => some (.flagtake sl f) | 0x28 => some (.time sl f) | 0x29 => some (.almarm sl f)
  | 0x2A => some (.almdis sl f) | 0x30 => some (.hput sl f) | 0x31 => some (.hcommit sl f) | 0x32 => some (.habort sl f)
  | 0x33 => some (.hget sl f 0) | 0x34 => some (.hnext sl f) | 0x35 => some (.hmark sl f) | 0x36 => some (.hrewind sl f)
  | 0x37 => some (.hrelease sl f) | 0x38 => some (.dmapost sl f) | 0x39 => some (.dmaabort sl f)
  | 0x3A => some (.dmaq sl f) | _ => none

/-- The operation of a long control slot. -/
def longInstr (sl : Slot) (op : Nat) (f : BitVec 36) : Option Instr :=
  match op with
  | 0x1 => some (.lmovi sl f) | 0x2 => some (.lmova sl f) | 0x3 => some (.lmovn sl f) | 0x4 => some (.lbcc sl f)
  | 0x5 => some (.lcall sl f) | 0x6 => some (.repi sl f) | 0x7 => some (.signali sl f) | _ => none

/-- The operations of a bundle in slot order, the last one closing it; none where an opcode or the format is not
defined. -/
def decodeBundle (t : Nat) (w : Quad) : Option (List Instr) :=
  let sl : Slot := { tile := t, fin := false }
  let lst : Slot := { tile := t, fin := true }
  let mac := macInstr sl (w.extractLsb' 57 5).toNat (w.extractLsb' 40 17)
  let mem0 := memInstr sl (w.extractLsb' 36 4).toNat (w.extractLsb' 20 16)
  match (w.extractLsb' 62 2).toNat with
  | 0 =>
    match mac, mem0, ctlInstr lst (w.extractLsb' 14 6).toNat (w.extractLsb' 0 14) with
    | some a, some b, some c => some [a, b, c]
    | _, _, _ => none
  | 1 =>
    match mac, longInstr lst (w.extractLsb' 36 4).toNat (w.extractLsb' 0 36) with
    | some a, some b => some [a, b]
    | _, _ => none
  | 2 =>
    match mac, mem0, memInstr lst (w.extractLsb' 16 4).toNat (w.extractLsb' 0 16) with
    | some a, some b, some c => some [a, b, c]
    | _, _, _ => none
  | _ => none

end Sys2Proof.Machine
end

