-- ==== Sys2Proof/Machine/EvacOps.lean ====
section
/-! DEFINITION. Physical tiles, spares, and what starts an evacuation (R145, R148, R468, R469, R473). -/
namespace Sys2Proof.Machine
open Sys2Proof

def Dev.phys (d : Dev) (p : Nat) : Phys := d.til.phys.get {} p
def Dev.setPhys (d : Dev) (p : Nat) (x : Phys) : Dev :=
  { d with til := { d.til with phys := d.til.phys.put {} p x } }
def Dev.modPhys (d : Dev) (p : Nat) (f : Phys → Phys) : Dev := d.setPhys p (f (d.phys p))
def Dev.tile (d : Dev) (t : Nat) : Tile := d.til.tiles.get {} t
def Dev.setTile (d : Dev) (t : Nat) (r : Tile) : Dev :=
  { d with til := { d.til with tiles := d.til.tiles.put {} t r } }
def Dev.modTile (d : Dev) (t : Nat) (f : Tile → Tile) : Dev := d.setTile t (f (d.tile t))

def Dev.setSys (d : Dev) (x : Sys) : Dev := { d with sys := x }

/-- A position's physical tile, as the map holds it: that number plus one, 0 for none. -/
def Dev.setMap (d : Dev) (pos : Nat) (p : Option Nat) : Dev :=
  { d with til := { d.til with map := d.til.map.put 0 pos (p.elim 0 (· + 1)) } }

def pstateCode : PState → Nat
  | .active => 0 | .spare => 1 | .vacated => 2 | .retired => 3

/-- TILE_MAP (Table 14.11): the position's new and old physical tiles and the old tile's new state. -/
def Dev.tileMapEvt (k : Clock) (d : Dev) (pos : Nat) (new old : Option Nat) (oldState : PState) : Dev :=
  d.event k 0x0680 pos (new.getD 0x3F + old.getD 0x3F * 2 ^ 8 + pstateCode oldState * 2 ^ 16)

/-- A spare position holds a tile in SPARE that is not under test (R468). -/
def Dev.spareAt (d : Dev) (pos : Nat) : Option Nat :=
  match d.physOf pos with
  | some p =>
    if (d.phys p).state == .spare && !d.sys.tests.any (fun x => x.1 == p) && !d.sys.evac.any (fun (e : Evac) => e.spare == p) then
      some p
    else none
  | none => none

/-- The spare that an evacuation uses, with its position: T32's, or T33's. -/
def Dev.sparePick (d : Dev) : Option (Nat × Nat) :=
  match d.spareAt 32 with
  | some p => some (p, 32)
  | none => (d.spareAt 33).map (fun p => (p, 33))

/-- The boundary b of R469. -/
def evacBoundary (frame tick : Nat) : Nat := ((tick + 16 + frame - 1) / frame) * frame

def Dev.startEvac (k : Clock) (d : Dev) (n spare pos : Nat) (reload : Option FlashImg) : Dev :=
  d.setSys { d.sys with evac := some { tile := n, spare := spare, pos := pos, at_ := evacBoundary d.sys.evacFrame k.tick, reload := reload } }

/-- The threads that are neither Dormant nor Cancelled and whose context pointer names position `n` become Cancelled and
are reported (R473). -/
def Dev.cancelNamed (k : Clock) (d : Dev) (n : Nat) : Dev :=
  d.sch.threads.entries.foldl (fun d (p : Nat × Thread) =>
    if p.2.state != .dormant && p.2.state != .cancelled && ctxPos p.2.ctx == n then
      (d.cancelReq k p.1).event k 0x06A0 0 (p.1 + n * 2 ^ 13)
    else d) d

/-- The descriptors of a position that loses its tile end as aborted, a Hopper commit in progress with them (R175, R482). -/
def Dev.dropChans (k : Clock) (d : Dev) (n : Nat) : Dev :=
  (d.tile n).chans.entries.foldl (fun (d : Dev) (p : Nat × Chan) =>
    let d := d.bumpN ⟨.tilTDmaAbort, n, 0⟩ (p.2.queue.length + b2n p.2.run.isSome)
    match p.2.run with
    | some run => if run.desc.kind = 6 && run.st == .ok then d.dropProducer k run.desc.remote (.dma n p.1) else d
    | none => d) d

/-- A stopped tile without a spare leaves the map (R473). -/
def Dev.stopNoSpare (k : Clock) (d : Dev) (n : Nat) : Dev :=
  match d.physOf n with
  | none => d
  | some p =>
    let d := d.dropChans k n
    let d := (d.modPhys p (fun x => { x with state := .vacated, cleared := false })).setMap n none
    let d := (d.setTile n {}).setStl n {}
    let d := d.setSys { d.sys with tests := d.sys.tests ++ [(p, false)] }
    ((d.cancelNamed k n).tileMapEvt k n none (some p) .vacated).settle k none

/-- An automatic trigger of R468; `stop` is a stop under R203. One that finds an evacuation running, or the control cores
restarting, waits; a tile waits once. -/
def Dev.evacTrigger (k : Clock) (d : Dev) (n : Nat) (stop : Bool) : Dev :=
  if !d.posActive n then d
  else if d.sys.evac.isSome || d.hif.paused then
    if d.sys.evacQ.contains n then d
    else d.setSys { d.sys with evacQ := d.sys.evacQ ++ [n] }
  else match d.sparePick with
    | some sp => d.startEvac k n sp.1 sp.2 none
    | none => if stop then d.stopNoSpare k n else d.bump0 .sysEvacNoSpare

/-- The triggers that have waited are taken, oldest first, until one starts an evacuation. -/
def Dev.evacNextN (k : Clock) : Nat → Dev → Dev
  | 0, d => d
  | m + 1, d =>
    match d.sys.evacQ with
    | [] => d
    | n :: r =>
      if d.sys.evac.isSome || d.hif.paused then d
      else Dev.evacNextN k m ((d.setSys { d.sys with evacQ := r }).evacTrigger k n (d.stl n).stopped)
def Dev.evacNext (k : Clock) (d : Dev) : Dev := d.evacNextN k d.sys.evacQ.length

end Sys2Proof.Machine
end

