-- ==== Sys2Proof/Machine/Flags.lean ====
section
/-! DEFINITION. The tiles' flags and arithmetic: SR (R158), ALU flags (R183), accumulator results (R161, R162), extraction
(R163), shifts and exponents (R164 to R166). -/
namespace Sys2Proof.Machine
open Sys2Proof

/-! ### SR (Table 6.4) -/

/-- The bits of SR that are not reserved. -/
def srMask : Word := 0x00F3FF1F
def srSat (sr : Word) : Bool := sr.getLsbD 0
def srFrac (sr : Word) : Bool := sr.getLsbD 1
def srRnd (sr : Word) : Nat := bitsOf sr.toNat 2 2
def srLen (sr : Word) : Bool := sr.getLsbD 4
def srZ (sr : Word) : Bool := sr.getLsbD 20
def srN (sr : Word) : Bool := sr.getLsbD 21
def srC (sr : Word) : Bool := sr.getLsbD 22
def srV (sr : Word) : Bool := sr.getLsbD 23

/-- SR with one bit set or cleared. -/
def srPut (sr : Word) (i : Nat) (v : Bool) : Word := if v then sr ||| BitVec.twoPow 32 i else sr &&& ~~~ (BitVec.twoPow 32 i)
def srZn (sr : Word) (z n : Bool) : Word := srPut (srPut sr 20 z) 21 n
def srCv (sr : Word) (c v : Bool) : Word := srPut (srPut sr 22 c) 23 v

/-- The sticky flags of SR. -/
def extBit (k : Nat) : Word := BitVec.twoPow 32 (8 + k)
def ovfBit (k : Nat) : Word := BitVec.twoPow 32 (12 + k)
def exsBit : Word := BitVec.twoPow 32 16
def merrBit : Word := BitVec.twoPow 32 17

def stickyMask : Word := 0x0003FF00
/-- SR as tile code leaves it: a sticky flag can be cleared by the write, and is set by hardware only (R158). -/
def srWrite (old v : Word) : Word := (v &&& ~~~stickyMask) ||| (v &&& old &&& stickyMask)

/-! ### ALU flags (R183) -/

/-- Z and N of a result. -/
def znOf (r : Word) : Bool × Bool := (r == 0, r.msb)

/-- A sum's flags: result, carry, overflow. -/
def addFlags (a b : Word) : Word × Bool × Bool :=
  (a + b, decide (2 ^ 32 ≤ a.toNat + b.toNat), (a.msb == b.msb) && ((a + b).msb != a.msb))

/-- A difference's flags: C is 1 when no borrow occurs. -/
def subFlags (a b : Word) : Word × Bool × Bool :=
  (a - b, decide (b.toNat ≤ a.toNat), (a.msb != b.msb) && ((a - b).msb != a.msb))

/-- A condition of Table 7.10; codes 13 to 15 are invalid. -/
def condHolds (sr : Word) (c : Nat) : Bool :=
  let z := srZ sr
  let n := srN sr
  let v := srV sr
  match c with
  | 0 => true | 1 => z | 2 => !z | 3 => n != v | 4 => n == v | 5 => z || n != v | 6 => !z && n == v
  | 7 => !(srC sr) | 8 => srC sr | 9 => n | 10 => !n | 11 => v | 12 => !v | _ => false

/-! ### Accumulators (R161, R162) -/

/-- A 40-bit value outside the 32-bit range. -/
def outside32 (v : Int) : Bool := decide (v < -2147483648) || decide (2147483647 < v)
def outside40 (v : Int) : Bool := decide (v < -549755813888) || decide (549755813887 < v)

/-- What an accumulator stores of an exact result, and the flags it sets: (value, EXT, OVF). -/
def accResult (v : Int) (sat : Bool) : BitVec 40 × Bool × Bool :=
  if outside40 v then
    let r : BitVec 40 := if sat then (if 0 < v then 0x7FFFFFFFFF else 0x8000000000) else BitVec.ofInt 40 v
    (r, outside32 r.toInt, true)
  else (BitVec.ofInt 40 v, outside32 v, false)

/-- An accumulator shift by s (R164), exact. -/
def shiftInt (v s : Int) : Int := if 0 ≤ s then v * (2 : Int) ^ s.toNat else v / (2 : Int) ^ (-s).toNat

/-! ### Extraction (R163) -/

/-- A value held to a signed width of `n` bits where SAT is 1; whether it saturated. -/
def extractTo (n : Nat) (v : Int) (sat : Bool) : Int × Bool :=
  let c := clampI (-((2 : Int) ^ (n - 1))) ((2 : Int) ^ (n - 1) - 1) v
  if c == v then (v, false) else if sat then (c, true) else (v, false)

/-- Ak.H rounded at bit 16 by RND. -/
def roundHalf (acc : Int) (rnd : Nat) : Int :=
  if rnd = 0 then acc / 65536
  else
    let h := (acc + 32768) / 65536
    if rnd = 2 && acc % 65536 == 32768 && h % 2 == 1 then h - 1 else h

def ext16 (acc : Int) (rnd : Nat) (sat : Bool) : Int × Bool := extractTo 16 (roundHalf acc rnd) sat
def ext32 (acc : Int) (sat : Bool) : Int × Bool := extractTo 32 acc sat

/-! ### Exponents (R165) -/

/-- How many bits from bit `n` − 1 downwards equal the bit above them. -/
def leadEqual (x : Nat) (s : Bool) : Nat → Nat
  | 0 => 0
  | n + 1 => if x.testBit n == s then 1 + leadEqual x s n else 0

def expAcc (a : BitVec 40) : Int := (leadEqual a.toNat a.msb 39 : Int) - 8
def expHalf (h : BitVec 16) : Nat := leadEqual h.toNat h.msb 15

/-! ### Address arithmetic (R159, R160) -/

/-- A length after the treatment of Table 6.3. -/
def lenOf (l : BitVec 17) : Nat := min l.toNat 65536

/-- Post-modify of a pointer by m. -/
def postModify (p b : Word) (l : BitVec 17) (m : Int) : Word :=
  let len : Int := (lenOf l : Int)
  if len = 0 then BitVec.ofInt 32 ((p.toNat : Int) + m)
  else
    let off := (p.toNat : Int) - b.toNat + m
    let off := if len ≤ off then off - len else if off < 0 then off + len else off
    BitVec.ofInt 32 ((b.toNat : Int) + off)

/-- The low k bits in reverse order. -/
def bitrev : Nat → Nat → Nat
  | 0, _ => 0
  | k + 1, x => (x % 2) * 2 ^ k + bitrev k (x / 2)

/-- Bit-reversed post-modify. -/
def postReverse (p b : Word) (l : BitVec 17) (n : Word) : Word :=
  if lenOf l = 0 then BitVec.ofInt 32 ((p.toNat : Int) + n.toInt)
  else
    let k := Nat.log2 (lenOf l)
    let off := (((p.toNat : Int) - b.toNat) % (2 : Int) ^ k).toNat
    let r := (bitrev k off + bitrev k (n.toNat % 2 ^ k)) % 2 ^ k
    BitVec.ofNat 32 (b.toNat + bitrev k r)

end Sys2Proof.Machine
end

