-- ==== Sys2Proof/Machine/Operands.lean ====
section
/-! DEFINITION. The operand forms of the tiles: register reads, register numbers (Table 7.7), quads and halves, the
address modes of the memory slots (Table 7.5), and how a write reaches its register (Table 6.3). -/
namespace Sys2Proof.Machine
open Sys2Proof

/-! ### Registers -/

def Tile.xr (r : Tile) (n : Nat) : Word := r.x.get 0 n
def Tile.ar (r : Tile) (k : Nat) : BitVec 40 := r.a.get 0 k
def Tile.pr (r : Tile) (n : Nat) : Word := r.p.get 0 n
def Tile.mr (r : Tile) (n : Nat) : Word := r.m.get 0 n

/-- One half of an X register, as bits. -/
def Tile.half (r : Tile) (n : Nat) (hi : Bool) : BitVec 16 :=
  if hi then (r.xr n).extractLsb' 16 16 else (r.xr n).extractLsb' 0 16

/-- A signed half, and lane i of the quad at Xn. -/
def Tile.halfI (r : Tile) (n : Nat) (hi : Bool) : Int := (r.half n hi).toInt
def Tile.lane (r : Tile) (n i : Nat) : Int := r.halfI (n + i / 2) (i % 2 == 1)

/-- A register by the number of Table 7.7. -/
def Tile.regRead (r : Tile) (n : Nat) : Word :=
  if n < 16 then r.xr n
  else if n < 24 then r.pr (n - 16)
  else if n < 32 then r.b.get 0 (n - 24)
  else if n < 40 then (r.l.get 0 (n - 32)).setWidth 32
  else if n < 48 then r.mr (n - 40)
  else if n < 51 then (r.lc.get 0 (n - 48)).setWidth 32
  else if n < 54 then (r.ls.get 0 (n - 51)).setWidth 32
  else if n < 57 then (r.le.get 0 (n - 54)).setWidth 32
  else r.sr

/-- Bit 0 of a base or of a length reads as zero (Table 6.3). -/
def evenW (v : Word) : Word := v &&& ~~~1#32
def evenL (v : Word) : BitVec 17 := v.setWidth 17 &&& ~~~1#17

/-- A write of latency `lat`, to a register by number: the loop registers and SR.LEN are taken up for the fetch under
R193, every other write at its latency (R184). -/
def regWrite (n lat : Nat) (v : Word) : List PendW × List PendF :=
  if n < 16 then ([⟨lat, .x n v⟩], [])
  else if n < 24 then ([⟨lat, .p (n - 16) v⟩], [])
  else if n < 32 then ([⟨lat, .b (n - 24) (evenW v)⟩], [])
  else if n < 40 then ([⟨lat, .l (n - 32) (evenL v)⟩], [])
  else if n < 48 then ([⟨lat, .m (n - 40) v⟩], [])
  else if n < 51 then ([], [⟨2, .lc (n - 48) (v.setWidth 16)⟩])
  else if n < 54 then ([], [⟨2, .ls (n - 51) (v.setWidth 14)⟩])
  else if n < 57 then ([], [⟨2, .le (n - 54) (v.setWidth 14)⟩])
  else ([⟨lat, .sr (v &&& srMask)⟩], [⟨2, .len (srLen v)⟩])

/-- The registers that R181 looks at among the numbers of Table 7.7: X, P, B, L and N. Accumulator k is 64 + k. -/
def regDest (n : Nat) : List Nat := if n < 48 then [n] else []

/-! ### Writes that have reached their latency -/

/-- One write, and the sticky flags it sets. -/
def Tile.applyW (r : Tile) : TWrite → Tile × Word
  | .x n v => ({ r with x := r.x.put 0 n v }, 0)
  | .xl n v => ({ r with x := r.x.put 0 n ((r.xr n &&& 0xFFFF0000) ||| v.setWidth 32) }, 0)
  | .xh n v => ({ r with x := r.x.put 0 n ((r.xr n &&& 0x0000FFFF) ||| (v.setWidth 32 <<< 16)) }, 0)
  | .p n v => ({ r with p := r.p.put 0 n v }, 0)
  | .b n v => ({ r with b := r.b.put 0 n v }, 0)
  | .l n v => ({ r with l := r.l.put 0 n v }, 0)
  | .m n v => ({ r with m := r.m.put 0 n v }, 0)
  | .accZero k => ({ r with a := r.a.put 0 k 0 }, 0)
  | .accSet k v sat =>
    let q := accResult v sat
    ({ r with a := r.a.put 0 k q.1 }, (if q.2.1 then extBit k else 0) ||| (if q.2.2 then ovfBit k else 0))
  | .accAdd k v sat =>
    let q := accResult ((r.ar k).toInt + v) sat
    ({ r with a := r.a.put 0 k q.1 }, (if q.2.1 then extBit k else 0) ||| (if q.2.2 then ovfBit k else 0))
  | .sr v => ({ r with sr := srWrite r.sr v }, 0)
  | .zn z n => ({ r with sr := srZn r.sr z n }, 0)
  | .znCv z n c v => ({ r with sr := srCv (srZn r.sr z n) c v }, 0)
  | .sticky m => (r, m)
  | .spc v => ({ r with spc := v.setWidth 14 }, 0)
  | .ssr v => ({ r with ssr := v }, 0)
  | .ks n v => (if n = 0 then { r with ks0 := v } else { r with ks1 := v }, 0)

/-- Writes of one cycle, oldest first; the sticky flags they set are in SR afterwards, whatever is written to it in the
same cycle (R158, R187). -/
def Tile.applyWs (r : Tile) (ws : List TWrite) : Tile :=
  let q := ws.foldl (fun (q : Tile × Word) w => let n := q.1.applyW w; (n.1, q.2 ||| n.2)) (r, 0)
  { q.1 with sr := q.1.sr ||| q.2 }

/-- One bundle passes: writes whose latency ends take effect (R185). -/
def Tile.age (r : Tile) : Tile :=
  let due := r.pend.filter (fun p => decide (p.left ≤ 1))
  let rest := (r.pend.filter (fun p => !decide (p.left ≤ 1))).map (fun p => { p with left := p.left - 1 })
  { (r.applyWs (due.map (·.w))) with pend := rest }

def Tile.applyF (r : Tile) : FWrite → Tile
  | .lc k v => { r with lc := r.lc.put 0 k v }
  | .ls k v => { r with ls := r.ls.put 0 k v }
  | .le k v => { r with le := r.le.put 0 k v }
  | .len v => { r with len := v }

/-- The choices that follow the next fetch see the writes whose turn has come (R193). -/
def Tile.ageF (r : Tile) : Tile :=
  let due := r.pendF.filter (fun p => decide (p.left = 0))
  let rest := (r.pendF.filter (fun p => !decide (p.left = 0))).map (fun p => { p with left := p.left - 1 })
  { (due.foldl (fun r p => r.applyF p.w) r) with pendF := rest }

/-- The drain of an entry: every write of every issued bundle (R185, R201). No latency is above 8. -/
def Tile.drain (r : Tile) : Tile :=
  let r := [1, 2, 3, 4, 5, 6, 7, 8].foldl (fun r _ => r.age) r
  { (r.pendF.foldl (fun r p => r.applyF p.w) r) with pendF := [] }

/-! ### The choice of R168 -/

/-- Levels `n` − 1 down to 0. -/
def Tile.chooseFrom (r : Tile) (a : BitVec 14) : Nat → Tile × BitVec 14
  | 0 => (r, a + 1)
  | k + 1 =>
    if 0 < r.lc.get 0 k ∧ r.le.get 0 k = a then
      if 1 < r.lc.get 0 k then ({ r with lc := r.lc.put 0 k (r.lc.get 0 k - 1) }, r.ls.get 0 k)
      else { r with lc := r.lc.put 0 k 0 }.chooseFrom a k
    else r.chooseFrom a k

/-- The address that follows the fetch of the bundle at `a`. -/
def Tile.choose (r : Tile) (a : BitVec 14) : Tile × BitVec 14 := if r.len then r.chooseFrom a 3 else (r, a + 1)

/-! ### Addresses (R182, Table 7.5) -/

/-- Fields of a memory slot below its opcode. -/
def memRd (f : BitVec 16) : Nat := bitsOf f.toNat 12 4
def memPi (f : BitVec 16) : Nat := bitsOf f.toNat 9 3
def memMode (f : BitVec 16) : Nat := bitsOf f.toNat 6 3
def memImm (f : BitVec 16) : Int := sext 6 (bitsOf f.toNat 0 6)

/-- The address mode and its immediate are ones that Table 7.4 defines. -/
def memForm (f : BitVec 16) : Bool :=
  match memMode f with
  | 0 => bitsOf f.toNat 0 6 == 0
  | 1 | 2 => true
  | 3 | 4 => bitsOf f.toNat 3 3 == 0
  | _ => false

/-- The address of an access of `size` bytes. -/
def Tile.addrOf (r : Tile) (f : BitVec 16) (size : Nat) : Word :=
  if memMode f = 1 then BitVec.ofInt 32 (((r.pr (memPi f)).toNat : Int) + memImm f * size) else r.pr (memPi f)

/-- The pointer's new value, where the mode updates it. -/
def Tile.pointerAfter (r : Tile) (f : BitVec 16) (size : Nat) : Option Word :=
  let i := memPi f
  let j := bitsOf f.toNat 0 3
  match memMode f with
  | 2 => some (postModify (r.pr i) (r.b.get 0 i) (r.l.get 0 i) (memImm f * size))
  | 3 => some (postModify (r.pr i) (r.b.get 0 i) (r.l.get 0 i) (r.mr j).toInt)
  | 4 => some (postReverse (r.pr i) (r.b.get 0 i) (r.l.get 0 i) (r.mr j))
  | _ => none

/-- The fault of an access (Table 6.2): 2 ADDR, 3 ALIGN, 0 none. -/
def accessFault (a : Word) (size : Nat) : Nat :=
  if 2 ^ 19 ≤ a.toNat then 2 else if a.toNat % size ≠ 0 then 3 else 0

end Sys2Proof.Machine
end

