-- ==== Sys2Proof/Machine/TileRun.lean ====
section
/-! DEFINITION. How a tile runs bundles (chapter 7): fetch and the choice of R168, the operations of a bundle gathered
until its last, faults, unit operations, the close of a bundle, entries, RESUME and IDLE; and the error histories of
the tile memories (R154 to R156). -/
namespace Sys2Proof.Machine
open Sys2Proof

/-! ### Error histories (R156) -/

/-- An error in a row: its entry moves to the front, the oldest of 16 gives way to a new one. Whether the row has become
a candidate. -/
def noteRow (hist : List RowHist) (bank row limit : Nat) (ue : Bool) : List RowHist × Bool :=
  let old := (hist.find? (fun h => h.bank == bank && h.row == row)).getD
    { bank := bank, row := row, ce := 0, ue := 0, cand := false }
  let new := if ue then { old with ue := old.ue + 1 } else { old with ce := old.ce + 1 }
  let cand := old.cand || ue || decide (max 1 limit ≤ new.ce)
  (({ new with cand := cand } :: hist.filter (fun h => !(h.bank == bank && h.row == row))).take 16, cand && !old.cand)

/-- An error that logical tile `t` meets in physical tile `p`: memory 0 program, 1 data. -/
def Dev.tileError (k : Clock) (d : Dev) (t p memory bank row : Nat) (ue : Bool) : Dev :=
  let x := d.phys p
  let q := noteRow (if memory = 0 then x.pmHist else x.dmHist) bank row d.til.ceLimit ue
  let d := d.setPhys p (if memory = 0 then { x with pmHist := q.1 } else { x with dmHist := q.1 })
  let d := d.bump1 (if memory = 0 then (if ue then .tilTPmUe else .tilTPmCe)
    else (if ue then .tilTDmUe else .tilTDmCe)) t
  if q.2 then
    let d := d.bump1 .tilTRowCandidate t
    let d := if d.til.ceEvt then
        d.event k 0x0681 t (memory + bank * 2 + row * 2 ^ 6 + (if ue then 2 ^ 15 else 0))
      else d
    if d.sys.evacRow || (ue && memory == 1 && d.sys.evacUe) then d.evacTrigger k t false else d
  else if ue && memory == 1 && d.sys.evacUe then d.evacTrigger k t false
  else d

/-- A data memory error at a byte address: bank by bits [6:3], row by bits [18:10]. -/
def Dev.dmError (k : Clock) (d : Dev) (t p a : Nat) (ue : Bool) : Dev :=
  d.tileError k t p 1 (bitsOf a 3 4) (bitsOf a 10 9) ue

/-- A program memory error at a bundle address: bank by bits [13:12], row by bits [11:3]. -/
def Dev.pmError (k : Clock) (d : Dev) (t p a : Nat) (ue : Bool) : Dev :=
  d.tileError k t p 0 (bitsOf a 12 2) (bitsOf a 3 9) ue

/-- Words of data memory marked uncorrectable among the `n` bytes at `a`. -/
def Phys.ueIn (x : Phys) (a n : Nat) : Bool :=
  (List.range ((a + n + 3) / 4 - a / 4)).any (fun i => x.ueWords.get false (a / 4 + i))

/-- The words that `n` bytes written at `a` cover whole lose their mark. -/
def Phys.unmark (x : Phys) (a n : Nat) : Phys :=
  let ws := (List.range ((a + n) / 4 - (a + 3) / 4)).foldl
    (fun (st : Store Bool) i => st.put false ((a + 3) / 4 + i) false) x.ueWords
  { x with ueWords := ws }

def Phys.mark (x : Phys) (a : Nat) : Phys := { x with ueWords := x.ueWords.put false (a / 4) true }

/-! ### Fetch -/

/-- What an operation sees: the tile's registers after its bundle's fetch, and the data memory. -/
structure OpCtx where
  r  : Tile
  m  : Mems
  p  : Nat
  ue : Phys

/-- RESUME's target fetch (R204). -/
def Dev.resumed (k : Clock) (d : Dev) (t : Nat) : Dev :=
  let r := d.tile t
  (d.setTile t { r with sr := r.ssr &&& srMask, len := srLen r.ssr, curth := r.nxtth, curctx := r.nxtctx, eblk := false,
                        resuming := false }).schResumed k t

/-- The choice that follows the second slot of a taken branch is not made (R191). -/
def Tile.choiceStopped (r : Tile) : Bool :=
  r.slots == 1 && (match r.after with
    | .jump _ | .resume _ => true
    | _ => false)

/-- The fetch of the next bundle: the loop registers as R193 times them, the choice of R168, and the check bits of the
bundle (R154, R155). -/
def Dev.fetch (k : Clock) (d : Dev) (t p ecc : Nat) : Dev :=
  let d := if (d.tile t).resuming then d.resumed k t else d
  let r := (d.tile t).ageF
  let was := r.lc
  let q := if r.choiceStopped then (r, r.pc) else r.choose r.pc
  let b : Bundle := if ecc = 2 then { faults := [(1, 0)] } else {}
  let d := d.setTile t { q.1 with next := q.2, lcWas := was, opened := some b }
  if ecc = 0 then d else d.pmError k t p r.pc.toNat (ecc == 2)

/-- A request stands that must be taken in place of the next fetch (R201, R202). -/
def Dev.requestDue (d : Dev) (t : Nat) : Bool :=
  let r := d.tile t
  (d.stl t).req.isSome && (!r.eblk || r.resuming) && r.slots == 0 && r.opened.isNone

/-- The tile issues. -/
def Dev.issuing (d : Dev) (t : Nat) : Bool := d.posActive t && (d.tile t).run == .issuing

/-! ### Faults (R157, R203) -/

/-- The first cause in the order of Table 6.2; of several faults of that cause, the first in slot order. -/
def pickFault (l : List (Nat × Nat)) : Option (Nat × Nat) :=
  [1, 2, 3, 4].findSome? (fun (c : Nat) => l.find? (fun (x : Nat × Nat) => x.1 == c))

/-- The tile takes an entry: the shadow registers, the cause, the Barista's part, the vector (R201). -/
def Dev.entry (k : Clock) (d : Dev) (t : Nat) (e : Entry) (spc : BitVec 14) (cause faddr vector : Nat) : Dev :=
  let r := (d.tile t).drain
  let d := d.setTile t { r with ssr := r.sr, sr := srPut r.sr 4 false, len := false, eblk := true, spc := spc,
                                ecause := BitVec.ofNat 32 cause, faddr := BitVec.ofNat 32 faddr, slots := 0,
                                after := .onward, resuming := false, opened := none, run := .issuing,
                                pc := BitVec.ofNat 14 vector }
  let d := d.leaveTile t (r.curth.getD 8192)
  let d := (d.schEntry k t e).cancelsDone k
  let x := (d.stl t).bound
  d.modTile t (fun r => { r with nxtth := x, nxtctx := match x with
    | some n => (d.thr n).ctx
    | none => 0 })

/-- The bundle at PC faults. -/
def Dev.tileFault (k : Clock) (d : Dev) (t code faddr : Nat) : Dev :=
  let r := d.tile t
  if r.eblk then
    ((((d.setTile t { r with run := .stopped, opened := none, slots := 0 }).bump1 .tilTDoubleFault t).schStop k t).evacTrigger k t
      true).cancelsDone k
  else
    let d := d.setTile t { r with lc := r.lcWas }
    let d := d.bump ⟨.tilTFault, t, code⟩
    let d := d.event k 0x0682 t (r.curth.getD 0 + r.pc.toNat * 2 ^ 13 + code * 2 ^ 27)
    d.entry k t .fault r.pc (6 + code * 2 ^ 8) faddr 32

/-! ### Unit operations (R194 to R199) -/

/-- A Hopper read as Table 7.14 lays it out. -/
def gotStatus (g : Got) : Word :=
  BitVec.ofNat 32 ((b2n g.idle) * 2 ^ 8 + (b2n g.first) * 2 ^ 9 + (b2n g.last) * 2 ^ 10 + g.prio % 8 * 2 ^ 11 + g.left * 2 ^ 16)

def stWord (st : Status) : Word := BitVec.ofNat 32 (statusCode st)

/-- An operation on a Hopper that is not set up answers ST_UNKNOWN_OBJECT. -/
def Dev.onHopper (d : Dev) (h : Nat) (f : Dev → Status × Dev) : Word × Dev :=
  if d.hopUp h then let q := f d; (stWord q.1, q.2) else (stWord .unknownObject, d)

/-- A descriptor that ends: its RESULT word (R172, Table 6.6). -/
def resultWord (st : Status) (idle : Bool) (count : Nat) : Nat :=
  statusCode st + 2 ^ 8 + b2n idle * 2 ^ 9 + count % 2 ^ 16 * 2 ^ 16

/-- The 32-bit words, of `n` at `a`, that the marks of R155 or the check bits of this read (`ues`) show as uncorrectable. -/
def Phys.badWords (x : Phys) (ues : List Nat) (a n : Nat) : List Nat :=
  (List.range n).filter (fun i => ues.contains i || x.ueIn (a + 4 * i) 4)

/-- The fields of a descriptor, from its bytes by offset and length (Table 6.6). -/
def descFrom (rd : Nat → Nat → Nat) : Desc :=
  let w0 := rd 0 4
  let w1 := rd 4 4
  let rem := rd 8 8
  let w4 := rd 16 4
  let kind := bitsOf w0 0 4
  let remBad := if kind = 1 || kind = 2 then decide (2 ^ 36 ≤ rem)
    else if kind = 3 || kind = 4 then bitsOf rem 19 13 != 0 || decide (2 ^ 38 ≤ rem)
    else if kind = 5 || kind = 6 then decide (1024 ≤ rem) else false
  { kind := kind, notify := bitOf w0 4, prio := bitsOf w0 5 3, flag := bitsOf w0 8 5, thread := bitsOf w0 16 13,
    loc := bitsOf w1 0 19, remote := rem, len := bitsOf w4 0 20, rows := bitsOf w4 20 12,
    lstride := sext 32 (rd 20 4), rstride := sext 32 (rd 24 4),
    bad := bitsOf w0 13 3 != 0 || bitsOf w0 29 3 != 0 || bitsOf w1 19 13 != 0 || remBad ||
      (kind != 6 && bitsOf w0 5 3 != 0) }

/-- The descriptor at an address. -/
def Mems.desc (m : Mems) (p a : Nat) : Desc := descFrom (fun o n => m.dmRead p (a + o) n)

/-- The same, its 64-bit words with an uncorrectable 32-bit word among `bad` as zero (R155). -/
def Mems.descRead (m : Mems) (p a : Nat) (bad : List Nat) : Desc :=
  descFrom (fun o n => if bad.any (fun i => i / 2 == o / 8) then 0 else m.dmRead p (a + o) n)

/-- A descriptor completes: RESULT, then the flag of NOTIFY (R172); an aborted one is counted (R175). -/
def dmaResult (k : Clock) (t p a : Nat) (de : Desc) (st : Status) (idle : Bool) (count : Nat) (m : Mems) (d : Dev) :
    Mems × Dev :=
  let m := m.dmWrite p (a + 28) 4 (resultWord st idle count)
  let d := d.modPhys p (fun x => x.unmark (a + 28) 4)
  let d := if st == .aborted then d.bump1 .tilTDmaAbort t
    else if st == .badArg then d.bump1 .tilTDmaBadDesc t
    else if st == .poisoned then d.bump1 .tilTDmaPoisoned t else d
  (m, if de.notify then d.setFlags k [(5, de.thread, de.flag)] else d)

/-- Queued descriptors that end without moving data, in posting order. -/
def dmaCut (k : Clock) (t p : Nat) : List Nat → Mems → Dev → Mems × Dev
  | [], m, d => (m, d)
  | a :: r, m, d =>
    let q := dmaResult k t p a (m.desc p a) .aborted false 0 m d
    dmaCut k t p r q.1 q.2

def Dev.chan (d : Dev) (t c : Nat) : Chan := (d.tile t).chans.get {} c
def Dev.setChan (d : Dev) (t c : Nat) (x : Chan) : Dev := d.modTile t (fun r => { r with chans := r.chans.put {} c x })

/-- The descriptors of a channel, the one in progress included. -/
def Chan.depth (x : Chan) : Nat := x.queue.length + b2n x.run.isSome

/-- DMA_ABORT (R175). -/
def dmaAbort (k : Clock) (t p c : Nat) (m : Mems) (d : Dev) : Mems × Dev :=
  let x := d.chan t c
  match x.run with
  | some run =>
    let st := if run.st == .ok then Status.aborted else run.st
    (m, d.setChan t c { x with cut := x.queue.length, run := some { run with st := st } })
  | none => dmaCut k t p x.queue m (d.setChan t c { x with queue := [], cut := 0 })

/-- DMAPOST (R170, R199). -/
def Dev.dmaPost (d : Dev) (t c : Nat) (a : Word) : Status × Dev :=
  if a.toNat % 8 ≠ 0 || decide (2 ^ 19 < a.toNat + 32) then (.badArg, d.bump1 .tilTDmaBadDesc t)
  else
    let x := d.chan t c
    if 8 ≤ x.depth then (.noResource, d.bump1 .tilTDmaQueueFull t)
    else (.ok, d.setChan t c { x with queue := x.queue ++ [a.toNat] })

/-- ALMARM from the block at an address (R197, Table 2.11): five words, each delivered as zero where it is uncorrectable. Whether
one of them was. -/
def Dev.almarm (k : Clock) (m : Mems) (t p : Nat) (d : Dev) (a : Word) (ces ues : List Nat) : Status × Bool × Dev :=
  let n := a.toNat
  if n % 4 ≠ 0 || decide (2 ^ 19 < n + 20) then (.badArg, false, d)
  else
    let bad := (d.phys p).badWords ues n 5
    let w := fun (i : Nat) => if bad.contains i then 0 else m.dmRead p (n + 4 * i) 4
    let d := ((List.range 5).filter (fun i => ces.contains i && !bad.contains i)).foldl
      (fun d i => d.dmError k t p (n + 4 * i) false) d
    let d := bad.foldl (fun d i => d.dmError k t p (n + 4 * i) true) d
    if bitsOf (w 0) 18 14 ≠ 0 then (.badArg, !bad.isEmpty, d)
    else
      let q := d.armAlarm k false (bitsOf (w 0) 0 16) (bitOf (w 0) 16) (bitOf (w 0) 17) (w 1 + w 2 * 2 ^ 32) (w 3)
        (bitsOf (w 4) 30 2) (bitsOf (w 4) 0 30)
      (q.1, !bad.isEmpty, q.2)

/-- A unit operation, performed in its bundle's order: the memories, the device, and the result it writes. -/
def unitOp (k : Clock) (t p : Nat) (m : Mems) (d : Dev) (u : UnitOp) : Mems × Dev × List PendW :=
  let th := (d.tile t).curth.getD 8192
  match u with
  | .signal n f => (m, d.setFlags k [(8, n % 8192, f)], [])
  | .flagtake xd mask =>
    if th < 8192 then
      let x := d.thr th
      (m, d.setThr th { x with flags := x.flags &&& ~~~mask }, [⟨8, .x xd (x.flags &&& mask)⟩])
    else (m, d, [⟨8, .x xd 0⟩])
  | .time xd =>
    let n := clockStamp k
    (m, d, [⟨2, .x xd (BitVec.ofNat 32 n)⟩, ⟨2, .x (xd + 1) (BitVec.ofNat 32 (n / 2 ^ 32))⟩])
  | .almarm xd a ces ues =>
    let q := d.almarm k m t p a ces ues
    (m, q.2.2, ⟨8, .x xd (stWord q.1)⟩ :: (if q.2.1 then [⟨8, .sticky merrBit⟩] else []))
  | .almdis xd slot =>
    let q := d.disarmAlarm k false slot
    (m, q.2.2, [⟨8, .x xd (BitVec.ofNat 32 (statusCode q.1 + b2n q.2.1 * 2 ^ 8))⟩])
  | .hput h w => (m, d.hput t th h w, [])
  | .hcommit xd h prio => let q := d.hcommit k t th h prio; (m, q.2, [⟨8, .x xd (stWord q.1)⟩])
  | .habort xd h => let q := d.habort t th h; (m, q.2, [⟨8, .x xd (stWord q.1)⟩])
  | .hget xd h ecc =>
    if d.hopUp h then
      let q := d.hopGet h ecc
      (m, q.2, [⟨8, .x xd q.1.word⟩, ⟨8, .x (xd + 1) (gotStatus q.1)⟩])
    else (m, d, [⟨8, .x xd 0⟩, ⟨8, .x (xd + 1) (stWord .unknownObject)⟩])
  | .hnext xd h => let q := d.onHopper h (fun d => (.ok, d.hopNext h)); (m, q.2, [⟨8, .x xd q.1⟩])
  | .hmark xd h => let q := d.onHopper h (fun d => (.ok, d.hopMark h)); (m, q.2, [⟨8, .x xd q.1⟩])
  | .hrewind xd h => let q := d.onHopper h (fun d => d.hopRewind h); (m, q.2, [⟨8, .x xd q.1⟩])
  | .hrelease xd h => let q := d.onHopper h (fun d => (.ok, d.hopRelease k h)); (m, q.2, [⟨8, .x xd q.1⟩])
  | .dmapost xd c a => let q := d.dmaPost t c a; (m, q.2, [⟨2, .x xd (stWord q.1)⟩])
  | .dmaabort xd c => let q := dmaAbort k t p c m d; (q.1, q.2, [⟨2, .x xd 0⟩])
  | .dmaq xd c => (m, d, [⟨2, .x xd (BitVec.ofNat 32 ((d.chan t c).depth * 2 ^ 8))⟩])

/-! ### The close of a bundle -/

/-- The slots of a format of Table 7.1. -/
def Bundle.formed (b : Bundle) : Bool :=
  decide (b.macN ≤ 1) &&
    ((decide (b.memN ≤ 1) && decide (b.ctlN ≤ 1) && b.longN == 0) ||
     (b.longN == 1 && b.memN == 0 && b.ctlN == 0) ||
     (b.memN == 2 && b.ctlN == 0 && b.longN == 0))

/-- The bundle's stores, and the marks of the words they cover whole; a 16-bit store leaves the mark of its word. -/
def doStores (p : Nat) : List TStore → Mems → Dev → Mems × Dev
  | [], m, d => (m, d)
  | s :: r, m, d => doStores p r (m.dmWrite p s.addr s.size s.val.toNat) (d.modPhys p (fun x => if s.mark then x.mark s.addr else x.unmark s.addr s.size))

/-- Where the next fetch is, once a bundle has closed: a redirecting operation opens its two slots; what it does follows
the second (R191, R195, R204). -/
def Tile.advance (r : Tile) (flow : Option After) : Tile :=
  match flow with
  | some a => { r with pc := r.next, slots := 2, after := a }
  | none =>
    if r.slots = 1 then
      let r' := { r with slots := 0, after := .onward }
      match r.after with
      | .onward => { r' with pc := r.next }
      | .jump a => { r' with pc := a }
      | .resume a => { r' with pc := a, resuming := true }
      | .turn e => { r' with pc := r.next, run := .ended e }
      | .idle => { r'.drain with pc := r.next, run := .gated }
    else { r with pc := r.next, slots := r.slots - 1 }

/-- The bundle's last operation has been given: it faults whole, or acts whole (R180). -/
def closeBundle (k : Clock) (t p : Nat) (m : Mems) (d : Dev) : Mems × Dev :=
  match (d.tile t).opened with
  | none => (m, d)
  | some b =>
    match pickFault (b.faults ++ (if b.formed then [] else [(4, 0)])) with
    | some (code, faddr) => (m, d.tileFault k t code faddr)
    | none =>
      let d := b.ces.foldl (fun d a => d.dmError k t p a false) d
      let d := b.ues.foldl (fun d a => d.dmError k t p a true) d
      let q := match b.unit with
        | some u => unitOp k t p m d u
        | none => (m, d, [])
      let w := doStores p b.stores q.1 q.2.1
      let r := w.2.tile t
      let r := { r with pend := r.pend ++ b.writes ++ q.2.2, pendF := r.pendF ++ b.fws, opened := none }
      let d := w.2.setTile t (r.age.advance b.flow)
      (w.1, if (d.tile t).run == .gated then d.schIdle k t else d)

/-- The bundle that the program memory holds at the tile's PC has an opcode that chapter 7 does not define, or FORMAT 0b11
(R157, R181). -/
def Dev.undefinedAt (d : Dev) (m : Mems) (t p : Nat) : Bool := (decodeBundle t (m.bundle p (d.tile t).pc.toNat)).isNone

/-- One operation of a bundle: the fetch where it is the bundle's first, what it adds to the bundle, and the close where
it is the last. A bundle that is not defined faults whole at its fetch. Nothing happens on a tile that does not issue, or whose
next fetch an entry must replace. -/
def tileOp (sl : Slot) (f : OpCtx → Bundle → Bundle) (k : Clock) (m : Mems) (d : Dev) : Mems × Dev :=
  match d.physOf sl.tile with
  | none => (m, d)
  | some p =>
    if d.issuing sl.tile && !d.requestDue sl.tile then
      let undef := (d.tile sl.tile).opened.isNone && d.undefinedAt m sl.tile p
      let d := if (d.tile sl.tile).opened.isNone then d.fetch k sl.tile p sl.pmEcc else d
      let r := d.tile sl.tile
      if undef then
        let b := r.opened.getD {}
        closeBundle k sl.tile p m (d.setTile sl.tile { r with opened := some { b with faults := b.faults ++ [(4, 0)] } })
      else
      let b := f { r := r, m := m, p := p, ue := d.phys p } (r.opened.getD {})
      let d := d.setTile sl.tile { r with opened := some b }
      if sl.fin then closeBundle k sl.tile p m d else (m, d)
    else (m, d)

/-! ### What an operation adds to its bundle -/

/-- A fault of the bundle. -/
def Bundle.fault (b : Bundle) (code addr : Nat) : Bundle := { b with faults := b.faults ++ [(code, addr)] }
def Bundle.illegal (b : Bundle) : Bundle := b.fault 4 0

/-- The registers a slot writes; two slots that write one register make the bundle illegal (R181). -/
def Bundle.names (b : Bundle) (l : List Nat) : Bundle :=
  let b' := { b with dests := b.dests ++ l }
  if l.any (fun n => b.dests.contains n) then b'.illegal else b'

def Bundle.wr (b : Bundle) (l : List PendW) : Bundle := { b with writes := b.writes ++ l }

/-- The operation of the MAC slot, of a memory slot, of the short and of the long control slot; one whose fields are not
as this chapter defines them makes the bundle illegal (R181). -/
def macSlot (ok : Bool) (f : Bundle → Bundle) (b : Bundle) : Bundle :=
  let b := { b with macN := b.macN + 1 }
  if ok then f b else b.illegal
def memSlot (ok : Bool) (f : Bundle → Bundle) (b : Bundle) : Bundle :=
  let b := { b with memN := b.memN + 1 }
  if ok then f b else b.illegal
def ctlSlot (ok : Bool) (f : Bundle → Bundle) (b : Bundle) : Bundle :=
  let b := { b with ctlN := b.ctlN + 1 }
  if ok then f b else b.illegal
def longSlot (ok : Bool) (f : Bundle → Bundle) (b : Bundle) : Bundle :=
  let b := { b with longN := b.longN + 1 }
  if ok then f b else b.illegal

/-! ### Entries (R195, R201, R204) -/

def turnCause : Turn → Nat
  | .wait _ _ => 1 | .yield => 2 | .texit => 3

/-- The next entry of tile `t` that is not a fault's. -/
def Dev.takeEntry (k : Clock) (d : Dev) (t : Nat) : Dev :=
  let r := d.tile t
  if !d.posActive t || !(d.phys ((d.physOf t).getD 0)).cleared then d
  else
    match r.run with
    | .stopped => d
    | .ended e => (d.bump1 .tilTDispatch t).entry k t (.turn e) r.pc (turnCause e) 0 0
    | .gated =>
      match (d.stl t).bound with
      | none => d
      | some n =>
        let r := r.drain
        let d := d.setTile t { r with ssr := r.sr, sr := srPut r.sr 4 false, len := false, eblk := true, spc := r.pc,
                                      ecause := 0, faddr := 0, run := .issuing, pc := 0, nxtth := some n,
                                      nxtctx := (d.thr n).ctx }
        d.bump1 .tilTDispatch t
    | .issuing =>
      if d.requestDue t then
        let d := if r.resuming then d.resumed k t else d
        let spc := (d.tile t).pc
        let d := d.bump1 .tilTPreempt t
        match (d.stl t).req with
        | some .cancel => d.entry k t .cancel spc 5 0 16
        | some .hold => d.entry k t .hold spc 4 0 16
        | _ => d.entry k t .preempt spc 4 0 16
      else d

def execEntry (t : Nat) (s : State) : Out := onDev (fun k d => d.takeEntry k t) s

/-- Hardware has cleared the data memory of a physical tile (R153). -/
def execDataMemoryClearDone (p : Nat) (s : State) : Out :=
  onMem (fun _ m d =>
    if p < 34 && !(d.phys p).cleared then (m.clearDm p, d.modPhys p (fun x => { x with cleared := true, ueWords := [] })) else (m, d)) s

end Sys2Proof.Machine
end

