-- ==== Sys2Proof/Machine/Dma.lean ====
section
/-! DEFINITION. The tiles' DMA engines (R170 to R175) and the tile commands (Table 6.7). -/
namespace Sys2Proof.Machine
open Sys2Proof

/-! ### Validation (R171) -/

/-- The least and the greatest first byte of the rows on one side. -/
def rowSpan (base : Nat) (stride : Int) (rows : Nat) : Int × Int :=
  let last := (base : Int) + stride * ((rows : Int) - 1)
  (if stride < 0 then last else (base : Int), if stride < 0 then (base : Int) else last)

/-- Every row lies within `lo` to `hi`, exclusive. -/
def rowsIn (base : Nat) (stride : Int) (rows len : Nat) (lo hi : Nat) : Bool :=
  let q := rowSpan base stride rows
  decide ((lo : Int) ≤ q.1) && decide (q.2 + len ≤ hi)

/-- The remote byte address and the remote tile of a KIND 3 or 4 descriptor. -/
def Desc.remoteAddr (e : Desc) : Nat := if e.kind = 3 || e.kind = 4 then bitsOf e.remote 0 19 else e.remote
def Desc.remoteTile (e : Desc) : Nat := bitsOf e.remote 32 6

/-- The descriptor fails validation. -/
def Desc.invalid (e : Desc) : Bool :=
  let move := decide (1 ≤ e.kind) && decide (e.kind ≤ 4)
  e.bad || decide (e.kind = 0) || decide (7 < e.kind) || e.rows == 0 ||
  ((move || e.kind == 7) && (e.loc % 8 != 0 || e.len % 8 != 0 || e.len == 0 || e.lstride % 8 != 0 || e.rstride % 8 != 0 ||
    (move && e.remoteAddr % 8 != 0))) ||
  ((e.kind == 5 || e.kind == 6) && (e.loc % 4 != 0 || e.len % 4 != 0 || decide (e.len < 4) || decide (8192 < e.len) ||
    e.rows != 1 || e.lstride != 0)) ||
  (decide (5 ≤ e.kind) && e.rstride != 0) ||
  !rowsIn e.loc e.lstride e.rows e.len 0 524288 ||
  ((e.kind == 3 || e.kind == 4) && !rowsIn e.remoteAddr e.rstride e.rows e.len 0 524288)

/-- The status that the checks of R171 give a descriptor of the tile. -/
def Dev.dmaCheck (d : Dev) (e : Desc) : Status :=
  if e.invalid then .badArg
  else if e.kind = 1 || e.kind = 2 then
    if rowsIn e.remoteAddr e.rstride e.rows e.len d.til.winLo d.til.winHi then .ok else .notPermitted
  else if e.kind = 3 || e.kind = 4 then
    if 33 < e.remoteTile then .unknownObject else if d.posActive e.remoteTile then .ok else .notPermitted
  else if e.kind = 5 || e.kind = 6 then if d.hopUp e.remote then .ok else .unknownObject
  else .ok

/-! ### The run of a descriptor -/

/-- The engine takes the next descriptor of a channel: it reads and checks it, and a Hopper commit begins its burst in
its turn (R233). One with an uncorrectable word moves nothing and ends with ST_POISONED (R155). -/
def dmaStart (k : Clock) (t p : Nat) (c : ChanRead) (m : Mems) (d : Dev) : Dev :=
  let x := d.chan t c.chan
  match x.run, x.queue with
  | none, a :: r =>
    let bad := (d.phys p).badWords c.ues a 8
    let e := m.descRead p a bad
    let d := ((List.range 8).filter (fun i => c.ces.contains i && !bad.contains i)).foldl
      (fun d i => d.dmError k t p (a + 4 * i) false) d
    let d := bad.foldl (fun d i => d.dmError k t p (a + 4 * i) true) d
    let st := if bad.isEmpty then d.dmaCheck e else .poisoned
    let d := if st == .notPermitted && (e.kind = 1 || e.kind = 2) then d.bump1 .tilTDmaDenied t else d
    let q := if st == .ok && e.kind = 6 then
        d.burstOpen k e.remote (.dma t c.chan) e.prio (List.replicate (e.len / 4) 0)
      else (st, d)
    q.2.setChan t c.chan { queue := r, cut := 0, run := some { addr := a, desc := e, st := q.1, port := tilePort p } }
  | _, _ => d

def execDmaDescStart (t : Nat) (c : ChanRead) (s : State) : Out :=
  onMem (fun k m d =>
    match d.physOf t with
    | some p =>
      if c.chan < 4 && !d.sys.evac.any (fun v => v.held && v.tile == t) then (m, dmaStart k t p c m d) else (m, d)
    | none => (m, d)) s

/-- The address of row `j`. -/
def rowAt (base : Nat) (stride : Int) (j : Nat) : Nat := ((base : Int) + stride * (j : Int)).toNat

/-- Bytes read from a data memory, the 64-bit words with an uncorrectable error as zero (R155). -/
def Mems.dmSend (m : Mems) (x : Phys) (p : Nat) (ues : List Nat) (a n : Nat) : List Byte :=
  (List.range n).map (fun i =>
    if x.ueIn ((a + i) / 8 * 8) 8 || ues.contains ((a + i) / 8) then 0 else m.dm.get 0 (dmKey p (a + i)))

/-- The bytes of `n` at `a` meet an uncorrectable word. -/
def sendBad (x : Phys) (ues : List Nat) (a n : Nat) : Bool :=
  (List.range ((a + n + 7) / 8 - a / 8)).any (fun i => x.ueIn ((a / 8 + i) * 8) 8 || ues.contains (a / 8 + i))

/-- A bundle that is open on physical tile `p` keeps what `n` bytes at `a` held before the DMA engine writes them in its cycle: its
reads see that, and its stores, which come at its close, stand (R152). -/
def Dev.holdBytes (m : Mems) (d : Dev) (p a n : Nat) : Dev :=
  match (List.range 34).find? (fun t => d.physOf t == some p) with
  | none => d
  | some t =>
    match (d.tile t).opened with
    | none => d
    | some b =>
      let old := ((List.range n).map (fun i => (a + i, m.dm.get 0 (dmKey p (a + i))))).filter
        (fun x => !b.was.any (fun y => y.1 == x.1))
      d.modTile t (fun r => { r with opened := some { b with was := b.was ++ old } })

/-- Bytes written into a data memory. -/
def dmaPut (p a : Nat) (bs : List Byte) (m : Mems) (d : Dev) : Mems × Dev :=
  (m.dmPut p a bs, (d.holdBytes m p a bs.length).modPhys p (fun x => x.unmark a bs.length))

/-- The fill pattern of a row. -/
def fillBytes (pat n : Nat) : List Byte := (List.range n).map (fun i => BitVec.ofNat 8 (pat / 256 ^ (i % 8)))

/-- What the errors of `n` bytes of tile memory at `a` count, as the engine reads them (R154, R155): words by 64-bit index. -/
def Dev.sendErrors (k : Clock) (d : Dev) (t p a n : Nat) (ces ues : List Nat) : Dev :=
  let x := d.phys p
  let ws := (List.range ((a + n + 7) / 8 - a / 8)).map (fun i => a / 8 + i)
  let bad := ws.filter (fun w => x.ueIn (w * 8) 8 || ues.contains w)
  let d := (ws.filter (fun w => ces.contains w && !bad.contains w)).foldl (fun d w => d.dmError k t p (w * 8) false) d
  bad.foldl (fun d w => d.dmError k t p (w * 8) true) d

/-- The controller holds a request that was accepted before this one and goes to its block (R432), or the block is locked by a
copy (R446). -/
def Dev.blockBusy (d : Dev) (r off : Nat) : Bool :=
  d.dram.reqs.any (fun q => q.rank == r && q.off / 64 == off / 64) ||
  (match d.dram.mig with
   | some g => g.src == r && g.lock == some (off / 64)
   | none => false)

/-- One request of a tile's engine, within one block, is accepted and served (R429, R435, R436): whether its data is poisoned. One
that R426 denies reads zero and writes nothing. -/
def dmaRequest (k : Clock) (port a n : Nat) (data : Option (List Byte)) (ecc : Nat) (m : Mems) (d : Dev) :
    List Byte × Bool × Mems × Dev :=
  let kind := match data with
    | some l => DKind.write l
    | none => DKind.read
  match d.dramPlace a with
  | none =>
    (List.replicate n 0, false, m, (d.bump0 .dmcAddrDenied).answerPort port .notPermitted (List.replicate n 0))
  | some (r, off) =>
    let d := if data.isNone then d.orderCheck port r off else d
    let q : DReq := { id := d.dram.nextId, port := port, addr := a, len := n, kind := kind, rank := r, off := off,
                      at_ := nowAbs k, late := false, set := d.dram.port port }
    let w := serveReq k q ecc m (d.setDram { d.dram with nextId := d.dram.nextId + 1 })
    (w.1.dramBytes a n, (w.2.dram.answer.get (.ok, []) port).1 == .poisoned, w.1, w.2)

/-- The first bytes of `n` at `a` that lie in one block. -/
def blockPart (a n : Nat) : Nat := min n (64 - a % 64)

/-- Bytes `o` to `o` + `n` − 1 of row `j` are moved: KIND 1 to 4 and 7. `q` is the remote tile's memory, `u` its position. `ues` and
`ces` are the 64-bit words of the source tile memory whose check bits have been found uncorrectable or corrected, `ecc` what the
check bits of a DRAM block say. Whether the bytes are poisoned. -/
def movePart (k : Clock) (t p u q : Nat) (run : DmaRun) (ces ues : List Nat) (ecc j o n : Nat) (m : Mems) (d : Dev) :
    Bool × Mems × Dev :=
  let e := run.desc
  let a := rowAt e.loc e.lstride j + o
  let b := rowAt e.remoteAddr e.rstride j + o
  match e.kind with
  | 1 =>
    let r := dmaRequest k run.port b n none ecc m d
    let w := dmaPut p a r.1 r.2.2.1 r.2.2.2
    (r.2.1, w.1, w.2)
  | 2 =>
    let r := dmaRequest k run.port b n (some (m.dmSend (d.phys p) p ues a n)) ecc m (d.sendErrors k t p a n ces ues)
    (sendBad (d.phys p) ues a n, r.2.2.1, r.2.2.2)
  | 3 =>
    let w := dmaPut p a (m.dmSend (d.phys q) q ues b n) m (d.sendErrors k u q b n ces ues)
    (sendBad (d.phys q) ues b n, w.1, w.2)
  | 4 =>
    let w := dmaPut q b (m.dmSend (d.phys p) p ues a n) m (d.sendErrors k t p a n ces ues)
    (sendBad (d.phys p) ues a n, w.1, w.2)
  | _ =>
    let w := dmaPut p a (fillBytes e.remote n) m d
    (false, w.1, w.2)

/-- The bytes that one request of row `j` moves from its byte `o` on, at most `n`; none where its block is busy. -/
def DmaRun.part (d : Dev) (run : DmaRun) (j o n : Nat) : Nat :=
  let e := run.desc
  if e.kind = 1 || e.kind = 2 then
    let b := rowAt e.remoteAddr e.rstride j + o
    match d.dramPlace b with
    | some (r, off) => if d.blockBusy r off then 0 else blockPart b n
    | none => blockPart b n
  else n

/-- The engine moves on from the bytes it has moved to `goal`, row after row (R172). `poison` is the first row at which the DRAM's
check bits find a block uncorrectable. -/
def moveOn (k : Clock) (t p u q goal : Nat) (poison : Option Nat) (ces ues : List Nat) :
    Nat → DmaRun → Mems → Dev → DmaRun × Mems × Dev
  | 0, run, m, d => (run, m, d)
  | f + 1, run, m, d =>
    if goal ≤ run.moved then (run, m, d)
    else
      let len := max 1 run.desc.len
      let j := run.moved / len
      let o := run.moved % len
      let n := run.part d j o (min (len - o) (goal - run.moved))
      if n = 0 then (run, m, d)
      else
        let w := movePart k t p u q run ces ues (if poison == some j && o == 0 then 2 else 0) j o n m d
        moveOn k t p u q goal poison ces ues f
          { run with moved := run.moved + n, bad := if w.1 && run.bad.isNone then some j else run.bad } w.2.1 w.2.2

/-- The words of a Hopper commit's burst take the data read, in the queue SRAM too. -/
def Dev.fillBurst (d : Dev) (h : Nat) (ws : List Word) : Dev :=
  let x := d.hopper h
  match x.burst with
  | some b =>
    let d := if b.voided then d else d.writeWords (x.bankAt x.fb + b.start + 1) ws
    d.modHopper h (fun x => { x with burst := some { b with words := ws } })
  | none => d

/-- The end of a Hopper commit: committed, aborted, or gone with its Hopper (R174, R175, R233, R235, R247). -/
def Dev.dmaCommit (k : Clock) (d : Dev) (t c : Nat) (e : Desc) (ws : List Word) (abort : Bool) : Status × Dev :=
  let x := d.hopper e.remote
  if x.mine (.dma t c) then (d.fillBurst e.remote ws).burstEnd k e.remote (!abort)
  else if x.waits (.dma t c) then
    (.aborted, d.setHopper e.remote { x with queue := x.queue.filter (fun w => w.prod != .dma t c) })
  else (.aborted, d)

/-- The words of a Hopper read whose check bits this read finds in error, beside those that stand in error (R244). -/
def Dev.hopReadErrors (d : Dev) (h : Nat) (ces ues : List Nat) : Dev :=
  let x := d.hopper h
  match x.seq[x.rp]? with
  | none => d
  | some q =>
    let w := x.bankAt (1 - x.fb) + q.start + 1 + x.ro
    (List.range (q.n - x.ro)).foldl (fun d i =>
      d.qRead h (w + i) (max (d.hop.qErr.get 0 (w + i)) (if ues.contains i then 2 else if ces.contains i then 1 else 0))) d

/-- A Hopper read (R174, R244): the status, IDLE, COUNT. -/
def dmaHopRead (p : Nat) (e : Desc) (ces ues : List Nat) (m : Mems) (d : Dev) : (Status × Bool × Nat) × Mems × Dev :=
  if !d.hopUp e.remote then ((.unknownObject, false, 0), m, d)
  else if (d.hopRest e.remote).isEmpty then
    let w := dmaPut p e.loc (natBytes 4 0xFFFF0000) m d
    ((.ok, true, 1), w.1, w.2)
  else if e.len < 4 * (d.hopRest e.remote).length then ((.noResource, false, 0), m, d)
  else
    let before := d.count ⟨.hopHUe, e.remote, 0⟩
    let d := d.hopReadErrors e.remote ces ues
    let ws := d.hopRest e.remote
    let w := dmaPut p e.loc (ws.flatMap (fun v => natBytes 4 v.toNat)) m (d.hopNext e.remote)
    (if d.count ⟨.hopHUe, e.remote, 0⟩ = before then (.ok, false, ws.length) else (.poisoned, false, 0), w.1, w.2)

/-- A descriptor ends with a status: RESULT and NOTIFY, then those that a DMA_ABORT ended behind it (R172, R175). -/
def dmaEnd (k : Clock) (t p c : Nat) (run : DmaRun) (st : Status) (idle : Bool) (count : Nat) (m : Mems) (d : Dev) :
    Mems × Dev :=
  let x := d.chan t c
  let r := dmaResult k t p run.addr run.desc st idle count m (d.setChan t c { queue := x.queue.drop x.cut, cut := 0, run := none })
  dmaCut k t p (x.queue.take x.cut) r.1 r.2

/-- A descriptor of KIND 1 to 4 or 7 moves on, and ends where it has moved every byte, or where it has been aborted (R172, R173,
R175). A remote position that holds no tile any more ends it as at its start (R171). -/
def dmaMove (k : Clock) (t p c moved : Nat) (poison : Option Nat) (ces ues : List Nat) (run : DmaRun) (m : Mems) (d : Dev) :
    Mems × Dev :=
  let e := run.desc
  let total := e.rows * e.len
  let goal := if total ≤ moved then total else moved / 64 * 64
  let far := e.kind == 3 || e.kind == 4
  let u := if far then e.remoteTile else t
  match (if far then d.physOf e.remoteTile else some p) with
  | none => dmaEnd k t p c run .notPermitted false e.rows m d
  | some q =>
    let w := moveOn k t p u q goal poison ces ues (total + 1) run m d
    if run.st == .aborted then dmaEnd k t p c w.1 .aborted false (w.1.moved / max 1 e.len) w.2.1 w.2.2
    else if w.1.moved < total then (w.2.1, w.2.2.setChan t c { d.chan t c with run := some w.1 })
    else match w.1.bad with
      | some j => dmaEnd k t p c w.1 .poisoned false j w.2.1 w.2.2
      | none => dmaEnd k t p c w.1 .ok false e.rows w.2.1 w.2.2

/-- The descriptor in progress moves on or ends: its data, RESULT, NOTIFY (R172 to R175). `moved` is how many bytes it has moved in
all: one that is short of its bytes goes on afterwards, at a boundary of 64 bytes, but for one that has been aborted. `poison` is
the first row of DRAM data found uncorrectable, `ces` and `ues` the words whose check bits were corrected or uncorrectable. -/
def dmaComplete (k : Clock) (t p c moved : Nat) (poison : Option Nat) (ces ues : List Nat) (m : Mems) (d : Dev) : Mems × Dev :=
  match (d.chan t c).run with
  | none => (m, d)
  | some run =>
    let e := run.desc
    let waitsTurn := e.kind == 6 && run.st == .ok && (d.hopper e.remote).waits (.dma t c)
    let heldOff := (e.kind == 3 || e.kind == 4) && d.sys.evac.any (fun v => v.held && v.tile == e.remoteTile)
    if waitsTurn || heldOff then (m, d)
    else if run.st != .ok && run.st != .aborted then
      dmaEnd k t p c run run.st false (if e.kind = 5 || run.st == .poisoned then 0 else e.rows) m d
    else if e.kind = 5 then
      if run.st == .aborted then dmaEnd k t p c run .aborted false 0 m d
      else
        let w := dmaHopRead p e ces ues m d
        dmaEnd k t p c run w.1.1 w.1.2.1 w.1.2.2 w.2.1 w.2.2
    else if e.kind = 6 then
      let ws := bytesWords ((m.dmSend (d.phys p) p ues e.loc e.len).map (·.toNat))
      let r := (d.sendErrors k t p e.loc e.len ces ues).dmaCommit k t c e ws (run.st == .aborted)
      let bad := sendBad (d.phys p) ues e.loc e.len
      dmaEnd k t p c run (if r.1 == .ok && bad then .poisoned else r.1) false
        (if r.1 == .ok then (if bad then 0 else e.rows) else if r.1 == .aborted then 0 else e.rows) m r.2
    else dmaMove k t p c moved poison ces ues run m d

def execDmaDescComplete (t c moved : Nat) (poison : Option Nat) (ces ues : List Nat) (s : State) : Out :=
  onMem (fun k m d =>
    match d.physOf t with
    | some p => if c < 4 then dmaComplete k t p c moved poison ces ues m d else (m, d)
    | none => (m, d)) s

/-! ### The tile commands (Table 6.7) -/

/-- The spare rows used in each bank of a memory. -/
def sparesUsed (banks : Nat) (l : List (Nat × Nat)) : List RField :=
  (List.range banks).map (fun b => ⟨1, (l.filter (fun x => x.1 == b)).length⟩)

/-- The rows of a tile's memories that are candidates for repair (R156). -/
def Phys.candidates (x : Phys) : Nat := ((x.pmHist ++ x.dmHist).filter (·.cand)).length

def execTileStatus (o : Origin) (t : Nat) (s : State) : Out :=
  hostCmd o 0x0601 (fun _ d =>
    if 33 < t then (.now .unknownObject [], d)
    else
      let ctrs := [CEv.tilTPmCe, .tilTPmUe, .tilTDmCe, .tilTDmUe].map (fun c => ⟨8, d.count ⟨c, t, 0⟩⟩)
      let queues := (List.range 4).map (fun c => ⟨1, (d.chan t c).depth⟩)
      match d.physOf t with
      | none => (.now .ok ([⟨1, 0xFF⟩, ⟨1, 0⟩] ++ ctrs ++ [⟨1, 0⟩] ++ sparesUsed 4 [] ++ sparesUsed 16 [] ++ queues), d)
      | some p =>
        let x := d.phys p
        (.now .ok ([⟨1, p⟩, ⟨1, pstateCode x.state⟩] ++ ctrs ++ [⟨1, x.candidates⟩] ++
          sparesUsed 4 x.pmSpare ++ sparesUsed 16 x.dmSpare ++ queues), d)) s

def execTileMapRead (o : Origin) (s : State) : Out :=
  hostCmd o 0x0602 (fun _ d =>
    (.now .ok ((List.range 34).flatMap (fun t =>
      match d.physOf t with
      | none => [⟨1, 0xFF⟩, ⟨1, 0⟩]
      | some p => [⟨1, p⟩, ⟨1, pstateCode (d.phys p).state⟩])), d)) s

def rowFields (l : List RowHist) : List RField :=
  (List.range 16).flatMap (fun i =>
    match l[i]? with
    | some h => [⟨1, h.bank⟩, ⟨2, h.row⟩, ⟨4, h.ce⟩, ⟨4, h.ue⟩, ⟨1, b2n h.cand⟩]
    | none => [⟨1, 0xFF⟩, ⟨2, 0⟩, ⟨4, 0⟩, ⟨4, 0⟩, ⟨1, 0⟩])

/-- Two assignments a bank, 0xFFFF where a spare row is free. -/
def spareFields (banks : Nat) (l : List (Nat × Nat)) : List RField :=
  (List.range banks).flatMap (fun b =>
    let rows := (l.filter (fun x => x.1 == b)).map (·.2)
    [⟨2, rows[0]?.getD 0xFFFF⟩, ⟨2, rows[1]?.getD 0xFFFF⟩])

def execTileRowStatus (o : Origin) (p memory : Nat) (s : State) : Out :=
  hostCmd o 0x0603 (fun _ d =>
    if 1 < memory then (.now .badArg [], d)
    else if 33 < p then (.now .unknownObject [], d)
    else
      let x := d.phys p
      (.now .ok (if memory = 0 then rowFields x.pmHist ++ spareFields 4 x.pmSpare
        else rowFields x.dmHist ++ spareFields 16 x.dmSpare), d)) s

end Sys2Proof.Machine
end

