-- ==== Sys2Proof/Machine/Dram.lean ====
section
/-! DEFINITION. The events and commands of the DRAM controller (R429 to R451, Table 16.4). -/
namespace Sys2Proof.Machine
open Sys2Proof

/-- A request of a tile's engine or at one of the ports 2 to 7; the ports of the migration engine and of the scrubber are the
controller's own. A write carries its data. -/
def execDramRequest (who : Requester) (addr len : Nat) (data : Option (List Byte)) (s : State) : Out :=
  onDev (fun k d =>
    let ok := reqOk who && decide (1 ≤ len) && decide (addr % 64 + len ≤ 64) &&
      (match data with
       | some l => l.length == len
       | none => true)
    if ok then d.dramRequest k (reqPort who) addr len (match data with
      | some l => .write l
      | none => .read)
    else d) s

/-- A transaction boundary of a channel. -/
def execDramTransaction (ch ecc : Nat) (s : State) : Out :=
  onMem (fun k m d => if ch < 2 then channelTurn k ch ecc m d else (m, d)) s

/-- A request's age reaches its port's target within this sub-tick. -/
def execRequestLate (id : Nat) (s : State) : Out := onDev (fun k d => d.markLate k 1 (fun r => r.id == id)) s

/-- N of R437. -/
def refreshEvery (allBank : Bool) (rate : Nat) : Nat :=
  match allBank, rate with
  | false, 0 => 11 | false, 1 => 5 | false, _ => 2
  | true, 0 => 88 | true, 1 => 44 | true, _ => 22

def execRefreshAccrue (r : Nat) (s : State) : Out :=
  onDev (fun k d =>
    let x := d.rank r
    let n := refreshEvery d.dram.allBank x.rate
    if decide (r < 4) && d.refreshed r && decide (x.accrued + n ≤ nowAbs k) then
      let d := d.setRank r { x with owed := x.owed + 1, accrued := x.accrued + n }
      if x.owed + 1 < 8 && d.rtPending r then d.bump1 .dmcRankRefreshPostponed r else d
    else d) s

/-- What MR4 of a rank reports: the refresh rate (0 1× or lower, 1 2×, 2 4×), derating, and a temperature above the
limit. -/
def execMr4Poll (reports : List (Nat × Nat × Bool × Bool)) (s : State) : Out :=
  onDev (fun k d =>
    if k.tick % 64 == 0 && d.dram.mr4At != k.tick + 1 then
      let d := d.setDram { d.dram with mr4At := k.tick + 1 }
      reports.foldl (fun d p =>
        if decide (p.1 < 4) && d.refreshed p.1 then
          let hot := p.2.2.2
          let d := d.modRank p.1 (fun x => { x with rate := if hot then 2 else min 2 p.2.1, derate := p.2.2.1 })
          if hot then d.bump1 .dmcRankOvertemp p.1 else d
        else d) d
    else d) s

/-- Twice the memory clock in MHz: the data rate in MT/s. -/
def rateMts : Nat → Nat
  | 0 => 4266 | 1 => 3733 | 2 => 3200 | _ => 2133

/-- A rank in service has been idle for PD_IDLE memory clocks. -/
def execPowerDownEntry (r : Nat) (s : State) : Out :=
  onDev (fun k d =>
    let x := d.rank r
    if d.dram.serving r && decide (0 < d.dram.pdIdle) && !d.dram.reqs.any (fun q => q.rank == r) && !x.selfRef &&
        decide (d.dram.pdIdle * 3072 * 2000 ≤ (nowAbs k + 1 - x.used) * 125000 * rateMts d.dram.rate) then
      d.setRank r { x with down := true }
    else d) s

/-- The scrubber queues the reads of this tick. -/
def execScrubQueue (s : State) : Out :=
  onDev (fun k d =>
    if d.dram.scrubEn && d.dram.scrubAt != k.tick + 1 then
      (d.setDram { d.dram with scrubAt := k.tick + 1, scrubOwed := d.dram.scrubOwed + max 1 d.dram.scrubRate }).scrubMore k
    else d) s

/-- DRAM_SCRUB_SET takes effect at a tick boundary; a rank whose corrected errors of this pass reach a lower CE_RETIRE meets its
condition then (R443). -/
def Dev.dramTick (d : Dev) : Dev :=
  match d.dram.scrubNew with
  | some (en, rate, lim, evt) =>
    let old := d.dram.ceRetire
    let d := d.setDram { d.dram with scrubNew := none, scrubEn := en, scrubRate := rate, ceRetire := lim, ceEvt := evt }
    ((List.range 4).filter (fun r => decide (lim ≠ 0) && decide (lim ≤ (d.rank r).passCe) &&
      (old == 0 || decide ((d.rank r).passCe < old)))).foldl (fun (d : Dev) r => d.retireTrigger r) d
  | none => d

/-! ### Retirement and migration (R445, R446, R448) -/

def execRankRetireStart (s : State) : Out :=
  onDev (fun k d =>
    let d := d.judgeRetires k
    match d.dram.retire, d.dram.spare, d.dram.mig, d.dram.testing with
    | r :: rest, some n, none, false =>
      let g : Mig := { src := r, dst := n, training := true, done := 0, lock := none }
      (d.setDram { d.dram with retire := rest, mig := some g }).modRank n (fun x => { x with selfRef := false })
    | _, _, _, _ => d) s

/-- A rank's state changes: the event of Table 16.5. -/
def rstateCode : RState → Nat
  | .absent => 0 | .inService => 1 | .spare => 2 | .retired => 3

def Dev.rankEvent (k : Clock) (d : Dev) (r : Nat) (old new : RState) (cause : Nat) : Dev :=
  d.event k 0x0C81 r (rstateCode new + rstateCode old * 4 + cause * 16)

/-- The spare becomes RETIRED. -/
def Dev.loseSpare (k : Clock) (d : Dev) (n cause : Nat) : Dev :=
  let d := d.modRank n (fun x => { x with state := .retired, selfRef := true, down := false, owed := 0 })
  (d.setDram { d.dram with spare := none }).rankEvent k n .spare .retired cause

/-- The spare's full training, without a record, ends (R427, R446): `ok` says that command/address training and leveling succeed,
`rd` and `wr` hold the byte lanes in error at each code of the eye steps. -/
def execMigSpareTrained (ok : Bool) (rd wr : List (BitVec 4)) (s : State) : Out :=
  onDev (fun k d =>
    match d.dram.mig with
    | some g =>
      if !g.training then d
      else match ok, eyeCodes false (d.calItem (rankKey g.dst)).rd rd, eyeCodes false (d.calItem (rankKey g.dst)).wr wr with
      | true, some rd, some wr =>
        let d := d.modItem (rankKey g.dst) (fun x => { x with
          rd := rd, wr := wr, goalRd := rd, goalWr := wr, ref := some (d.reading (rankKey g.dst)) })
        let d := d.setCal { d.cal with dirty := true }
        let d := d.modRank g.dst (fun x => { x with accrued := nowAbs k, owed := 0, used := nowAbs k })
        (d.setDram { d.dram with mig := some { g with training := false } }).copyNext k
      | _, _, _ =>
        let d := (d.bump1 .dmcRankTrainFail g.dst).bump1 .dmcRankMigFail g.src
        let d := (d.setDram { d.dram with mig := none }).loseSpare k g.dst 1
        (d.finish k .dramRetire g.src .aborted).judgeRetires k
    | none => d) s

/-- After the last block the slot maps to the spare, and the source is retired. -/
def execMigrationFlip (s : State) : Out :=
  onDev (fun k d =>
    match d.dram.mig with
    | some g =>
      if g.training || decide (g.done < d.dram.blocks) then d
      else
        let d := d.dropLines g.src
        let map := d.dram.map.map (fun r => if r == g.src then g.dst else r)
        let reqs := d.dram.reqs.map (fun q => if q.rank == g.src then { q with rank := g.dst } else q)
        let d := d.setDram { d.dram with map := map, mig := none, spare := none, reqs := reqs }
        let d := d.modRank g.dst (fun x => { x with state := .inService, unused := (d.rank g.src).unused })
        let d := d.modRank g.src (fun x => { x with state := .retired, selfRef := true, down := false, owed := 0 })
        let d := ((d.calRankGone k g.src).bump1 .dmcRankRetire g.src).rankEvent k g.src .inService .retired 0
        (d.finish k .dramRetire g.src .ok).judgeRetires k
    | none => d) s

/-- The spare's test ends: whether it trained, its errors and the first 16 failing offsets. -/
def execSpareTestDone (trained : Bool) (errors : Nat) (offsets : List Nat) (s : State) : Out :=
  onDev (fun k d =>
    match d.dram.testing, d.dram.spare with
    | true, some n =>
      let d := d.setDram { d.dram with testing := false }
      let d := d.modRank n (fun x => { x with selfRef := true, down := false, owed := 0 })
      let d := if !trained then (d.bump1 .dmcRankTrainFail n).loseSpare k n 4
        else if errors = 0 then d else (d.bump1 .dmcRankBistError n).loseSpare k n 3
      let offs := (offsets ++ List.replicate 16 0).take 16
      (d.finish k .dramSpareTest 0 .ok (⟨4, errors⟩ :: offs.map (fun a => ⟨4, a⟩))).judgeRetires k
    | _, _ => d) s

/-! ### Commands (Table 16.4) -/

/-- The age of a port's oldest request in nanoseconds. -/
def Dev.oldest (k : Clock) (d : Dev) (p : Nat) : Nat :=
  (d.dram.reqs.filter (fun q => q.port == p)).foldl (fun m q => max m ((nowAbs k - q.at_) * 125000 / 3072)) 0

def execDramStatus (o : Origin) (s : State) : Out :=
  hostCmd o 0x0C01 (fun k d =>
    let x := d.dram
    let mig := match x.mig with
      | some g => [⟨1, 1⟩, ⟨1, g.src⟩, ⟨4, g.done⟩]
      | none => [⟨1, 0⟩, ⟨1, 0⟩, ⟨4, 0⟩]
    (.now .ok ((List.range 4).map (fun r => ⟨1, rstateCode (d.rank r).state⟩) ++
      (List.range 4).map (fun i => ⟨1, (x.map[i]?).getD 0xFF⟩) ++ [⟨1, x.map.length⟩] ++ mig ++
      (List.range 4).map (fun r => ⟨2, (d.rank r).owed⟩) ++
      (List.range 4).map (fun r => ⟨1, (d.rank r).rate + b2n (d.rank r).derate * 4⟩) ++
      (List.range 10).map (fun p => ⟨2, (x.reqs.filter (fun q => q.port == p)).length⟩) ++
      (List.range 10).map (fun p => ⟨4, d.oldest k p⟩) ++ [⟨8, d.count ⟨.dmcEccMiss, 0, 0⟩⟩]), d)) s

def execDramPortSet (o : Origin) (port target : Nat) (rt panicEn : Bool) (level : Nat) (s : State) : Out :=
  hostCmd o 0x0C02 (fun _ d =>
    if target < 100 || 100000 < target || level = 0 || 63 < level then (.now .badArg [], d)
    else if 9 < port then (.now .unknownObject [], d)
    else (.now .ok [], d.setDram { d.dram with ports := setAt d.dram.ports port ⟨target, rt, panicEn, level⟩ })) s

def execDramRetire (o : Origin) (r : Nat) (s : State) : Out :=
  hostCmd o 0x0C03 (fun _ d =>
    let st := firstStatus .ok [(decide (3 < r), .unknownObject), (d.dram.spare.isNone, .noResource),
      (!d.dram.serving r || d.dram.mig.isSome, .refusedBusy)]
    if st != .ok then (.now st [], d) else (.later .dramRetire r, d.retireTrigger r)) s

def execDramMigrateAbort (o : Origin) (s : State) : Out :=
  hostCmd o 0x0C04 (fun k d => if d.dram.mig.isSome then (.now .ok [], d.migAbort k) else (.now .refusedBusy [], d)) s

def execDramSpareTest (o : Origin) (r : Nat) (s : State) : Out :=
  hostCmd o 0x0C05 (fun k d =>
    let st := firstStatus .ok [(decide (3 < r), .unknownObject), (d.dram.spare.isNone, .noResource),
      (d.dram.spare != some r || d.dram.mig.isSome || d.dram.testing, .refusedBusy)]
    if st != .ok then (.now st [], d)
    else (.later .dramSpareTest 0, (d.setDram { d.dram with testing := true }).modRank r (fun x => { x with
      selfRef := false, accrued := nowAbs k }))) s

def execDramScrubSet (o : Origin) (en : Bool) (rate ceRetire : Nat) (ceEvt : Bool) (s : State) : Out :=
  hostCmd o 0x0C06 (fun _ d =>
    if rate = 0 || 256 < rate then (.now .badArg [], d)
    else (.now .ok [], d.setDram { d.dram with scrubNew := some (en, rate, ceRetire % 65536, ceEvt) })) s

def execDramErrorLog (o : Origin) (s : State) : Out :=
  hostCmd o 0x0C07 (fun _ d =>
    (.now .ok (d.dram.log.reverse.flatMap (fun e => [⟨1, e.rank⟩, ⟨4, e.block⟩, ⟨4, rowOf (e.block * 64)⟩,
      ⟨1, bankOf (e.block * 64)⟩, ⟨1, e.kind⟩, ⟨8, e.stamp⟩])), d)) s

end Sys2Proof.Machine
end

