-- ==== Sys2Proof/Machine/SvcOps.lean ====
section
/-! DEFINITION. What restarts share: the pins whose levels follow from the state (R505, R508, R511, R512), fatal errors (R485 to
R489), the beginning of a control restart (R461) and what a reset clears and the Ember domain keeps (R453, R499). -/
namespace Sys2Proof.Machine
open Sys2Proof

/-! ### Pins (R505, R511, R512) -/

/-- The outputs are driven: RST_N is high and no internal reset is in progress (R505). Otherwise every 1.8 V output, TDO and each DRAM
output is high-impedance, and each SerDes transmitter idles. -/
def Dev.drives (d : Dev) : Bool := d.sys.rstN && d.sys.inReset.isNone

/-- What a debug unlock has opened: the UART by bit 0 of SCOPE, JTAG by the others (R368). -/
def Dev.uartOpen (d : Dev) : Bool := bitOf d.kln.scope 0
def Dev.jtagOpen (d : Dev) : Bool := decide (d.kln.scope / 2 % 8 ≠ 0)

/-- DBG_TX, where it is driven: high while the UART is locked. What the console sends behind an unlock the spec does not give. -/
def Dev.dbgTx (d : Dev) (console : Bool) : Option Bool := if !d.drives then none else some (!d.uartOpen || console)

/-- The instructions of the test access port while RST_N is low. -/
inductive TapInstr where
  | bypass | samplePreload | extest
deriving DecidableEq, Repr

/-- The boundary scan is there: RST_N is low on a powered device. It ends when RST_N rises. -/
def Dev.scanOn (d : Dev) : Bool := d.sys.powered && !d.sys.rstN
def Dev.tapOffers (d : Dev) : List TapInstr := if d.scanOn then [.bypass, .samplePreload, .extest] else []

/-- The kinds of balls, and those that the boundary scan reaches. -/
inductive BallKind where
  | io18 | dram | serdes
deriving DecidableEq, Repr

def Dev.scanReaches (d : Dev) (b : BallKind) : Bool := d.scanOn && b != .serdes

/-- The levels of the debug inputs. -/
structure DebugPins where
  dbgRx : Bool
  tck   : Bool
  tms   : Bool
  tdi   : Bool
  trstN : Bool
deriving DecidableEq, Repr

/-- What of the debug inputs reaches the device: DBG_RX where the UART is open, the others where JTAG is, or the boundary scan.
Locked, they are ignored. -/
def Dev.debugIn (d : Dev) (p : DebugPins) : Option Bool × Option DebugPins :=
  (if d.uartOpen then some p.dbgRx else none, if d.jtagOpen || d.scanOn then some p else none)

/-- TDO, where it is driven: it is high-impedance in a reset and while JTAG is locked. `shift` is the bit that the port shifts out. -/
def Dev.tdo (d : Dev) (shift : Bool) : Option Bool := if d.drives && d.jtagOpen then some shift else none

/-- SYNCE_CLK_OUT is held low: it is off, or not driven (R508). -/
def Dev.synceClk (d : Dev) (wave : Bool) : Option Bool := if d.drives then some (decide (d.htb.synceOut ≠ 0) && wave) else none

/-- A status output: none while it is high-impedance, before the end of step 3 of the start and during a reset. FATAL_N and
TAMPER_N are open drain: true stands for released. -/
def Dev.gpio (d : Dev) (n : Nat) : Option Bool :=
  if d.sys.step < 3 || d.sys.inReset.isSome then none
  else if n = 0 then some (!d.sys.fatal)
  else if n = 1 then some (d.htb.state == .locked)
  else if n = 2 then some (d.sys.tamperLow == 0)
  else if n = 3 then some d.hif.locked
  else none

/-! ### BAR0 registers that the Ember domain keeps (R12, R499) -/

def keepReg (st : Store (Option Word)) (a v : Nat) : Store (Option Word) := st.put none a (some (BitVec.ofNat 32 v))

def Hopper.bankWord (x : Hopper) : Nat := x.base + x.sizeLog2 * 2 ^ 16 + b2n x.setUp * 2 ^ 31
def Hopper.modeWord (x : Hopper) : Nat :=
  b2n x.sched + x.frame * 2 + b2n x.noticeEn * 2 ^ 3 + x.noticeFlag * 2 ^ 4 + b2n x.swapFlagEn * 2 ^ 9 +
    x.swapFlag * 2 ^ 10 + x.thread * 2 ^ 16

/-- A register whose fields the Ember domain holds: those of Hoppers, groups and ring addresses. -/
def emberReg (a : Nat) : Bool :=
  inArr a 0x700000 8 1024 || inArr a 0x700004 8 1024 || inArr a 0x600100 16 64 || inArr a 0x600104 16 64 ||
    inArr a 0x600108 16 64 || inArr a 0xA01000 16 256 || inArr a 0xA01004 16 256

/-- The registers last written that the Ember domain holds; of HIF_RING_TYPE the field TYPE alone, the others at reset. -/
def Dev.emberWritten (d : Dev) : Store (Option Word) :=
  d.regs.entries.foldl (fun (st : Store (Option Word)) (p : Nat × Option Word) =>
    if emberReg p.1 then st.put none p.1 p.2
    else if inArr p.1 0xA01008 16 256 then keepReg st p.1 (0x40 + (p.2.getD 0).toNat % 8)
    else st) []

/-- What a warm start keeps: behind the lock, the settings that the units hold, where commands have changed them; otherwise, and
for what the lock did not take, the values last written. -/
def Dev.keptRegs (d : Dev) : Store (Option Word) :=
  if !d.hif.locked then d.emberWritten
  else
  let st := d.hop.hops.entries.foldl (fun (st : Store (Option Word)) (p : Nat × Hopper) =>
    if p.2.setUp then keepReg (keepReg st (0x700000 + 8 * p.1) p.2.bankWord) (0x700004 + 8 * p.1) p.2.modeWord else st)
    d.emberWritten
  let st := (List.range 64).foldl (fun (st : Store (Option Word)) g =>
    let a := 0x600100 + 16 * g
    let x := d.sch.groups.get {} g
    keepReg (keepReg (keepReg st a (x.weight % 256 + x.ceiling * 2 ^ 16)) (a + 4) (x.aff.toNat % 2 ^ 32))
      (a + 8) (x.aff.toNat / 2 ^ 32)) st
  d.hif.rings.entries.foldl (fun (st : Store (Option Word)) (p : Nat × Ring) =>
    let a := 0xA01000 + 16 * p.1
    keepReg (keepReg (keepReg st a (p.2.addr % 2 ^ 32)) (a + 4) (p.2.addr / 2 ^ 32)) (a + 8) (0x40 + p.2.typ)) st

/-! ### Resets (R453) -/

/-- A Hopper as a warm start leaves it: set up, both banks empty (R248). -/
def Hopper.kept (x : Hopper) : Hopper :=
  { setUp := x.setUp, base := x.base, sizeLog2 := x.sizeLog2, sched := x.sched, frame := x.frame, noticeEn := x.noticeEn,
    noticeFlag := x.noticeFlag, swapFlagEn := x.swapFlagEn, swapFlag := x.swapFlag, thread := x.thread }

/-- A thread entry's persistent fields (Table 8.1, R226). -/
def Thread.kept (t : Thread) : Thread := { group := t.group, level := t.level, preempt := t.preempt, ctx := t.ctx }

def mapStore {α : Type} [DecidableEq α] (dflt : α) (f : α → α) (st : Store α) : Store α :=
  st.foldl (fun (acc : Store α) (p : Nat × α) => acc.put dflt p.1 (f p.2)) []

/-- An item's settings (R134): what was under way has ended, and the item stays queued where it was (R133, R139). -/
def CalItem.kept (x : CalItem) : CalItem := { x.record with last := x.last, phase := if x.requeues then .queued else .idle }

/-- The calibration unit through a warm start: the queues as they were, behind them the items whose calibration is cut short; a
record write that is cut leaves its changes to be written. -/
def Cal.warm (c : Cal) : Cal :=
  let cut := fun (n : Nat) => (c.items.get {} n).requeues && (c.items.get {} n).phase != .queued
  { c with
      items := mapStore {} CalItem.kept c.items
      laneQ := c.laneQ ++ (List.range 32).filter cut
      rankQ := c.rankQ ++ ((List.range 4).map rankKey).filter cut
      writing := none
      dirty := c.dirty || c.writing.isSome }

/-- The lanes whose scan a reset cuts (R133, R139). -/
def Dev.scansCut (d : Dev) : List Nat :=
  (List.range 32).filter (fun q => (d.calItem q).phase == .measuring || ((d.lane q).train == .bitLock && (d.lane q).startScan))

/-- The Hearth through a warm start: its counters, states, sources and last frequency run on, the servo stands, its settings are
those of reset (R45). DESIGN CHOICE (log entry 84): armed alarm slots are not among what the spec names as kept, and are
cleared. -/
def Htb.warm (h : Htb) : Htb :=
  { Htb.reset with
      state := h.state
      ticksIn := h.ticksIn
      freqSrc := h.freqSrc
      timeSrc := h.timeSrc
      utcOff := h.utcOff
      todSet := h.todSet
      left := h.left
      refA := h.refA
      refB := h.refB
      rate := h.rate
      rateHeld := h.state == .holdover
      servoOn := false }

/-- The DRAM controller through a warm start (R441, R447, R449): a migration interrupted begins again at block 0. -/
def Dram.warm (x : Dram) : Dram :=
  { Dram.reset with
      ranks := mapStore {} (fun (r : Rank) => { r with selfRef := r.state != .absent, down := false, owed := if r.state == .inService then r.owed else 0,
                                                       open_ := [0, 0, 0, 0, 0, 0, 0, 0] }) x.ranks
      pop := x.pop
      density := x.density
      spareEn := x.spareEn
      spareCfg := x.spareCfg
      spare := x.spare
      rate := x.rate
      map := x.map
      poison := x.poison
      scrubPos := x.scrubPos
      mig := x.mig.map (fun g => { g with done := 0, lock := none })
      retire := x.retire }

/-- The tiles through a warm start: the map, the tile states and the repairs (R148, R156); every data memory is to be
cleared (R153). -/
def Til.warm (x : Til) : Til :=
  { Til.reset with map := x.map, phys := mapStore {} (fun (p : Phys) => { p with cleared := false, ueWords := [] }) x.phys }

/-- The Kiln through a warm start (R370). -/
def Kln.warm (x : Kln) : Kln :=
  { Kln.reset with
      root0Rev := x.root0Rev
      svn := x.svn
      epoch := x.epoch
      roots := x.roots
      hold := x.hold
      recA := x.recA
      recB := x.recB
      softHold := x.softHold
      cert0 := x.cert0
      cert1 := x.cert1
      curCert := x.curCert
      tampers := x.tampers
      sinceCold := x.sinceCold
      last := x.last }

/-- What lies in fuses and flash outlives a cold start. -/
def Kln.cold (x : Kln) : Kln :=
  { Kln.reset with
      root0Rev := x.root0Rev
      svn := x.svn
      epoch := x.epoch
      roots := x.roots
      hold := x.hold
      recA := x.recA
      recB := x.recB
      tampers := x.tampers }

/-- The start unit with the failed attempts in a row (R454), policies, repairs of control SRAM and the Ash directory through a warm start; a dump being packed is
packed again, one being offered is offered again (R490, R491). -/
def Sys.warm (x : Sys) : Sys :=
  { Sys.reset with
      powered := x.powered
      kind := x.kind
      cause := x.cause
      noCal := x.noCal
      warmCount := x.warmCount
      emberOk := x.emberOk
      step4 := x.step4
      supplyFault := x.supplyFault
      failed := if x.kind = 1 && x.step < 6 then x.failed + 1 else x.failed
      rstN := x.rstN
      pfwN := x.pfwN
      testMode := x.testMode
      evacRow := x.evacRow
      evacUe := x.evacUe
      evacFrame := x.evacFrame
      wdogTicks := x.wdogTicks
      qrowLimit := x.qrowLimit
      qCe := x.qCe
      qUsed := x.qUsed
      qDone := x.qDone
      qLeft := x.qLeft
      cCe := x.cCe
      cCand := x.cCand
      cUsed := x.cUsed
      cDone := x.cDone
      slotA := x.slotA
      slotB := x.slotB
      fatal := x.fatal
      tamperLow := x.tamperLow
      ash := match x.ash with
        | .packing => .captured
        | s => s
      dumpId := x.dumpId
      dumpCls := x.dumpCls
      rawLen := x.rawLen
      envLen := x.envLen
      complete := x.complete
      noKey := x.noKey
      env := x.env
      log := x.log }

/-- What a cold start leaves of the start unit: the pins and the boot flash. -/
def Sys.cold (x : Sys) : Sys :=
  { Sys.reset with powered := x.powered, rstN := x.rstN, pfwN := x.pfwN, testMode := x.testMode, slotA := x.slotA, slotB := x.slotB }

/-- The candidate rows of control SRAM are replaced while it is cleared (R476): 8 banks of 4,096 rows, four spares each. -/
def Dev.ctrlRepair (d : Dev) : Dev :=
  let d := d.sys.cCand.foldl (fun d r =>
    let b := r / 4096
    if d.sys.cUsed.get 0 b < 4 then
      { d with sys := { d.sys with cUsed := d.sys.cUsed.put 0 b (d.sys.cUsed.get 0 b + 1),
                                   cDone := d.sys.cDone.put 0 r (d.sys.cDone.get 0 r + 1), cCe := d.sys.cCe.put 0 r 0,
                                   cCand := d.sys.cCand.filter (· != r) } }.bump0 .sysCtrlRowRepair
    else d.bump0 .sysCtrlRowExhausted) d
  d

/-- The reset that leads to a warm start: the write-back and self-refresh of R453, then every domain but the Ember domain.
A slot write that it cuts leaves its slot without MAGIC (R479). -/
def Dev.resetWarm (d : Dev) : Dev :=
  let d := d.cleanCache
  let d := match d.dram.mig with
    | some g => d.bump1 .dmcRankMigAbort g.src
    | none => d
  let d := if d.sys.ash == .packing then d.bump0 .sysAshPackRestart else d
  let d := if d.sys.slotWr.isSome then d.bump0 .sysImageWriteAbandon else d
  let d := if d.cal.writing.isSome then d.bump0 .calRecordAbandon else d
  let d := d.scansCut.foldl (fun (d : Dev) q => d.bump1 .calLScanAbort q) d
  let d := if d.htb.state == .coarse || d.htb.state == .locked then d.enterH .holdover else d
  { Dev.reset with
      ctr := d.ctr
      freeN := d.freeN
      regs := d.keptRegs
      hif := { Hif.reset with perst := d.hif.perst, sent := d.hif.sent }
      sch := { Sch.reset with
                 threads := mapStore {} Thread.kept d.sch.threads
                 groups := mapStore {} (fun (g : Group) => { g with stranded := false }) d.sch.groups }
      hop := { Hop.reset with hops := mapStore {} Hopper.kept d.hop.hops }
      til := d.til.warm
      htb := d.htb.warm
      oll := { Oll.reset with lanes := mapStore {} (fun (x : Lane) => ({ kept := x.kept } : Lane)) d.oll.lanes }
      cal := d.cal.warm
      dram := d.dram.warm
      kln := d.kln.warm
      sys := d.sys.warm }

/-- What power loss, or a reset after it, leaves: fuses, flash and pins. -/
def Dev.resetCold (d : Dev) : Dev :=
  { Dev.reset with
      freeN := d.freeN
      hif := { Hif.reset with perst := d.hif.perst, sent := d.hif.sent }
      cal := { Cal.reset with slotA := d.cal.slotA, slotB := d.cal.slotB }
      kln := d.kln.cold
      sys := d.sys.cold }

/-- A warm start is asked for: at once, or once the capture in progress has ended (R453). -/
def Dev.askWarm (d : Dev) (cause : Nat) : Dev :=
  if d.sys.inReset.isSome then d
  else if d.sys.ash == .capturing then { d with sys := { d.sys with warmDue := some (d.sys.warmDue.getD cause) } }
  else
    let d := d.resetWarm
    { d with sys := { d.sys with inReset := some (.warm, cause) } }

/-! ### A control restart begins (step 1 of R461) -/

/-- Control firmware's own jobs end, and those waiting of them (R420). -/
def Dev.abortCtrlJobs (d : Dev) : Dev :=
  let own := fun (j : TmpJob) => match j.who with
    | .ctrl => true
    | _ => false
  let n := (d.tmp.active.filter own).length + d.tmp.waitCtrl.length
  let d := { d with tmp := { d.tmp with active := d.tmp.active.filter (fun j => !own j), waitCtrl := [] } }
  if n = 0 then d else d.bumpN ⟨.tmpAbort, 0, 0⟩ n

/-- A slot write ends before its MAGIC (R479), and the staging copies with it (R478). -/
def Dev.slotAbandon (k : Clock) (d : Dev) : Dev :=
  match d.sys.slotWr with
  | none => d
  | some _ => (({ d with sys := { d.sys with slotWr := none, staged := [] } }).bump0 .sysImageWriteAbandon).finish k .imageWrite 0 .aborted

/-- An evacuation in step E1 is abandoned: the spare stays the spare (R474). -/
def Dev.evacAbandon (k : Clock) (d : Dev) : Dev :=
  match d.sys.evac with
  | some e => if e.held then d
      else (({ d with sys := { d.sys with evac := none } }).modPhys e.spare (fun x => { x with cleared := false })).finish k
        .tileEvacuate e.tile .aborted
  | none => d

def Dev.beginControl (k : Clock) (d : Dev) : Dev :=
  let dma := d.hif.bme && !d.hif.d3hot
  let d := d.bump0 .sysControlRestart
  let d := ((((d.evacAbandon k).slotAbandon k).calAbandon k).abortCtrlJobs)
  let d := if d.sys.ash == .packing then ({ d with sys := { d.sys with ash := .captured } }).bump0 .sysAshPackRestart else d
  let d := if d.htb.state == .coarse || d.htb.state == .locked then d.enterH .holdover else d
  let d := d.setHtb { d.htb with servoOn := false }
  let d := if dma then d.send (.paused true) else d
  { d with hif := { d.hif with paused := true }, sys := { d.sys with checked := false } }

/-! ### Fatal errors (R485 to R489) -/

def fatalCounter (cls : Nat) : CEv :=
  if cls = 1 then .sysFatalLockstep else if cls = 2 then .sysFatalCtrlUe else if cls = 3 then .sysFatalWatchdog else .sysFatalKiln

/-- A fatal error of a class, detected now: `mark` says that control firmware was applying a change to more than one unit
(R486), `applying` which waiting command it was applying (R487), `pc0` and `pc1` are the program counters of the pairs. -/
def Dev.fatal (k : Clock) (d : Dev) (cls : Nat) (mark : Bool) (applying : Option Nat) (pc0 pc1 : Nat) : Dev :=
  if d.sys.inReset.isSome then d
  else
    let warm := cls == 4 || d.hif.paused || mark || d.sys.ash == .capturing
    let d := d.bump0 (fatalCounter cls)
    let fresh := d.sys.ash == .empty || d.sys.ash == .delivered
    let id := if d.sys.dumpId ≥ 65535 then 1 else d.sys.dumpId + 1
    let d := if fresh then d.bump0 .sysAshCapture else d.bump0 .sysAshBusy
    let e : FatalRec := { stamp := clockStamp k, cls := cls, warm := warm, dumpId := if fresh then id else 0, pc0 := pc0, pc1 := pc1 }
    let log := d.sys.log ++ [e]
    let s : Sys := { d.sys with fatal := true, log := log.drop (log.length - 64) }
    let s' : Sys :=
      if fresh then
        { s with ash := .capturing, dumpId := id, dumpCls := cls, rawLen := 0, envLen := 0, complete := true, noKey := false,
                 offer := none, env := [] }
      else s
    let d := d.setSys s'
    if warm then d.askWarm (if d.hif.paused then 6 else 3)
    else
      let w := applying.bind (fun i => d.waits[i]?)
      let d := match w with
        | some w => ({ d with waits := d.waits.erase w }).answer k w.src w.opc .internal
        | none => d
      d.beginControl k

/-- A Kiln integrity alarm (R367). -/
def Dev.kilnAlarm (k : Clock) (d : Dev) : Dev := (d.bump0 .klnIntegrityAlarm).fatal k 4 false none 0 0

end Sys2Proof.Machine
end

