-- ==== Sys2Proof/Machine/KilnOps.lean ====
section
/-! DEFINITION. Key handles, SRTP contexts, protection and its checks, and the ends of contexts and sessions (R347 to R353,
R356, R357, R364, R372). -/
namespace Sys2Proof.Machine
open Sys2Proof

def Dev.setKln (d : Dev) (x : Kln) : Dev := { d with kln := x }

/-- A Kiln event (Table 13.15): byte 3 of the payload stands in `obj`. -/
def Dev.klnEvt (k : Clock) (d : Dev) (typ detail arg : Nat) (b3 : Nat := 0) : Dev :=
  d.raiseOn k d.kln.evtRing { typ := typ, detail := detail, obj := b3, stamp := clockStamp k, arg := arg }

/-! ### Handles (Table 13.6) -/

def hIndex (h : Nat) : Nat := bitsOf h 0 14
def hTx (h : Nat) : Bool := bitOf h 14
def hRtcp (h : Nat) : Bool := bitOf h 15
def hGen (h : Nat) : Nat := bitsOf h 16 12
def hKind (h : Nat) : Nat := h / 2 ^ 28

def handleOf (kind gen index : Nat) : Nat := index + gen * 2 ^ 16 + kind * 2 ^ 28

def Dev.ctx (d : Dev) (i : Nat) : KCtx := d.kln.ctxs.get {} i
def Dev.setCtx (d : Dev) (i : Nat) (c : KCtx) : Dev := d.setKln { d.kln with ctxs := d.kln.ctxs.put {} i c }
def Dev.modCtx (d : Dev) (i : Nat) (f : KCtx → KCtx) : Dev := d.setCtx i (f (d.ctx i))

/-- A current handle of a context (R347). -/
def Dev.hCurrent (d : Dev) (h : Nat) : Bool :=
  hKind h == 1 && (d.ctx (hIndex h)).used && hGen h == (d.ctx (hIndex h)).gen

/-- The direction that a handle names, where the handle is valid for it. -/
def Dev.hTxOf (d : Dev) (h : Nat) : Option KTx := if d.hCurrent h && hTx h then (d.ctx (hIndex h)).tx else none
def Dev.hRxOf (d : Dev) (h : Nat) : Option KRx := if d.hCurrent h && !hTx h then (d.ctx (hIndex h)).rx else none

/-- The generation after one. -/
def nextGen (g : Nat) : Nat := if 4095 ≤ g then 1 else g + 1

/-! ### Protection (R349, Table 13.7) -/

def tagLen (suite : Nat) : Nat := if suite = 1 then 10 else if suite = 2 then 4 else 16

/-- Bytes that protection adds: the tag, and SRTCP's word. -/
def protLen (suite : Nat) (rtcp : Bool) : Nat := tagLen suite + (if rtcp then 4 else 0)

/-- The bytes of an RTP or RTCP packet that stay in clear. -/
def clearLen (rtcp : Bool) (bs : List Nat) : Nat :=
  if rtcp then min 8 bs.length
  else
    let n := 12 + 4 * (bs.getD 0 0 % 16)
    let n := if bitOf (bs.getD 0 0) 4 then n + 4 + 4 * (bs.getD (n + 2) 0 * 256 + bs.getD (n + 3) 0) else n
    min n bs.length

/-- A packet protected under a direction's suite and key at an index. -/
def protectBytes (x : KTx) (rtcp : Bool) (index : Nat) (bs : List Nat) : List Nat :=
  let n := clearLen rtcp bs
  let m := bs.length - n
  let enc := (List.range m).map (fun i => (Config.srtpByte x.suite x.key rtcp index bs i).toNat)
  let tag := (List.range (tagLen x.suite)).map (fun i => (Config.srtpByte x.suite x.key rtcp index bs (m + i)).toNat)
  let word := if rtcp then (bytesLE 4 (index + 2 ^ 31)).reverse else []
  bs.take n ++ enc ++ word ++ tag

/-- The next SRTP state of a direction for a packet numbered `seq`, and its index. -/
def KTx.next (x : KTx) (seq : Nat) : KTx × Nat :=
  let roc := match x.last with
    | some l => if l > seq && decide (32768 < l - seq) then x.roc + 1 else x.roc
    | none => x.roc
  ({ x with roc := roc, last := some seq }, roc * 65536 + seq)

/-- What transmit protection comes to: no valid key, an exhausted key, or the protected packet. -/
inductive Prot where
  | noKey | exhausted | done (bytes : List Nat)
deriving DecidableEq, Repr

/-- The suite that a transmit handle would use. -/
def Dev.txSuite (d : Dev) (key : Nat) : Option Nat := (d.hTxOf key).map (·.suite)

def Dev.protect (k : Clock) (d : Dev) (port key : Nat) (pktRtcp : Bool) (bs : List Nat) : Prot × Dev :=
  match d.hTxOf key with
  | none => (.noKey, d)
  | some x =>
    let i := hIndex key
    let rtcp := pktRtcp || hRtcp key
    let y := if rtcp then ({ x with rtcp := x.rtcp + 1 }, x.rtcp) else x.next (bs.getD 2 0 * 256 + bs.getD 3 0)
    if (if rtcp then 2 ^ 31 else 2 ^ 48) ≤ y.2 then
      let d := d.bump1 .klnEKeyExhausted port
      (.exhausted, if (d.ctx i).exhausted then d
        else (d.modCtx i (fun c => { c with exhausted := true })).klnEvt k 0x0A84 (b2n rtcp) key)
    else (.done (protectBytes x rtcp y.2 bs), d.modCtx i (fun c => { c with tx := some y.1 }))

/-! ### The receive checks (R350, R351) -/

/-- How far an index lies from a window: accepted so far, or a replay. -/
def KWin.fresh (w : KWin) (i : Nat) : Bool :=
  match w.hi with
  | none => true
  | some h => if h < i then true else decide (h - i ≤ 127) && !w.bits.getLsbD (h - i)

/-- The window with an index marked. -/
def KWin.mark (w : KWin) (i : Nat) : KWin :=
  match w.hi with
  | none => { hi := some i, bits := 1 }
  | some h => if h < i then { hi := some i, bits := (w.bits <<< (i - h)) ||| 1 }
              else { w with bits := w.bits ||| (BitVec.twoPow 128 (h - i)) }

/-- The index of an RTP packet by RFC 3711 section 3.3.1. -/
def KRx.estimate (x : KRx) (seq : Nat) : Nat :=
  match x.win.hi with
  | none => x.roc * 65536 + seq
  | some h =>
    let l := h % 65536
    let v := if l < 32768 then (if l + 32768 < seq then (x.roc + (2 ^ 32 - 1)) % 2 ^ 32 else x.roc)
      else if seq + 32768 < l then (x.roc + 1) % 2 ^ 32 else x.roc
    v * 65536 + seq

/-- What a check finds: a drop's counter, or the index and the packet's payload and length without what protection added. -/
inductive RxCheck where
  | drop (c : CEv)
  | pass (index : Nat)
deriving DecidableEq, Repr

/-- The SSRC of a received packet. -/
def ssrcOf (rtcp : Bool) (bs : List Nat) : Nat := ofBytesLE ((slice bs (if rtcp then 4 else 8) 4).reverse)

/-- Steps 1 to 5 of R350 under one handle and the direction it names; `auth` says that the tag verifies under that context's
key. -/
def rxSteps (rx : Option KRx) (h : Nat) (bs : List Nat) (auth : Bool) : RxCheck :=
  match rx with
  | none => .drop .klnESrtpNoKey
  | some x =>
    let rtcp := hRtcp h
    let ssrc := ssrcOf rtcp bs
    let n := bs.length
    let t := tagLen x.suite
    let word := ofBytesLE ((slice bs (n - t - 4) 4).reverse)
    let index := if rtcp then word % 2 ^ 31 else x.estimate (bs.getD 2 0 * 256 + bs.getD 3 0)
    let short := if rtcp then decide (n < 12 + t) else decide (n < 12 + t)
    if !short && !(if x.ssrc = 0 then x.latched.all (· == ssrc) else x.ssrc == ssrc) then .drop .klnESrtpSsrcDrop
    else if !short && !(if rtcp then x.winC else x.win).fresh index then .drop .klnESrtpReplayDrop
    else if short || !auth then .drop .klnESrtpAuthFail
    else .pass index

/-- Step 7: the context that authenticated the packet moves. -/
def KRx.accept (x : KRx) (rtcp : Bool) (index ssrc : Nat) : KRx :=
  let x := if x.ssrc = 0 && x.latched.isNone then { x with latched := some ssrc } else x
  if rtcp then { x with winC := x.winC.mark index }
  else { x with win := x.win.mark index, roc := ((x.win.mark index).hi.getD 0) / 65536 }

/-- The payload without what protection added, in clear. -/
def plainBytes (x : KRx) (rtcp : Bool) (index : Nat) (bs : List Nat) : List Nat :=
  let n := clearLen rtcp bs
  let m := bs.length - protLen x.suite rtcp
  if rtcp && bs.getD (bs.length - tagLen x.suite - 4) 0 < 128 then bs.take m
  else bs.take (min n m) ++ (List.range (m - n)).map (fun i => (Config.srtpPlain x.suite x.key rtcp index bs i).toNat)

/-- R350 for a packet that CTX_FREE has met inside the inline unit: it completes under the keys it had, and so does another
packet of that direction inside (R351, R353). -/
def Dev.srtpOld (d : Dev) (port h : Nat) (x : KRx) (bs : List Nat) (auth : Bool) : Option (List Nat) × Dev :=
  match rxSteps (some x) h bs auth with
  | .pass index =>
    let y := x.accept (hRtcp h) index (ssrcOf (hRtcp h) bs)
    (some (plainBytes x (hRtcp h) index bs), { d with eth := { d.eth with
      flight := d.eth.flight.map (fun f => if f.old == some x && hIndex f.keyH == hIndex h then { f with old := some y } else f) } })
  | .drop c => (none, d.bump1 c port)

/-- R350 as one operation: whether the packet passes, and its payload. `auth` and `authNext` say whether the tag verifies
under the handle's context and under NEXT. -/
def Dev.srtpCheck (k : Clock) (d : Dev) (port h : Nat) (bs : List Nat) (auth authNext : Bool) : Option (List Nat) × Dev :=
  let take := fun (d : Dev) (h index : Nat) =>
    match d.hRxOf h with
    | some x =>
      let rtcp := hRtcp h
      let ssrc := ssrcOf rtcp bs
      (some (plainBytes x rtcp index bs), d.modCtx (hIndex h) (fun c => { c with rx := some (x.accept rtcp index ssrc) }))
    | none => (none, d)
  match rxSteps (d.hRxOf h) h bs auth with
  | .pass index => take d h index
  | .drop c =>
    let lk := if hRtcp h then (d.ctx (hIndex h)).linkC else (d.ctx (hIndex h)).link
    if c == .klnESrtpAuthFail && lk.next != 0 then
      match rxSteps (d.hRxOf lk.next) lk.next bs authNext with
      | .pass index =>
        let d := d.bump1 .klnESrtpLinkHit port
        let hit := fun (l : KLink) => { l with raised := true, hits := l.hits + 1 }
        let d := d.modCtx (hIndex h) (fun c => if hRtcp h then { c with linkC := hit c.linkC } else { c with link := hit c.link })
        let d := if lk.raised then d else d.klnEvt k 0x0A83 port lk.next
        take d lk.next index
      | .drop _ => (none, d.bump1 .klnESrtpAuthFail port)
    else (none, d.bump1 c port)

/-! ### Sessions and contexts end -/

def Dev.sess (d : Dev) (i : Nat) : Option KSess := d.kln.sess.get none i
def Dev.setSess (d : Dev) (i : Nat) (x : Option KSess) : Dev := d.setKln { d.kln with sess := d.kln.sess.put none i x }

/-- The session of a KIND 2 handle. -/
def Dev.sessOf (d : Dev) (h : Nat) : Option (Nat × KSess) :=
  if hKind h = 2 && bitsOf h 14 2 == 0 then
    match d.sess (hIndex h) with
    | some x => if x.gen = hGen h then some (hIndex h, x) else none
    | none => none
  else none

/-- A session ends; one that has not reported yet does so (R357). -/
def Dev.endSess (k : Clock) (d : Dev) (i detail : Nat) : Dev :=
  match d.sess i with
  | none => d
  | some x =>
    let d := d.setSess i none
    if x.linger.isSome then d else d.klnEvt k 0x0A81 detail (handleOf 2 x.gen i)

/-- Links to a context end (R352). -/
def Dev.unlink (d : Dev) (i : Nat) : Dev :=
  d.kln.ctxs.entries.foldl (fun d (p : Nat × KCtx) =>
    let cut := fun (l : KLink) => if l.next != 0 && hIndex l.next == i then ({} : KLink) else l
    d.modCtx p.1 (fun c => { c with link := cut c.link, linkC := cut c.linkC })) d

/-- A received packet is inside an inline unit: its handle names a direction's keys, and its burst is in progress (R322). -/
def Dev.inside (d : Dev) (f : EFlight) : Bool :=
  (f.old.isSome || (d.hRxOf f.keyH).isSome) && (match (d.hopper f.hop).burst with
    | some b => b.prod == .eth f.port
    | none => false) &&
    d.eth.flight.find? (fun (g : EFlight) => g.hop == f.hop && g.port == f.port) == some f

/-- Packets inside the inline units keep the keys of a context that is freed (R353). -/
def Dev.keepKeys (d : Dev) (i : Nat) : Dev :=
  { d with eth := { d.eth with flight := d.eth.flight.map (fun f =>
      if d.inside f && f.old.isNone && hIndex f.keyH == i then { f with old := d.hRxOf f.keyH } else f) } }

/-- A context becomes FREE: sessions that name it end with DETAIL 6, links go, keys are zeroised (R353). -/
def Dev.freeCtx (k : Clock) (d : Dev) (i : Nat) : Dev :=
  let d := (d.keepKeys i).kln.sess.entries.foldl (fun d (p : Nat × Option KSess) =>
    match p.2 with
    | some x => if hIndex x.target == i then d.endSess k p.1 6 else d
    | none => d) (d.keepKeys i)
  let c := d.ctx i
  (d.unlink i).setCtx i { used := false, made := c.made, gen := c.gen }

def Dev.exp (d : Dev) (i : Nat) : Option KExp := d.kln.exps.get none i
def Dev.setExp (d : Dev) (i : Nat) (x : Option KExp) : Dev := d.setKln { d.kln with exps := d.kln.exps.put none i x }

/-- The export of a KIND 3 handle. -/
def Dev.expOf (d : Dev) (h : Nat) : Option (Nat × KExp) :=
  if hKind h = 3 && bitsOf h 14 2 == 0 then
    match d.exp (hIndex h) with
    | some x => if x.gen = hGen h then some (hIndex h, x) else none
    | none => none
  else none

/-- Debug access locks again (R369). -/
def Dev.debugLock (k : Clock) (d : Dev) : Dev :=
  if d.kln.scope = 0 then d
  else (d.setKln { d.kln with scope := 0, debugLeft := 0 }).klnEvt k 0x0A85 0 0

/-! ### The policy in force (R342, R366) -/

/-- The owner record in force. -/
def Kln.record (x : Kln) : Option OwnerRec :=
  if x.epoch = 0 then none
  else match x.recA, x.recB with
    | some a, _ => if a.epoch = x.epoch then some a
        else (match x.recB with
          | some b => if b.epoch = x.epoch then some b else none
          | none => none)
    | none, some b => if b.epoch = x.epoch then some b else none
    | none, none => none

def Kln.strict (x : Kln) : Bool :=
  x.recLost || (match x.record with
    | some r => r.strict
    | none => false)

/-- HOLD is odd, or a strict trip found no step left. -/
def Kln.isHeld (x : Kln) : Bool := x.hold % 2 == 1 || x.softHold

/-- One OTP step is burned (R338): `bad` says how many of its two attempts fail. -/
def Dev.burn (k : Clock) (d : Dev) (bad : Nat) : Bool × Dev :=
  if 2 ≤ bad then (false, (d.bump0 .klnOtpBurnFail).kilnAlarm k)
  else (true, d.bump0 .klnOtpBurn)

end Sys2Proof.Machine
end

