-- ==== Sys2Proof/Machine/EthOps.lean ====
section
/-! DEFINITION. Frames, checksums, the flow table and delivery to host rings (R308, R312, R313, R319, R322 to R328, R389,
R390). -/
namespace Sys2Proof.Machine
open Sys2Proof

def Dev.setEth (d : Dev) (x : Eth) : Dev := { d with eth := x }
def Dev.port (d : Dev) (p : Nat) : EPort := d.eth.ports.get {} p
def Dev.setPort (d : Dev) (p : Nat) (x : EPort) : Dev := d.setEth { d.eth with ports := d.eth.ports.put {} p x }
def Dev.modPort (d : Dev) (p : Nat) (f : EPort → EPort) : Dev := d.setPort p (f (d.port p))
def Dev.txq (d : Dev) (p q : Nat) : EQueue := d.eth.queues.get {} (8 * p + q)
def Dev.setTxq (d : Dev) (p q : Nat) (x : EQueue) : Dev :=
  d.setEth { d.eth with queues := d.eth.queues.put {} (8 * p + q) x }
def Dev.modTxq (d : Dev) (p q : Nat) (f : EQueue → EQueue) : Dev := d.setTxq p q (f (d.txq p q))

/-- A clock's place on the line of sub-ticks. -/
def clockAbs (k : Clock) : Nat := k.tick * 3072 + k.sub

/-! ### Time (R323, R324) -/

/-- PTP time in nanoseconds, truncated, of the instant `n` twentieths of a nanosecond after now. -/
def ptpNs (k : Clock) (n : Int) : Nat :=
  ((((clockAbs k * 2 ^ 32 + k.fine.toNat) * 125000 * 20 : Nat) : Int) + n * 3072 * 2 ^ 32).toNat / (3072 * 2 ^ 32 * 20)

/-- Seconds and nanoseconds of Table 12.4. -/
def ptpSec (ns : Nat) : Nat := ns / 1000000000
def ptpSub (ns : Nat) : Nat := ns % 1000000000

/-- The Hearth Stamp of the instant `n` nanoseconds before now. -/
def stampBefore (k : Clock) (n : Int) : Nat :=
  absStamp (((((clockAbs k * 2 ^ 32 + k.fine.toNat) * 125000 : Nat) : Int) - n * 3072 * 2 ^ 32).toNat / (125000 * 2 ^ 32))

/-! ### Checksums -/

/-- The one's complement sum of 16-bit words, most significant byte first. -/
def sum16 : List Nat → Nat
  | [] => 0
  | [a] => a * 256
  | a :: b :: r =>
    let s := a * 256 + b + sum16 r
    s % 65536 + s / 65536

def csum16 (bs : List Nat) : Nat := 65535 - sum16 bs % 65536

/-- The pseudo-header of an L4 segment. -/
def pseudo (v6 : Bool) (src dst : List Nat) (proto len : Nat) : List Nat :=
  if v6 then src.take 16 ++ dst.take 16 ++ bytesBE 4 len ++ [0, 0, 0, proto]
  else src.take 4 ++ dst.take 4 ++ [0, proto] ++ bytesBE 2 len

/-- A list with bytes written at a place. -/
def patch (bs : List Nat) (i : Nat) (v : List Nat) : List Nat := bs.take i ++ v ++ bs.drop (i + v.length)

/-- The checksum a UDP segment carries: 0xFFFF for a sum of zero. -/
def udpSum (c : Nat) : Nat := if c = 0 then 65535 else c

/-! ### Parsing (R319) -/

/-- What the parser finds. `l3` is the place of the IP header, `v4` whether it is IPv4's; `l4` the place of the L4
header, `seg` its segment's length and `proto` its protocol; addresses are 16 bytes, padded. -/
structure Parsed where
  tci   : Option Nat := none
  ety   : Nat := 0
  l3    : Nat := 14
  v4    : Bool := false
  v6    : Bool := false
  frag  : Bool := false
  ihl   : Nat := 0
  proto : Nat := 0
  l4    : Nat := 0
  seg   : Nat := 0
  src   : List Nat := []
  dst   : List Nat := []
  /-- 0 good, 1 bad, 2 not IPv4. -/
  ip    : Nat := 2
  /-- 0 good, 1 bad, 2 absent; none without an L4 header. -/
  l4sum : Option Nat := none
  sport : Nat := 0
  dport : Nat := 0
  payload : List Nat := []
deriving DecidableEq, Repr

def pad16 (bs : List Nat) : List Nat := bs ++ List.replicate (16 - bs.length) 0

/-- The L3 part. -/
def parseL3 (bs : List Nat) (tpid : Nat) : Parsed :=
  let e := beAt bs 12 2
  let x : Parsed := if e = tpid then { tci := some (beAt bs 14 2), ety := beAt bs 16 2, l3 := 18 } else { ety := e }
  let o := x.l3
  let n := bs.length
  if x.ety = 0x0800 then
    let ihl := bs.getD o 0 % 16
    let tot := beAt bs (o + 2) 2
    if bs.getD o 0 / 16 = 4 && decide (5 ≤ ihl) && decide (ihl * 4 ≤ tot) && decide (o + tot ≤ n) then
      { x with v4 := true, ihl := ihl, frag := beAt bs (o + 6) 2 % 2 ^ 14 ≠ 0, proto := bs.getD (o + 9) 0,
               l4 := o + ihl * 4, seg := tot - ihl * 4, src := pad16 (slice bs (o + 12) 4), dst := pad16 (slice bs (o + 16) 4),
               ip := if csum16 (slice bs o (ihl * 4)) = 0 then 0 else 1 }
    else x
  else if x.ety = 0x86DD then
    let len := beAt bs (o + 4) 2
    if bs.getD o 0 / 16 = 6 && decide (o + 40 + len ≤ n) && decide (o + 40 ≤ n) then
      { x with v6 := true, proto := bs.getD (o + 6) 0, l4 := o + 40, seg := len, src := slice bs (o + 8) 16,
               dst := slice bs (o + 24) 16 }
    else x
  else x

/-- The L4 part of a frame that has one. -/
def parseL4 (bs : List Nat) (x : Parsed) : Parsed :=
  let o := x.l4
  if !(x.v4 || x.v6) || x.frag then x
  else if x.proto = 17 && decide (8 ≤ x.seg) && decide (8 ≤ beAt bs (o + 4) 2) && decide (beAt bs (o + 4) 2 ≤ x.seg) then
    let len := beAt bs (o + 4) 2
    let s := slice bs o len
    let sum := if x.v4 && beAt bs (o + 6) 2 = 0 then 2
      else if beAt bs (o + 6) 2 = 0 then 1
      else if csum16 (pseudo x.v6 x.src x.dst 17 len ++ s) = 0 then 0 else 1
    { x with l4sum := some sum, sport := beAt bs o 2, dport := beAt bs (o + 2) 2, payload := s.drop 8 }
  else if x.proto = 6 && decide (20 ≤ x.seg) && decide (5 ≤ bs.getD (o + 12) 0 / 16) && decide (bs.getD (o + 12) 0 / 16 * 4 ≤ x.seg) then
    let s := slice bs o x.seg
    let sum := if csum16 (pseudo x.v6 x.src x.dst 6 x.seg ++ s) = 0 then 0 else 1
    { x with l4sum := some sum, sport := beAt bs o 2, dport := beAt bs (o + 2) 2, payload := s.drop (bs.getD (o + 12) 0 / 16 * 4) }
  else x

def parseFrame (bs : List Nat) (tpid : Nat) : Parsed := parseL4 bs (parseL3 bs tpid)

def Parsed.classified (x : Parsed) : Bool := x.l4sum.isSome

/-! ### Address filter (R308) -/

def Dev.ptpOn (d : Dev) (p : Nat) : Bool := d.htb.enables.getLsbD p && !d.htb.ptpOff
def Dev.syncOn (d : Dev) (p : Nat) : Bool := d.htb.enables.getLsbD (3 + p)

def Dev.addrOk (d : Dev) (p : Nat) (da : List Nat) : Bool :=
  let own := if d.eth.protect then (d.port 0).mac else (d.port p).mac
  da == own || da == (d.port p).mac || da == [255, 255, 255, 255, 255, 255] || (d.port p).mcast.contains da ||
    da == [0x01, 0x80, 0xC2, 0, 0, 0x01] || (d.syncOn p && da == [0x01, 0x80, 0xC2, 0, 0, 0x02]) ||
    (d.ptpOn p && da == (if d.htb.l2Addr then [0x01, 0x80, 0xC2, 0, 0, 0x0E] else [0x01, 0x1B, 0x19, 0, 0, 0]))

/-! ### The flow table (R326 to R328) -/

def Dev.flow (d : Dev) (h : Nat) : Option Flow := d.eth.flows.get none h
def Dev.setFlow (d : Dev) (h : Nat) (x : Option Flow) : Dev := d.setEth { d.eth with flows := d.eth.flows.put none h x }
def Dev.flowList (d : Dev) : List (Nat × Flow) := d.eth.flows.entries.filterMap (fun p => p.2.map (fun f => (p.1, f)))

/-- The key of a frame under a source mode (Table 12.5). -/
def flowKey (x : Parsed) (mode : Nat) : List Nat :=
  [b2n x.tci.isSome + b2n x.v6 * 2 + b2n (x.proto == 6) * 4 + mode * 8] ++
    bytesLE 2 (x.tci.getD 0 % 4096) ++ [0] ++ x.dst.take 16 ++ bytesBE 2 x.dport ++
    (if mode = 0 then List.replicate 16 0 else x.src.take 16) ++ (if mode = 2 then bytesBE 2 x.sport else [0, 0])

/-- The entry that holds a key, with its handle. -/
def Dev.flowFind (d : Dev) (key : List Nat) : Option (Nat × Flow) := d.flowList.find? (fun p => p.2.key == key)

/-- The three lookups of R326. -/
def Dev.flowLookup (d : Dev) (x : Parsed) : Option (Nat × Flow) :=
  [2, 1, 0].findSome? (fun m => d.flowFind (flowKey x m))

/-- A key keeps the zero rules of Table 12.5, and its SRC_MODE is not 3. -/
def keyOk (key : List Nat) : Bool :=
  let b := key.getD 0 0
  let mode := bitsOf b 3 2
  let zero := fun (i n : Nat) => (slice key i n).all (· == 0)
  key.length == 40 && decide (b < 32) && mode != 3 && decide (key.getD 2 0 < 16) && key.getD 3 0 == 0 &&
    (bitOf b 0 || zero 1 2) && (bitOf b 1 || (zero 8 12 && zero 26 12)) && (mode != 0 || zero 22 16) &&
    (mode == 2 || zero 38 2)

/-- The slot of a key in a way. -/
def Dev.slotOf (d : Dev) (way : Nat) (key : List Nat) : Nat := (Config.flowHash d.eth.seed way (ofBytesLE key)).toNat

/-- Who stands in a slot. -/
def Dev.slotUser (d : Dev) (way slot : Nat) : Option (Nat × Flow) := d.flowList.find? (fun p => p.2.way == way && p.2.slot == slot)

/-- A chain of at most `n` displacements that empties a slot, none of an entry in `seen`: the entries to move with the ways
they move to, the first to move first. -/
def Dev.chain (d : Dev) : Nat → List Nat → Nat → Nat → Option (List (Nat × Nat))
  | 0, _, _, _ => none
  | n + 1, seen, way, slot =>
    match d.slotUser way slot with
    | none => some []
    | some u =>
      if seen.contains u.1 then none
      else
        let others := [0, 1, 2, 3].filter (· != way)
        match others.find? (fun w => (d.slotUser w (d.slotOf w u.2.key)).isNone) with
        | some w => some [(u.1, w)]
        | none => others.findSome? (fun w =>
            (Dev.chain d n (u.1 :: seen) w (d.slotOf w u.2.key)).map (fun c => c ++ [(u.1, w)]))

/-- The moves of a chain, from its far end. -/
def Dev.moveAll (d : Dev) (l : List (Nat × Nat)) : Dev :=
  l.foldl (fun d (p : Nat × Nat) =>
    match d.flow p.1 with
    | some f => d.setFlow p.1 (some { f with way := p.2, slot := d.slotOf p.2 f.key })
    | none => d) d

/-- Where a key can be put: its way, with the moves made and their number. -/
def Dev.flowPlace (d : Dev) (key : List Nat) : Option (Nat × Nat × Dev) :=
  match [0, 1, 2, 3].find? (fun w => (d.slotUser w (d.slotOf w key)).isNone) with
  | some w => some (w, 0, d)
  | none =>
    [1, 2, 3, 4, 5].findSome? (fun n => [0, 1, 2, 3].findSome? (fun w =>
      (d.chain n [] w (d.slotOf w key)).map (fun c => (w, c.length, d.moveAll c))))

/-- The entry that 64 bytes spell (Table 12.6). -/
def flowOf (bs : List Nat) : Flow :=
  let f := fun (i n : Nat) => ofBytesLE (slice bs i n)
  { key := slice bs 0 40, action := bitsOf (f 40 1) 0 2, prio := bitsOf (f 40 1) 2 3, flagEn := bitOf (f 40 1) 5,
    ring := f 41 1, hopper := bitsOf (f 42 2) 0 10, keyH := f 44 4, tag := f 48 2, thread := bitsOf (f 50 2) 0 13,
    flag := bitsOf (f 52 4) 0 5 }

/-- Bytes 40 to 55 of an entry keep their reserved fields zero, and ACTION is not 3. -/
def flowTailOk (bs : List Nat) : Bool :=
  let f := fun (i n : Nat) => ofBytesLE (slice bs i n)
  decide (f 0 1 < 64) && bitsOf (f 0 1) 0 2 != 3 && decide (f 2 2 < 1024) && decide (f 10 2 < 8192) && decide (f 12 4 < 32)

/-- Bytes 40 to 63 of an entry, with its hit count. -/
def Flow.fields (f : Flow) : List RField :=
  (f.key.map (fun b => (⟨1, b⟩ : RField))) ++
    [⟨1, f.action + f.prio * 4 + b2n f.flagEn * 32⟩, ⟨1, f.ring⟩, ⟨2, f.hopper⟩, ⟨4, f.keyH⟩, ⟨2, f.tag⟩, ⟨2, f.thread⟩,
     ⟨4, f.flag⟩, ⟨8, f.hits⟩]

/-! ### Delivery to a host ring (R389, R390) -/

/-- Buffers posted at the head of a ring that fail R389 are written back and consumed. -/
def Dev.skipBad (d : Dev) (n : Nat) (typ : Nat) : Nat → Dev
  | 0 => d
  | m + 1 =>
    match (d.ring n).posted with
    | b :: r =>
      if b.good then d
      else
        let d := if typ = 4 then (d.send (.rxp n b.idx 0 false false true 0 0 0 false 0 0 0 0)).bump1 .hifRingRxpBadBuf n
          else (d.send (.dmp n b.idx 0 0 0 false false true)).bump1 .hifRingDmpBadBuf n
        Dev.skipBad (d.modRing n (fun x => { x with posted := r, c := x.c + 1 })) n typ m
    | [] => d

/-- The buffers that `bytes` fill, in order, each with what it takes; none where the buffers run out. Buffers that fail
R389 between them take nothing. -/
def fillBufs : List Buf → List Nat → Option (List (Buf × List Nat))
  | [], bs => if bs.isEmpty then some [] else none
  | b :: r, bs =>
    if bs.isEmpty then some []
    else if !b.good then (fillBufs r bs).map (fun l => (b, []) :: l)
    else (fillBufs r (bs.drop b.len)).map (fun l => (b, bs.take b.len) :: l)

/-- What a delivery says of its frame (Table 14.9). -/
structure RxInfo where
  port  : Nat
  ip    : Nat
  l4    : Nat
  miss  : Bool
  pcp   : Nat
  stamp : Nat
  flow  : Nat
deriving DecidableEq, Repr

def Dev.rxWriteBack (d : Dev) (n total : Nat) (x : RxInfo) : Bool → List (Buf × List Nat) → Dev
  | _, [] => d
  | first, (b, bs) :: r =>
    let d := d.modRing n (fun y => { y with c := y.c + 1, posted := y.posted.drop 1 })
    if !b.good then
      Dev.rxWriteBack ((d.send (.rxp n b.idx 0 false false true 0 0 0 false 0 0 0 0)).bump1 .hifRingRxpBadBuf n) n total x first r
    else
      let last := r.all (fun y => !y.1.good)
      let d := d.send (.hostWrite b.addr bs)
      let d := d.send (.rxp n b.idx bs.length first last false x.port x.ip x.l4 x.miss x.pcp (if first then x.stamp else 0)
        (if first then total else 0) x.flow)
      Dev.rxWriteBack d n total x false r

/-- A whole frame for ring `n` (R24, R374, R390, R401). -/
def Dev.rxDeliver (k : Clock) (d : Dev) (n : Nat) (bytes : List Nat) (x : RxInfo) : Dev :=
  if d.hif.paused then d.bump0 .hifRxRestartDrop
  else if !d.hif.bme || d.hif.d3hot then d.bump0 .hifBmeDrop
  else if !d.ringIs n 4 then d.bump1 .hifRingRxNoRing n
  else
    let d := d.skipBad n 4 (d.ring n).posted.length
    match fillBufs (d.ring n).posted bytes with
    | none => d.bump1 .hifRingRxNobufDrop n
    | some l => (d.rxWriteBack n bytes.length x true l).wrote k n

end Sys2Proof.Machine
end

