-- ==== Sys2Proof/Machine/Hopper.lean ====
section
/-! DEFINITION. The commands and events of the Hoppers (R239, R240, R246 to R250, Table 9.2). -/
namespace Sys2Proof.Machine
open Sys2Proof

/-- The Hoppers set up, ascending. -/
def Dev.hoppersUp (d : Dev) : List Nat := (d.hop.hops.entries.filter (fun p => p.2.setUp)).map (·.1)

/-- FRAME_L (R239). -/
def Dev.hopFrame (k : Clock) (d : Dev) (len : Nat) : Dev :=
  d.hoppersUp.foldl (fun d h =>
    let x := d.hopper h
    if x.sched && x.frameLen == len then (d.setHopper h { x with due := true }).trySwap k h else d) d

/-- CLOSE_L (R239). -/
def Dev.hopClose (k : Clock) (d : Dev) (len : Nat) : Dev :=
  d.hoppersUp.foldl (fun d h =>
    let x := d.hopper h
    if x.sched && x.frameLen == len && x.due then d.forcedSwap k h else d) d

/-- The ticks of GRACE pass (R247). -/
def Dev.hopTick (d : Dev) : Dev :=
  d.hoppersUp.foldl (fun d h =>
    let x := d.hopper h
    if x.closing.isSome then d.setHopper h { x with closing := x.closing.map (· - 1) } else d) d

/-- A producer's burst begins in its turn, or waits (R233, R236). -/
def execBurstStart (h : Nat) (p : Prod) (prio : Nat) (words : List Word) (s : State) : Out :=
  onDev (fun k d => (d.burstOpen k h p prio words).2) s

/-- Both banks are empty and no burst remains. -/
def Hopper.empty (x : Hopper) : Bool := x.fill.isEmpty && x.rel == x.seq.length && x.burst.isNone && x.queue.isEmpty

def execHopperDestroyEnd (h : Nat) (s : State) : Out :=
  onDev (fun k d =>
    let x := d.hopper h
    if x.setUp && (x.closing == some 0 || (x.closing.isSome && x.empty)) then (d.hopDestroyEnd h).finish k .hopperDestroy h .ok
    else d) s

def HopMode.bad (m : HopMode) : Bool :=
  decide (3 < m.frame) || decide (31 < m.noticeFlag) || decide (31 < m.swapFlag) || decide (8191 < m.thread)

def Hopper.setMode (x : Hopper) (m : HopMode) : Hopper :=
  { x with sched := m.sched, frame := m.frame, noticeEn := m.noticeEn, noticeFlag := m.noticeFlag,
           swapFlagEn := m.swapFlagEn, swapFlag := m.swapFlag, thread := m.thread, due := x.due && m.sched }

/-- The region of two banks of 2^`lg` words from `base` fits, and overlaps no set-up Hopper but perhaps `h`. -/
def Dev.regionOk (d : Dev) (h base lg : Nat) : Bool :=
  let lo := base * 256
  let hi := lo + 2 * 2 ^ lg
  decide (hi ≤ 2097152) && d.hop.hops.entries.all (fun p =>
    !p.2.setUp || p.1 == h || decide (p.2.base * 256 + 2 * p.2.size ≤ lo) || decide (hi ≤ p.2.base * 256))

def execHopperCreate (o : Origin) (h base lg : Nat) (m : HopMode) (s : State) : Out :=
  hostCmd o 0x0701 (fun _ d =>
    let st := firstStatus .ok [
      (decide (lg < 8) || decide (18 < lg) || decide (8191 < base) || m.bad, .badArg), (decide (1023 < h), .unknownObject),
      (!d.regionOk h base lg, .noResource), ((d.hopper h).setUp, .refusedBusy)]
    if st == .ok then
      (.now .ok [], d.setHopper h (({ setUp := true, base := base, sizeLog2 := lg } : Hopper).setMode m))
    else (.now st [], d)) s

def execHopperDestroy (o : Origin) (h grace : Nat) (s : State) : Out :=
  hostCmd o 0x0702 (fun _ d =>
    let x := d.hopper h
    let st := firstStatus .ok [(decide (160 < grace), .badArg), (!d.hopUp h, .unknownObject), (x.closing.isSome, .refusedBusy)]
    if st == .ok then
      let n := x.queue.length
      let d := if n = 0 then d else d.bumpN ⟨.hopHClosedDrop, h, 0⟩ n
      let mine := match x.burst with
        | some b => (match b.prod with
          | .eth p => d.eth.flight.find? (fun f => f.hop == h && f.port == p)
          | _ => none)
        | none => none
      let d := d.dropFlights (fun f => f.hop == h && mine != some f)
      (.later .hopperDestroy h, d.setHopper h { x with closing := some grace, queue := [] })
    else (.now st [], d)) s

def execHopperFlush (o : Origin) (h : Nat) (s : State) : Out :=
  hostCmd o 0x0703 (fun k d => if d.hopUp h then (.now .ok [], d.hopFlush k h) else (.now .unknownObject [], d)) s

def execHopperSwap (o : Origin) (h : Nat) (s : State) : Out :=
  hostCmd o 0x0704 (fun k d =>
    if d.hopUp h then (.now .ok [], (d.forcedSwap k h).trySwap k h) else (.now .unknownObject [], d)) s

def execHopperMode (o : Origin) (h : Nat) (m : HopMode) (s : State) : Out :=
  hostCmd o 0x0705 (fun k d =>
    if m.bad then (.now .badArg [], d)
    else if !d.hopUp h then (.now .unknownObject [], d)
    else (.now .ok [], (d.modHopper h (fun x => x.setMode m)).trySwap k h)) s

def hopCounters : List CEv :=
  [.hopHLostItem, .hopHOverflowSwap, .hopHSwapResidueLost, .hopHAbort, .hopHTooLong, .hopHPutVoid, .hopHFlushVoid,
    .hopHMarkLost, .hopHFlushDiscard, .hopHClosedDrop, .hopHDestroyDiscard, .hopHCe, .hopHUe]

def execHopperStatus (o : Origin) (h : Nat) (s : State) : Out :=
  hostCmd o 0x0706 (fun _ d =>
    if !d.hopUp h then (.now .unknownObject [], d)
    else
      let x := d.hopper h
      let opens := b2n x.burst.isSome + (d.hop.puts.entries.filter (fun p => p.2.owner.isSome && p.2.hop == h)).length
      let voids := (d.hop.voided.entries.filter (fun p => p.2 == h + 1)).length
      (.now .ok ([⟨2, x.base⟩, ⟨4, x.size⟩, ⟨1, b2n x.sched + 2 * x.frame⟩, ⟨1, x.fb⟩, ⟨4, x.w⟩, ⟨4, x.fill.length⟩,
        ⟨4, x.seq.length⟩, ⟨4, x.rel⟩, ⟨4, x.rp⟩, ⟨4, x.ro⟩, ⟨1, b2n x.mv⟩, ⟨1, b2n x.due⟩, ⟨2, opens⟩, ⟨2, voids⟩] ++
        hopCounters.map (fun c => ⟨8, d.count ⟨c, h, 0⟩⟩)), d)) s

end Sys2Proof.Machine
end

