-- ==== Sys2Proof/Machine/Eth.lean ====
section
/-! DEFINITION. The Ethernet ports and the flow table (chapter 12). -/
namespace Sys2Proof.Machine
open Sys2Proof

/-! ### Reading queues (R309, R330) -/

/-- The queues a port reads, highest number first, each with the port whose registers name it. -/
def Dev.readsOf (d : Dev) (p : Nat) : List (Nat × Nat) :=
  let all := [7, 6, 5, 4, 3, 2, 1, 0]
  if !d.eth.protect then all.map (fun q => (p, q))
  else
    let own := if p = 1 then [(1, (d.port 1).ptpQueue)] else []
    if p = d.eth.active then all.flatMap (fun q => (0, q) :: own.filter (fun x => x.2 == q)) else own

/-- A queue that is read and holds a readable packet. -/
def Dev.txReady (d : Dev) (x : Nat × Nat) : Bool := (d.txq x.1 x.2).en && d.hopReady (d.txq x.1 x.2).hop

/-- Every packet of a port's queue Hoppers is read and discarded. -/
def Dev.drainQ (k : Clock) (c : CEv) (p : Nat) (x : Nat × Nat) : Nat → Dev → Dev
  | 0, d => d
  | n + 1, d =>
    if d.txReady x then Dev.drainQ k c p x n ((d.hopTake k (d.txq x.1 x.2).hop).2.bump ⟨c, p, x.2⟩) else d

def Dev.drainPort (k : Clock) (d : Dev) (p : Nat) (c : CEv) : Dev :=
  (d.readsOf p).foldl (fun d x =>
    let h := d.hopper (d.txq x.1 x.2).hop
    Dev.drainQ k c p x (h.fill.length + h.seq.length) d) d

/-! ### Building frames (R312 to R315) -/

/-- The L3 and L4 checksums of a RAW packet with CSUM set (R313): the frame, and whether no L4 checksum is computed. -/
def rawSums (bs : List Nat) (tpid : Nat) : List Nat × Bool :=
  let x := parseL3 bs tpid
  let bs := if x.v4 then
      let z := patch bs (x.l3 + 10) [0, 0]
      patch z (x.l3 + 10) (bytesBE 2 (csum16 (slice z x.l3 (x.ihl * 4))))
    else bs
  if (x.v4 || x.v6) && !x.frag && x.proto == 17 && decide (8 ≤ x.seg) then
    let z := patch bs (x.l4 + 6) [0, 0]
    (patch z (x.l4 + 6) (bytesBE 2 (udpSum (csum16 (pseudo x.v6 x.src x.dst 17 x.seg ++ slice z x.l4 x.seg)))), false)
  else if (x.v4 || x.v6) && !x.frag && x.proto == 6 && decide (20 ≤ x.seg) then
    let z := patch bs (x.l4 + 16) [0, 0]
    (patch z (x.l4 + 16) (bytesBE 2 (csum16 (pseudo x.v6 x.src x.dst 6 x.seg ++ slice z x.l4 x.seg))), false)
  else (bs, true)

/-- Where a frame's PTP message begins, where R314 admits the frame: Ethertype 0x88F7, or UDP to port 319. -/
def ptpAt (bs : List Nat) (tpid : Nat) : Option Nat :=
  let x := parseL3 bs tpid
  if x.ety = 0x88F7 then some x.l3
  else if (x.v4 || x.v6) && x.proto == 17 && beAt bs (x.l4 + 2) 2 == 319 then some (x.l4 + 8)
  else none

/-- The message is a Delay_Req. -/
def delayReqAt (bs : List Nat) (tpid : Nat) : Option Nat :=
  (ptpAt bs tpid).bind (fun i => if bs.getD i 0 % 16 = 1 then some i else none)

/-- A frame under R312 from a destination entry, a source address and its protected content. -/
def buildFrame (e mac content : List Nat) : List Nat :=
  let b := e.getD 0 0
  let v6 := bitOf b 4
  let n := content.length + 8
  let src := slice e 16 16
  let dst := slice e 32 16
  let tos := (e.getD 10 0 % 64) * 4
  let udp0 := slice e 48 2 ++ slice e 50 2 ++ bytesBE 2 n ++ [0, 0] ++ content
  let sum := if v6 || bitOf b 6 then udpSum (csum16 (pseudo v6 src dst 17 n ++ udp0)) else 0
  let udp := patch udp0 6 (bytesBE 2 sum)
  let ip := if v6 then
      bytesBE 4 (6 * 2 ^ 28 + tos * 2 ^ 20 + ofBytesLE (slice e 12 4) % 2 ^ 20) ++ bytesBE 2 n ++ [17, e.getD 11 0] ++ src ++ dst
    else
      let h := [0x45, tos] ++ bytesBE 2 (n + 20) ++ [0, 0, 0x40, 0, e.getD 11 0, 17, 0, 0] ++ src.take 4 ++ dst.take 4
      patch h 10 (bytesBE 2 (csum16 h))
  let tag := if bitOf b 5 then [0x81, 0x00] ++ bytesBE 2 (ofBytesLE (slice e 2 2)) else []
  slice e 4 6 ++ mac ++ tag ++ (if v6 then [0x86, 0xDD] else [0x08, 0x00]) ++ ip ++ udp

/-- A frame padded to 60 bytes, FCS excluded. -/
def padFrame (bs : List Nat) : List Nat := bs ++ List.replicate (60 - bs.length) 0

/-- The frame's length without padding under R312, FCS included. -/
def builtLen (e : List Nat) (content : Nat) : Nat :=
  let b := e.getD 0 0
  max 64 (14 + (if bitOf b 5 then 4 else 0) + (if bitOf b 4 then 40 else 20) + 8 + content + 4)

/-- A 78,125th of a sub-tick, per byte and in TX_LAT (R314). -/
def byteTime (mode : Nat) : Nat := if mode = 0 then 1536 else 15360
def txLat (mode len : Nat) : Nat := 184320 + (if mode = 0 then 96 else 768) * len

def Dev.tpid (d : Dev) (p : Nat) : Nat := if (d.port p).tpidSel then 0x88A8 else 0x8100

/-- A frame is committed: the port is busy until it and its gap have left, the ceiling's credit falls (R311, R314). -/
def Dev.commitFrame (k : Clock) (d : Dev) (p : Nat) (x : Nat × Nat) (sec : Bool) (bs : List Nat) : Dev :=
  let pt := d.port p
  let len := bs.length + 4
  let d := d.modTxq x.1 x.2 (fun q => if q.rate = 0 then q else { q with credit := q.credit - (len + 20 : Nat) })
  let busy := clockAbs k * 78125 + txLat pt.mode len + (len + 12) * byteTime pt.mode
  (d.setPort p { pt with busyTo := busy, busyQ := some x.2, busySec := sec }).send (.frame p bs)

/-- The frame that TX_LAT after now carries an inserted timestamp (R314). -/
def insertStamp (k : Clock) (pt : EPort) (bs : List Nat) (i : Nat) : List Nat :=
  let len := (padFrame bs).length + 4
  let ns := ptpNs k ((((96 * 20 + (if pt.mode = 0 then 1 else 8) * len : Nat) : Int)) + 20 * pt.txComp)
  patch bs (i + 34) (bytesBE 6 (ptpSec ns) ++ bytesBE 4 (ptpSub ns))

/-- A packet of queue `x` read by port `p` (R313, R315). -/
def Dev.txPacket (k : Clock) (d : Dev) (p : Nat) (x : Nat × Nat) (ws : List Word) : Dev :=
  let pt := d.port p
  let bad := fun (d : Dev) => d.bump1 .ethETxBadPacket p
  let w0 := (ws.getD 0 0).toNat
  let key := (ws.getD 1 0).toNat
  let dest := bitsOf w0 0 13
  let raw := bitOf w0 13
  let ts := bitOf w0 14
  let csum := bitOf w0 15
  let n := bitsOf w0 16 14
  let rtcp := bitOf w0 30
  let content := (wordsBytes (ws.drop 2)).take n
  let tpid := d.tpid p
  if bitOf w0 31 || (raw && dest != 0) || (!raw && (ts || csum)) || n == 0 || ws.length != 2 + (n + 3) / 4 then bad d
  else if (key != 0 && (raw || ts)) || (ts && (delayReqAt content tpid).isNone) then bad d
  else if raw then
    if pt.maxFrame < max 64 (n + 4) then bad d
    else
      let bs := match ts, delayReqAt content tpid with
        | true, some i => insertStamp k pt content i
        | _, _ => content
      let r := if csum then rawSums bs tpid else (bs, false)
      let d := if csum && r.2 then d.bump1 .ethETxCsumSkip p else d
      let d := match ts, delayReqAt content tpid with
        | false, some _ =>
          let ns := ptpNs k ((((96 * 20 + (if pt.mode = 0 then 1 else 8) * ((padFrame bs).length + 4) : Nat) : Int)) + 20 * pt.txComp)
          let f := fun (y : PtpPort) => { y with txSec := ptpSec ns, txNs := ptpSub ns }
          d.setHtb (if p = 0 then { d.htb with port0 := f d.htb.port0 } else { d.htb with port1 := f d.htb.port1 })
        | _, _ => d
      d.commitFrame k p x false (padFrame r.1)
  else
    let e := d.eth.dests.get [] dest
    let b := e.getD 0 0
    if e.isEmpty || b % 2 != x.1 || bitsOf b 1 3 != x.2 then bad d
    else
      let add := match d.txSuite key with
        | some suite => protLen suite (rtcp || hRtcp key)
        | none => 0
      if pt.maxFrame < builtLen e (n + add) then bad d
      else
        let mac := if x.1 = 0 then (d.port 0).mac else pt.mac
        if key = 0 then d.commitFrame k p x false (padFrame (buildFrame e mac content))
        else
          let r := d.protect k p key rtcp content
          match r.1 with
          | .noKey => r.2.bump1 .ethETxNoKey p
          | .exhausted => r.2
          | .done bs => r.2.commitFrame k p x true (padFrame (buildFrame e mac bs))

/-! ### Protection switching (R331) -/

/-- A port of the pair becomes active. -/
def Dev.makeActive (k : Clock) (d : Dev) (p why : Nat) : Dev :=
  ((d.setEth { d.eth with active := p, switchTo := none, downFor := 0, upFor := 0 }).bump0 .ethProtectSwitch).event k 0x0981 p why

/-- The frame in transmission has left. -/
def Dev.txIdle (k : Clock) (d : Dev) (p : Nat) : Bool := decide ((d.port p).busyTo ≤ clockAbs k * 78125)

/-- A switch that waits is made once the frame in transmission has left. -/
def Dev.laterSwitch (k : Clock) (d : Dev) : Dev :=
  match d.eth.switchTo with
  | some s => if d.txIdle k d.eth.active then d.makeActive k s.1 s.2 else d
  | none => d

/-- The rules of R310 let a queue go on port `p`: not paused there, its ceiling allowing. -/
def Dev.txEligible (k : Clock) (d : Dev) (p : Nat) (x : Nat × Nat) : Bool :=
  let q := d.txq x.1 x.2
  d.txReady x && decide ((d.txq p x.2).pauseTo ≤ clockAbs k) && (q.rate == 0 || decide (0 < q.credit))

/-- A port that is down, outside a pair, or disabled reads and discards (R307, R332). -/
def Dev.txDiscard (k : Clock) (d : Dev) (p : Nat) (c : CEv) : Dev :=
  match (d.readsOf p).find? (fun x => d.txReady x) with
  | some x => (d.hopTake k (d.txq x.1 x.2).hop).2.bump ⟨c, p, x.2⟩
  | none => d

def Dev.txSelect (k : Clock) (d : Dev) (p : Nat) : Dev :=
  let d := d.laterSwitch k
  let pt := d.port p
  if 1 < p then d
  else if !pt.en then d.txDiscard k p .ethEQDisableDrop
  else if !pt.link then (if d.eth.protect then d else d.txDiscard k p .ethEQLinkDownDrop)
  else if !d.txIdle k p then d
  else
    match (d.readsOf p).find? (fun x => d.txEligible k p x) with
    | some x =>
      match d.hopTake k (d.txq x.1 x.2).hop with
      | (some pk, d) => d.txPacket k p x pk.2
      | (none, d) => d
    | none => d

def execTxSelect (port : Nat) (s : State) : Out := onDev (fun k d => d.txSelect k port) s

/-! ### PAUSE and PFC (R316 to R318) -/

/-- Sub-ticks of `q` quanta: 1.2582912 each at 10GBASE-R, ten times that otherwise. -/
def pauseLen (mode q : Nat) : Nat := (q * (if mode = 0 then 98304 else 983040) + 78124) / 78125

def Dev.pauseQueue (k : Clock) (d : Dev) (p q quanta : Nat) : Dev :=
  let stop := if quanta = 0 then 0 else clockAbs k + 1 + pauseLen (d.port p).mode quanta
  d.modTxq p q (fun x => { x with pauseTo := stop })

/-- An accepted PAUSE, its last byte received in this sub-tick. -/
def Dev.pauseRx (k : Clock) (d : Dev) (p quanta : Nat) : Dev :=
  let d := (d.bump1 .ethEPauseFrames p).bumpN ⟨.ethEPauseQuanta, p, 0⟩ quanta
  (List.range 8).foldl (fun d q => d.pauseQueue k p q quanta) d

/-- The class that pauses queue `q` of port `p`: the active port of a pair sends E0's queues (R317, R330). -/
def Dev.pfcClass (d : Dev) (p q : Nat) : Nat := (d.txq (if d.eth.protect && p == d.eth.active then 0 else p) q).prio

/-- An accepted PFC frame: the class-enable vector and the eight times. -/
def Dev.pfcRx (k : Clock) (d : Dev) (p enables : Nat) (times : List Nat) : Dev :=
  (List.range 8).foldl (fun d q =>
    let c := d.pfcClass p q
    if bitOf enables c then
      let t := times.getD c 0 % 65536
      ((d.bump ⟨.ethEQPfcFrames, p, q⟩).bumpN ⟨.ethEQPauseQuanta, p, q⟩ t).pauseQueue k p q t
    else d) d

def Dev.takesPause (d : Dev) (p : Nat) : Bool := (d.port p).pauseEn && !(d.port p).pfcEn

/-- A MAC control frame that reaches a port and passes R308. -/
def Dev.macControl (k : Clock) (d : Dev) (p : Nat) (bs : List Nat) (at_ : Nat) : Dev :=
  let opc := beAt bs at_ 2
  if opc = 1 && d.takesPause p then d.pauseRx k p (beAt bs (at_ + 2) 2)
  else if opc = 0x0101 && (d.port p).pfcEn then
    d.pfcRx k p (beAt bs (at_ + 2) 2) ((List.range 8).map (fun i => beAt bs (at_ + 4 + 2 * i) 2))
  else d.bump1 .ethEMacCtrlDrop p

def execPauseFrameRx (port quanta : Nat) (s : State) : Out :=
  onDev (fun k d =>
    if 1 < port then d
    else if !(d.port port).en then d.bump1 .ethERxDisabledDrop port
    else if d.takesPause port then d.pauseRx k port (quanta % 65536)
    else d.bump1 .ethEMacCtrlDrop port) s

def execPfcFrameRx (port enables : Nat) (times : List Nat) (s : State) : Out :=
  onDev (fun k d =>
    if 1 < port then d
    else if !(d.port port).en then d.bump1 .ethERxDisabledDrop port
    else if (d.port port).pfcEn then d.pfcRx k port enables times
    else d.bump1 .ethEMacCtrlDrop port) s

/-- A queue's pause has run out. -/
def execPauseExpiry (port queue : Nat) (s : State) : Out :=
  onDev (fun k d =>
    if port < 2 && queue < 8 && decide ((d.txq port queue).pauseTo ≤ clockAbs k) then
      d.modTxq port queue (fun x => { x with pauseTo := 0 })
    else d) s

/-! ### Receiving (R319 to R325) -/

/-- A PTP message (R320, R325): management messages are counted and go, event messages are timestamped. -/
def Dev.ptpRx (k : Clock) (d : Dev) (p typ age : Nat) : Dev :=
  if d.hif.paused then d.bump1 .ethEPtpRestartDrop p
  else if typ = 13 then d.bump1 .htbEPtpMgmtDrop p
  else if typ < 4 then
    let ns := ptpNs k (-(((20 * age : Nat) : Int) + 20 * (d.port p).rxComp))
    let f := fun (x : PtpPort) => { x with rxSec := ptpSec ns, rxNs := ptpSub ns }
    d.setHtb (if p = 0 then { d.htb with port0 := f d.htb.port0 } else { d.htb with port1 := f d.htb.port1 })
  else d

/-- A PTP message of a type arrived `age` ns ago on a port. -/
def execPtpEventRx (port typ age : Nat) (s : State) : Out :=
  onDev (fun k d =>
    if 1 < port then d
    else if !(d.port port).en then d.bump1 .ethERxDisabledDrop port
    else if d.ptpOn port then d.ptpRx k port (typ % 16) age
    else d) s

/-- ESMC: the quality level of its first TLV (R42). -/
def Dev.esmcIn (d : Dev) (p : Nat) (bs : List Nat) (o : Nat) : Dev :=
  if d.hif.paused then d.bump1 .ethEPtpRestartDrop p
  else if bs.getD (o + 10) 0 = 1 then
    let dnu := bs.getD (o + 13) 0 % 16 == 15
    let f := fun (x : PtpPort) => { x with dnu := dnu }
    (d.setHtb (if p = 0 then { d.htb with port0 := f d.htb.port0 } else { d.htb with port1 := f d.htb.port1 })).selectFreq
  else d

/-- The record's words before the payload (Table 12.3). -/
def rxHead (f : Flow) (x : Parsed) (p stamp len : Nat) (sec : Bool) : List Word :=
  let w0 := f.tag + p * 2 ^ 16 + b2n x.v6 * 2 ^ 17 + b2n (x.proto == 6) * 2 ^ 18 + x.ip * 2 ^ 19 + (x.l4sum.getD 0) * 2 ^ 21 +
    b2n sec * 2 ^ 23 + ((x.tci.getD 0) / 2 ^ 13) * 2 ^ 24
  [BitVec.ofNat 32 w0, BitVec.ofNat 32 (stamp % 2 ^ 32), BitVec.ofNat 32 (stamp / 2 ^ 32),
   BitVec.ofNat 32 (len + x.sport * 2 ^ 16)] ++ bytesWords (x.src.take 16)

/-- LENGTH of a record's words replaced. -/
def setLen (head : List Word) (len : Nat) : List Word :=
  modAt head 3 (fun w => BitVec.ofNat 32 (len % 2 ^ 16 + (w.toNat / 2 ^ 16) * 2 ^ 16))

/-- A hit with ACTION HOPPER (R322): the burst begins or waits its turn. -/
def Dev.toHopper (k : Clock) (d : Dev) (p h : Nat) (f : Flow) (x : Parsed) (stamp bytes : Nat) : Dev :=
  if 8160 < x.payload.length then d.bump1 .ethERxTooLong p
  else if !d.hopUp f.hopper then d.bump1 .ethERxNoHopper p
  else
    let n := x.payload.length - (match d.hRxOf f.keyH with
      | some y => protLen y.suite (hRtcp f.keyH)
      | none => 0)
    let head := rxHead f x p stamp n (f.keyH != 0)
    let r := d.burstOpen k f.hopper (.eth p) f.prio (head ++ bytesWords (x.payload.take n))
    if r.1 == .ok then
      let d := r.2.modPort p (fun y => { y with rxBytes := y.rxBytes + bytes })
      let e : EFlight := { port := p, hop := f.hopper, handle := h, flagEn := f.flagEn, thread := f.thread, flag := f.flag,
                           keyH := f.keyH, bytes := bytes, raw := x.payload, head := head }
      d.setEth { d.eth with flight := d.eth.flight ++ [e] }
    else r.2

/-- A frame after R308 and R316: what R320 takes out, classification, and its delivery. -/
def Dev.frameIn (k : Clock) (d : Dev) (p : Nat) (bs : List Nat) (age : Nat) : Dev :=
  let x := parseFrame bs (d.tpid p)
  let udpPtp := x.proto == 17 && x.classified && (x.dport == 319 || x.dport == 320)
  if x.ip = 1 && (d.port p).dropIp then d.bump1 .ethERxIpCsumDrop p
  else if x.l4sum == some 1 && (d.port p).dropL4 then d.bump1 .ethERxL4CsumDrop p
  else if d.ptpOn p && x.ety == 0x88F7 then d.ptpRx k p (bs.getD x.l3 0 % 16) age
  else if d.ptpOn p && udpPtp then d.ptpRx k p (x.payload.getD 0 0 % 16) age
  else if d.syncOn p && x.ety == 0x8809 && bs.getD x.l3 0 == 0x0A then d.esmcIn p bs x.l3
  else
    let stamp := stampBefore k (((age : Nat) : Int) + (d.port p).rxComp)
    let r := d.draw 1
    let info : RxInfo := { port := p, ip := x.ip, l4 := x.l4sum.getD (Config.free r.1 % 4), miss := true,
                           pcp := (x.tci.getD 0) / 2 ^ 13, stamp := stamp, flow := 0xFFFF }
    let miss := fun (d : Dev) => d.rxDeliver k (d.port p).missRing bs info
    if !x.classified then miss r.2
    else
      match d.flowLookup x with
      | none => miss r.2
      | some (h, f) =>
        let d := r.2.setFlow h (some { f with hits := f.hits + 1 })
        if f.action = 0 then d.toHopper k p h f x stamp bs.length
        else if f.action = 1 then d.rxDeliver k f.ring bs { info with miss := false, flow := h }
        else d.bump1 .ethEFlowDrop p

/-- A frame has been received: `bs` from its destination address to the end of its payload, what its PCS and FCS checks
came to, and the ns since its first bit after the SFD. -/
def execFrameReceive (port : Nat) (bs : List Nat) (pcsErr fcsErr : Bool) (age : Nat) (s : State) : Out :=
  onDev (fun k d =>
    let pt := d.port port
    if 1 < port then d
    else if !pt.en then d.bump1 .ethERxDisabledDrop port
    else if pcsErr then d.bump1 .ethERxPcsError port
    else if fcsErr then d.bump1 .ethERxFcsError port
    else if bs.length + 4 < 64 then d.bump1 .ethERxRunt port
    else if pt.maxFrame < bs.length + 4 then d.bump1 .ethERxOversize port
    else if !d.addrOk port (bs.take 6) then d.bump1 .ethERxAddrDrop port
    else if beAt bs 12 2 = 0x8808 then d.macControl k port bs 14
    else if 131072 < pt.rxBytes + bs.length then d.bump1 .ethERxBufferDrop port
    else d.frameIn k port bs age) s

/-- The words of the burst in progress replaced by those that decryption has given; nothing more is written of a voided one
(R235). -/
def Dev.refill (d : Dev) (h : Nat) (ws : List Word) : Dev :=
  let x := d.hopper h
  match x.burst with
  | some b =>
    if b.voided then d else
    let ws := ws.take (x.size - b.start - 1)
    (d.writeWords (x.bankAt x.fb + b.start + 1) ws).setHopper h
      { x with w := b.start + 1 + ws.length, burst := some { b with words := ws } }
  | none => d

/-- The burst in progress of a Hopper ends, that of a put buffer always with its commit (R234); `auth` and `authNext` say what R350's step 5 finds for a received SRTP packet. -/
def Dev.endBurst (k : Clock) (d : Dev) (h : Nat) (ok auth authNext : Bool) : Dev :=
  let fl : Option EFlight := match (d.hopper h).burst with
    | some b => (match b.prod with
      | .eth p => d.eth.flight.find? (fun (f : EFlight) => f.hop == h && f.port == p)
      | _ => none)
    | none => none
  match fl with
  | none => (d.burstEnd k h (ok || (match (d.hopper h).burst with
      | some b => (match b.prod with
        | .put _ => true
        | _ => false)
      | none => false))).2
  | some f =>
    let d := (d.setEth { d.eth with flight := d.eth.flight.erase f }).modPort f.port
      (fun y => { y with rxBytes := y.rxBytes - f.bytes })
    let finish := fun (d : Dev) =>
      let r := d.burstEnd k h true
      if r.1 == .ok && f.flagEn then r.2.setFlag k f.thread f.flag else r.2
    if f.dead || !ok then (d.burstEnd k h false).2
    else if f.keyH = 0 then finish d
    else
      let r := match f.old with
        | some x => d.srtpOld f.port f.keyH x f.raw auth
        | none => d.srtpCheck k f.port f.keyH f.raw auth authNext
      match r.1 with
      | some bs => finish (r.2.refill h (setLen f.head bs.length ++ bytesWords bs))
      | none => (r.2.burstEnd k h false).2

def execBurstEnd (h : Nat) (ok auth authNext : Bool) (s : State) : Out :=
  onDev (fun k d => d.endBurst k h ok auth authNext) s

/-! ### Links and ticks (R307, R311, R331) -/

def Dev.setLink (d : Dev) (p : Nat) (up : Bool) : Dev :=
  let d := d.modPort p (fun x => { x with link := up, good := 0 })
  let f := fun (x : PtpPort) => { x with link := up }
  (d.setHtb (if p = 0 then { d.htb with port0 := f d.htb.port0 } else { d.htb with port1 := f d.htb.port1 })).selectFreq

def execLinkDown (port : Nat) (s : State) : Out :=
  onDev (fun k d =>
    let x := d.port port
    if 1 < port || k.sub != 0 || !x.link || !x.fault then d
    else
      let d := ((d.setLink port false).bump1 .ethELinkDown port).event k 0x0980 port 0
      if d.eth.protect then d else d.drainPort k port .ethEQLinkDownDrop) s

def execLinkUp (port : Nat) (s : State) : Out :=
  onDev (fun k d =>
    let x := d.port port
    if 1 < port || k.sub != 0 || x.link || x.good < 8 then d
    else (d.setLink port true).event k 0x0980 port 1) s

/-- A queue's ceiling at a tick (R311): the hold counted of the tick just ended, the change that waits, the credit. -/
def Dev.ceilingTick (k : Clock) (d : Dev) (p q : Nat) : Dev :=
  let x := d.txq p q
  let by_ := if d.eth.protect && p == 0 then d.eth.active else p
  let held := d.txReady (p, q) && x.rate != 0 && decide (x.credit ≤ 0) && (d.port by_).en && (d.port by_).link &&
    decide ((d.txq by_ q).pauseTo ≤ clockAbs k)
  let d := if held then d.bump ⟨.ethEQCeilingHold, p, q⟩ else d
  let y := match x.next with
    | some (r, b) => { x with rate := r, burst := b, credit := min x.credit b, next := none }
    | none => x
  let y := if y.rate = 0 then y else { y with credit := min (y.credit + (y.rate : Int)) y.burst }
  if y = x then d else d.setTxq p q y

/-- A port at a tick: the conditions of R307 in the tick just ended, and an enable that waits for the boundary. -/
def Dev.portTick (d : Dev) (p : Nat) (fault : Bool) : Dev :=
  d.modPort p (fun x => { x with fault := fault, good := if fault then 0 else x.good + 1,
                                 en := x.en || x.enNext, enNext := false })

/-- TICK reaches the ports. -/
def Dev.ethTick (k : Clock) (d : Dev) (fault0 fault1 : Bool) : Dev :=
  let d := (List.range 2).foldl (fun d p => (List.range 8).foldl (fun d q => d.ceilingTick k p q) d) d
  let d := (d.portTick 0 fault0).portTick 1 fault1
  let a := d.eth.active
  let down := !(d.port a).link
  let d := d.setEth { d.eth with downFor := if down then d.eth.downFor + 1 else 0,
                                 upFor := if a = 1 && (d.port 0).link then d.eth.upFor + 1 else 0 }
  d.laterSwitch k

/-- What is timed on the line of sub-ticks moves with a time step (R48). -/
def Dev.ethStep (d : Dev) (step : Int) : Dev :=
  let mv := fun (n unit : Nat) => if n = 0 then 0 else ((n : Int) + step * ((3072 * unit : Nat) : Int)).toNat
  let qs := mapStore {} (fun (x : EQueue) => { x with pauseTo := mv x.pauseTo 1 }) d.eth.queues
  let ps := mapStore {} (fun (x : EPort) => { x with busyTo := mv x.busyTo 78125 }) d.eth.ports
  d.setEth { d.eth with queues := qs, ports := ps }

/-- R331 at a tick boundary: the switch for link loss, with HOLDOFF 0 at the boundary that takes the link down. -/
def execProtectSwitch (s : State) : Out :=
  onDev (fun k d =>
    let e := d.eth
    let other := 1 - e.active
    let lost := !(d.port e.active).link && decide (e.holdoff ≤ e.downFor)
    if k.sub == 0 && e.protect && lost && (d.port other).link then
      let d := if d.txIdle k e.active then d
        else (match (d.port e.active).busyQ with
          | some q => (d.bump ⟨.ethEQSwitchLost, e.active, q⟩).modPort e.active (fun x => { x with busyTo := 0 })
          | none => d)
      d.makeActive k other 0
    else d) s

def execProtectRevert (s : State) : Out :=
  onDev (fun k d =>
    let e := d.eth
    if e.protect && e.revert && e.active == 1 && (d.port 0).link && decide (e.wtr * 8000 ≤ e.upFor) then
      if d.txIdle k 1 then d.makeActive k 0 1 else d.setEth { e with switchTo := some (0, 1) }
    else d) s

def execPortDisableDone (port : Nat) (s : State) : Out :=
  onDev (fun k d =>
    let x := d.port port
    if port < 2 && x.disabling && x.rxBytes == 0 && d.txIdle k port then
      (d.setPort port { x with disabling := false }).finish k .portEnable port .ok
    else d) s

def execFlowDeleteDone (h : Nat) (s : State) : Out :=
  onDev (fun k d => if d.eth.flight.any (fun f => f.handle == h) then d else d.finish k .flowDelete h .ok) s

/-! ### Commands (Table 12.7) -/

def execPortStatus (o : Origin) (port : Nat) (s : State) : Out :=
  hostCmd o 0x0901 (fun k d =>
    if 1 < port then (.now .unknownObject [], d)
    else
      let x := d.port port
      let qs := (List.range 8).flatMap (fun q =>
        let y := d.txq port q
        let left := y.pauseTo - clockAbs k
        [(⟨1, b2n (0 < left)⟩ : RField), ⟨4, left⟩, ⟨4, toBits 32 y.credit⟩])
      (.now .ok ([⟨1, x.mode⟩, ⟨1, b2n x.link⟩, ⟨1, b2n (!d.eth.protect || d.eth.active == port)⟩] ++ qs ++ [⟨4, x.rxBytes⟩]), d)) s

def execPortEnable (o : Origin) (port : Nat) (enable : Bool) (s : State) : Out :=
  hostCmd o 0x0902 (fun k d =>
    let x := d.port port
    if 1 < port then (.now .unknownObject [], d)
    else if enable then
      if x.lockOff then (.now .refusedBusy [], d)
      else (.now .ok [], d.setPort port { x with enNext := true })
    else
      let d := d.setPort port { x with en := false, enNext := false, disabling := true }
      (.later .portEnable port, d.drainPort k port .ethEQDisableDrop)) s

def execPortProtectSwitch (o : Origin) (port : Nat) (s : State) : Out :=
  hostCmd o 0x0903 (fun k d =>
    if 1 < port then (.now .unknownObject [], d)
    else if !d.eth.protect || !(d.port port).link then (.now .refusedBusy [], d)
    else if port = d.eth.active then (.now .ok [], d)
    else if d.txIdle k d.eth.active then (.now .ok [], d.makeActive k port 2)
    else (.now .ok [], d.setEth { d.eth with switchTo := some (port, 2) })) s

def execQueueCeilingSet (o : Origin) (port queue rate burst : Nat) (s : State) : Out :=
  hostCmd o 0x0904 (fun _ d =>
    let st := firstStatus .ok [(decide (262143 < rate) || decide (4095 < burst) || (burst == 0 && rate != 0), .badArg),
      (decide (1 < port) || decide (7 < queue), .unknownObject)]
    if st == .ok then (.now .ok [], d.modTxq port queue (fun x => { x with next := some (rate, max 1 burst * 1024) }))
    else (.now st [], d)) s

/-- An entry of Table 12.2 keeps its reserved fields zero and its TTL is not 0. -/
def destOk (bs : List Nat) : Bool :=
  let b := bs.getD 0 0
  let zero := fun (i n : Nat) => (slice bs i n).all (· == 0)
  let fl := ofBytesLE (slice bs 12 4)
  bs.length == 64 && decide (b < 128) && zero 1 1 && decide (bs.getD 10 0 < 64) && bs.getD 11 0 != 0 && decide (fl < 2 ^ 20) &&
    (bitOf b 4 || (fl == 0 && zero 20 12 && zero 36 12)) && zero 52 12

def destNumBad (h : Nat) : Bool := h == 0 || decide (8191 < h)

def execDestWrite (o : Origin) (h : Nat) (entry : List Nat) (s : State) : Out :=
  hostCmd o 0x0905 (fun _ d =>
    let st := firstStatus .ok [(!destOk entry || (d.eth.protect && entry.getD 0 0 % 2 == 1), .badArg),
      (destNumBad h, .unknownObject)]
    if st == .ok then (.now .ok [], d.setEth { d.eth with dests := d.eth.dests.put [] h entry }) else (.now st [], d)) s

def execDestClear (o : Origin) (h : Nat) (s : State) : Out :=
  hostCmd o 0x0906 (fun _ d =>
    if destNumBad h then (.now .unknownObject [], d)
    else (.now .ok [], d.setEth { d.eth with dests := d.eth.dests.put [] h [] })) s

def execDestRead (o : Origin) (h : Nat) (s : State) : Out :=
  hostCmd o 0x0907 (fun _ d =>
    let e := d.eth.dests.get [] h
    if destNumBad h || e.isEmpty then (.now .unknownObject [], d) else (.now .ok (e.map (fun b => ⟨1, b⟩)), d)) s

def execFlowAdd (o : Origin) (entry : List Nat) (s : State) : Out :=
  hostCmd o 0x0908 (fun _ d =>
    let key := slice entry 0 40
    let ok := entry.length == 64 && keyOk key && flowTailOk (slice entry 40 16) && (slice entry 56 8).all (· == 0)
    if !ok then (.now .badArg [], d)
    else
      match d.flowPlace key, least 32768 (fun h => (d.flow h).isNone && !d.waiting .flowDelete h) with
      | some (way, n, e), some h =>
        if (d.flowFind key).isSome then (.now .refusedBusy [], d) else
        let d := e.setFlow h (some { flowOf entry with way := way, slot := d.slotOf way key })
        (.now .ok [⟨4, h⟩], d.setEth { d.eth with chains := (n :: d.eth.chains).take 1024 })
      | _, _ => (.now .noResource [], d)) s

def execFlowDelete (o : Origin) (h : Nat) (s : State) : Out :=
  hostCmd o 0x0909 (fun _ d =>
    if (d.flow h).isNone then (.now .unknownObject [], d) else (.later .flowDelete h, d.setFlow h none)) s

def execFlowModify (o : Origin) (h : Nat) (tail : List Nat) (s : State) : Out :=
  hostCmd o 0x090A (fun _ d =>
    let st := firstStatus .ok [(tail.length != 16 || !flowTailOk tail, .badArg), ((d.flow h).isNone, .unknownObject)]
    match st, d.flow h with
    | .ok, some f =>
      let g := flowOf (f.key ++ tail)
      (.now .ok [], d.setFlow h (some { g with hits := f.hits, way := f.way, slot := f.slot }))
    | st, _ => (.now st [], d)) s

def execFlowRead (o : Origin) (h : Nat) (s : State) : Out :=
  hostCmd o 0x090B (fun _ d =>
    match d.flow h with
    | some f => (.now .ok f.fields, d)
    | none => (.now .unknownObject [], d)) s

def execFlowLookup (o : Origin) (key : List Nat) (s : State) : Out :=
  hostCmd o 0x090C (fun _ d =>
    if !keyOk key then (.now .badArg [], d)
    else match d.flowFind key with
      | some x => (.now .ok [⟨4, x.1⟩], d)
      | none => (.now .unknownObject [], d)) s

def execFlowTableStatus (o : Origin) (s : State) : Out :=
  hostCmd o 0x090D (fun _ d =>
    let n := fun (w : Nat) => (d.flowList.filter (fun p => p.2.way == w)).length
    (.now .ok [⟨4, n 0⟩, ⟨4, n 1⟩, ⟨4, n 2⟩, ⟨4, n 3⟩, ⟨4, d.eth.chains.foldl max 0⟩], d)) s

end Sys2Proof.Machine
end

