-- ==== Sys2Proof/Machine/TmpOps.lean ====
section
/-! DEFINITION. Tamper's output formats and its contexts (R406 to R411, R417), and the packing of a captured dump (R490). -/
namespace Sys2Proof.Machine
open Sys2Proof

def Dev.setTmp (d : Dev) (x : Tmp) : Dev := { d with tmp := x }

/-! ### Compression (R407 to R411) -/

/-- Bits packed into bytes, least significant first (RFC 1951). -/
def packBits : Nat → List Bool → List Nat
  | 0, _ => []
  | n + 1, l =>
    if l.isEmpty then []
    else ((l.take 8).zipIdx.foldl (fun (v : Nat) (p : Bool × Nat) => v + b2n p.1 * 2 ^ p.2) 0) :: packBits n (l.drop 8)

def numBits (n v : Nat) : List Bool := (List.range n).map (fun i => v.testBit i)

/-- A list in pieces of `size`. -/
def piecesN (size : Nat) : Nat → List Nat → List (List Nat)
  | 0, _ => []
  | n + 1, l => if l.isEmpty then [] else l.take size :: piecesN size n (l.drop size)
def pieces (size : Nat) (l : List Nat) : List (List Nat) := piecesN size (l.length / size + 1) l

/-- A stored block at bit position `pos`. -/
def storedBits (pos : Nat) (last : Bool) (seg : List Nat) : List Bool :=
  [last, false, false] ++ List.replicate ((8 - (pos + 3) % 8) % 8) false ++ numBits 16 seg.length ++
    numBits 16 (65535 - seg.length) ++ seg.flatMap (numBits 8)

/-- A block coded with the fixed or with dynamic codes. -/
def codedBits (effort : Nat) (dyn last : Bool) (before seg : List Nat) : List Bool :=
  [last, !dyn, dyn] ++ Config.deflateBits effort dyn before seg

/-- The blocks of a stream behind the bits so far, with the bytes already coded and the count of stored blocks. -/
def streamBlocks (effort : Nat) (dyn : Bool) : List (List Nat) → List Bool → List Nat → Nat → List Bool × Nat
  | [], bits, _, n => (bits, n)
  | seg :: r, bits, before, n =>
    let st := storedBits bits.length r.isEmpty seg
    let c := codedBits effort dyn r.isEmpty before seg
    if st.length < c.length then streamBlocks effort dyn r (bits ++ st) (before ++ seg) (n + 1)
    else streamBlocks effort dyn r (bits ++ c) (before ++ seg) n

/-- The DEFLATE data of a stream, and its stored blocks. -/
def streamData (effort : Nat) (dyn : Bool) (src : List Nat) : List Nat × Nat :=
  let r := if src.isEmpty then (storedBits 0 true [], 1) else streamBlocks effort dyn (pieces 65535 src) [] [] 0
  (packBits r.1.length r.1, r.2)

/-- Adler-32 (RFC 1950). -/
def adler32 (bs : List Nat) : Nat :=
  let r := bs.foldl (fun (p : Nat × Nat) b => ((p.1 + b) % 65521, (p.2 + (p.1 + b) % 65521) % 65521)) (1, 0)
  r.2 * 65536 + r.1

/-- FLG of zlib and XFL of gzip (Table 15.2, R410). -/
def zlibFlg (effort : Nat) : Nat := if effort = 1 then 0x01 else if effort = 2 then 0x5E else if effort = 3 then 0x9C else 0xDA
def gzipXfl (effort : Nat) : Nat := if effort = 1 then 4 else if effort = 4 then 2 else 0

/-- One archive block with its header, and whether it is RAW (R411). -/
def archiveBlock (effort : Nat) (dyn : Bool) (b : List Nat) : List Nat × Bool :=
  let z := (Config.deflateRaw effort dyn b).map (·.toNat)
  let raw := decide (b.length ≤ z.length) || z.isEmpty
  let data := if raw then b else z
  (bytesLE 4 (data.length + b2n (!raw) * 2 ^ 31) ++ bytesLE 4 (crc32 b) ++ data, raw)

/-- The check value of Table 15.6. -/
def tmpCheck (cls : Nat) (src : List Nat) : Nat := if cls = 0 then adler32 src else crc32 src

/-- The whole output of a compression, with its stored and its RAW blocks. -/
def compressOut (x : TmpDesc) (src : List Nat) : List Nat × Nat × Nat :=
  if x.cls = 2 then
    let bl := (pieces 65536 src).map (archiveBlock x.effort x.dyn)
    (bytesLE 4 0x54414D50 ++ [1, x.effort, b2n x.dyn, 0] ++ bytesLE 8 src.length ++ bl.flatMap (·.1), 0,
      (bl.filter (·.2)).length)
  else
    let r := streamData x.effort x.dyn src
    let out := if x.cls = 0 then [0x78, zlibFlg x.effort] ++ r.1 ++ (bytesLE 4 (adler32 src)).reverse
      else [0x1F, 0x8B, 8, 0, 0, 0, 0, 0, gzipXfl x.effort, 255] ++ r.1 ++ bytesLE 4 (crc32 src) ++ bytesLE 4 src.length
    (out, r.2, 0)

/-- The bounds of R409 and R411. -/
def tmpBound (cls n : Nat) : Nat :=
  if cls = 2 then 16 + 8 * ((n + 65535) / 65536) + n
  else n + 5 * max 1 ((n + 65534) / 65535) + (if cls = 0 then 6 else 18)

/-! ### Contexts (R417) -/

def Tmp.waitOf (x : Tmp) (s : Nat) : List TmpJob := if s = 0 then x.waitCtrl else if s = 1 then x.waitTile else x.waitHost

/-- The source that gets the next free context. -/
def Tmp.source (x : Tmp) (packing : Bool) : Option Nat :=
  if packing && !x.waitCtrl.isEmpty then some 0
  else [x.turn, (x.turn + 1) % 3, (x.turn + 2) % 3].find? (fun s => !(x.waitOf s).isEmpty)

/-- Free contexts are given out. -/
def Tmp.give (packing : Bool) : Nat → Tmp → Tmp
  | 0, x => x
  | n + 1, x =>
    if 4 ≤ x.active.length then x
    else match x.source packing with
      | none => x
      | some s =>
        match x.waitOf s with
        | [] => x
        | j :: r =>
          let y : Tmp := { x with active := x.active ++ [j], turn := (s + 1) % 3 }
          Tmp.give packing n (if s = 0 then { y with waitCtrl := r } else if s = 1 then { y with waitTile := r } else { y with waitHost := r })

def Dev.tmpGive (d : Dev) : Dev := d.setTmp (d.tmp.give (d.sys.ash == .packing) 4)

/-- A job of a source is accepted: it waits for a context. -/
def Dev.tmpSubmit (d : Dev) (who : TmpSrc) (x : TmpDesc) : Dev :=
  let j : TmpJob := { id := d.tmp.nextId, who := who, desc := x }
  let t := { d.tmp with nextId := d.tmp.nextId + 1 }
  (d.setTmp (match who with
    | .ctrl => { t with waitCtrl := t.waitCtrl ++ [j] }
    | .tile .. => { t with waitTile := t.waitTile ++ [j] }
    | .host => { t with waitHost := t.waitHost ++ [j] })).tmpGive

/-- A captured dump is packed where a dump key is enrolled, by a job that compresses the raw region into the container region;
the want of a key is counted once. Staging copies give way (R478). -/
def Dev.ashPack (d : Dev) : Dev :=
  if d.sys.ash != .captured || d.hif.paused || !d.tmp.enabled then d
  else match d.kln.record.bind (·.dump) with
    | some _ =>
      let d := if d.sys.staged.isEmpty then d else (d.setSys { d.sys with staged := [] }).bump0 .sysStageDiscard
      let ash := d.dram.topAddr - 64 * 2 ^ 20
      (d.setSys { d.sys with ash := .packing, contLen := 0 }).tmpSubmit .ctrl
        { rsvOk := true, dir := 0, cls := 2, effort := 1, dyn := true, inLen := d.sys.rawLen, src := ash + 2 ^ 20,
          dst := ash + 21 * 2 ^ 20, cap := 21 * 2 ^ 20, first := 0, blocks := 0 }
    | none => if d.sys.noKey then d else (d.setSys { d.sys with noKey := true }).bump0 .sysAshNoKey

end Sys2Proof.Machine
end

