-- ==== Sys2Proof/Machine/Kiln.lean ====
section
/-! DEFINITION. The Kiln's commands and events (R336 to R372, Tables 13.14 and 13.15), but IMAGE_VERIFY, which stands with
the staging copies it fills. -/
namespace Sys2Proof.Machine
open Sys2Proof

/-! ### Free values as bytes -/

/-- `n` free bytes. -/
def Dev.drawBytes (d : Dev) (n : Nat) : List Nat × Dev :=
  ((List.range n).map (fun i => Config.free (d.freeN + i) % 256), { d with freeN := d.freeN + n })

/-- A result that a command returns in a buffer it names: cut at the buffer's length; the completion gives the full length. -/
def Dev.intoBuf (d : Dev) (addr len : Nat) (bs : List Nat) : Dev := d.hostWr addr (bs.take len)

/-! ### State and identity -/

/-- The word of KLN_STATE. -/
def Kln.stateWord (x : Kln) : Nat :=
  x.boot % 4 + 4 * b2n (decide (0 < x.epoch)) + 8 * b2n x.recLost + 16 * b2n (x.hold % 2 == 1) +
    32 * b2n (x.scope != 0) + 64 * b2n x.entropyOk + 128 * b2n x.root0Rev + 2 ^ 8 * x.epoch + 2 ^ 16 * x.svn

/-- Contexts not FREE, contexts with a direction loaded, and sessions open. -/
def Kln.inUse (x : Kln) : Nat := (x.ctxs.entries.filter (fun (p : Nat × KCtx) => p.2.used)).length
def Kln.loaded (x : Kln) : Nat :=
  (x.ctxs.entries.filter (fun (p : Nat × KCtx) => p.2.used && (p.2.tx.isSome || p.2.rx.isSome))).length
def Kln.open_ (x : Kln) : Nat := (x.sess.entries.filter (fun (p : Nat × Option KSess) => p.2.isSome)).length

def execKilnStatus (o : Origin) (s : State) : Out :=
  hostCmd o 0x0A01 (fun _ d => (.now .ok [⟨4, d.kln.stateWord⟩, ⟨4, d.kln.loaded⟩, ⟨4, d.kln.open_⟩], d)) s

/-- `chain` is what the identity area of the boot flash holds; `match_` says that its digest is IDENTITY_DIGEST. -/
def execIdentityRead (o : Origin) (addr len : Nat) (chain : List Nat) (match_ : Bool) (s : State) : Out :=
  hostCmd o 0x0A02 (fun _ d =>
    match d.bufOk true addr len with
    | (false, d) => (.now .notPermitted [], d)
    | (true, d) => if match_ then (.now .ok [⟨4, chain.length⟩], d.intoBuf addr len chain) else (.now .checkFail [], d)) s

/-! ### Owner statements (R340 to R342) -/

/-- CHALLENGE as the DRBG serves it. -/
def Dev.challenge (d : Dev) : Reply × Dev :=
  let v := Config.free d.freeN % 2 ^ 256
  (.now .ok [⟨32, v⟩], { (d.setKln { d.kln with chal := some v, chalLeft := 2400000 }) with freeN := d.freeN + 1 })

def execChallenge (o : Origin) (s : State) : Out :=
  hostCmd o 0x0A03 (fun _ d =>
    if d.kln.entropyOk then d.challenge
    else (.held, d.setKln { d.kln with held := d.kln.held ++ [.challenge o] })) s

def execChallengeExpiry (s : State) : Out :=
  onDev (fun _ d => if d.kln.chal.isSome && d.kln.chalLeft == 0 then d.setKln { d.kln with chal := none } else d) s

/-- The signer of Table 13.4, and of R368 for an unlock. -/
def Dev.signerOk (d : Dev) (x : Statement) : Bool :=
  let owned := decide (0 < d.kln.epoch)
  if x.typ = 5 then
    (x.signed == 1 && owned) ||
      (x.signed == 2 && (!owned || (match d.kln.record with
        | some r => r.ulDebug
        | none => false)))
  else x.signed == 1

/-- The checks of R340 in their order; `unlock` says that the command is DEBUG_UNLOCK, which takes type 5 alone. -/
def Dev.stmtCheck (d : Dev) (x : Statement) (unlock : Bool) : Status :=
  let owned := decide (0 < d.kln.epoch)
  let typeOk := if unlock then x.typ == 5 && decide (x.scope < 16) && decide (8000 ≤ x.ticks) && decide (x.ticks ≤ 230400000)
    else decide (x.typ ≤ 6) && x.typ != 5
  if !x.format || !typeOk then .badArg
  else if !x.devOk then .notPermitted
  else if x.typ != 5 && (x.typ == 0) == owned then .notPermitted
  else if d.kln.recLost && x.typ != 5 && x.typ != 6 then .notPermitted
  else if x.epoch != d.kln.epoch || d.kln.chal != some x.nonce then .authFail
  else if !d.signerOk x || (x.typ == 6 && d.kln.roots.getLast? != some x.root) then .authFail
  else if x.typ < 4 && 32 ≤ d.kln.epoch then .noResource
  else if x.typ < 2 && 4 ≤ d.kln.roots.length then .noResource
  else if x.typ == 4 && 32 ≤ d.kln.hold then .noResource
  else .ok

/-- The keys of a KEYS block: those given in bits 0 to 3, in order, and those removed in bits 8 to 11. -/
def keyField (mask i : Nat) (old : Option Nat) (given : List Nat) : Option Nat × List Nat :=
  let r := if bitOf mask i then (match given with
      | g :: l => (some g, l)
      | [] => (old, []))
    else (old, given)
  if bitOf mask (8 + i) then (none, r.2) else r

def OwnerRec.setKeys (r : OwnerRec) (x : Statement) : OwnerRec :=
  let a := keyField x.mask 0 r.code x.keys
  let b := keyField x.mask 1 r.imp a.2
  let c := keyField x.mask 2 r.dump b.2
  let e := keyField x.mask 3 r.recKey c.2
  { r with code := a.1, imp := b.1, dump := c.1, recKey := e.1 }

def OwnerRec.setPolicy (r : OwnerRec) (x : Statement) : OwnerRec :=
  { r with strict := x.strict, ulDebug := x.ulDebug, minSvn := x.minSvn }

/-- The record that a statement makes of the one in force (Table 13.4). -/
def newRecord (r : OwnerRec) (x : Statement) : OwnerRec :=
  if x.typ = 0 || x.typ = 6 then (({ root := x.root } : OwnerRec).setKeys x).setPolicy x
  else if x.typ = 1 then { r with root := x.root }
  else if x.typ = 2 then r.setKeys x
  else r.setPolicy x

/-- A record is written into the slot that does not hold the valid one (step 1 of R341). -/
def Kln.putRecord (x : Kln) (r : OwnerRec) : Kln :=
  let inA := match x.recA with
    | some a => a.epoch == x.epoch && decide (0 < x.epoch)
    | none => false
  if inA then { x with recB := some r } else { x with recA := some r }

/-- A statement that passes R340 is applied. `bad1` and `bad2` are the attempts that fail of its burns; `pfw` says that PFW_N
is asserted before step 2 of R341 begins. -/
def Dev.stmtApply (k : Clock) (d : Dev) (x : Statement) (bad1 bad2 : Nat) (pfw : Bool) : Reply × Dev :=
  let used := d.setKln { d.kln with chal := none }
  if x.typ = 4 then
    match used.burn k bad1 with
    | (true, d) => (.now .ok [], d.setKln { d.kln with hold := d.kln.hold + 1 })
    | (false, d) => (.now .internal [], d)
  else if x.typ = 6 then
    let r := { newRecord {} x with epoch := d.kln.epoch }
    (.now .ok [], (used.setKln { used.kln with recA := some r, recB := none, recLost := false }).ashPack)
  else if pfw || !d.sys.pfwN then (.now .aborted [], d.bump0 .klnRecordAbandon)
  else
    let r := { newRecord (d.kln.record.getD {}) x with epoch := d.kln.epoch + 1 }
    let d := used.setKln (used.kln.putRecord r)
    match d.burn k bad1 with
    | (false, d) => (.now .internal [], d)
    | (true, d) =>
      let d := d.setKln { d.kln with epoch := d.kln.epoch + 1 }
      if x.typ < 2 then
        match d.burn k bad2 with
        | (true, d) => (.now .ok [], (d.setKln { d.kln with roots := d.kln.roots ++ [x.root] }).ashPack)
        | (false, d) => (.now .internal [], d)
      else (.now .ok [], d.ashPack)

def execOwnerStatement (o : Origin) (addr len : Nat) (x : Statement) (bad1 bad2 : Nat) (pfw : Bool) (s : State) : Out :=
  hostCmd o 0x0A04 (fun k d =>
    match d.bufOk false addr len with
    | (false, d) => (.now .notPermitted [], d)
    | (true, d) =>
      let st := d.stmtCheck x false
      if st == .ok then d.stmtApply k x bad1 bad2 pfw else (.now st [], d.bump0 .klnStatementReject)) s

/-! ### Attestation (R360) -/

/-- Bytes 0 to 727 of the report. -/
def Dev.reportBytes (k : Clock) (d : Dev) (nonce : Nat) : List Nat :=
  let x := d.kln
  let owned := decide (0 < x.epoch)
  let dig := fun (i : Option Image) => match i with
    | some i => i.digest
    | none => 0
  let cert := if x.curCert = 0 then x.cert0 else x.cert1
  bytesLE 4 0x41545354 ++ bytesLE 2 1 ++ bytesLE 2 4136 ++ bytesLE 32 nonce ++ bytesLE 32 Config.deviceId ++
  bytesLE 8 (clockStamp k) ++ [hstateCode d.htb.state, if x.recLost then 2 else b2n owned,
    b2n x.strict + 2 * b2n ((x.record.map (·.ulDebug)).getD false) + 4 * b2n x.isHeld, b2n x.bootB + 2 * b2n x.warmBoot] ++
  bytesLE 4 x.epoch ++ bytesLE 4 (x.svn + b2n x.root0Rev * 2 ^ 31) ++ bytesLE 4 x.scope ++
  bytesLE 48 (x.roots.getLast?.getD 0) ++ bytesLE 48 (dig x.stage1) ++ bytesLE 48 (dig x.ctrl) ++
  bytesLE 4 (min 8 x.tiles.length) ++ bytesLE 4 0 ++
  (List.range 8).flatMap (fun i => bytesLE 48 (dig x.tiles[i]?)) ++ bytesLE 8 x.tampers ++
  bytesLE 32 ((cert.map (·.fp256)).getD 0) ++ bytesLE 48 (if owned then Config.sha384 (Config.importKey x.epoch) else 0) ++
  bytesLE 8 0

def execAttest (o : Origin) (nonce addr len : Nat) (s : State) : Out :=
  hostCmd o 0x0A05 (fun k d =>
    match d.bufOk true addr len with
    | (false, d) => (.now .notPermitted [], d)
    | (true, d) =>
      let sig := d.drawBytes 3405
      (.now .ok [⟨4, 4136⟩], sig.2.intoBuf addr len (d.reportBytes k nonce ++ sig.1 ++ [0, 0, 0]))) s

/-! ### Contexts (R347, R348, R352, R353) -/

def execCtxAlloc (o : Origin) (s : State) : Out :=
  hostCmd o 0x0A06 (fun _ d =>
    if d.kln.isHeld then (.now .locked [], d)
    else match least 16384 (fun i => !(d.ctx i).used) with
      | none => (.now .noResource [], d)
      | some i =>
        let c := d.ctx i
        let g := if c.made then nextGen c.gen else 1
        (.now .ok [⟨4, handleOf 1 g i⟩], d.setCtx i { used := true, made := true, gen := g })) s

def execCtxFree (o : Origin) (h : Nat) (s : State) : Out :=
  hostCmd o 0x0A07 (fun k d => if d.hCurrent h then (.now .ok [], d.freeCtx k (hIndex h)) else (.now .unknownObject [], d)) s

/-- The link of a receive handle's protection. -/
def Dev.linkOf (d : Dev) (h : Nat) : KLink := if hRtcp h then (d.ctx (hIndex h)).linkC else (d.ctx (hIndex h)).link

def execCtxLink (o : Origin) (h next : Nat) (s : State) : Out :=
  hostCmd o 0x0A08 (fun _ d =>
    let set := fun (l : KLink) => d.modCtx (hIndex h) (fun c => if hRtcp h then { c with linkC := l } else { c with link := l })
    if (d.hRxOf h).isNone then (.now .badArg [], d)
    else if next = 0 then (.now .ok [], set {})
    else if (d.hRxOf next).isNone || hIndex next == hIndex h || hRtcp next != hRtcp h || (d.linkOf next).next != 0 then
      (.now .badArg [], d)
    else (.now .ok [], set { next := next })) s

def execCtxResetRx (o : Origin) (h : Nat) (s : State) : Out :=
  hostCmd o 0x0A09 (fun _ d =>
    match d.hRxOf h with
    | none => (.now .unknownObject [], d)
    | some x => (.now .ok [], d.modCtx (hIndex h) (fun c =>
        { c with rx := some { x with roc := 0, latched := none, win := {}, winC := {} } }))) s

def execCtxStatus (o : Origin) (h : Nat) (s : State) : Out :=
  hostCmd o 0x0A0A (fun _ d =>
    if !d.hCurrent h then (.now .unknownObject [], d)
    else
      let c := d.ctx (hIndex h)
      let tx := c.tx.getD { suite := 0, key := 0 }
      let rx := c.rx.getD { suite := 0, key := 0 }
      (.now .ok [⟨1, rx.suite⟩, ⟨1, tx.suite⟩, ⟨1, b2n c.rx.isSome + 2 * b2n c.tx.isSome⟩, ⟨1, 0⟩,
        ⟨4, if rx.ssrc = 0 then rx.latched.getD 0 else rx.ssrc⟩, ⟨4, rx.roc⟩, ⟨4, tx.roc⟩, ⟨8, rx.win.hi.getD 0⟩,
        ⟨8, tx.roc * 65536 + tx.last.getD 0⟩, ⟨4, c.link.next⟩, ⟨4, c.linkC.next⟩, ⟨4, c.link.hits⟩, ⟨4, c.linkC.hits⟩], d)) s

/-! ### Sealed import (R359) -/

def execSealedImport (o : Origin) (addr len : Nat) (x : Sealed) (s : State) : Out :=
  hostCmd o 0x0A0B (fun k d =>
    match d.bufOk false addr len with
    | (false, d) => (.now .notPermitted [], d)
    | (true, d) =>
      let c := d.ctx (hIndex x.target)
      let st : Status :=
        if !x.format || x.suite = 0 || 4 < x.suite || 1 < x.dir then .badArg
        else if !d.hCurrent x.target then .unknownObject
        else if (d.kln.record.bind (·.imp)).isNone || d.kln.recLost || !x.devOk then .notPermitted
        else if d.kln.isHeld then .locked
        else if x.epoch != d.kln.epoch || x.notAfter < k.tick || !x.sigOk || !x.tagOk then .authFail
        else if (if x.dir = 0 then c.rx.isSome else c.tx.isSome) then .refusedBusy
        else .ok
      if st != .ok then (.now st [], d.bump0 .klnImportReject)
      else if x.dir = 0 then
        (.now .ok [], d.setCtx (hIndex x.target) { c with rx := some { suite := x.suite, key := x.key, roc := x.roc, ssrc := x.ssrc } })
      else (.now .ok [], d.setCtx (hIndex x.target) { c with tx := some { suite := x.suite, key := x.key, roc := x.roc } })) s

def execImportKeyInfo (o : Origin) (addr len : Nat) (s : State) : Out :=
  hostCmd o 0x0A0C (fun _ d =>
    if d.kln.epoch = 0 then (.now .notPermitted [], d)
    else match d.bufOk true addr len with
      | (false, d) => (.now .notPermitted [], d)
      | (true, d) =>
        let sig := d.drawBytes 3405
        let bs := bytesLE 1216 (Config.importKey d.kln.epoch) ++ bytesLE 4 d.kln.epoch ++ sig.1
        (.now .ok [⟨4, bs.length⟩], sig.2.intoBuf addr len bs)) s

/-! ### Media certificates (R358) -/

def KCert.fields : Option KCert → List RField
  | none => [⟨32, 0⟩, ⟨48, 0⟩, ⟨8, 0⟩, ⟨8, 0⟩]
  | some c => [⟨32, c.fp256⟩, ⟨48, c.fp384⟩, ⟨8, toBits 64 (c.notBefore.getD 0)⟩, ⟨8, toBits 64 (c.notAfter.getD 253402300799)⟩]

def execCertInfo (o : Origin) (s : State) : Out :=
  hostCmd o 0x0A0D (fun _ d =>
    (.now .ok (⟨1, d.kln.curCert⟩ :: KCert.fields d.kln.cert0 ++ KCert.fields d.kln.cert1), d)) s

/-- A new certificate, created now; `timed` says that the Hearth's time counts (R358). -/
def Dev.newCert (k : Clock) (d : Dev) (timed : Bool) : KCert × Dev :=
  let t : Int := (k.tick / 8000 : Nat) - d.htb.utcOff
  ({ fp256 := Config.free d.freeN % 2 ^ 256, fp384 := Config.free (d.freeN + 1) % 2 ^ 384,
     notBefore := if timed then some (t - 86400) else none, notAfter := if timed then some (t + 31536000) else none },
   { d with freeN := d.freeN + 2 })

def Dev.certRenew (k : Clock) (d : Dev) : Reply × Dev :=
  let c := d.newCert k (d.htb.left || d.htb.todSet)
  let x := c.2.kln
  (.now .ok [], c.2.setKln (if x.curCert = 0 then { x with cert1 := some c.1, curCert := 1 }
                            else { x with cert0 := some c.1, curCert := 0 }))

def execCertRenew (o : Origin) (s : State) : Out :=
  hostCmd o 0x0A0E (fun k d =>
    if d.kln.entropyOk then d.certRenew k
    else (.held, d.setKln { d.kln with held := d.kln.held ++ [.certRenew o] })) s

/-! ### DTLS (R354 to R357) -/

/-- A flight goes out: it is the flight outstanding, retransmitted first 8,000 ticks later. -/
def KSess.sendFlight (x : KSess) (fl : List (List Nat)) : KSess :=
  { x with flight := fl, out := x.out ++ fl, retx := if fl.isEmpty then none else some 8000, interval := 8000, tries := 0 }

def Dev.dtlsOpen (k : Clock) (d : Dev) (target role versions profiles fpAlg peerFp : Nat) (flight : List (List Nat)) : Reply × Dev :=
  let c := d.ctx (hIndex target)
  let st := firstStatus .ok [
    (decide (1 < role) || decide (1 < fpAlg) || decide (3 < versions) || decide (15 < profiles), .badArg),
    (!d.hCurrent target, .unknownObject), (d.kln.isHeld, .locked), (decide (512 ≤ d.kln.open_), .noResource),
    (c.tx.isSome || c.rx.isSome, .refusedBusy)]
  if st != .ok then (.now st [], d)
  else match least 512 (fun i => (d.sess i).isNone) with
    | none => (.now .noResource [], d)
    | some i =>
      let g := nextGen (d.kln.sessGen.get 0 i)
      let x : KSess := { gen := g, target := target, role := role, versions := versions, profiles := profiles, fpAlg := fpAlg,
                         peerFp := peerFp, cert := d.kln.curCert }
      let d := d.setKln { d.kln with sessGen := d.kln.sessGen.put 0 i g }
      let h := handleOf 2 g i
      if role = 0 then (.now .ok [⟨4, h⟩], (d.setSess i (some (x.sendFlight flight))).klnEvt k 0x0A82 0 h)
      else (.now .ok [⟨4, h⟩], d.setSess i (some x))

/-- `flight` is the first flight of a client. -/
def execDtlsOpen (o : Origin) (target role versions profiles fpAlg peerFp : Nat) (flight : List (List Nat)) (s : State) : Out :=
  hostCmd o 0x0A0F (fun k d =>
    if d.kln.entropyOk then d.dtlsOpen k target role versions profiles fpAlg peerFp flight
    else (.held, d.setKln { d.kln with held := d.kln.held ++ [.dtlsOpen o target role versions profiles fpAlg peerFp flight] })) s

/-- Datagrams that fit in a buffer of `room` bytes, each behind its two bytes of length, and those that do not. -/
def takeOut : List (List Nat) → Nat → List (List Nat) × List (List Nat)
  | [], _ => ([], [])
  | g :: r, room =>
    if g.length + 2 ≤ room then
      let t := takeOut r (room - (g.length + 2))
      (g :: t.1, t.2)
    else ([], g :: r)

/-- Datagrams go into the output buffer; ST_PARTIAL where some do not fit (R355). -/
def Dev.outWrite (d : Dev) (out : List (List Nat)) (addr len : Nat) : Status × List RField × List (List Nat) × Dev :=
  let t := takeOut out len
  let bs := t.1.flatMap (fun g => bytesLE 2 g.length ++ g)
  (if t.2.isEmpty then .ok else .partialDone, [⟨2, t.1.length⟩, ⟨2, 0⟩, ⟨4, bs.length⟩], t.2,
   if bs.isEmpty then d else d.hostWr addr bs)

/-- The suite of Table 13.7 that a use_srtp profile names, and its bit in the profiles allowed. -/
def profileSuite (p : Nat) : Option (Nat × Nat) :=
  if p = 1 then some (1, 0) else if p = 2 then some (2, 1) else if p = 7 then some (3, 2) else if p = 8 then some (4, 3) else none

/-- A handshake completes with the peer's fingerprint and a profile: both directions are loaded and DTLS_DONE raised, or
the session fails (R357). A context loaded meanwhile is loaded no more: DETAIL 6. -/
def Dev.dtlsFinish (k : Clock) (d : Dev) (i : Nat) (x : KSess) (profile peerFp : Nat) : Dev :=
  let c := d.ctx (hIndex x.target)
  match profileSuite profile with
  | none => d.endSess k i 2
  | some (suite, bit) =>
    if !bitOf x.profiles bit then d.endSess k i 2
    else if peerFp != x.peerFp then d.endSess k i 1
    else if c.tx.isSome || c.rx.isSome then d.endSess k i 6
    else
      let a := Config.free d.freeN
      let b := Config.free (d.freeN + 1)
      let d := { d with freeN := d.freeN + 2 }
      let d := d.setCtx (hIndex x.target) { c with tx := some { suite := suite, key := if x.role = 0 then a else b },
                                                   rx := some { suite := suite, key := if x.role = 0 then b else a } }
      (d.setSess i (some { x with retx := none, linger := some 80000 })).klnEvt k 0x0A81 0 (handleOf 2 x.gen i) profile

/-- What a datagram does to session `i`; the output that goes with it has joined `out`. -/
def Dev.dtlsTake (k : Clock) (d : Dev) (i : Nat) (x : KSess) : Feed → List (List Nat) × Dev
  | .bad => (x.out, d.bump0 .klnDtlsBadRecord)
  | .quiet => (x.out, d)
  | .again => (x.out ++ x.flight, d)
  | .onward fl => if x.linger.isSome then (x.out, d) else
      let y := x.sendFlight fl
      (y.out, d.setSess i (some y))
  | .finished p fp fl => if x.linger.isSome then (x.out, d) else
      let y := { x with flight := fl, out := x.out ++ fl }
      (y.out, d.dtlsFinish k i y p fp)
  | .ended det fl => (x.out ++ fl, d.endSess k i det)

/-- What stays of the output is held in the session, where it has not ended. -/
def Dev.keepOut (d : Dev) (i : Nat) (out : List (List Nat)) : Dev :=
  match d.sess i with
  | some x => d.setSess i (some { x with out := out })
  | none => d

def execDtlsFeed (o : Origin) (h addr len outAddr outLen : Nat) (f : Feed) (s : State) : Out :=
  hostCmd o 0x0A10 (fun k d =>
    match d.sessOf h with
    | none => (.now .unknownObject [], d)
    | some (i, x) =>
      if !d.winOk false addr len || !d.winOk true outAddr outLen then (.now .notPermitted [], d.bump0 .hifWindowDenied)
      else
        let t := d.dtlsTake k i x (if 1500 < len then .bad else f)
        let bad := decide (1500 < len) || f == .bad
        if bad then (.now .ok [⟨2, 0⟩, ⟨2, 0⟩, ⟨4, 0⟩], t.2)
        else
          let w := t.2.outWrite t.1 outAddr outLen
          (.now w.1 w.2.1, w.2.2.2.keepOut i w.2.2.1)) s

def execDtlsPoll (o : Origin) (h outAddr outLen : Nat) (s : State) : Out :=
  hostCmd o 0x0A11 (fun _ d =>
    match d.sessOf h with
    | none => (.now .unknownObject [], d)
    | some (i, x) =>
      match d.bufOk true outAddr outLen with
      | (false, d) => (.now .notPermitted [], d)
      | (true, d) =>
        let w := d.outWrite x.out outAddr outLen
        (.now w.1 w.2.1, w.2.2.2.keepOut i w.2.2.1)) s

/-- `notify` is the close_notify datagram. -/
def execDtlsClose (o : Origin) (h outAddr outLen : Nat) (notify : List Nat) (s : State) : Out :=
  hostCmd o 0x0A12 (fun k d =>
    match d.sessOf h with
    | none => (.now .unknownObject [], d)
    | some (i, _) =>
      match d.bufOk true outAddr outLen with
      | (false, d) => (.now .notPermitted [], d)
      | (true, d) =>
        let w := d.outWrite [notify] outAddr outLen
        (.now .ok w.2.1, w.2.2.2.endSess k i 6)) s

/-- R356: DTLS_TX_DUE, or the session's failure once six retransmissions of a flight have passed. -/
def execDtlsRetransmitDue (j : Nat) (s : State) : Out :=
  onDev (fun k d =>
    match d.sess j with
    | some x =>
      if x.retx != some 0 then d
      else if 6 ≤ x.tries then d.endSess k j 4
      else
        let n := min 480000 (2 * x.interval)
        (d.setSess j (some { x with out := x.out ++ x.flight, tries := x.tries + 1, interval := n, retx := some n })).klnEvt k
          0x0A82 0 (handleOf 2 x.gen j)
    | none => d) s

def execDtlsSessionTimeout (n : Nat) (s : State) : Out :=
  onDev (fun k d =>
    match d.sess n with
    | some x => if x.linger.isNone && decide (1440000 ≤ x.age) then d.endSess k n 4 else d
    | none => d) s

def execDtlsLingerEnd (n : Nat) (s : State) : Out :=
  onDev (fun k d =>
    match d.sess n with
    | some x => if x.linger == some 0 then d.endSess k n 0 else d
    | none => d) s

/-! ### Anti-rollback (R345) -/

/-- The Ulithen images that run. -/
def Kln.ulithen (x : Kln) : List Image := (x.stage1.toList ++ x.ctrl.toList) ++ x.tiles.filter (fun i => i.typ == 3)

/-- ULITHEN_SVN steps are burned up to `n`, until a burn fails. -/
def Dev.burnSvn (k : Clock) (n : Nat) : List Nat → Nat → Dev → Bool × Dev
  | _, 0, d => (true, d)
  | bads, m + 1, d =>
    if n ≤ d.kln.svn then (true, d)
    else match d.burn k (bads.headD 0) with
      | (false, d) => (false, d)
      | (true, d) => Dev.burnSvn k n bads.tail m (d.setKln { d.kln with svn := d.kln.svn + 1 })

/-- `bads` are the attempts that fail of each burn in turn, `badR` those of ROOT0_REVOKED. -/
def execRollbackAdvance (o : Origin) (target : Nat) (revoke : Bool) (bads : List Nat) (badR : Nat) (s : State) : Out :=
  hostCmd o 0x0A14 (fun k d =>
    let run := d.kln.ulithen
    let older := d.kln.svn < target && run.any (fun i => decide (i.svn < target))
    let noRev := revoke && !d.kln.root0Rev && run.any (fun i => i.signer != 1 || !i.revoke)
    if older || noRev || (64 < target && run.isEmpty) then (.now .notPermitted [], d)
    else match d.burnSvn k target bads 64 with
      | (false, d) => (.now .internal [], d)
      | (true, d) =>
        if revoke && !d.kln.root0Rev then
          match d.burn k badR with
          | (false, d) => (.now .internal [], d)
          | (true, d) => (.now .ok [], d.setKln { d.kln with root0Rev := true })
        else (.now .ok [], d)) s

/-! ### Debug access (R368, R369) -/

def execDebugUnlock (o : Origin) (addr len : Nat) (x : Statement) (s : State) : Out :=
  hostCmd o 0x0A15 (fun k d =>
    match d.bufOk false addr len with
    | (false, d) => (.now .notPermitted [], d)
    | (true, d) =>
      let st := d.stmtCheck x true
      if st != .ok then (.now st [], d.bump0 .klnStatementReject)
      else (.now .ok [], ((d.setKln { d.kln with chal := none, scope := x.scope, debugLeft := x.ticks }).bump0
        .klnDebugUnlock).klnEvt k 0x0A85 1 x.scope)) s

def execDebugLock (o : Origin) (s : State) : Out := hostCmd o 0x0A16 (fun k d => (.now .ok [], d.debugLock k)) s

def execDebugTicksExpiry (s : State) : Out := onDev (fun k d => if d.kln.debugLeft = 0 then d.debugLock k else d) s

def execKilnJobConfig (o : Origin) (hop : Nat) (en : Bool) (ring : Nat) (s : State) : Out :=
  hostCmd o 0x0A17 (fun _ d =>
    let st := firstStatus .ok [(decide (255 < ring), .badArg), (!d.hopUp hop, .unknownObject)]
    (.now st [], if st == .ok then d.setKln { d.kln with jobHop := hop, jobEn := en, evtRing := ring } else d)) s

/-! ### Tile jobs (R361, R362) -/

def isKilnOp (op : Nat) : Bool := decide (0x0A40 ≤ op) && decide (op ≤ 0x0A43)

/-- The response of a job, and the flag that NOTIFY asks for (R362); malformed requests are counted where they are found. -/
def Dev.jobAnswer (k : Clock) (d : Dev) (w0 w1 : Word) (st : Status) (res : List Word) : Dev :=
  let d := (d.hopPut k (bitsOf w1.toNat 19 10) .control Config.completionPrio.toNat (w0 :: BitVec.ofNat 32 (statusCode st) :: res)).2
  if bitOf w1.toNat 18 then d.setFlag k (bitsOf w1.toNat 0 13) (bitsOf w1.toNat 13 5) else d

/-- The request at the front of REQ_HOP, where it is of operation `op`, or of none: one whose reserved bits are not zero, or
that is none of the four, is malformed. A request of less than two words names no response Hopper. Requests wait while the
DRBG retests (R363). -/
def kilnJob (op : Nat) (f : Clock → Mems → Dev → List Word → Status × List Word × Mems × Dev) (s : State) : Out :=
  onMem (fun k m d =>
    if !d.kln.jobEn || !d.kln.entropyOk || !d.hopReady d.kln.jobHop then (m, d)
    else
      let ws := d.hopRest d.kln.jobHop
      let o := (ws.headD 0).toNat % 65536
      if o != op && isKilnOp o then (m, d)
      else
        let d := (d.hopTake k d.kln.jobHop).2
        match ws with
        | w0 :: w1 :: args =>
          if !isKilnOp o || 2 ^ 29 ≤ w1.toNat then (m, (d.bump0 .klnJobBad).jobAnswer k w0 w1 .badArg [])
          else
            let r := f k m d args
            (r.2.2.1, r.2.2.2.jobAnswer k w0 w1 r.1 r.2.1)
        | _ => (m, d.bump0 .klnJobBad)) s

/-- A range of DRAM lies in the tile DRAM window. -/
def Dev.inTileWin (d : Dev) (a n : Nat) : Bool := decide (d.til.winLo ≤ a) && decide (a + n ≤ d.til.winHi)

def addr2 (lo hi : Word) : Nat := lo.toNat + hi.toNat * 2 ^ 32

def natsBytes (l : List Nat) : List Byte := l.map (BitVec.ofNat 8)

def execRandom (s : State) : Out :=
  kilnJob 0x0A40 (fun _ m d args =>
    match args with
    | [n] =>
      if n.toNat = 0 || 256 < n.toNat then (.badArg, [], m, d.bump0 .klnJobBad)
      else
        let r := d.drawBytes n.toNat
        (.ok, bytesWords r.1, m, r.2)
    | _ => (.badArg, [], m, d.bump0 .klnJobBad)) s

/-- The header of Table 13.11 for a recipient's key. -/
def Dev.envHeader (k : Clock) (d : Dev) (kind key : Nat) : List Nat × Dev :=
  let r := d.drawBytes 1120
  (bytesLE 4 0x45585054 ++ bytesLE 2 1 ++ [kind, 0] ++ bytesLE 32 Config.deviceId ++ bytesLE 48 (Config.sha384 key) ++
    bytesLE 8 (clockStamp k) ++ r.1 ++ List.replicate 16 0, r.2)

/-- Bytes into DRAM. -/
def toDram (m : Mems) (d : Dev) (a : Nat) (bs : List Nat) : Mems × Dev := (m.dramPut a (natsBytes bs), d.dramWrote a bs.length)

def execExportOpen (s : State) : Out :=
  kilnJob 0x0A41 (fun k m d args =>
    match args with
    | [lo, hi] =>
      match d.kln.record.bind (·.recKey) with
      | none => (.notPermitted, [], m, d)
      | some key =>
        if !d.inTileWin (addr2 lo hi) 1232 then (.notPermitted, [], m, d)
        else match least 64 (fun i => (d.exp i).isNone) with
          | none => (.noResource, [], m, d)
          | some i =>
            let g := nextGen (d.kln.expGen.get 0 i)
            let h := d.envHeader k 1 key
            let r := toDram m h.2 (addr2 lo hi) h.1
            (.ok, [BitVec.ofNat 32 (handleOf 3 g i)], r.1,
              (r.2.setKln { r.2.kln with expGen := r.2.kln.expGen.put 0 i g }).setExp i (some { gen := g, kind := 1 }))
    | _ => (.badArg, [], m, d.bump0 .klnJobBad)) s

def execExportWrite (s : State) : Out :=
  kilnJob 0x0A42 (fun _ m d args =>
    match args with
    | [h, sl, sh, dl, dh, lw] =>
      let n := lw.toNat % 2 ^ 31
      let last := bitOf lw.toNat 31
      if n = 0 || 65536 < n then (.badArg, [], m, d.bump0 .klnJobBad)
      else match d.expOf h.toNat with
        | none => (.unknownObject, [], m, d)
        | some (i, x) =>
          if x.final then (.badArg, [], m, d)
          else if !d.inTileWin (addr2 sl sh) n || !d.inTileWin (addr2 dl dh) (n + 16) then (.notPermitted, [], m, d)
          else if d.dramPoisoned (addr2 sl sh) n then (.poisoned, [], m, d)
          else
            let c := d.drawBytes (n + 16)
            let r := toDram m c.2 (addr2 dl dh) c.1
            (.ok, [], r.1, r.2.setExp i (some { x with chunks := x.chunks + 1, total := x.total + n + 16, final := last }))
    | _ => (.badArg, [], m, d.bump0 .klnJobBad)) s

def execExportClose (s : State) : Out :=
  kilnJob 0x0A43 (fun _ m d args =>
    match args with
    | [h, dl, dh] =>
      match d.expOf h.toNat with
      | none => (.unknownObject, [], m, d)
      | some (i, x) =>
        if !x.final then (.badArg, [], m, d)
        else if !d.inTileWin (addr2 dl dh) 3413 then (.notPermitted, [], m, d)
        else
          let c := d.drawBytes 3405
          let r := toDram m c.2 (addr2 dl dh) (bytesLE 8 x.total ++ c.1)
          (.ok, [], r.1, r.2.setExp i none)
    | _ => (.badArg, [], m, d.bump0 .klnJobBad)) s

/-! ### Tamper (R364 to R366, R511) -/

/-- Packets inside the inline units at zeroisation (R365). -/
def Dev.tamperInline (k : Clock) (d : Dev) : Dev :=
  let hit := fun (f : EFlight) => d.inside f && !f.dead
  let n := fun (p : Nat) => (d.eth.flight.filter (fun (f : EFlight) => hit f && f.port == p)).length
  let d := [0, 1].foldl (fun (d : Dev) p => if n p = 0 then d else d.bumpN ⟨.klnETamperDrop, p, 0⟩ (n p)) d
  let d := d.setEth { d.eth with flight := d.eth.flight.map (fun (f : EFlight) => if hit f then { f with dead := true } else f) }
  [0, 1].foldl (fun (d : Dev) p =>
    let x := d.port p
    if x.busySec && decide (clockAbs k * 78125 < x.busyTo) then
      ((d.setPort p { x with busySec := false }).bump1 .klnETamperDrop p).send (.badFcs p)
    else d) d

def Dev.zeroiseAll (k : Clock) (d : Dev) : Dev :=
  let d := d.kln.sess.entries.foldl (fun (d : Dev) (p : Nat × Option KSess) => d.endSess k p.1 6) d
  let d := d.kln.ctxs.entries.foldl (fun (d : Dev) (p : Nat × KCtx) =>
    if p.2.used then d.setCtx p.1 { used := false, made := true, gen := nextGen p.2.gen } else d) d
  d.setKln { d.kln with exps := [] }

/-- The HOLD step of a strict trip (R366): HOLD stays odd where it is. -/
def Dev.strictHold (k : Clock) (d : Dev) (bad : Nat) : Dev :=
  if !d.kln.strict || d.kln.hold % 2 == 1 then d
  else if 32 ≤ d.kln.hold then (d.setKln { d.kln with softHold := true }).bump0 .klnHoldOtpExhausted
  else match d.burn k bad with
    | (true, d) => (d.setKln { d.kln with hold := d.kln.hold + 1 }).bump0 .klnTamperHold
    | (false, d) => d

/-- A sensor trips; `bad` is how many attempts of the burn fail. The pulse on TAMPER_N lasts 80,000 ticks: its count stands at
1 when they have passed, and at 0 with the pin released. -/
def execTamperTrip (sensor bad : Nat) (s : State) : Out :=
  onDev (fun k d =>
    if 3 < sensor then d
    else
      let n := d.kln.inUse
      let d := (((d.tamperInline k).zeroiseAll k).debugLock k).bump0 .klnTamper
      let d := d.setKln { d.kln with tampers := d.kln.tampers + 1, sinceCold := min 65535 (d.kln.sinceCold + 1), last := sensor }
      let d := d.klnEvt k 0x0A80 sensor n
      (d.setSys { d.sys with tamperLow := 80001 }).strictHold k bad) s

def execTamperNPulseEnd (s : State) : Out :=
  onDev (fun _ d => if d.sys.tamperLow = 1 then d.setSys { d.sys with tamperLow := 0 } else d) s

/-! ### The entropy source and integrity alarms (R363, R367) -/

def execEntropyTestFail (s : State) : Out :=
  onDev (fun _ d =>
    if d.kln.entropyOk then (d.setKln { d.kln with entropyOk := false, fails := d.kln.fails + 1 }).bump0 .klnEntropyFail else d) s

/-- The requests that waited, in their order. -/
def Dev.serveHeld (k : Clock) (d : Dev) : Dev :=
  d.kln.held.foldl (fun (d : Dev) (r : KReq) =>
    match r with
    | .challenge o => let x := d.challenge; x.2.reply k (.host o) 0x0A03 x.1
    | .certRenew o => let x := d.certRenew k; x.2.reply k (.host o) 0x0A0E x.1
    | .dtlsOpen o t ro v p a fp fl => let x := d.dtlsOpen k t ro v p a fp fl; x.2.reply k (.host o) 0x0A0F x.1)
    (d.setKln { d.kln with held := [] })

/-- The retest of 1,024 samples ends: `ok` says that it passes. One that fails is the second failure in a row. -/
def execEntropyRetestDone (ok : Bool) (s : State) : Out :=
  onDev (fun k d =>
    if d.kln.entropyOk || d.kln.fails = 0 then d
    else if ok then (d.setKln { d.kln with entropyOk := true, fails := 0 }).serveHeld k
    else (d.setKln { d.kln with fails := 0 }).kilnAlarm k) s

def execKilnIntegrityFault (s : State) : Out := onDev (fun k d => d.kilnAlarm k) s

end Sys2Proof.Machine
end

