-- ==== Sys2Proof/Machine/Inflate.lean ====
section
/-! DEFINITION. Decompression (R412 to R415): DEFLATE data as RFC 1951 has it, the wrappers of R412, the container of R411 and
R413, and what a decompression comes to. -/
namespace Sys2Proof.Machine
open Sys2Proof

/-! ### DEFLATE data -/

/-- A decoding under way: the bits still to be read, the output newest first, the bytes the destination still takes, and why
it has stopped: 0 not at all, 2 malformed data, 3 the source has ended, 4 the destination is full (Table 15.5). -/
structure Inf where
  bits : List Bool
  out  : List Nat
  room : Nat
  stop : Nat
deriving DecidableEq, Repr

def Inf.halt (x : Inf) (why : Nat) : Inf := { x with stop := why }

/-- Bits as a number, least significant first. -/
def bitsVal : List Bool → Nat
  | [] => 0
  | b :: r => b2n b + 2 * bitsVal r

/-- `n` bits of the source, the first the least significant. -/
def Inf.take (x : Inf) (n : Nat) : Nat × Inf :=
  let t := x.bits.take n
  if t.length < n then (0, { x with bits := [], stop := 3 }) else (bitsVal t, { x with bits := x.bits.drop n })

/-- The bits up to the next byte of the source are passed over. -/
def Inf.align (x : Inf) : Inf := { x with bits := x.bits.drop (x.bits.length % 8) }

/-- One byte of output. -/
def Inf.push (x : Inf) (b : Nat) : Inf :=
  if x.room = 0 then x.halt 4 else { x with out := b :: x.out, room := x.room - 1 }

/-- The symbols whose code has `len` bits, ascending. -/
def symsOf (lens : List Nat) (len : Nat) : List Nat := (lens.zipIdx.filter (fun p => p.1 == len)).map (·.2)

/-- The next symbol of a canonical code: `code` is what has been read, most significant bit first, and `first` the first code
of `len` bits. A code that stands for no symbol is malformed data. -/
def huffWalk (lens : List Nat) : Nat → Nat → Nat → Nat → Inf → Nat × Inf
  | 0, _, _, _, x => (0, x.halt 2)
  | n + 1, len, code, first, x =>
    let b := x.take 1
    if b.2.stop != 0 then (0, b.2)
    else
      let c := code + b.1
      let l := symsOf lens len
      if c < first + l.length then (l[c - first]?.getD 0, b.2)
      else huffWalk lens n (len + 1) (2 * c) (2 * (first + l.length)) b.2

def Inf.symbol (x : Inf) (lens : List Nat) : Nat × Inf := huffWalk lens 15 1 0 0 x

/-- The lengths of a code leave it no more than the bits can tell apart. -/
def codeFits (lens : List Nat) : Bool :=
  decide (((List.range 15).foldl (fun (s : Nat) i => s + (symsOf lens (i + 1)).length * 2 ^ (14 - i)) 0) ≤ 2 ^ 15)

/-- The length that a symbol from 257 on begins, and its extra bits. -/
def lenCode (s : Nat) : Nat × Nat :=
  let i := s - 257
  if i < 8 then (3 + i, 0)
  else if i = 28 then (258, 0)
  else (3 + (4 + i % 4) * 2 ^ (i / 4 - 1), i / 4 - 1)

/-- The distance that a distance symbol begins, and its extra bits. -/
def distCode (s : Nat) : Nat × Nat :=
  if s < 4 then (1 + s, 0) else (1 + (2 + s % 2) * 2 ^ (s / 2 - 1), s / 2 - 1)

/-- `n` bytes from `dist` back. -/
def Inf.copy (x : Inf) (dist : Nat) : Nat → Inf
  | 0 => x
  | n + 1 => if x.stop != 0 then x else Inf.copy (x.push (x.out[dist - 1]?.getD 0)) dist n

/-- The symbols of one block, to its end. -/
def inflateSyms (lit dst : List Nat) : Nat → Inf → Inf
  | 0, x => x.halt 3
  | n + 1, x =>
    let s := x.symbol lit
    if s.2.stop != 0 then s.2
    else if s.1 = 256 then s.2
    else if s.1 < 256 then
      let y := s.2.push s.1
      if y.stop != 0 then y else inflateSyms lit dst n y
    else if 285 < s.1 then s.2.halt 2
    else
      let e := s.2.take (lenCode s.1).2
      if e.2.stop != 0 then e.2
      else
        let ds := e.2.symbol dst
        if ds.2.stop != 0 then ds.2
        else if 29 < ds.1 then ds.2.halt 2
        else
          let de := ds.2.take (distCode ds.1).2
          if de.2.stop != 0 then de.2
          else
            let dist := (distCode ds.1).1 + de.1
            if de.2.out.length < dist then de.2.halt 2
            else
              let y := Inf.copy de.2 dist ((lenCode s.1).1 + e.1)
              if y.stop != 0 then y else inflateSyms lit dst n y

/-- Bytes of a stored block. -/
def Inf.stored (x : Inf) : Nat → Inf
  | 0 => x
  | n + 1 =>
    if x.stop != 0 then x
    else
      let b := x.take 8
      if b.2.stop != 0 then b.2 else Inf.stored (b.2.push b.1) n

/-- `n` fields of `w` bits. -/
def Inf.fields (x : Inf) (w : Nat) : Nat → List Nat × Inf
  | 0 => ([], x)
  | n + 1 =>
    let b := x.take w
    if b.2.stop != 0 then ([], b.2)
    else
      let r := Inf.fields b.2 w n
      (b.1 :: r.1, r.2)

/-- The fixed codes. -/
def fixedLit : List Nat := List.replicate 144 8 ++ List.replicate 112 9 ++ List.replicate 24 7 ++ List.replicate 8 8
def fixedDist : List Nat := List.replicate 30 5

/-- The order in which a dynamic block gives the lengths of the code of its lengths. -/
def lenOrder : List Nat := [16, 17, 18, 0, 8, 7, 9, 6, 10, 5, 11, 4, 12, 3, 13, 2, 14, 1, 15]

/-- The lengths of a dynamic block's codes: `want` of them behind `got`, newest first. -/
def dynLens (cl : List Nat) (want : Nat) : Nat → List Nat → Inf → List Nat × Inf
  | 0, got, x => (got, x.halt 2)
  | n + 1, got, x =>
    if want ≤ got.length then (got, if want < got.length then x.halt 2 else x)
    else
      let s := x.symbol cl
      if s.2.stop != 0 then (got, s.2)
      else if s.1 < 16 then dynLens cl want n (s.1 :: got) s.2
      else
        let e := s.2.take (if s.1 = 16 then 2 else if s.1 = 17 then 3 else 7)
        if e.2.stop != 0 then (got, e.2)
        else if s.1 = 16 && got.isEmpty then (got, e.2.halt 2)
        else
          let v := if s.1 = 16 then got.headD 0 else 0
          let m := e.1 + (if s.1 = 18 then 11 else 3)
          dynLens cl want n (List.replicate m v ++ got) e.2

/-- A block with codes of its own. -/
def inflateDyn (fuel : Nat) (x : Inf) : Inf :=
  let a := x.take 5
  let b := a.2.take 5
  let c := b.2.take 4
  if a.2.stop != 0 then a.2
  else if b.2.stop != 0 then b.2
  else if c.2.stop != 0 then c.2
  else if 29 < a.1 || 29 < b.1 then c.2.halt 2
  else
    let f := Inf.fields c.2 3 (c.1 + 4)
    if f.2.stop != 0 then f.2
    else
      let cl := (List.range 19).map (fun i => (f.1[lenOrder.idxOf i]?).getD 0)
      if !codeFits cl then f.2.halt 2
      else
        let r := dynLens cl (a.1 + 257 + b.1 + 1) 321 [] f.2
        if r.2.stop != 0 then r.2
        else
          let l := r.1.reverse
          let lit := l.take (a.1 + 257)
          let dst := l.drop (a.1 + 257)
          if codeFits lit && codeFits dst then inflateSyms lit dst fuel r.2 else r.2.halt 2

/-- A stored block behind its three bits. -/
def inflateStored (x : Inf) : Inf :=
  let a := x.align.take 16
  let b := a.2.take 16
  if a.2.stop != 0 then a.2
  else if b.2.stop != 0 then b.2
  else if a.1 + b.1 != 65535 then b.2.halt 2
  else Inf.stored b.2 a.1

/-- The blocks of a stream, to the one with BFINAL set. -/
def inflateBlocks (fuel : Nat) : Nat → Inf → Inf
  | 0, x => x.halt 3
  | n + 1, x =>
    let f := x.take 1
    let t := f.2.take 2
    if f.2.stop != 0 then f.2
    else if t.2.stop != 0 then t.2
    else
      let y := if t.1 = 0 then inflateStored t.2
        else if t.1 = 1 then inflateSyms fixedLit fixedDist fuel t.2
        else if t.1 = 2 then inflateDyn fuel t.2
        else t.2.halt 2
      if y.stop != 0 || f.1 = 1 then y else inflateBlocks fuel n y

/-- Bytes decoded as one DEFLATE stream into `room` bytes. -/
def inflate (src : List Nat) (room : Nat) : Inf :=
  let bits := src.flatMap (numBits 8)
  inflateBlocks (bits.length + 1) (bits.length + 1) { bits := bits, out := [], room := room, stop := 0 }

/-- The source bytes an ended stream has left. -/
def Inf.left (x : Inf) : Nat := x.bits.length / 8

/-! ### Streams (R412) -/

/-- A stream decoded so far: its output, what is left of the source, the REASON it stops with, and whether more source could
change that. -/
structure Unz where
  out    : List Nat
  rest   : List Nat
  reason : Nat
  short  : Bool := false
deriving DecidableEq, Repr

/-- A zlib stream into `room` bytes. -/
def unzlib (src : List Nat) (room : Nat) : Unz :=
  let cmf := src[0]?.getD 0
  let flg := src[1]?.getD 0
  if src.length < 2 then ⟨[], [], 3, true⟩
  else if cmf % 16 != 8 || 7 < cmf / 16 || (256 * cmf + flg) % 31 != 0 || bitOf flg 5 then ⟨[], src.drop 2, 3, false⟩
  else
    let body := src.drop 2
    let x := inflate body room
    let rest := body.drop (body.length - x.left)
    let out := x.out.reverse
    if x.stop != 0 then ⟨out, rest, x.stop, x.stop == 3⟩
    else if rest.length < 4 then ⟨out, [], 3, true⟩
    else ⟨out, rest.drop 4, if ofBytesLE (rest.take 4).reverse = adler32 out then 0 else 1, false⟩

/-- The bytes behind a zero-terminated text of a gzip header; none where it does not end. -/
def pastText : List Nat → Option (List Nat)
  | [] => none
  | b :: r => if b = 0 then some r else pastText r

/-- What is left behind a gzip header's optional fields (FEXTRA, FNAME, FCOMMENT, FHCRC), REASON, and whether the source ends
in it. -/
def gzipHead (src : List Nat) : List Nat × Nat × Bool :=
  let flg := src[3]?.getD 0
  if src.length < 10 then ([], 3, true)
  else if src[0]?.getD 0 != 0x1F || src[1]?.getD 0 != 0x8B || src[2]?.getD 0 != 8 || 32 ≤ flg then (src.drop 10, 3, false)
  else
    let a := src.drop 10
    let n := ofBytesLE (a.take 2)
    let b := if bitOf flg 2 then (if a.length < 2 + n then none else some (a.drop (2 + n))) else some a
    let c := if bitOf flg 3 then b.bind pastText else b
    let e := if bitOf flg 4 then c.bind pastText else c
    match e with
    | none => ([], 3, true)
    | some r =>
      if bitOf flg 1 then
        if r.length < 2 then ([], 3, true)
        else (r.drop 2, if ofBytesLE (r.take 2) = crc32 (src.take (src.length - r.length)) % 65536 then 0 else 1, false)
      else (r, 0, false)

/-- One gzip member into `room` bytes. -/
def gunzip (src : List Nat) (room : Nat) : Unz :=
  let h := gzipHead src
  if h.2.1 != 0 then ⟨[], h.1, h.2.1, h.2.2⟩
  else
    let x := inflate h.1 room
    let rest := h.1.drop (h.1.length - x.left)
    let out := x.out.reverse
    if x.stop != 0 then ⟨out, rest, x.stop, x.stop == 3⟩
    else if rest.length < 8 then ⟨out, [], 3, true⟩
    else ⟨out, rest.drop 8, if ofBytesLE (rest.take 4) != crc32 out then 1
      else if ofBytesLE ((rest.drop 4).take 4) != out.length % 2 ^ 32 then 5 else 0, false⟩

/-- Members one after another, while at least 18 bytes remain and begin as a member does. -/
def gunzips : Nat → List Nat → Nat → Unz
  | 0, src, _ => ⟨[], src, 0, false⟩
  | n + 1, src, room =>
    let x := gunzip src room
    if x.reason != 0 then x
    else if 18 ≤ x.rest.length && x.rest[0]?.getD 0 == 0x1F && x.rest[1]?.getD 0 == 0x8B then
      let y := gunzips n x.rest (room - x.out.length)
      ⟨x.out ++ y.out, y.rest, y.reason, y.short⟩
    else { x with short := decide (x.rest.length < 18) }

/-! ### The container (R411, R413) -/

/-- A block header: STORED_LEN, DEFLATED and CRC; none where it is not valid or the source ends in it. -/
def blockHead (src : List Nat) : Option (Nat × Bool × Nat) :=
  let w := ofBytesLE (src.take 4)
  if src.length < 8 || w % 2 ^ 17 = 0 || 65536 < w % 2 ^ 17 || w / 2 ^ 17 % 2 ^ 14 != 0 then none
  else some (w % 2 ^ 17, bitOf w 31, ofBytesLE ((src.drop 4).take 4))

/-- The output of one block's data, of `len` bytes by its header. -/
def unblock (defl : Bool) (data : List Nat) (room : Nat) : Inf :=
  if defl then inflate data room
  else { bits := [], out := (data.take room).reverse, room := room - data.length, stop := if room < data.length then 4 else 0 }

/-- Blocks from block `j` on, `n` of them: those below `first` are passed over, the others are delivered. The answer has the
block at which a failure was found. -/
def unblocks (origLen first : Nat) : Nat → Nat → List Nat → Nat → Unz × Nat
  | 0, j, src, _ => (⟨[], src, 0, false⟩, j)
  | n + 1, j, src, room =>
    match blockHead src with
    | none => (⟨[], src.drop 8, 3, decide (src.length < 8)⟩, j)
    | some (len, defl, crc) =>
      let body := src.drop 8
      let cut := decide (body.length < len)
      if j < first then
        if cut then (⟨[], [], 3, true⟩, j) else unblocks origLen first n (j + 1) (body.drop len) room
      else
        let x := unblock defl (body.take len) room
        let out := x.out.reverse
        if x.stop != 0 then (⟨out, body.drop (min len body.length - x.left), x.stop, cut && x.stop == 3⟩, j)
        else if cut then (⟨out, [], 3, true⟩, j)
        else if out.length != min 65536 (origLen - 65536 * j) then (⟨out, body.drop len, 5, false⟩, j)
        else if crc32 out != crc then (⟨out, body.drop len, 1, false⟩, j)
        else
          let y := unblocks origLen first n (j + 1) (body.drop len) (room - out.length)
          (⟨out ++ y.1.out, y.1.rest, y.1.reason, y.1.short⟩, y.2)

/-- The container's header is valid (Table 15.3). -/
def containerOk (src : List Nat) : Bool :=
  ofBytesLE (src.take 4) == 0x54414D50 && src[4]?.getD 0 == 1 && decide (1 ≤ src[5]?.getD 0) && decide (src[5]?.getD 0 ≤ 4) &&
  decide (src[6]?.getD 0 < 2) && src[7]?.getD 0 == 0

/-- What a decompression comes to: a FIRST_BLOCK beyond the last block, the REASON (0 for none), the output, the fields of
Table 15.6, and whether source not yet read could change it. -/
structure TmpEnd where
  firstBad  : Bool
  reason    : Nat
  out       : List Nat
  consumed  : Nat
  check     : Nat
  failBlock : Nat
  short     : Bool
deriving DecidableEq, Repr

/-- What a stream or blocks decoded from `src` come to. -/
def Unz.ended (x : Unz) (src : List Nat) (check failBlock : Nat) : TmpEnd :=
  { firstBad := false, reason := x.reason, out := x.out, consumed := src.length - x.rest.length, check := check,
    failBlock := failBlock, short := x.short }

/-- An archive's decompression (R413). -/
def unpackArchive (x : TmpDesc) (src : List Nat) : TmpEnd :=
  if src.length < 16 then (⟨[], [], 3, true⟩ : Unz).ended src 0 0
  else if !containerOk src then (⟨[], src.drop 16, 3, false⟩ : Unz).ended src 0 0
  else
    let origLen := ofBytesLE ((src.drop 8).take 8)
    let blocks := (origLen + 65535) / 65536
    if x.first != 0 && decide (blocks ≤ x.first) then
      { (⟨[], src.drop 16, 0, false⟩ : Unz).ended src 0 0 with firstBad := true }
    else
      let last := if x.blocks = 0 then blocks else min blocks (x.first + x.blocks)
      let r := unblocks origLen x.first last 0 (src.drop 16) x.cap
      r.1.ended src (crc32 r.1.out) (if r.1.reason = 0 || r.1.reason = 4 then 0 else r.2)

/-- What a decompression of the bytes `src` comes to. -/
def tmpUnpack (x : TmpDesc) (src : List Nat) : TmpEnd :=
  if x.cls = 0 then
    let r := unzlib src x.cap
    r.ended src (adler32 r.out) 0
  else if x.cls = 1 then
    let r := gunzips (src.length + 1) src x.cap
    r.ended src (crc32 r.out) 0
  else unpackArchive x src

end Sys2Proof.Machine
end

