-- ==== Sys2Proof/Machine/Bars.lean ====
section
/-! DEFINITION. BAR0 and BAR2: each register's reset value and writable bits, and what it reads (R493 to R495, Tables 19.2 to
19.4). -/
namespace Sys2Proof.Machine
open Sys2Proof

/-- Table 19.3 with the panic level of every port. -/
def dmcPortReset (i : Nat) : Nat :=
  match defaultPorts[i]? with
  | some p => p.target + b2n p.rt * 2 ^ 17 + b2n p.panicEn * 2 ^ 18 + p.level * 2 ^ 19
  | none => 0

/-- The reset value and the mask of rw bits of a set-up register that host software writes (Table 19.2). -/
def regSpecSys (a : Nat) : Option (Nat × Nat) :=
  if a = 0x100000 then some (0x00180020, 0x00FF1F3F)
  else if a = 0x100004 then some (0x00500064, 0x03FF3FFF)
  else if a = 0x100008 then some (0x00640008, 0x01FFFFFF)
  else if a = 0x10000C then some (0x05A05DC0, 0xFFFFFFFF)
  else if a = 0x100010 then some (0x00000100, 0x000007FF)
  else if a = 0x100014 then some (0x00006400, 0x0000FF0F)
  else if a = 0x100018 then some (0x00000000, 0xFFFFFFFF)
  else if a = 0x100020 then some (0x00008080, 0x0000FFFF)
  else if a = 0x200000 then some (0x00000000, 0xFFFFFFFF)
  else if a = 0x200004 then some (0x00071F40, 0x000FFFFF)
  else if inArr a 0x200010 4 8 then some (0x00000000, 0xFFFFFFFF)
  else if inArr a 0x200040 4 32 then some (0x03FF03FF, 0xF3FF03FF)
  else if a = 0x300000 then some (0x03FF03FF, 0x83FF03FF)
  else if a = 0x300004 then some (0x00000000, 0x0000000F)
  else if a = 0x380000 then some (0x00000426, 0x00FFFF3F)
  else if a = 0x380004 then some (0x00000000, 0xFFFFFFFF)
  else if a = 0x380008 then some (0x00000000, 0x000000FF)
  else if a = 0x400000 then some (0x00002120, 0x00003F3F)
  else if a = 0x400004 then some (0x00000000, 0x0000FFFF)
  else if a = 0x400008 then some (0x00000000, 0x0000FFFF)
  else if a = 0x40000C then some (0x00000014, 0x0000001F)
  else none

def regSpecMedia (a : Nat) : Option (Nat × Nat) :=
  if a = 0x600000 then some (0x03FF03FF, 0x83FF03FF)
  else if inArr a 0x600100 16 64 then some (0x00400001, 0xFFFF00FF)
  else if inArr a 0x600104 16 64 then some (0xFFFFFFFF, 0xFFFFFFFF)
  else if inArr a 0x600108 16 64 then some (0x00000000, 0x00000003)
  else if inArr a 0x700000 8 1024 then some (0x00080000, 0x801F1FFF)
  else if inArr a 0x700004 8 1024 then some (0x00000004, 0x1FFF7FFF)
  else if inArr a 0x800000 0x100 2 then some (0x01C5F208, 0x01FFFFFF)
  else if inArr a 0x800004 0x100 2 then some (0x00000000, 0xFFFFFFFF)
  else if inArr a 0x800008 0x100 2 then some (0x00000000, 0x0000FFFF)
  else if inArr a 0x80000C 0x100 2 then some (0x00000000, 0xFFFFFFFF)
  else if inArr a 0x800010 0x100 2 then some (0x00000000, 0x000000FF)
  else if inArr a 0x800020 4 8 then some (0x03FF + 0x400 * ((a - 0x800020) / 4), 0x00003FFF)
  else if inArr a 0x800120 4 8 then some (0x03FF + 0x400 * ((a - 0x800120) / 4), 0x00003FFF)
  else if inArr a 0x800040 4 8 || inArr a 0x800140 4 8 then some (0x00400000, 0x3FFFFFFF)
  else if inArr a 0x800080 8 16 || inArr a 0x800180 8 16 then some (0x00000000, 0xFFFFFFFF)
  else if inArr a 0x800084 8 16 || inArr a 0x800184 8 16 then some (0x00000000, 0x8000FFFF)
  else if a = 0x800200 then some (0x0012C002, 0x003FFFFF)
  else none

def regSpecHost (a : Nat) : Option (Nat × Nat) :=
  if a = 0xA00000 then some (0x00000010, 0x00FF03FF)
  else if a = 0xA00004 || a = 0xA0000C then some (0x00000000, 0xFFFFF000)
  else if a = 0xA00008 || a = 0xA00010 then some (0x00000000, 0xFFFFFFFF)
  else if inArr a 0xA00100 16 16 then some (0x00000000, 0xFFFFF000)
  else if inArr a 0xA00104 16 16 || inArr a 0xA00108 16 16 then some (0x00000000, 0xFFFFFFFF)
  else if inArr a 0xA0010C 16 16 then some (0x00000000, 0x00000003)
  else if inArr a 0xA01000 16 256 then some (0x00000000, 0xFFFFFFC0)
  else if inArr a 0xA01004 16 256 then some (0x00000000, 0xFFFFFFFF)
  else if inArr a 0xA01008 16 256 then some (0x00000040, 0xFFFFFFF7)
  else if inArr a 0xA0100C 16 256 then some (0x01000000, 0xFFFF7FFF)
  else if inArr a 0xA10000 16 64 then some (0x00000000, 0xFFFFFFFC)
  else if inArr a 0xA10004 16 64 || inArr a 0xA10008 16 64 then some (0x00000000, 0xFFFFFFFF)
  else if inArr a 0xA1000C 16 64 then some (0x00000001, 0x00000001)
  else if a = 0xB00000 then some (0x000003FF, 0x800003FF)
  else if inArr a 0xC00020 4 10 then some (dmcPortReset ((a - 0xC00020) / 4), 0x01FFFFFF)
  else if a = 0xC00048 then some (0x00000040, 0x0001FFFF)
  else if a = 0xC0004C then some (0x00000003, 0x07FFFFFF)
  else none

def regSpec (a : Nat) : Option (Nat × Nat) :=
  match regSpecSys a with
  | some r => some r
  | none => (match regSpecMedia a with
    | some r => some r
    | none => regSpecHost a)

/-- The value of a set-up register: the one last written or kept, or its reset value (R494). -/
def Dev.reg (d : Dev) (a : Nat) : Nat :=
  match d.regs.get none a with
  | some v => v.toNat
  | none => ((regSpec a).map (·.1)).getD 0

/-! ### Read-only registers -/

def Hif.statusWord (x : Hif) : Nat := b2n x.setupOpen + 2 * b2n x.locked + 4 * b2n x.paused + 2 ^ 8 * (x.lockErr % 16)

def Sys.startWord (x : Sys) : Nat :=
  x.kind % 4 + 2 ^ 4 * (x.cause % 16) + 2 ^ 8 * b2n x.noCal + 2 ^ 12 * (x.step % 16) + 2 ^ 16 * (x.warmCount % 65536)

def Htb.stateWord (x : Htb) : Nat :=
  hstateCode x.state + 4 * (x.timeSrc % 4) + 16 * (x.freqSrc % 4) + 64 * b2n x.refA.ok + 128 * b2n x.refB.ok

def Dev.tempWord (d : Dev) (n : Nat) : Nat :=
  let x := d.cal.sensors.get {} n
  toBits 16 x.temp + 2 ^ 16 * b2n x.valid

def Dev.tilCount (d : Dev) : Nat :=
  let n := fun (s : PState) => (d.til.phys.entries.filter (fun (p : Nat × Phys) => p.2.state == s)).length
  let active := ((List.range 32).filter (fun t => (d.physOf t).isSome)).length
  let retired := if d.sys.powered && (d.sys.kind == 1 || decide (4 ≤ d.sys.step)) then 34 - (d.til.phys.entries.filter (fun (p : Nat × Phys) => p.2.state != .retired)).length else 0
  active % 64 + 64 * (min 3 (n .spare)) + 2 ^ 8 * (retired % 64)

def Kln.tamperWord (x : Kln) : Nat := x.sinceCold % 65536 + 2 ^ 16 * (x.last % 4)
def Kln.useWord (x : Kln) : Nat := x.inUse % 32768 + 2 ^ 16 * (x.open_ % 1024)

def Tmp.statusWord (x : Tmp) : Nat := x.active.length % 8 + 8 * b2n x.enabled

def Dram.cfgWord (x : Dram) : Nat :=
  x.pop.toNat + 2 ^ 4 * (x.density % 4) + 2 ^ 6 * b2n x.spareEn + 2 ^ 7 * (x.spareCfg % 4) + 2 ^ 9 * (x.rate % 4)

def Dram.statusWord (x : Dram) : Nat :=
  ((List.range 4).foldl (fun (n : Nat) r => n + rstateCode (x.ranks.get {} r).state * 4 ^ r) 0) +
    2 ^ 8 * b2n x.mig.isSome + 2 ^ 9 * ((x.mig.map (·.src)).getD 0 % 4) + 2 ^ 11 * b2n x.trainErr +
    ((List.range 4).foldl (fun (n : Nat) s => n + (x.map.getD s 0 % 4) * 2 ^ (12 + 2 * s)) 0) + 2 ^ 20 * (x.map.length % 8)

/-- SYS_ID (R4). -/
def sysId : Nat := Config.pciDeviceId + Config.revisionId * 2 ^ 16

/-- KLN_STATE, where it can be read: not with TEST_MODE high (R512), when no read is answered at all, since the link does not train. -/
def Dev.kilnState (d : Dev) : Option Nat := if d.sys.testMode then none else some d.kln.stateWord

/-- A BAR2 word (Table 19.4). -/
def Dev.bar2 (k : Clock) (d : Dev) (a : Nat) : Nat :=
  if a = 0x000 then d.hif.statusWord
  else if a = 0x004 then d.sys.startWord
  else if a = 0x008 then sysId
  else if a = 0x010 then d.htb.stateWord
  else if a = 0x014 then k.tick % 2 ^ 32
  else if inArr a 0x020 4 8 then d.tempWord ((a - 0x020) / 4)
  else if a = 0x040 then d.tilCount
  else if a = 0x050 then d.kilnState.getD 0
  else if a = 0x054 then d.kln.tamperWord
  else if a = 0x058 then d.kln.useWord
  else if a = 0x060 then d.dram.statusWord
  else if a = 0xF00 then d.hif.pba.toNat % 2 ^ 32
  else if a = 0xF04 then d.hif.pba.toNat / 2 ^ 32
  else 0

/-- An aligned word of BAR0 as host software reads it: zero behind the lock and in Kindling recovery (R344, R376). -/
def Dev.bar0 (d : Dev) (a : Nat) : Nat :=
  if d.hif.locked || d.kln.boot == 3 then 0
  else if a = 0x000000 then sysId
  else if a = 0x000008 then d.hif.statusWord
  else if a = 0x10001C then d.htb.stateWord
  else if inArr a 0x380010 4 8 then d.tempWord ((a - 0x380010) / 4)
  else if a = 0x400010 then d.tilCount
  else if a = 0x900000 then d.kilnState.getD 0
  else if a = 0x900004 then d.kln.tamperWord
  else if a = 0x900008 then d.kln.useWord
  else if a = 0xB00004 then d.tmp.statusWord
  else if a = 0xC00000 then d.dram.cfgWord
  else if inArr a 0xC00008 4 4 then (d.rank ((a - 0xC00008) / 4)).unused.toNat
  else if a = 0xC00050 then d.dram.statusWord
  else d.reg a

end Sys2Proof.Machine
end

