-- ==== Sys2Proof/Machine/Rings.lean ====
section
/-! DEFINITION. Host rings: doorbell fetches, admission, sending, posting, dumps, interrupts, the system commands, and the PCI
Express function (chapter 14, R456). -/
namespace Sys2Proof.Machine
open Sys2Proof

/-! ### Dump delivery (R394, R491) -/

/-- Posted buffers of the ring of the offer in progress are filled with the envelope's next bytes; at its end STATE becomes
DELIVERED. -/
def Dev.dmpFillN (k : Clock) : Nat → Dev → Dev
  | 0, d => d
  | m + 1, d =>
    match d.sys.offer with
    | none => d
    | some (off, n) =>
      if !d.dmaOn then d
      else
        let d := d.skipBad n 6 (d.ring n).posted.length
        match (d.ring n).posted with
        | [] => d
        | b :: r =>
          let bs := (d.sys.env.drop off).take b.len
          let last := decide (d.sys.env.length ≤ off + b.len)
          let d := (d.send (.hostWrite b.addr bs)).send (.dmp n b.idx bs.length off d.sys.dumpId (off == 0) last false)
          let d := (d.modRing n (fun x => { x with posted := r, c := x.c + 1 })).setSys
            { d.sys with offer := if last then none else some (off + bs.length, n), delivered := off + bs.length,
                         ash := if last then .delivered else d.sys.ash }
          Dev.dmpFillN k m (d.wrote k n)
def Dev.dmpFill (k : Clock) (d : Dev) : Dev :=
  match d.sys.offer with
  | none => d
  | some (_, n) => d.dmpFillN k ((d.ring n).posted.length)

/-- The lowest-numbered enabled DMP ring. -/
def Dev.dmpRing (d : Dev) : Option Nat := least 256 (fun n => d.ringIs n 6)

/-- The envelope is offered from its first byte. -/
def Dev.dumpOffer (k : Clock) (d : Dev) : Dev :=
  match d.dmpRing with
  | some n => (d.setSys { d.sys with offer := some (0, n), delivered := 0 }).dmpFill k
  | none => d

/-- A READY dump that no offer carries is offered as soon as a DMP ring is enabled. -/
def Dev.dumpReady (k : Clock) (d : Dev) : Dev :=
  if d.sys.ash == .ready && d.sys.offer.isNone && d.hif.locked && !d.hif.paused then d.dumpOffer k else d

/-- What was held for want of DMA or of slots is written: completions, events, dumps, messages. -/
def Dev.flushHost (k : Clock) (d : Dev) : Dev :=
  let d := d.flushWr
  let d := d.hif.rings.entries.foldl (fun (d : Dev) (p : Nat × Ring) =>
    if p.2.typ = 2 then d.flushCpl k p.1 else if p.2.typ = 5 then d.flushEvt k p.1 else d) d
  (d.dmpFill k).drainPba k

/-! ### Doorbells (R381) -/

def Dev.doorbell (d : Dev) (n : Nat) (w : DbWord) : Dev :=
  let r := d.ring n
  if w.chk != 65535 - w.gen then d.bump1 .hifRingDbBad n
  else if w.gen != r.gen then d.bump1 .hifRingDbStale n
  else if r.size < (w.index - r.c).toNat || 2 ^ 31 ≤ (w.index - r.p).toNat then d.bump1 .hifRingDbInvalid n
  else d.setRing n { r with p := w.index }

def Dev.doorbells (d : Dev) (ws : List DbWord) : Dev :=
  d.hif.rings.entries.foldl (fun (d : Dev) (p : Nat × Ring) =>
    if p.2.enabled then
      d.doorbell p.1 ((ws.find? (fun (w : DbWord) => w.ring == p.1)).getD { ring := p.1, index := 0, gen := 0, chk := 0 })
    else d) d

/-! ### Admission (R384 to R386) -/

/-- The opcodes that the chapters define (R31). -/
def definedOp (op : Nat) : Bool :=
  let within := fun (lo hi : Nat) => decide (lo ≤ op) && decide (op ≤ hi)
  within 0x0101 0x0106 || within 0x0201 0x0208 || within 0x0301 0x030C || within 0x0401 0x040C || within 0x0501 0x0506 ||
  within 0x0601 0x0603 || within 0x0620 0x0627 || within 0x0701 0x0706 || within 0x0801 0x0810 || within 0x0820 0x0825 ||
  within 0x0840 0x0845 || within 0x0901 0x090D || within 0x0A01 0x0A17 || within 0x0B01 0x0B03 || within 0x0C01 0x0C07 ||
  within 0x0D01 0x0D0C

/-- Why a CMD ring with commands waiting admits none now: commands outstanding or a FENCE, or the completions held for its
CPL ring. -/
inductive Hold where
  | none | full | cplFull
deriving DecidableEq, Repr

def Dev.holdOf (d : Dev) (n : Nat) (x : CmdDesc) : Hold :=
  if 64 ≤ (d.ring (d.ring n).cplRing).held.length then .cplFull
  else if 1024 ≤ d.hif.outst.length || (x.fence && d.hif.outst.any (fun y => y.ring == n)) then .full
  else .none

/-- Checks 1 to 4 of R384: the status of a command that its unit never sees. -/
def Dev.descCheck (d : Dev) (x : CmdDesc) : Option Status × Dev :=
  let lenOk := if x.indirect then decide (1 ≤ x.argLen) && decide (x.argLen ≤ 65535) else decide (x.argLen ≤ 24)
  let resOk := !x.indirect || (decide (x.resLen ≤ 16777216) && (x.resAddr != 0 || x.resLen == 0))
  if !x.rsvOk || !lenOk || !resOk then (some .badArg, d)
  else if x.indirect && (!d.winOk false x.argAddr x.argLen || (x.resLen != 0 && !d.winOk true x.resAddr x.resLen)) then
    (some .notPermitted, d.bump0 .hifWindowDenied)
  else if x.indirect && !x.argRead then (some .badArg, d.bump0 .hifDmaReadError)
  else if !definedOp x.opcode then (some .badArg, d)
  else (none, d)

/-- One command is admitted: it joins the commands outstanding, or completes at once. -/
def Dev.admitOne (k : Clock) (d : Dev) (n : Nat) (x : CmdDesc) : Dev :=
  let d := d.modRing n (fun r => { r with c := r.c + 1, readTo := r.c + 1 })
  let d := { d with hif := { d.hif with rr := (n + 1) % 256 } }
  match d.descCheck x with
  | (none, d) => { d with hif := { d.hif with outst := d.hif.outst ++
      [{ ring := n, tag := x.tag, opcode := x.opcode, resAddr := if x.indirect then x.resAddr else 0,
         resLen := if x.indirect then x.resLen else 0, cpl := (d.ring n).cplRing }] } }
  | (some st, d) => d.complete k { ring := n, tag := x.tag } x.opcode st []

/-- The CMD rings with a descriptor that can be admitted now. -/
def Dev.admissible (d : Dev) (l : List (Nat × List CmdDesc)) : List Nat :=
  l.filterMap (fun (p : Nat × List CmdDesc) =>
    match p.2 with
    | x :: _ => if d.ringIs p.1 1 && decide (0 < (d.ring p.1).free) && d.holdOf p.1 x == .none then some p.1 else none
    | [] => none)

/-- Round robin, one command per ring per turn. -/
def Dev.admitN (k : Clock) : Nat → List (Nat × List CmdDesc) → Dev → List (Nat × List CmdDesc) × Dev
  | 0, l, d => (l, d)
  | m + 1, l, d =>
    let c := d.admissible l
    match (match c.find? (fun n => decide (d.hif.rr ≤ n)) with
      | some n => some n
      | none => c.head?) with
    | none => (l, d)
    | some n =>
      match l.find? (fun (p : Nat × List CmdDesc) => p.1 == n) with
      | some (_, x :: r) =>
        Dev.admitN k m (l.map (fun (p : Nat × List CmdDesc) => if p.1 == n then (n, r) else p)) (d.admitOne k n x)
      | _ => (l, d)

/-- What this fetch leaves held is counted: once for the device, and once for each CPL ring that is full. -/
def Dev.countHolds (d : Dev) (l : List (Nat × List CmdDesc)) : Dev :=
  let why := fun (h : Hold) => l.filterMap (fun (p : Nat × List CmdDesc) =>
    match p.2 with
    | x :: _ => if d.ringIs p.1 1 && decide (0 < (d.ring p.1).free) && d.holdOf p.1 x == h then some (d.ring p.1).cplRing else none
    | [] => none)
  let full := why .cplFull
  let d' := if (why .full).isEmpty then d else d.bump0 .hifCmdAdmitHold
  (List.range 256).foldl (fun (d : Dev) q => if full.contains q then d.bump1 .hifRingCplFullHold q else d) d'

def Dev.takeCmds (k : Clock) (d : Dev) (l : List (Nat × List CmdDesc)) : Dev :=
  let n := (l.map (fun (p : Nat × List CmdDesc) => p.2.length)).foldl (· + ·) 0
  let r := d.admitN k n l
  r.2.countHolds r.1

/-! ### Sending (R388) -/

def TxpDesc.words (x : TxpDesc) : List Word :=
  let bs := (x.content ++ List.replicate x.bytes 0).take x.bytes
  BitVec.ofNat 32 (x.dest % 8192 + b2n x.raw * 2 ^ 13 + b2n x.ts * 2 ^ 14 + b2n x.csum * 2 ^ 15 + x.bytes * 2 ^ 16 +
    b2n x.rtcp * 2 ^ 30) :: BitVec.ofNat 32 x.key :: bytesWords bs

def Dev.txpOne (k : Clock) (d : Dev) (n : Nat) (x : TxpDesc) : Dev :=
  let r := d.ring n
  let d := d.setRing n { r with c := r.c + 1, readTo := r.c + 1 }
  if !x.rsvOk || x.bytes = 0 || 8184 < x.bytes then d.bump1 .hifRingTxpBad n
  else if !d.winOk false x.addr x.bytes then (d.bump0 .hifWindowDenied).bump1 .hifRingTxpBad n
  else if !x.readOk then (d.bump0 .hifDmaReadError).bump1 .hifRingTxpBad n
  else (d.hopPut k (d.txq r.bindPort r.bindQueue).hop .control (x.prio % 8) x.words).2

def Dev.txps (k : Clock) (d : Dev) (l : List (Nat × List TxpDesc)) : Dev :=
  l.foldl (fun (d : Dev) (p : Nat × List TxpDesc) =>
    p.2.foldl (fun (d : Dev) (x : TxpDesc) =>
      if d.ringIs p.1 3 && decide (0 < (d.ring p.1).free) then d.txpOne k p.1 x else d) d) d

/-! ### Posted buffers (R389) -/

def Dev.bufGood (d : Dev) (typ : Nat) (x : PostDesc) : Bool × Dev :=
  let lenOk := if typ = 4 then decide (64 ≤ x.len) && decide (x.len ≤ 16384) && x.len % 64 == 0
    else decide (4096 ≤ x.len) && decide (x.len ≤ 1048576) && x.len % 4096 == 0
  if !x.rsvOk || !lenOk then (false, d) else d.bufOk true x.addr x.len

def Dev.postN (n typ : Nat) : List (Option PostDesc) → Dev → Dev
  | [], d => d
  | x :: l, d =>
    let r := d.ring n
    if !d.ringIs n typ || r.readTo == r.p then d
    else match x with
      | none => d.bump0 .hifDmaReadError
      | some b =>
        let g := d.bufGood typ b
        Dev.postN n typ l (g.2.setRing n { r with
          readTo := r.readTo + 1, posted := r.posted ++ [{ idx := r.readTo, addr := b.addr, len := b.len, good := g.1 }] })

def Dev.posts (d : Dev) (l : List (Nat × List (Option PostDesc))) : Dev :=
  l.foldl (fun (d : Dev) (p : Nat × List (Option PostDesc)) => Dev.postN p.1 (d.ring p.1).typ p.2 d) d

/-! ### The fetch (R380, R382) -/

/-- P. -/
def Hif.period (x : Hif) : Nat := (x.fetchUs * 3072 + 62) / 125

/-- What a fetch does with the page: none where its read fails. -/
def Dev.dbFetch (k : Clock) (d : Dev) : Option Page → Dev
  | none => (d.bump0 .hifDbFetchError).bump0 .hifDmaReadError
  | some p =>
    let d := d.doorbells p.words
    let d := if p.vchk == ~~~ p.vmask then { d with hif := { d.hif with vmask := p.vmask } } else d
    let d := (((d.flushHost k).takeCmds k p.cmds).txps k p.txps).posts p.bufs
    ((d.dmpFill k).shadowFor (fun _ _ => true)).send (.fetchStamp (clockStamp k))

/-- A fetch falls due at a sub-tick of the tick. It is skipped while the device makes no DMA. -/
def execDoorbellFetch (sub : Nat) (page : Option Page) (s : State) : Out :=
  atSub sub (onDev (fun k d =>
    let now := clockAbs k
    let due := match d.hif.fetchAt with
      | some t => decide (t ≤ now)
      | none => true
    if !d.hif.locked || d.hif.paused || !due then d
    else
      let d := { d with hif := { d.hif with fetchAt := some (d.hif.fetchAt.getD now + d.hif.period) } }
      if d.dmaOn then d.dbFetch k page else d)) s

/-- R395: the MOD_TICKS-th tick boundary after the first pending item. -/
def execMsixModerationExpiry (n : Nat) (s : State) : Out :=
  onDev (fun k d =>
    let r := d.ring n
    if r.enabled && r.irqEn && decide (0 < r.pend) && decide (0 < r.modTicks) && decide (r.modTicks ≤ r.pendTicks) then
      d.requestVec k r.vector
    else d) s

/-- Tick boundaries pass over the pending items. -/
def Dev.ringTick (d : Dev) : Dev :=
  d.hif.rings.entries.foldl (fun (d : Dev) (p : Nat × Ring) =>
    if 0 < p.2.pend then d.setRing p.1 { p.2 with pendTicks := p.2.pendTicks + 1 } else d) d

/-! ### System commands (Table 14.13) -/

/-- A snapshot record: name length, name, padding to 8 bytes, value. -/
def ctrRecord (name : List Nat) (v : Nat) : List Nat :=
  let n := name.length + 1
  name.length :: name ++ List.replicate ((8 - n % 8) % 8) 0 ++ bytesLE 8 v

def Ctr.nameBytes (c : Ctr) : List Nat := c.name.toList.map (·.toNat)

/-- The records that fit whole in `room` bytes. -/
def fitRecords : List (List Nat) → Nat → List (List Nat)
  | [], _ => []
  | r :: l, room => if r.length ≤ room then r :: fitRecords l (room - r.length) else []

def execCounterSnapshot (o : Origin) (zeros : Bool) (pre : List Nat) (s : State) : Out :=
  if s.dev.hif.paused then .next s
  else onDev (fun k d =>
    if o.rsvBad || o.resLen = 0 || 63 < pre.length then d.complete k o 0x0101 .badArg []
    else
      let cs := allCtrs.filter (fun (c : Ctr) => (zeros || d.count c != 0) && pre.isPrefixOf c.nameBytes)
      let rs := cs.map (fun (c : Ctr) => ctrRecord c.nameBytes (d.count c))
      let full := 16 + (rs.map List.length).foldl (· + ·) 0
      let fit := fitRecords rs (o.resLen - 16)
      let bs := (bytesLE 8 (clockStamp k) ++ bytesLE 4 fit.length ++ bytesLE 4 0 ++ fit.flatMap id).take o.resLen
      d.completeWith k o 0x0101 (if full ≤ o.resLen then .ok else .partialDone) bs (bs.length + full * 2 ^ 32)) s

/-- The ring settings that RING_CREATE and the registers give: BIND is bits 15 to 9 of HIF_RING_CFG. -/
structure RingSet where
  addr : Nat
  typ  : Nat
  sizeLog2 : Nat
  gen  : Nat
  bind : Nat
  cplRing : Nat
  vector : Nat
  irqEn : Bool
  modTicks : Nat
  modCount : Nat

/-- TYPE, SIZE_LOG2, GEN and BIND are those of a ring. -/
def RingSet.shapeOk (x : RingSet) : Bool :=
  decide (1 ≤ x.typ) && decide (x.typ ≤ 6) && decide (4 ≤ x.sizeLog2) && decide (x.sizeLog2 ≤ 16) && decide (1 ≤ x.gen) &&
  decide (x.gen ≤ 65535) && x.addr % 64 == 0 &&
  (x.typ == 1 || (if x.typ = 3 then x.bind % 2 == 0 && decide (x.bind < 32) else x.bind == 0))

def RingSet.bytes (x : RingSet) : Nat := 2 ^ x.sizeLog2 * (if x.typ = 2 then 16 else 32)

/-- The ring lies in a window that allows what its type needs (R404). -/
def Dev.ringWin (d : Dev) (x : RingSet) : Bool :=
  let ok := fun (w r : Bool) => d.hif.wins.any (fun y => (!w || y.write) && (!r || y.read) && decide (0 < y.pages) &&
    decide (y.base ≤ x.addr) && decide (x.addr + x.bytes ≤ y.base + y.pages * 4096))
  if x.typ = 1 || x.typ = 3 then ok false true else if x.typ = 2 || x.typ = 5 then ok true false else ok true true

/-- The queue of a TXP ring is read. -/
def Dev.txpQueueOk (d : Dev) (x : RingSet) : Bool := x.typ != 3 || (d.txq (x.bind / 2 % 2) (x.bind / 4 % 8)).en

def RingSet.ring (x : RingSet) : Ring :=
  { enabled := true, typ := x.typ, sizeLog2 := x.sizeLog2, gen := x.gen, addr := x.addr, bindPort := x.bind / 2 % 2,
    bindQueue := x.bind / 4 % 8, cplRing := x.cplRing, vector := x.vector % 64, irqEn := x.irqEn, modTicks := x.modTicks,
    modCount := x.modCount }

def execRingCreate (o : Origin) (n addr typ sizeLog2 gen bind cplRing vector : Nat) (irqEn : Bool) (modTicks modCount : Nat)
    (s : State) : Out :=
  hostCmd o 0x0102 (fun k d =>
    let x : RingSet := { addr := addr, typ := typ, sizeLog2 := sizeLog2, gen := gen, bind := bind, cplRing := cplRing,
                         vector := vector, irqEn := irqEn, modTicks := modTicks, modCount := modCount }
    let st := firstStatus .ok [
      (!x.shapeOk || !d.txpQueueOk x || decide (255 < n) || decide (63 < vector) || decide (255 < modTicks) ||
        decide (255 < modCount), .badArg),
      (typ == 1 && !d.ringIs cplRing 2, .unknownObject), (x.shapeOk && !d.ringWin x, .notPermitted),
      ((d.ring n).enabled, .refusedBusy)]
    if st == .ok then (.now .ok [], (d.setRing n { x.ring with held := (d.ring n).held }).dumpReady k) else (.now st [], d)) s

/-- A CPL ring that a CMD ring is bound to, or that completions are still owed to. -/
def Dev.cplBound (d : Dev) (n : Nat) : Bool :=
  d.hif.rings.entries.any (fun (p : Nat × Ring) => p.2.enabled && p.2.typ == 1 && p.2.cplRing == n) ||
  d.hif.outst.any (fun (x : Outst) => x.cpl == n) || !(d.ring n).held.isEmpty

def Dev.ringEnd (k : Clock) (d : Dev) (n : Nat) : Dev :=
  let r := d.ring n
  let lost := r.evts.length
  let d := if lost = 0 then d else d.bumpN ⟨.hifRingEvtOverflow, n, 0⟩ lost
  let d := d.setRing n { r with enabled := false, posted := [], evts := [], pend := 0, pendTicks := 0 }
  match d.sys.offer with
  | some (_, m) => if m = n then (d.setSys { d.sys with offer := none, ash := .ready }).dumpReady k else d
  | none => d

def execRingDestroy (o : Origin) (n : Nat) (s : State) : Out :=
  hostCmd o 0x0103 (fun k d =>
    let r := d.ring n
    if !r.enabled then (.now .unknownObject [], d)
    else if r.typ = 2 && d.cplBound n then (.now .refusedBusy [], d)
    else (.now .ok [], d.ringEnd k n)) s

def execRingStatus (o : Origin) (n : Nat) (s : State) : Out :=
  hostCmd o 0x0104 (fun _ d =>
    let r := d.ring n
    if !r.enabled then (.now .unknownObject [], d)
    else (.now .ok [⟨1, r.typ⟩, ⟨1, r.sizeLog2⟩, ⟨2, r.gen⟩, ⟨4, r.p.toNat⟩, ⟨4, r.c.toNat⟩, ⟨4, r.held.length + r.evts.length⟩,
      ⟨4, r.pend⟩, ⟨8, d.count ⟨.hifRingDbBad, n, 0⟩⟩, ⟨8, d.count ⟨.hifRingDbStale, n, 0⟩⟩,
      ⟨8, d.count ⟨.hifRingDbInvalid, n, 0⟩⟩], d)) s

def execSysInfo (o : Origin) (s : State) : Out :=
  hostCmd o 0x0105 (fun _ d =>
    let ver := fun (i : Option Image) => (⟨32, (i.map (·.ver)).getD 0⟩ : RField)
    (.now .ok ([ver d.kln.stage1, ver d.kln.ctrl] ++ d.kln.tiles.map (fun i => ver (some i)) ++ [⟨1, Config.revisionId⟩, ⟨4, d.tilCount⟩]), d)) s

def execEcho (o : Origin) (args : List Nat) (s : State) : Out :=
  hostCmd o 0x0106 (fun _ d =>
    if 24 < args.length then (.now .badArg [], d) else (.now .ok ((args.take 8).map (fun b => ⟨1, b⟩)), d)) s

/-! ### The PCI Express function (R374, R456) -/

/-- Configuration space is cleared; rings, indices and the lock are kept. -/
def Hif.clearConfig (x : Hif) : Hif :=
  { x with bme := false, d3hot := false, msixEn := false, fmask := false, devCtl := 0 }

def Dev.setHif (d : Dev) (x : Hif) : Dev := { d with hif := x }

def execPerstAssert (s : State) : Out :=
  onDev (fun _ d => d.setHif { d.hif.clearConfig with perst := true, linkUp := false }) s

/-- The link trains, and comes up. -/
def execPerstDeassert (s : State) : Out :=
  onDev (fun _ d => d.setHif { d.hif with perst := false, linkUp := d.sys.powered && !d.sys.testMode }) s

def execPcieHotReset (s : State) : Out := onDev (fun _ d => d.setHif d.hif.clearConfig) s

/-- Configuration requests are answered: the link is up, and step 4 has ended or the device is in Kindling recovery (R344,
R456). -/
def Dev.cfgAnswers (d : Dev) : Bool := d.hif.linkUp && !d.hif.perst && (decide (4 ≤ d.sys.step) || d.kln.boot == 3)

/-- What a configuration read of an identification word gives (Table 14.1): Vendor and Device ID, Revision ID and class code,
Subsystem IDs, at their places in the header of the PCI Express Base specification (log entry 27); none where it is answered
with Configuration Request Retry Status or not at all. -/
def Dev.cfgRead (d : Dev) (a : Nat) : Option Nat :=
  if !d.cfgAnswers then none
  else if a = 0x00 then some (Config.vendorId + Config.pciDeviceId * 2 ^ 16)
  else if a = 0x08 then some (Config.revisionId + 0x0B4000 * 2 ^ 8)
  else if a = 0x2C then some Config.vendorId
  else none

/-- A configuration write of the fields that the device acts on. It is answered once step 4 has ended, or in Kindling
recovery, and the link is up. -/
def execPcieConfigWrite (bme d3hot msixEn fmask : Bool) (devCtl : BitVec 16) (s : State) : Out :=
  onDev (fun k d =>
    if !d.cfgAnswers then d
    else (d.setHif { d.hif with bme := bme, d3hot := d3hot, msixEn := msixEn, fmask := fmask, devCtl := devCtl }).flushHost k) s

end Sys2Proof.Machine
end

