-- ==== Sys2Proof/Machine/Tamper.lean ====
section
/-! DEFINITION. Tamper's commands and events (chapter 15). -/
namespace Sys2Proof.Machine
open Sys2Proof

/-- Table 15.6. -/
def tmpResult (outLen reason consumed check failBlock : Nat) : List RField :=
  [⟨4, outLen⟩, ⟨1, reason⟩, ⟨3, 0⟩, ⟨4, consumed⟩, ⟨4, check⟩, ⟨2, failBlock⟩, ⟨6, 0⟩]

/-- Check 1 of R406. -/
def TmpDesc.shapeOk (x : TmpDesc) : Bool :=
  x.rsvOk && decide (x.dir < 2) && decide (x.cls < 3) &&
  (if x.dir = 0 then decide (1 ≤ x.effort) && decide (x.effort ≤ 4) else x.effort == 0 && !x.dyn) &&
  ((x.dir == 1 && x.cls == 2) || (x.first == 0 && x.blocks == 0)) && decide (x.inLen ≤ 268435456) &&
  (decide (x.src + x.inLen ≤ x.dst) || decide (x.dst + x.cap ≤ x.src) || x.inLen == 0 || x.cap == 0)

/-- Check 2 of R406: the memory that R405 allows. -/
def Dev.tmpMemOk (d : Dev) (who : TmpSrc) (x : TmpDesc) : Bool :=
  match who with
  | .host => (x.inLen == 0 || d.winOk false x.src x.inLen) && (x.cap == 0 || d.winOk true x.dst x.cap)
  | .tile .. => (x.inLen == 0 || d.inTileWin x.src x.inLen) && (x.cap == 0 || d.inTileWin x.dst x.cap)
  | .ctrl => true

/-- R406 and R419: the status of a job that never runs, with its result, and its counters. -/
def Dev.tmpCheckJob (d : Dev) (who : TmpSrc) (x : TmpDesc) : Option (Status × List RField) × Dev :=
  if !x.shapeOk then (some (.badArg, tmpResult 0 0 0 0 0), d.bump0 .tmpJobBad)
  else if !d.tmpMemOk who x then
    (some (.notPermitted, tmpResult 0 0 0 0 0), if who == .host then d.bump0 .hifWindowDenied else d)
  else if x.dir = 0 && x.cap < tmpBound x.cls x.inLen then (some (.noResource, tmpResult (tmpBound x.cls x.inLen) 0 0 0 0), d)
  else if !d.tmp.enabled then (some (.aborted, tmpResult 0 0 0 0 0), d.bump0 .tmpAbort)
  else (none, d)

/-- A tile job's response, and its flag (R418). -/
def Dev.tmpRespond (k : Clock) (d : Dev) (w0 : Word) (thread flag : Nat) (notify : Bool) (rsp : Nat) (st : Status)
    (res : List RField) : Dev :=
  let d := if d.hopUp rsp then
      (d.hopPut k rsp .control Config.completionPrio.toNat
        (w0 :: BitVec.ofNat 32 (statusCode st) :: bytesWords (fieldsBytes res))).2
    else d.bump0 .tmpRspLost
  if notify then d.setFlag k thread flag else d

/-- A job ends with a status and a result, which go to its source. -/
def Dev.tmpAnswer (k : Clock) (d : Dev) (j : TmpJob) (st : Status) (res : List RField) : Dev :=
  match j.who with
  | .host => d.finish k .tamperJob j.id st res
  | .tile w0 th fl nt rsp => d.tmpRespond k w0 th fl nt rsp st res
  | .ctrl =>
    if st == .ok then d.setSys { d.sys with contLen := (res.headD ⟨4, 0⟩).val }
    else (d.setSys { d.sys with ash := .captured }).bump0 .sysAshPackRestart

/-- A disable is done once no job is active. -/
def Dev.tmpIdle (k : Clock) (d : Dev) : Dev :=
  if d.tmp.disabling.isSome && d.tmp.active.isEmpty then
    (d.setTmp { d.tmp with disabling := none }).finish k .tamperDisable 0 .ok
  else d

/-- A job leaves its context. -/
def Dev.tmpEnd (k : Clock) (d : Dev) (j : TmpJob) (st : Status) (res : List RField) : Dev :=
  let d := d.setTmp { d.tmp with active := d.tmp.active.filter (fun (x : TmpJob) => x.id != j.id) }
  ((d.tmpAnswer k j st res).tmpGive).tmpIdle k

def execTamperJob (o : Origin) (x : TmpDesc) (s : State) : Out :=
  hostCmd o 0x0B01 (fun _ d =>
    if o.resLen < 24 then (.now .badArg [], d)
    else match d.tmpCheckJob .host x with
      | (some r, d) => (.now r.1 r.2, d)
      | (none, d) => (.later .tamperJob d.tmp.nextId, d.tmpSubmit .host x)) s

/-- The descriptor in words 2 to 9 of a request. -/
def descOf (ws : List Word) : TmpDesc :=
  let w := fun (i : Nat) => (ws.getD i 0).toNat
  { rsvOk := decide (w 0 < 128), dir := w 0 % 2, cls := bitsOf (w 0) 1 2, effort := bitsOf (w 0) 3 3, dyn := bitOf (w 0) 6,
    inLen := w 1, src := w 2 + w 3 * 2 ^ 32, dst := w 4 + w 5 * 2 ^ 32, cap := w 6, first := w 7 % 65536, blocks := w 7 / 65536 }

/-- The request at the front of JOB_HOP (R418). One of less than two words names no response Hopper. -/
def execTamperJobPacket (s : State) : Out :=
  onDev (fun k d =>
    if !d.tmp.jobEn || !d.hopReady d.tmp.jobHop then d
    else
      let ws := d.hopRest d.tmp.jobHop
      let d := (d.hopTake k d.tmp.jobHop).2
      match ws with
      | w0 :: w1 :: args =>
        let n := w1.toNat
        let who : TmpSrc := .tile w0 (bitsOf n 0 13) (bitsOf n 13 5) (bitOf n 18) (bitsOf n 19 10)
        let j : TmpJob := { id := 0, who := who, desc := descOf args }
        if w0.toNat % 65536 != 0x0B01 || args.length != 8 || 2 ^ 29 ≤ n then
          (d.bump0 .tmpJobBad).tmpAnswer k j .badArg (tmpResult 0 0 0 0 0)
        else match d.tmpCheckJob who (descOf args) with
          | (some r, d) => d.tmpAnswer k j r.1 r.2
          | (none, d) => d.tmpSubmit who (descOf args)
      | _ => d.bump0 .tmpJobBad) s

/-- The next active job reads up to 65,536 source bytes: a host job those that its turn finds in host memory, another job
those in DRAM. Poisoned data stops it (R416, R417). -/
def execTamperJobTurn (host : List Nat) (s : State) : Out :=
  onMem (fun k m d =>
    match d.tmp.active with
    | [] => (m, d)
    | j :: r =>
      let n := min 65536 (j.desc.inLen - j.done)
      let a := j.desc.src + j.done
      if j.who != .host && n != 0 && d.dramPoisoned a n then
        (m, (d.bump0 .tmpPoisoned).tmpEnd k j .poisoned (tmpResult 0 0 j.done 0 0))
      else
        let bs := if j.who == .host then (host ++ List.replicate n 0).take n else (m.dramBytes a n).map (·.toNat)
        (m, d.setTmp { d.tmp with active := r ++ [{ j with done := j.done + n, data := j.data ++ bs }] })) s

/-- A job's output goes to its destination. -/
def tmpWrite (m : Mems) (d : Dev) (j : TmpJob) (bs : List Nat) : Mems × Dev :=
  if bs.isEmpty then (m, d)
  else if j.who == .host then (m, d.hostWr j.desc.dst bs)
  else toDram m d j.desc.dst bs

/-- The end of a decompression (R412 to R416). It waits while source not yet read could change what it comes to. -/
def tmpUnpackEnd (k : Clock) (m : Mems) (d : Dev) (j : TmpJob) : Mems × Dev :=
  let e := tmpUnpack j.desc j.data
  if e.short && decide (j.done < j.desc.inLen) then (m, d)
  else if e.firstBad then (m, d.tmpEnd k j .badArg (tmpResult 0 0 e.consumed 0 0))
  else
    let w := tmpWrite m d j e.out
    let res := tmpResult e.out.length e.reason e.consumed e.check e.failBlock
    if e.reason = 0 then (w.1, w.2.tmpEnd k j .ok res)
    else if e.reason = 4 then (w.1, (w.2.bump0 .tmpPartial).tmpEnd k j .partialDone res)
    else (w.1, (w.2.bump0 .tmpCheckFail).tmpEnd k j .checkFail res)

/-- An active job ends. A compression has read its whole source. -/
def execTamperJobDone (id : Nat) (s : State) : Out :=
  onMem (fun k m d =>
    match d.tmp.active.find? (fun (j : TmpJob) => j.id == id) with
    | none => (m, d)
    | some j =>
      if j.desc.dir = 0 then
        if j.done < j.desc.inLen then (m, d)
        else
          let c := compressOut j.desc j.data
          let w := tmpWrite m d j c.1
          let d := if c.2.1 = 0 then w.2 else w.2.bumpN ⟨.tmpStoredBlock, 0, 0⟩ c.2.1
          let d := if c.2.2 = 0 then d else d.bumpN ⟨.tmpRawBlock, 0, 0⟩ c.2.2
          (w.1, d.tmpEnd k j .ok (tmpResult c.1.length 0 j.desc.inLen (tmpCheck j.desc.cls j.data) 0))
      else tmpUnpackEnd k m d j) s

def srcCode : TmpSrc → Nat
  | .ctrl => 0 | .tile .. => 1 | .host => 2

def execTamperStatus (o : Origin) (s : State) : Out :=
  hostCmd o 0x0B02 (fun _ d =>
    let x := d.tmp
    (.now .ok ([⟨1, b2n x.enabled⟩, ⟨1, x.active.length⟩, ⟨2, x.waitCtrl.length⟩, ⟨2, x.waitTile.length⟩, ⟨2, x.waitHost.length⟩] ++
      x.active.flatMap (fun (j : TmpJob) => [(⟨1, srcCode j.who⟩ : RField), ⟨4, j.done⟩])), d)) s

/-- Jobs end with ST_ABORTED; OUT_LEN is free for one that has run. -/
def Dev.tmpAbortJobs (k : Clock) (d : Dev) (ran : Bool) (l : List TmpJob) : Dev :=
  l.foldl (fun (d : Dev) (j : TmpJob) =>
    let r := d.draw 1
    let n := if ran then min j.desc.cap (Config.free r.1) else 0
    ((if ran then r.2 else d).bump0 .tmpAbort).tmpAnswer k j .aborted (tmpResult n 0 j.done 0 0)) d

def execTamperEnable (o : Origin) (en : Bool) (s : State) : Out :=
  hostCmd o 0x0B03 (fun k d =>
    if d.tmp.disabling.isSome then (.now .refusedBusy [], d)
    else if en then (.now .ok [], (d.setTmp { d.tmp with enabled := true }).ashPack)
    else
      let l := d.tmp.waitCtrl ++ d.tmp.waitTile ++ d.tmp.waitHost
      let d := d.setTmp { d.tmp with enabled := false, waitCtrl := [], waitTile := [], waitHost := [] }
      let d := d.tmpAbortJobs k false l
      if d.tmp.active.isEmpty then (.now .ok [], d)
      else (.later .tamperDisable 0, d.setTmp { d.tmp with disabling := some 160 })) s

/-- The 160 ticks of a disable have passed. -/
def execTamperDisableTimeout (s : State) : Out :=
  onDev (fun k d =>
    if d.tmp.disabling == some 0 then
      let l := d.tmp.active
      ((d.setTmp { d.tmp with active := [] }).tmpAbortJobs k true l).tmpIdle k
    else d) s

end Sys2Proof.Machine
end

