-- ==== Sys2Proof/Machine/Service.lean ====
section
/-! DEFINITION. In-service repair, firmware change and the Ash dump (chapter 18), and IMAGE_VERIFY (R343, R346, R478). -/
namespace Sys2Proof.Machine
open Sys2Proof

/-- A host command that reaches the memories. -/
def hostMem (o : Origin) (opc : Nat) (f : Clock → Mems → Dev → Reply × Mems × Dev) (s : State) : Out :=
  if s.dev.hif.paused then .next s
  else if o.rsvBad then onDev (fun k d => d.answer k (.host o) opc .badArg) s
  else onMem (fun k m d => let r := f k m d; (r.2.1, r.2.2.reply k (.host o) opc r.1)) s

/-! ### Images (R343, R344) -/

/-- SIGNER is permitted. -/
def Dev.imgSignerOk (d : Dev) (i : Image) : Bool :=
  if i.typ ≤ 3 then i.signer == 1 || (i.signer == 0 && !d.kln.root0Rev)
  else match d.kln.record with
    | some r => !d.kln.recLost && (i.signer == 2 || (i.signer == 3 && r.code.isNone))
    | none => false

def Dev.imgSvnOk (d : Dev) (i : Image) : Bool :=
  if i.typ ≤ 3 then decide (d.kln.svn ≤ i.svn) && decide (i.svn ≤ 64)
  else decide (((d.kln.record.map (·.minSvn)).getD 0) ≤ i.svn)

/-- The key that SIGNER names exists, and both signatures verify under it. -/
def Dev.imgSigOk (d : Dev) (x : ImageIn) : Bool :=
  x.sigOk && (x.img.signer != 2 || (d.kln.record.bind (·.code)).isSome)

/-- R343: the status of an image offered for a use that `suits` it or not. -/
def Dev.imageCheck (d : Dev) (x : ImageIn) (suits : Bool) : Status :=
  if !x.format then .badArg
  else if !suits || x.img.typ = 0 || 4 < x.img.typ then .notPermitted
  else if !d.imgSignerOk x.img || !x.bindOk || !d.imgSvnOk x.img then .notPermitted
  else if !d.imgSigOk x then .authFail
  else .ok

/-- The directory of R465: COUNT, the types, and the TILES masks. -/
def entriesOk (l : List (FlashImg × Nat)) : Bool :=
  let typ := fun (p : FlashImg × Nat) => p.1.x.img.typ
  decide (2 ≤ l.length) && decide (l.length ≤ 16) && (l.filter (fun p => typ p == 1)).length == 1 &&
  (l.filter (fun p => typ p == 2)).length == 1 &&
  l.all (fun p => if typ p = 1 || typ p = 2 then p.2 == 0 else (typ p == 3 || typ p == 4) && p.2 != 0 && decide (p.2 < 2 ^ 32)) &&
  (List.range 32).all (fun t => decide ((l.filter (fun p => bitOf p.2 t)).length ≤ 1))

/-- A slot passes R465. -/
def BootSlot.ok (x : BootSlot) : Bool := x.dirOk && entriesOk x.entries

def BootSlot.stage1 (x : BootSlot) : Option FlashImg := (x.entries.find? (fun p => p.1.x.img.typ == 1)).map (·.1)
def BootSlot.ctrl (x : BootSlot) : Option FlashImg := (x.entries.find? (fun p => p.1.x.img.typ == 2)).map (·.1)

/-- A slot's stage-one image, where the slot and the image pass. -/
def Dev.slotBoots (d : Dev) (x : BootSlot) : Option Image :=
  if x.ok then x.stage1.bind (fun i => if d.imageCheck i.x (i.x.img.typ == 1) == .ok then some i.x.img else none) else none

/-- The slot that R344 chooses: true is B. -/
def Dev.bootChoice (d : Dev) : Option Bool :=
  match d.slotBoots d.sys.slotA, d.slotBoots d.sys.slotB with
  | some a, some b => some (decide (a.svn < b.svn))
  | some _, none => some false
  | none, some _ => some true
  | none, none => none

def Dev.slotOf_ (d : Dev) (b : Bool) : BootSlot := if b then d.sys.slotB else d.sys.slotA
def Dev.setSlot_ (d : Dev) (b : Bool) (x : BootSlot) : Dev :=
  d.setSys (if b then { d.sys with slotB := x } else { d.sys with slotA := x })

/-- A staging copy, by its digest. -/
def Dev.stagedOf (d : Dev) (dig : Nat) : Option FlashImg := d.sys.staged.find? (fun (x : FlashImg) => x.x.img.digest == dig)

def execImageVerify (o : Origin) (addr len : Nat) (x : FlashImg) (s : State) : Out :=
  hostCmd o 0x0A13 (fun _ d =>
    match d.bufOk false addr len with
    | (false, d) => (.now .notPermitted [], d)
    | (true, d) =>
      let i := x.x.img
      let st := d.imageCheck x.x true
      let others := d.sys.staged.filter (fun (y : FlashImg) => y.x.img.digest != i.digest)
      if st != .ok then (.now st [], d.bump0 .klnImageReject)
      else if 16 ≤ others.length ||
          43 * 2 ^ 20 < (others.map (fun (y : FlashImg) => y.x.img.bytes)).foldl (· + ·) i.bytes then (.now .noResource [], d)
      else if d.sys.ash == .packing || d.sys.ash == .ready then (.now .refusedBusy [], d)
      else
        let d := if d.sys.ash == .delivered then d.setSys { d.sys with ash := .empty, offer := none, env := [] } else d
        (.now .ok [⟨48, i.digest⟩, ⟨1, i.typ⟩, ⟨4, i.svn⟩], d.setSys { d.sys with staged := others ++ [x] })) s

/-! ### Evacuation (R468 to R471) -/

/-- The image of a RELOAD: staged, and of TYPE 3 or 4. -/
def Dev.reloadCheck (d : Dev) (dig : Nat) : Status :=
  match d.stagedOf dig with
  | none => .unknownObject
  | some x =>
    if x.x.img.typ = 3 then .ok
    else if x.x.img.typ = 4 then (if d.kln.isHeld then .locked else .ok)
    else .badArg

def execTileEvacuate (o : Origin) (t : Nat) (reload : Option Nat) (s : State) : Out :=
  hostCmd o 0x0D01 (fun k d =>
    let rl := match reload with
      | some dig => d.reloadCheck dig
      | none => .ok
    let st := firstStatus .ok [(t == 32 || t == 33 || rl == .badArg, .badArg),
      (decide (33 < t) || rl == .unknownObject, .unknownObject), (rl == .locked, .locked),
      (d.sparePick.isNone || !d.posActive t, .noResource), (d.sys.evac.isSome, .refusedBusy)]
    match st, d.sparePick with
    | .ok, some sp => (.later .tileEvacuate t, d.startEvac k t sp.1 sp.2 (reload.bind d.stagedOf))
    | _, _ => (.now st [], d)) s

/-- A data memory copied whole, word for word. -/
def Mems.copyDm (m : Mems) (p q : Nat) : Mems :=
  let own := m.dm.filter (fun (x : Nat × Byte) => decide (dmKey p 0 ≤ x.1) && decide (x.1 < dmKey (p + 1) 0))
  { m with dm := own.foldl (fun (st : Store Byte) (x : Nat × Byte) => st.put 0 (dmKey q (x.1 - dmKey p 0)) x.2) (m.clearDm q).dm }

/-- The freeze and hold request of R224. -/
def Dev.holdTile (d : Dev) (n : Nat) : Dev :=
  d.modStl n (fun (x : STile) =>
    let busy := (x.running.isSome || x.bound.isSome) && !x.idle && x.req != some Req.cancel
    { x with frozen := true, req := if busy then some .hold else x.req, cause := if busy then none else x.cause })

/-- Steps E1 and E2: the spare's program memory, and the freeze at sub-tick 0 of b. -/
def execEvacBoundary (s : State) : Out :=
  onMem (fun k m d =>
    match d.sys.evac with
    | none => (m, d)
    | some e =>
      if e.held || k.tick < e.at_ then (m, d)
      else
        let code := (e.reload.map (·.code)).getD (d.sys.copies.get [] e.tile)
        let d := ((d.bump1 .sysTEvac e.tile).bump1 .schTEvacHold e.tile).holdTile e.tile
        (m.loadPm e.spare code, (d.setSys { d.sys with evac := some { e with held := true } }).settle k none)) s

/-- E3 is over: the tile executes nothing, no thread is on its way to it, and no descriptor is in progress. -/
def Dev.evacQuiet (d : Dev) (n : Nat) : Bool :=
  let r := d.tile n
  ((r.run == .gated && (d.stl n).bound.isNone && !(d.stl n).within) || r.run == .stopped) &&
    r.chans.entries.all (fun (p : Nat × Chan) => p.2.run.isNone)

/-- A position whose physical tile has just changed: its registers are those of a tile out of clearing, its Barista side
takes part in selection again where it holds code. -/
def Dev.freshTile (d : Dev) (n : Nat) (chans : Store Chan) : Dev :=
  let code := !(d.sys.copies.get [] n).isEmpty
  (d.setTile n { chans := chans }).modStl n (fun (x : STile) => { cur := x.cur, idle := code })

/-- E4 and E5. -/
def execEvacComplete (s : State) : Out :=
  onMem (fun k m d =>
    match d.sys.evac with
    | none => (m, d)
    | some e =>
      match d.physOf e.tile with
      | none => (m, d)
      | some p =>
        if !e.held || !d.evacQuiet e.tile then (m, d)
        else
          let d := if e.at_ * 3072 + 984 < clockAbs k then d.bump1 .sysTEvacOverrun e.tile else d
          let ue := (d.phys p).ueWords
          let d := d.modPhys e.spare (fun (x : Phys) => { x with state := .active, cleared := true, ueWords := ue })
          let d := d.modPhys p (fun (x : Phys) => { x with state := .vacated, cleared := false })
          let d := (d.setMap e.tile (some e.spare)).setMap e.pos none
          let d := match e.reload with
            | some i => d.setSys { d.sys with copies := d.sys.copies.put [] e.tile i.code }
            | none => d
          let d := d.freshTile e.tile (d.tile e.tile).chans
          let d := d.setSys { d.sys with evac := none, tests := d.sys.tests ++ [(p, false)] }
          let d := (d.tileMapEvt k e.tile (some e.spare) (some p) .vacated).tileMapEvt k e.pos none (some e.spare) .active
          (m.copyDm p e.spare, (((d.settle k none).finish k .tileEvacuate e.tile .ok).evacNext k))) s

/-! ### Self-test and repair (R472, R473, R483) -/

/-- The rows to be replaced: those the test finds failing, and the candidates. -/
def repairRows (bad : List (Nat × Nat)) (hist : List RowHist) : List (Nat × Nat) :=
  bad ++ ((hist.filter (·.cand)).map (fun h => (h.bank, h.row))).filter (fun r => !bad.contains r)

/-- Every bank has its spare rows: two each. -/
def sparesSuffice (used rows : List (Nat × Nat)) : Bool :=
  let all := used ++ rows
  rows.all (fun r => decide ((all.filter (fun x => x.1 == r.1)).length ≤ 2))

/-- The first empty spare position. -/
def Dev.emptySpare (d : Dev) : Option Nat := [32, 33].find? (fun t => (d.physOf t).isNone)

/-- The test of physical tile `p` ends: `pass` says that it passes but for the rows it finds failing, `pm` and `dm`. -/
def Dev.testEnd (k : Clock) (m : Mems) (d : Dev) (p : Nat) (asked pass : Bool) (pm dm : List (Nat × Nat)) : Mems × Dev :=
  let x := d.phys p
  let pmR := repairRows pm x.pmHist
  let dmR := repairRows dm x.dmHist
  let d := d.setSys { d.sys with tests := d.sys.tests.filter (fun y => y.1 != p) }
  if pass && sparesSuffice x.pmSpare pmR && sparesSuffice x.dmSpare dmR then
    let y : Phys := { x with state := .spare, cleared := true, pmHist := x.pmHist.filter (fun h => !h.cand),
                             dmHist := x.dmHist.filter (fun h => !h.cand), pmSpare := x.pmSpare ++ pmR,
                             dmSpare := x.dmSpare ++ dmR, ueWords := [] }
    let d := d.setPhys p y
    let d := match d.emptySpare with
      | some t => (d.setMap t (some p)).tileMapEvt k t (some p) none .active
      | none => d
    ((m.clearDm p).loadPm p [], if asked then d.finish k .tileSpareTest p .ok [⟨1, 0⟩] else d)
  else
    let d := (d.setPhys p { x with state := .retired }).bump0 .tilRetired
    let d := d.tileMapEvt k 0x3F none (some p) .retired
    (m, if asked then d.finish k .tileSpareTest p .ok [⟨1, 1⟩] else d)

def execVacatedSelfTestDone (p : Nat) (pass : Bool) (pm dm : List (Nat × Nat)) (s : State) : Out :=
  onMem (fun k m d =>
    match d.sys.tests.find? (fun x => x.1 == p) with
    | none => (m, d)
    | some (_, asked) => if d.hif.paused then (m, d) else d.testEnd k m p asked pass pm dm) s

def execTileSpareTest (o : Origin) (p : Nat) (s : State) : Out :=
  hostCmd o 0x0D02 (fun k d =>
    if 33 < p then (.now .unknownObject [], d)
    else
      match [32, 33].find? (fun t => d.spareAt t == some p) with
      | none => (.now .refusedBusy [], d)
      | some t =>
        let d := (d.setMap t none).setSys { d.sys with tests := d.sys.tests ++ [(p, true)] }
        (.later .tileSpareTest p, d.tileMapEvt k t none (some p) .spare)) s

def execTileFill (o : Origin) (t : Nat) (s : State) : Out :=
  hostMem o 0x0D03 (fun k m d =>
    let st := firstStatus .ok [(decide (33 < t), .unknownObject), (d.sparePick.isNone, .noResource),
      (decide (31 < t) || (d.physOf t).isSome, .refusedBusy)]
    match st, d.sparePick with
    | .ok, some (p, pos) =>
      let d := d.modPhys p (fun (x : Phys) => { x with state := .active, cleared := true, ueWords := [] })
      let d := ((d.setMap t (some p)).setMap pos none).freshTile t []
      let d := (d.tileMapEvt k t (some p) none .active).tileMapEvt k pos none (some p) .active
      (.now .ok [], (m.clearDm p).loadPm p (d.sys.copies.get [] t), d.settle k none)
    | _, _ => (.now st [], m, d)) s

/-! ### Policies and rows (R475, R476, R492) -/

def execServicePolicy (o : Origin) (row ue : Bool) (frame wdog qrow : Nat) (s : State) : Out :=
  hostCmd o 0x0D04 (fun _ d =>
    if !([20, 40, 80, 160].contains frame) || wdog < 80 || 8000 < wdog || qrow = 0 || 15 < qrow then (.now .badArg [], d)
    else (.now .ok [], d.setSys { d.sys with evacRow := row, evacUe := ue, evacFrame := frame, wdogTicks := wdog,
                                             qrowLimit := qrow })) s

/-- Rows as a list of 4 bytes each, behind their number. -/
def rowListFields (l : List Nat) : List RField := ⟨2, l.length⟩ :: l.map (fun r => ⟨4, r⟩)

/-- Rows each with how often it has been replaced. -/
def rowStoreFields (l : Store Nat) : List RField := ⟨2, l.entries.length⟩ :: l.entries.flatMap (fun (p : Nat × Nat) => [⟨4, p.1⟩, ⟨1, p.2⟩])

def execSramRowStatus (o : Origin) (memory : Nat) (s : State) : Out :=
  hostCmd o 0x0D0C (fun _ d =>
    let left := fun (n : Nat) (used : Store Nat) => (List.range n).map (fun b => (⟨1, 4 - used.get 0 b⟩ : RField))
    if memory = 0 then (.now .ok (rowListFields d.sys.qLeft ++ rowStoreFields d.sys.qDone ++ left 32 d.sys.qUsed), d)
    else if memory = 1 then (.now .ok (rowListFields d.sys.cCand ++ rowStoreFields d.sys.cDone ++ left 8 d.sys.cUsed), d)
    else (.now .badArg [], d)) s

/-! ### Changing firmware (R478 to R480) -/

/-- A 4 KiB boundary at or after `n`. -/
def page4k (n : Nat) : Nat := (n + 4095) / 4096 * 4096

/-- The slot's end of the images, from offset 64 KiB upwards. -/
def imagesEnd (l : List (FlashImg × Nat)) : Nat := l.foldl (fun n p => page4k n + p.1.x.img.bytes) 65536

/-- Every entry's staging copy, with its TILES. -/
def Dev.slotEntries (d : Dev) (l : List (Nat × Nat)) : Option (List (FlashImg × Nat)) :=
  l.mapM (fun e => (d.stagedOf e.1).map (fun x => (x, e.2)))

/-- Check 1 of R479 so far as it can be judged of entries that are not staged. -/
def Dev.slotFormOk (d : Dev) (l : List (Nat × Nat)) : Bool :=
  match d.slotEntries l with
  | some es => entriesOk es && decide (imagesEnd es ≤ 31 * 2 ^ 20)
  | none => decide (2 ≤ l.length) && decide (l.length ≤ 16)

def execImageSlotWrite (o : Origin) (slot : Nat) (entries : List (Nat × Nat)) (s : State) : Out :=
  hostCmd o 0x0D05 (fun _ d =>
    if 1 < slot || !d.slotFormOk entries then (.now .badArg [], d)
    else if (d.slotEntries entries).isNone then (.now .unknownObject [], d)
    else if (slot == 1) == d.kln.bootB then (.now .notPermitted [], d)
    else if d.sys.slotWr.isSome then (.now .refusedBusy [], d)
    else if !d.sys.pfwN then (.now .aborted [], d.bump0 .sysImageWriteAbandon)
    else (.later .imageWrite 0,
      (d.setSys { d.sys with slotWr := some { slotB := slot == 1, entries := (d.slotEntries entries).getD [] } }).setSlot_ (slot == 1) {})) s

/-- MAGIC has been read back, or a read-back differs. -/
def execImageSlotWriteDone (ok : Bool) (s : State) : Out :=
  onDev (fun k d =>
    match d.sys.slotWr with
    | none => d
    | some w =>
      let d := d.setSys { d.sys with slotWr := none, staged := [] }
      if ok then (d.setSlot_ w.slotB { dirOk := true, entries := w.entries }).finish k .imageWrite 0 .ok
      else (d.bump0 .sysImageWriteFail).finish k .imageWrite 0 .checkFail) s

def execCtrlFwSwitch (o : Origin) (dig : Nat) (s : State) : Out :=
  hostCmd o 0x0D06 (fun k d =>
    match d.stagedOf dig with
    | none => (.now .unknownObject [], d)
    | some x =>
      let chosen := d.bootChoice.bind (fun b => (d.slotOf_ b).ctrl)
      if x.x.img.typ != 2 then (.now .badArg [], d)
      else if (chosen.map (·.x.img.digest)) != some dig then (.now .notPermitted [], d)
      else (.later .fwSwitch 0, (d.setKln { d.kln with ctrl := some x.x.img }).beginControl k)) s

/-- KIND 1 makes a warm start and has no completion. -/
def execSysRestart (o : Origin) (kind : Nat) (s : State) : Out :=
  hostCmd o 0x0D07 (fun k d =>
    if kind = 0 then (.later .sysRestart 0, d.beginControl k)
    else if kind = 1 then (.held, d.askWarm 5)
    else (.now .badArg [], d)) s

/-! ### Fatal errors (R484 to R487) -/

/-- Control firmware runs: the stage-one image has been started. -/
def Dev.ctrlRuns (d : Dev) : Bool := d.sys.powered && decide (3 ≤ d.sys.step) && d.kln.boot != 3

/-- `mark` says that a change to more than one unit was being applied, `applying` names the waiting command that was. -/
def execWatchdogExpiry (mark : Bool) (applying : Option Nat) (pc0 pc1 : Nat) (s : State) : Out :=
  onDev (fun k d =>
    if d.ctrlRuns && !d.hif.paused && decide (d.sys.wdogTicks ≤ d.sys.wdog) then
      (d.setSys { d.sys with wdog := 0 }).fatal k 3 mark applying pc0 pc1
    else d) s

def execLockstepMismatch (mark : Bool) (applying : Option Nat) (pc0 pc1 : Nat) (s : State) : Out :=
  onDev (fun k d => if d.ctrlRuns then d.fatal k 1 mark applying pc0 pc1 else d) s

/-- `row` is the bank times 4,096 plus the row: it becomes a candidate (R476). -/
def execCtrlSramUe (row : Nat) (mark : Bool) (applying : Option Nat) (pc0 pc1 : Nat) (s : State) : Out :=
  onDev (fun k d =>
    if d.ctrlRuns then
      let c := d.sys.cCand
      (d.setSys { d.sys with cCand := if c.contains row || 32768 ≤ row then c else c ++ [row] }).fatal k 2 mark applying pc0 pc1
    else d) s

/-! ### The Ash dump (R488 to R491) -/

/-- Where the Ash area begins, and whether there is one. -/
def Dram.ashBase (x : Dram) : Nat := x.topAddr - 64 * 2 ^ 20
def Dram.hasAsh (x : Dram) : Bool := decide (96 * 2 ^ 20 ≤ x.topAddr)

/-- The sections with the offset of each, and the end of the last. -/
def placeSecs : List (Nat × List Nat) → Nat → List (Nat × Nat × List Nat) × Nat
  | [], e => ([], e)
  | (id, bs) :: r, e =>
    let q := placeSecs r (page4k e + bs.length)
    ((id, page4k e, bs) :: q.1, q.2)

/-- Table 18.7. -/
def dumpHeader (id cls restart : Nat) (complete : Bool) (rawLen stamp : Nat) (secs : List (Nat × Nat × List Nat)) : List Nat :=
  bytesLE 4 0x41534844 ++ bytesLE 2 1 ++ bytesLE 2 id ++ [cls % 256, restart + 2 * b2n complete] ++ bytesLE 2 secs.length ++
    bytesLE 4 rawLen ++ bytesLE 8 stamp ++ List.replicate 40 0 ++
    secs.flatMap (fun (x : Nat × Nat × List Nat) => bytesLE 2 x.1 ++ [0, 0] ++ bytesLE 4 x.2.1 ++ bytesLE 4 x.2.2.length ++
      bytesLE 4 (crc32 x.2.2) ++ List.replicate 16 0)

/-- Bytes put into the Ash area. -/
def ashPut (m : Mems) (d : Dev) (off : Nat) (bs : List Nat) : Mems × Dev :=
  if d.dram.hasAsh && !bs.isEmpty then toDram m d (d.dram.ashBase + off) bs else (m, d)

/-- The capture ends: `secs` are the sections it has copied, each an ID with its bytes; `all` says that none is missing. A
warm start that has waited for it begins now. -/
def execAshCaptureDone (secs : List (Nat × List Nat)) (all : Bool) (s : State) : Out :=
  onMem (fun _ m d =>
    if d.sys.ash != .capturing then (m, d)
    else
      let q := placeSecs secs 4096
      let rec_ := d.sys.log.find? (fun (r : FatalRec) => r.dumpId == d.sys.dumpId)
      let full := all && d.sys.complete
      let hd := dumpHeader d.sys.dumpId d.sys.dumpCls (b2n ((rec_.map (·.warm)).getD false)) full q.2
        ((rec_.map (·.stamp)).getD 0) q.1
      let w := q.1.foldl (fun (w : Mems × Dev) (x : Nat × Nat × List Nat) => ashPut w.1 w.2 (2 ^ 20 + x.2.1) x.2.2) (ashPut m d (2 ^ 20) hd)
      let d := w.2.setSys { w.2.sys with ash := .captured, rawLen := q.2, complete := full }
      match d.sys.warmDue with
      | some c => (w.1, ({ d with sys := { d.sys with warmDue := none } }).askWarm c)
      | none => (w.1, if d.hif.paused then d else d.ashPack)) s

/-- The chunks of a container of `n` bytes, each with the 16 bytes of its tag. -/
def chunkBytes (n : Nat) : Nat := n + 16 * ((n + 65535) / 65536)

/-- The envelope of the container is complete: header, encrypted chunks and trailer (Table 13.11). -/
def execAshPackDone (s : State) : Out :=
  onMem (fun k m d =>
    let busy := d.tmp.active.any (fun (j : TmpJob) => j.who == .ctrl) || !d.tmp.waitCtrl.isEmpty
    match d.kln.record.bind (·.dump) with
    | none => (m, d)
    | some key =>
      if d.sys.ash != .packing || busy || d.sys.contLen = 0 then (m, d)
      else
        let h := d.envHeader k 2 key
        let c := h.2.drawBytes (chunkBytes d.sys.contLen)
        let g := c.2.drawBytes 3405
        let env := h.1 ++ c.1 ++ bytesLE 8 (1232 + chunkBytes d.sys.contLen) ++ g.1
        let w := ashPut m g.2 (42 * 2 ^ 20) env
        (w.1, (w.2.setSys { w.2.sys with ash := .ready, env := env, envLen := env.length }).dumpReady k)) s

def ashCode : AshState → Nat
  | .empty => 0 | .capturing => 1 | .captured => 2 | .packing => 3 | .ready => 4 | .delivered => 5

def execDumpStatus (o : Origin) (s : State) : Out :=
  hostCmd o 0x0D08 (fun _ d =>
    let x := d.sys
    (.now .ok [⟨1, ashCode x.ash⟩, ⟨2, x.dumpId⟩, ⟨1, x.dumpCls⟩, ⟨4, x.rawLen⟩, ⟨4, x.envLen⟩, ⟨4, x.delivered⟩,
      ⟨1, x.log.length⟩], d)) s

def execDumpOffer (o : Origin) (s : State) : Out :=
  hostCmd o 0x0D09 (fun k d =>
    if !(d.sys.ash == .ready || d.sys.ash == .delivered) || d.sys.offer.isSome then (.now .refusedBusy [], d)
    else (.now .ok [], d.dumpOffer k)) s

def execDumpDiscard (o : Origin) (id : Nat) (s : State) : Out :=
  hostCmd o 0x0D0A (fun _ d =>
    let st := firstStatus .ok [(id != d.sys.dumpId || d.sys.ash == .empty, .unknownObject),
      (d.sys.ash == .capturing || d.sys.ash == .packing, .refusedBusy)]
    if st == .ok then (.now .ok [], (d.setSys { d.sys with ash := .empty, offer := none, env := [] }).bump0 .sysAshDiscard)
    else (.now st [], d)) s

/-- A record of the fatal log, 32 bytes. -/
def FatalRec.fields (r : FatalRec) : List RField :=
  [⟨8, r.stamp⟩, ⟨1, r.cls⟩, ⟨1, b2n r.warm⟩, ⟨2, r.dumpId⟩, ⟨4, r.pc0⟩, ⟨4, r.pc1⟩, ⟨12, 0⟩]

def execFatalLogRead (o : Origin) (s : State) : Out :=
  hostCmd o 0x0D0B (fun _ d => (.now .ok (d.sys.log.flatMap FatalRec.fields), d)) s

end Sys2Proof.Machine
end

