-- ==== Sys2Proof/Machine/Lock.lean ====
section
/-! DEFINITION. BAR0 writes, and what the lock weighs in the order of Table 19.5 (R375, R376, R493 to R497). -/
namespace Sys2Proof.Machine
open Sys2Proof

/-- Zero is treated as one. -/
def atLeast1 (n : Nat) : Nat := if n = 0 then 1 else n
/-- The nearer bound. -/
def clampN (lo hi n : Nat) : Nat := max lo (min hi n)

/-- A field of a set-up register. -/
def Dev.field (d : Dev) (a lo n : Nat) : Nat := bitsOf (d.reg a) lo n
def Dev.flagBit (d : Dev) (a i : Nat) : Bool := bitOf (d.reg a) i

/-! ### Row 1: refusal (Table 14.2) -/

def Dev.regWins (d : Dev) : List Win :=
  (List.range 16).map (fun w =>
    let a := 0xA00100 + 16 * w
    { base := d.reg a + d.reg (a + 4) * 2 ^ 32, pages := d.reg (a + 8), read := d.flagBit (a + 12) 0,
      write := d.flagBit (a + 12) 1 })

def Dev.regDb (d : Dev) : Nat := d.reg 0xA00004 + d.reg 0xA00008 * 2 ^ 32
def Dev.regSh (d : Dev) : Nat := d.reg 0xA0000C + d.reg 0xA00010 * 2 ^ 32

/-- Ring `n` as its registers spell it. -/
def Dev.regRing (d : Dev) (n : Nat) : RingSet :=
  let a := 0xA01000 + 16 * n
  { addr := d.reg a + d.reg (a + 4) * 2 ^ 32, typ := d.field (a + 8) 0 3, sizeLog2 := d.field (a + 8) 4 5,
    gen := d.field (a + 8) 16 16, bind := d.field (a + 8) 9 7, cplRing := d.field (a + 12) 0 8,
    vector := d.field (a + 12) 8 6, irqEn := d.flagBit (a + 12) 14, modTicks := d.field (a + 12) 16 8,
    modCount := atLeast1 (d.field (a + 12) 24 8) }

/-- The rings whose TYPE is not 0, ascending. -/
def Dev.regRings (d : Dev) : List Nat :=
  d.regs.entries.filterMap (fun (p : Nat × Option Word) =>
    if inArr p.1 0xA01008 16 256 && (match p.2 with
      | some v => bitsOf v.toNat 0 3 != 0
      | none => false) then some ((p.1 - 0xA01008) / 16) else none)

/-- A ring passes R404, its CPL ring and its queue apart. -/
def Dev.ringAlone (d : Dev) (n : Nat) : Bool := (d.regRing n).shapeOk && d.ringWin (d.regRing n)

/-- A CMD ring's CPL ring passes. -/
def Dev.cplOk (d : Dev) (n : Nat) : Bool :=
  let c := (d.regRing n).cplRing
  (d.regRing c).typ == 2 && d.ringAlone c

/-- The first refusal code that applies, 0 where none does. -/
def Dev.lockCode (d : Dev) : Nat :=
  let e := d.setHif { d.hif with wins := d.regWins }
  if !d.hif.setupOpen then 1
  else if !e.winOk false d.regDb 4096 then 2
  else if !e.winOk true d.regSh 4096 then 3
  else if !d.regRings.any (fun n => (d.regRing n).typ == 1 && e.ringAlone n && e.cplOk n) then 4
  else 0

/-! ### Rows 2 to 11 -/

def modeOf (w : Nat) : HopMode :=
  { sched := bitOf w 0, frame := bitsOf w 1 2, noticeEn := bitOf w 3, noticeFlag := bitsOf w 4 5, swapFlagEn := bitOf w 9,
    swapFlag := bitsOf w 10 5, thread := bitsOf w 16 13 }

/-- R250: the Hoppers with EN = 1, in ascending number. -/
def Dev.lockHop (d : Dev) : Dev :=
  d.regs.entries.foldl (fun (d : Dev) (p : Nat × Option Word) =>
    let w := (p.2.getD 0).toNat
    if inArr p.1 0x700000 8 1024 && bitOf w 31 then
      let lg := bitsOf w 16 5
      if 8 ≤ lg && lg ≤ 18 && d.regionOk ((p.1 - 0x700000) / 8) (bitsOf w 0 13) lg then
        d.setHopper ((p.1 - 0x700000) / 8)
          (({ setUp := true, base := bitsOf w 0 13, sizeLog2 := lg } : Hopper).setMode (modeOf (d.reg (p.1 + 4))))
      else d.bump0 .hopCfgInvalid
    else d) { d with hop := { d.hop with hops := [] } }

/-- The domain lies in the profile's range (R39). -/
def domainOk (profile dom : Nat) : Bool :=
  if profile = 0 then decide (24 ≤ dom) && decide (dom ≤ 43)
  else profile == 1 && decide (44 ≤ dom) && decide (dom ≤ 63)

def Dev.lockHtb (d : Dev) : Dev :=
  let a := 0x100000
  let bad := !domainOk (d.field a 8 2) (d.field a 16 8)
  let d := if bad then d.bump0 .htbCfgInvalid else d
  (d.setHtb { d.htb with
    enables := BitVec.ofNat 6 (d.field a 0 6)
    nextEn := none
    ptpOff := bad
    profile := d.field a 8 2
    synceOpt := d.flagBit a 10
    revertive := d.flagBit a 11
    l2Addr := d.flagBit a 12
    domain := d.field a 16 8
    lockNs := clampN 10 10000 (d.field (a + 4) 0 14)
    dwell := clampN 1 1000 (d.field (a + 4) 16 10)
    stepThr := atLeast1 (d.field (a + 8) 0 16)
    slewMax := clampN 1 200 (d.field (a + 8) 16 8)
    stepSvc := d.flagBit (a + 8) 24
    srcLoss := max 8 (d.field (a + 12) 0 16)
    holdLim := d.field (a + 12) 16 16
    hostSlots := min 1024 (d.field (a + 16) 0 11)
    ppsOut := d.flagBit (a + 20) 0
    ppsEdge := d.flagBit (a + 20) 1
    synceOut := d.field (a + 20) 2 2
    ppsWidth := atLeast1 (d.field (a + 20) 8 8)
    ppsInComp := sext 16 (d.field (a + 24) 0 16)
    ppsOutComp := sext 16 (d.field (a + 24) 16 16)
    prio0 := atLeast1 (d.field (a + 32) 0 8)
    prio1 := atLeast1 (d.field (a + 32) 8 8) }).selectFreq

/-- The map of R146 from the physical tiles that pass and the two spares: the tile of each position. -/
def formMap (good : List Nat) (s0 s1 : Nat) : List (Option Nat) :=
  let spares := [s0, s1].filter good.contains
  let pool := good.filter (fun p => p != s0 && p != s1)
  let short := 32 - pool.length
  let act := pool ++ spares.take short
  let rest := spares.drop short
  (List.range 32).map (fun t => act[t]?) ++ [rest[0]?, rest[1]?]

/-- The map is formed at a cold start (R146); the tiles it takes are clear. -/
def Dev.lockMap (d : Dev) (s0 s1 : Nat) : Dev :=
  let good := (List.range 34).filter (fun p => (d.phys p).state != .retired)
  ((formMap good s0 s1).zipIdx).foldl (fun (d : Dev) (x : Option Nat × Nat) =>
    match x.1 with
    | some p => (d.setMap x.2 (some p)).modPhys p (fun (y : Phys) =>
        { y with state := if x.2 < 32 then .active else .spare, cleared := true })
    | none => d.setMap x.2 none) d

/-- R177, R178, R146. -/
def Dev.lockTil (d : Dev) : Dev :=
  let s0 := d.field 0x400000 0 6
  let s1 := d.field 0x400000 8 6
  let bad := decide (33 < s0) || decide (33 < s1) || s0 == s1
  let d := if bad then d.bump0 .tilCfgInvalid else d
  let d := if d.sys.kind = 0 then (if bad then d.lockMap 32 33 else d.lockMap s0 s1) else d
  let lo := d.field 0x400004 0 16 * 2 ^ 20
  let hi := d.field 0x400008 0 16 * 2 ^ 20
  let e := d.dram.topAddr
  let meets := decide (lo < hi) && decide (lo < e) && decide (e - 96 * 2 ^ 20 < hi)
  let d := if meets then d.bump0 .tilCfgInvalid else d
  let none_ := meets || decide (hi ≤ lo)
  { d with til := { d.til with winLo := if none_ then 0 else lo, winHi := if none_ then 0 else hi,
                               ceLimit := atLeast1 (d.field 0x40000C 0 4), ceEvt := d.flagBit 0x40000C 4 } }

/-- Two Hoppers and an enable of a tile command path: the enable stands where both are set up. -/
def Dev.cmdPath (d : Dev) (a : Nat) (c : CEv) : Bool × Dev :=
  if d.flagBit a 31 then
    if d.hopUp (d.field a 0 10) && d.hopUp (d.field a 16 10) then (true, d) else (false, d.bump0 c)
  else (false, d)

/-- R230. -/
def Dev.lockSch (d : Dev) : Dev :=
  let d := (List.range 64).foldl (fun (d : Dev) g =>
    let a := 0x600100 + 16 * g
    let zero := d.reg (a + 4) == 0
    let d := if zero then d.bump0 .schCfgInvalid else d
    d.setGrp g { d.grp g with
      weight := atLeast1 (d.field a 0 8)
      ceiling := atLeast1 (d.field a 16 16)
      aff := if zero then 0x0FFFFFFFF else BitVec.ofNat 34 (d.reg (a + 4) + d.field (a + 8) 0 2 * 2 ^ 32) }) d
  let q := d.cmdPath 0x600000 .schCfgInvalid
  let d := q.2
  { d with sch := { d.sch with cmdHop := d.field 0x600000 0 10, statusHop := d.field 0x600000 16 10, cmdEn := q.1 } }

/-- R123. -/
def Dev.lockFce (d : Dev) : Dev :=
  let q := d.cmdPath 0x300000 .fceCfgInvalid
  let d := q.2
  { d with fce := { d.fce with cmdHop := d.field 0x300000 0 10, statusHop := d.field 0x300000 16 10, cmdEn := q.1,
                               satLog2 := d.field 0x300004 0 4 } }

/-- R97, and the settings of the lanes and lines. Training begins once the lock has taken effect. -/
def Dev.lockOll (d : Dev) : Dev :=
  let cfg := 0x200004
  let cold := d.sys.kind == 0
  let d := { d with oll := { d.oll with holdoffTicks := max 8 (d.field cfg 0 16), fastPath := d.flagBit cfg 16,
                                        waves := d.flagBit cfg 17, txSwing := min 2 (d.field cfg 18 2) } }
  let d := (List.range 256).foldl (fun (d : Dev) n =>
    let on := d.flagBit (0x200010 + 4 * (n / 32)) (n % 32)
    if on == (d.line n).enabled then d else d.modLine n (fun (x : Line) => { x with enabled := on })) d
  (List.range 32).foldl (fun (d : Dev) q =>
    let a := 0x200040 + 4 * q
    let want := d.flagBit 0x200000 q
    let up := d.hopUp (d.field a 0 10) && d.hopUp (d.field a 16 10)
    let d := if want && !up then d.bump0 .ollCfgInvalid else d
    let waves := d.oll.waves
    let fast := d.oll.fastPath
    d.modLane q (fun (x : Lane) => { x with
      en := want && up
      reason := 0
      statusHop := d.field a 0 10
      cmdHop := d.field a 16 10
      telemLog2 := d.field a 28 4
      fast := !cold && fast && x.kept.isSome
      startScan := cold
      waveWait := want && up && waves })) d

def macBytes (lo hi : Nat) : List Nat := bytesLE 4 lo ++ bytesLE 2 hi

/-- R309 and R335, the active port of a pair (R330), and what a port advertises in Clause 37 auto-negotiation (R306). -/
def Dev.lockEth (d : Dev) : Dev :=
  let d := [0, 1].foldl (fun (d : Dev) p =>
    let a := 0x800000 + 0x100 * p
    let mac := macBytes (d.reg (a + 4)) (d.field (a + 8) 0 16)
    let bad := mac.all (· == 0) || mac.headD 0 % 2 == 1
    let en := d.flagBit a 2
    let d := if en && bad then d.bump0 .ethCfgInvalid else d
    let mc := (List.range 16).filterMap (fun i =>
      if d.flagBit (a + 0x84 + 8 * i) 31 then some (macBytes (d.reg (a + 0x80 + 8 * i)) (d.field (a + 0x84 + 8 * i) 0 16)) else none)
    let d := d.modPort p (fun (x : EPort) => { x with
      mode := d.field a 0 2
      en := en && !bad && d.field a 0 2 != 3
      lockOff := bad || d.field a 0 2 == 3
      pauseEn := d.flagBit a 3
      pfcEn := d.flagBit a 4
      tpidSel := d.flagBit a 5
      dropIp := d.flagBit a 6
      dropL4 := d.flagBit a 7
      maxFrame := clampN 1518 9216 (d.field a 8 14)
      ptpQueue := d.field a 22 3
      mac := mac
      mcast := mc
      txComp := sext 16 (d.field (a + 0xC) 0 16)
      rxComp := sext 16 (d.field (a + 0xC) 16 16)
      missRing := d.field (a + 0x10) 0 8 })
    (List.range 8).foldl (fun (d : Dev) q =>
      let b := a + 0x20 + 4 * q
      let h := d.field b 0 10
      let en := d.flagBit b 13
      let up := d.hopUp h && !(d.hopper h).sched
      let d := if en && !up then d.bump0 .ethCfgInvalid else d
      let burst := atLeast1 (d.field (a + 0x40 + 4 * q) 18 12) * 1024
      d.setTxq p q { hop := h, prio := d.field b 10 3, en := en && up, rate := d.field (a + 0x40 + 4 * q) 0 18, burst := burst,
                     credit := burst }) d) d
  let a := 0x800200
  let want := d.flagBit a 0
  let bad := want && ((d.port 0).mode == 3 || (d.port 1).mode == 3)
  let d := if bad then d.bump0 .ethCfgInvalid else d
  let d := [0, 1].foldl (fun (d : Dev) p =>
    let x := d.port p
    if x.en && x.mode == 1 then d.send (.autoneg p x.pauseEn x.pauseEn) else d) d
  let d := d.setEth { d.eth with active := b2n (want && !bad && !(d.port 0).link && (d.port 1).link), downFor := 0, upFor := 0 }
  d.setEth { d.eth with protect := want && !bad, revert := d.flagBit a 1, holdoff := min 800 (d.field a 2 10),
                        wtr := atLeast1 (d.field a 12 10) }

/-- R404: the rings that pass are enabled; those that no other ring depends on are judged first. -/
def Dev.lockRings (d : Dev) : Dev :=
  let l := d.regRings
  l.foldl (fun (d : Dev) n =>
    let x := d.regRing n
    if d.ringAlone n && (x.typ != 1 || d.cplOk n) && d.txpQueueOk x then d.setRing n x.ring
    else d.bump0 .hifCfgInvalid) (d.setHif { d.hif with rings := [] })

def Dev.lockHif (d : Dev) : Dev :=
  (d.setHif { d.hif with wins := d.regWins, dbAddr := d.regDb, shAddr := d.regSh, fetchUs := clampN 4 1000 (d.field 0xA00000 0 10),
                         defEvt := d.field 0xA00000 16 8 }).lockRings

/-- R422. -/
def Dev.lockTmp (d : Dev) : Dev :=
  let h := d.field 0xB00000 0 10
  let want := d.flagBit 0xB00000 31
  let d := if want && !d.hopUp h then d.bump0 .tmpCfgInvalid else d
  d.setTmp { d.tmp with jobHop := h, jobEn := want && d.hopUp h }

/-- CAL_CFG and the pins, which join those of the record. -/
def Dev.lockCal (d : Dev) : Dev :=
  let d := d.setCal { d.cal with deltaT := atLeast1 (d.field 0x380000 0 5), autoEn := d.flagBit 0x380000 5,
                                 interval := atLeast1 (d.field 0x380000 8 16) }
  let pin := fun (d : Dev) (n : Nat) (on : Bool) =>
    if on && !(d.calItem n).pinned then
      let d := d.modItem n (fun (x : CalItem) => { x with pinned := true })
      d.setCal { d.cal with dirty := true }
    else d
  let d := (List.range 32).foldl (fun (d : Dev) q => pin d q (d.flagBit 0x380004 q)) d
  [0, 1, 2, 3].foldl (fun (d : Dev) r => pin d (rankKey r) (d.flagBit 0x380008 (r + 4 * (r / 2)))) d

/-- DMC_PORT, DMC_LOWPWR and DMC_SCRUB. -/
def Dev.lockDram (d : Dev) : Dev :=
  let ports := (List.range 10).map (fun i =>
    let a := 0xC00020 + 4 * i
    ({ target := clampN 100 100000 (d.field a 0 17), rt := d.flagBit a 17, panicEn := d.flagBit a 18,
       level := atLeast1 (d.field a 19 6) } : DPort))
  d.setDram { d.dram with ports := ports, pdIdle := d.field 0xC00048 0 16, allBank := d.flagBit 0xC00048 16,
                          scrubEn := d.flagBit 0xC0004C 0, scrubRate := clampN 1 256 (d.field 0xC0004C 1 9),
                          ceRetire := d.field 0xC0004C 10 16, ceEvt := d.flagBit 0xC0004C 26 }

/-! ### Images into the map (R147, R153, R343, R366) -/

/-- The image of a position, but an integrator image while HOLD is odd. -/
def Dev.imageFor (d : Dev) (t : Nat) : Option FlashImg :=
  (d.sys.images.find? (fun (x : TileImg) => x.tiles.contains t && !(x.img.x.img.typ == 4 && d.kln.isHeld))).map (·.img)

def loadTile (t : Nat) (w : Mems × Dev) : Mems × Dev :=
  match w.2.physOf t with
  | none => w
  | some p =>
    let x := (w.2.imageFor t).getD { x := { img := { typ := 0, signer := 0, svn := 0, digest := 0, bytes := 0, revoke := false },
                                            format := false, bindOk := false, sigOk := false }, code := [], data := [] }
    let m := ((w.1.clearDm p).loadPm p x.code)
    let m := x.data.foldl (fun (m : Mems) (g : Nat × List Byte) => m.dmPut p g.1 g.2) m
    let d := w.2.modPhys p (fun (y : Phys) => { y with cleared := true, ueWords := [] })
    let d := d.setSys { d.sys with copies := d.sys.copies.put [] t x.code }
    (m, d.freshTile t [])

/-- The digests of the images in some position, in the order of the slot's directory. -/
def Dev.loadedImages (d : Dev) : List Image :=
  (d.sys.images.filter (fun (x : TileImg) => x.tiles.any (fun t => (d.physOf t).isSome && d.imageFor t == some x.img))).map
    (·.img.x.img)

def loadTiles (m : Mems) (d : Dev) : Mems × Dev :=
  let w := (List.range 32).foldl (fun (w : Mems × Dev) t => loadTile t w) (m, d)
  (w.1, w.2.setKln { w.2.kln with tiles := w.2.loadedImages })

/-- The lanes that the lock enables begin their training, in waves where WAVES is 1 (R87). -/
def Dev.startLanes (k : Clock) (d : Dev) : Dev :=
  if d.oll.waves then d.startWave k 0 else (List.range 32).foldl (fun (d : Dev) q => d.leaveDark k q) d

/-- The lock takes effect. -/
def lockDevice (k : Clock) (m : Mems) (d : Dev) : Mems × Dev :=
  let w := loadTiles m d.lockHop.lockHtb.lockTil.lockSch.lockFce.lockOll.lockEth.lockHif.lockTmp.lockCal.lockDram
  let d := w.2.setHif { w.2.hif with locked := true, setupOpen := false, lockErr := 0, lockWait := false,
                                     fetchAt := some (clockAbs k + 1) }
  (w.1, (d.startLanes k).dumpReady k)

/-- A request that is weighed now (R375). -/
def weighLock (k : Clock) (m : Mems) (d : Dev) : Mems × Dev :=
  let c := d.lockCode
  if c = 0 then lockDevice k m d
  else (m, (d.setHif { d.hif with lockErr := c, lockWait := false }).bump0 .hifLockRefused)

/-- A write to SYS_SETUP_LOCK (R375, R376, R458, R497). -/
def writeLock (k : Clock) (v : Word) (m : Mems) (d : Dev) : Mems × Dev :=
  if !d.sys.powered || d.sys.inReset.isSome then (m, d)
  else if d.hif.locked then (m, d.bump0 .hifSealedWrite)
  else if v != 0x4C4F434B then (m, d.bump0 .hifLockBadValue)
  else if d.hif.setupOpen && decide (d.sys.step < 6) then (m, d.setHif { d.hif with lockWait := true })
  else weighLock k m d

def execSysSetupLock (v : Word) (s : State) : Out := onMem (fun k m d => writeLock k v m d) s

/-! ### BAR0 (R376, R493, R494) -/

/-- A write of a set-up register changes that register alone; the MSI-X table acts at once. -/
def Dev.writeReg (k : Clock) (d : Dev) (a : Nat) (v : Word) : Dev :=
  match regSpec a with
  | none => d
  | some (_, mask) =>
    let d := { d with regs := d.regs.put none a (some (v &&& BitVec.ofNat 32 mask)) }
    if inArr a 0xA1000C 16 64 then
      let bit := BitVec.twoPow 64 ((a - 0xA1000C) / 16)
      (d.setHif { d.hif with tblMask := if v.getLsbD 0 then d.hif.tblMask ||| bit else d.hif.tblMask &&& ~~~bit }).drainPba k
    else d

/-- `good` says that the write is aligned, of 32 bits and with all byte enables set. -/
def execBar0Write (a : Nat) (v : Word) (good : Bool) (s : State) : Out :=
  onMem (fun k m d =>
    if !d.sys.powered || d.sys.inReset.isSome then (m, d)
    else if d.hif.locked then (m, d.bump0 .hifSealedWrite)
    else if 0xF00000 ≤ a then (m, d.bump0 .klnDbgBarAccess)
    else if !good then (m, d.bump0 .sysBarBadAccess)
    else if a = 4 then writeLock k v m d
    else (m, d.writeReg k a v)) s

/-- An access to BAR0 behind the lock. -/
def execSealedBar0Access (write : Bool) (s : State) : Out :=
  onDev (fun _ d => if d.hif.locked then d.bump0 (if write then .hifSealedWrite else .hifSealedRead) else d) s

end Sys2Proof.Machine
end

