-- ==== Sys2Proof/Machine/Start.lean ====
section
/-! DEFINITION. Power, resets, the steps of a start, and control restarts (chapter 17, R502 to R504). -/
namespace Sys2Proof.Machine
open Sys2Proof

/-! ### Power and resets (R452 to R454, R504) -/

/-- A cold start begins with a cause: everything but fuses, flash and pins is as at reset, and the Hearth stands at tick 0.
DESIGN CHOICE (log entry 84): the cold start's own entry to FREE_RUN (Table 2.7) is not counted as htb.dev.freerun_entry, since
the same start clears every counter. -/
def coldStart (cause : Nat) (s : State) : State :=
  let d := s.dev.resetCold
  let d := d.setSys { d.sys with powered := true, rstN := true, emberOk := true, cause := cause }
  { s with clk := { tick := 0, sub := 0, fine := 0 }, dev := d.setHif { d.hif with linkUp := !d.hif.perst && !d.sys.testMode }, mem := Mems.reset }

/-- Power good at power-on. -/
def execPowerOn (s : State) : Out := .next (coldStart 0 s)

/-- RST_N falls with power held. A capture in progress is cut: what it has made stands without COMPLETE. -/
def execRstNAssert (s : State) : Out :=
  onDev (fun _ d =>
    if !d.sys.powered || !d.sys.rstN then d
    else if d.sys.inReset.isSome then d.setSys { d.sys with rstN := false }
    else
      let d := if d.sys.ash == .capturing then d.setSys { d.sys with ash := .captured, complete := false } else d
      let d := d.resetWarm
      d.setSys { d.sys with rstN := false, inReset := some (.warm, 2) }) s

/-- A supply other than VDD_AON leaves its range while VDD_AON holds. -/
def execSupplyFault (s : State) : Out :=
  onDev (fun _ d => if d.sys.powered then d.setSys { d.sys with step4 := false, supplyFault := true } else d) s

def execVddAonLoss (s : State) : Out := onDev (fun _ d => d.setSys { d.sys with emberOk := false }) s

/-- The object state area of a DRAM address space that ends at `e` (Table 17.7), cleared. -/
def Mems.clearObjects (m : Mems) (e : Nat) : Mems :=
  if 96 * 2 ^ 20 ≤ e then { m with dram := m.dram.clear (e - 72 * 2 ^ 20) (e - 64 * 2 ^ 20) } else m

/-- A warm start begins: data memories are cleared (R153), candidate rows of control SRAM replaced (R476), the object state
area cleared (R467). -/
def warmStart (cause : Nat) (s : State) : State :=
  let d := (s.dev.bump0 .sysWarmStart).ctrlRepair
  let d := d.setSys { d.sys with kind := 1, cause := cause, warmCount := min 65535 (d.sys.warmCount + 1), step := 0,
                                 inReset := none, rstN := true }
  { s with dev := d.setHif { d.hif with linkUp := !d.hif.perst && !d.sys.testMode },
           mem := ({ s.mem with dm := [] } : Mems).clearObjects d.dram.topAddr }

/-- The internal reset ends, with RST_N high: `ember` says that the Ember domain passes its check. The start is the one that
R452, R454 and R504 choose. -/
def execInternalResetEnd (ember : Bool) (s : State) : Out :=
  match s.dev.sys.inReset with
  | none => .next s
  | some (_, cause) =>
    let x := s.dev.sys
    .next (if !x.emberOk || !ember then coldStart 1 s
      else if x.supplyFault then coldStart 9 s
      else if !x.step4 then coldStart cause s
      else if 2 ≤ x.failed then coldStart 7 s
      else warmStart cause s)

/-! ### Step 2: the Kiln (R338, R341, R342, R358, R363) -/

/-- The owner record is read again: a slot that does not read back is lost, an interrupted OWNER_CHANGE is completed. -/
def Dev.readOwner (k : Clock) (d : Dev) (f : StartFind) : Dev :=
  let x := d.kln
  let d := d.setKln { x with recA := if f.ownA then x.recA else none, recB := if f.ownB then x.recB else none }
  let d := d.setKln { d.kln with recLost := decide (0 < d.kln.epoch) && d.kln.record.isNone }
  match d.kln.record with
  | none => d
  | some r =>
    if d.kln.roots.getLast? == some r.root then d
    else match d.burn k f.burnBad with
      | (true, d) => d.setKln { d.kln with roots := d.kln.roots ++ [r.root] }
      | (false, d) => d

/-- A cold start creates media certificate 0. -/
def Dev.firstCert (k : Clock) (d : Dev) : Dev :=
  if d.sys.kind = 1 then d
  else let c := d.newCert k false; c.2.setKln { c.2.kln with cert0 := some c.1, cert1 := none, curCert := 0 }

def Dev.startKiln (k : Clock) (d : Dev) (f : StartFind) : Dev :=
  let q := d.draw 1
  let d := q.2.setKln { q.2.kln with entropyOk := true }
  let d := d.setEth { d.eth with seed := q.1 }
  (d.firstCert k).readOwner k f

/-! ### Step 3: stage one (R141, R344, R465) -/

/-- What the flash holds, where a programmer has written it. -/
def Dev.readFlash (d : Dev) (f : StartFind) : Dev :=
  let d := d.setSys { d.sys with slotA := f.slotA.getD d.sys.slotA, slotB := f.slotB.getD d.sys.slotB }
  d.setCal { d.cal with slotA := f.calA.getD d.cal.slotA, slotB := f.calB.getD d.cal.slotB }

/-- Slot `b` is the one booted: its stage-one image runs. -/
def Dev.bootSlot (d : Dev) (b : Bool) : Dev :=
  d.setKln { d.kln with boot := 1, bootB := b, warmBoot := d.sys.kind == 1, stage1 := d.slotBoots (d.slotOf_ b) }

/-- Kindling recovery. -/
def Dev.recovery (d : Dev) : Dev := d.setKln { d.kln with boot := 3 }

/-- The calibration record of a cold start: the newer valid one, or the defaults. -/
def Dev.readRecord (d : Dev) : Dev :=
  if d.sys.kind = 1 then d
  else
    let torn := [d.cal.slotA, d.cal.slotB].filter (fun (r : CalRec) => r.commit && !r.crc)
    let d := torn.foldl (fun (d : Dev) _ => d.bump0 .calRecordInvalid) d
    match d.cal.newer with
    | some b =>
      let items := mapStore {} CalItem.record (d.cal.slot b).items
      (d.setCal { d.cal with items := items, hadRec := true }).setSys { d.sys with noCal := false }
    | none => (d.setCal { d.cal with items := [], hadRec := false }).setSys { d.sys with noCal := true }

/-- Stage one is chosen; the answer says whether there is one. -/
def Dev.startStage1 (d : Dev) (f : StartFind) : Bool × Dev :=
  let d := d.readFlash f
  let d := [d.sys.slotA, d.sys.slotB].foldl (fun (d : Dev) (x : BootSlot) =>
    if (d.slotBoots x).isSome then d else d.bump0 .klnBootSlotReject) d
  match d.bootChoice with
  | none => (false, d.recovery)
  | some b => (true, (d.bootSlot b).readRecord)

/-! ### Step 4: the DRAM and the tiles (R146, R423 to R428, R441, R442, R464, R474) -/

/-- The ranks that are populated: those of the density of the lowest-numbered one. The others are counted. -/
def Dev.findRanks (d : Dev) (l : List RankFind) : List Nat × Dev :=
  let here := (List.range 4).filter (fun r => (l.getD r {}).present)
  let z := (here.head?.map (fun r => (l.getD r {}).density)).getD 0 % 3
  let pop := here.filter (fun r => (l.getD r {}).density % 3 == z)
  let d := (here.filter (fun r => !pop.contains r)).foldl (fun (d : Dev) _ => d.bump0 .dmcCfgInvalid) d
  let mask := pop.foldl (fun (v : BitVec 4) r => v ||| BitVec.twoPow 4 r) 0
  (pop, d.setDram { d.dram with pop := mask, density := z })

/-- The board configuration is applied (R464); the marks of UNUSED are judged once the map is formed. -/
def Dev.applyBoard (d : Dev) (b : Option BoardCfg) : Dev :=
  match b with
  | some c => d.setDram { d.dram with spareEn := c.spareEn, spareCfg := c.spare % 4, rate := c.rate % 4 }
  | none => (d.setDram { d.dram with spareEn := false, spareCfg := 0, rate := 0 }).bump0 .sysBoardCfgInvalid

/-- The map of R425: the ranks mapped, and the spare that is left. -/
def rankMap (populated passing : List Nat) (spareEn : Bool) (spareCfg : Nat) : List Nat × Option Nat :=
  let spare := if spareEn && passing.contains spareCfg then some spareCfg else none
  let pool := passing.filter (fun r => some r != spare)
  let want := populated.length - b2n spareEn
  match spare with
  | some s => if pool.length < want then (pool ++ [s], none) else (pool, some s)
  | none => (pool, none)

/-- The read and the write delays that the training of rank `r` finds, where it passes (R427). -/
def Dev.rankTrained (d : Dev) (r : Nat) (x : RankFind) : Option (List Nat × List Nat) :=
  let i := d.calItem (rankKey r)
  match eyeCodes d.cal.hadRec i.rd x.rd, eyeCodes d.cal.hadRec i.wr x.wr with
  | some rd, some wr => if x.leveled then some (rd, wr) else none
  | _, _ => none

/-- A rank's state after training, which moves no delay of a pinned item (R138). -/
def Dev.placeRank (k : Clock) (d : Dev) (map : List Nat) (spare : Option Nat) (r : Nat) (x : RankFind) : Dev :=
  let i := d.calItem (rankKey r)
  let d := match d.rankTrained r x with
    | some (rd, wr) =>
      if i.pinned then d
      else
        let d := d.setItem (rankKey r) { i with rd := rd, wr := wr, goalRd := rd, goalWr := wr,
                                                ref := (d.refNow (rankKey r)).or i.ref }
        d.setCal { d.cal with dirty := true }
    | none => d
  if map.contains r then d.modRank r (fun (y : Rank) => { y with state := .inService, accrued := nowAbs k, used := nowAbs k })
  else if spare == some r then
    let d := d.modRank r (fun (y : Rank) => { y with state := .spare, selfRef := true })
    if x.testOk then d else d.loseSpare k r 3
  else ((d.modRank r (fun (y : Rank) => { y with state := .retired, selfRef := true })).bump1 .dmcRankTrainFail r).rankEvent k r
    .absent .retired 4

/-- UNUSED marks (R464): that of the segment that holds the reserved regions is ignored, and counted. -/
def Dev.markUnused (d : Dev) (l : List (BitVec 7)) : Dev :=
  (List.range 4).foldl (fun (d : Dev) r =>
    let v := l.getD r 0
    let top := d.dram.map.getLast? == some r && v.getLsbD 6
    let d := if top then d.bump0 .dmcCfgInvalid else d
    if v = 0 then d else d.modRank r (fun (y : Rank) => { y with unused := if top then v &&& 0x3F else v })) d

/-- Training and initialisation at a cold start; the answer says whether a slot exists. -/
def Dev.startRanks (k : Clock) (d : Dev) (f : StartFind) : Bool × Dev :=
  let q := (d.applyBoard f.board).findRanks f.ranks
  let passing := q.1.filter (fun r => (q.2.rankTrained r (f.ranks.getD r {})).isSome)
  let mp := rankMap q.1 passing q.2.dram.spareEn q.2.dram.spareCfg
  let d := q.2.setDram { q.2.dram with map := mp.1, spare := mp.2, trainErr := mp.1.isEmpty }
  let d := q.1.foldl (fun (d : Dev) r => d.placeRank k mp.1 mp.2 r (f.ranks.getD r {})) d
  (!mp.1.isEmpty, d.markUnused ((f.board.map (·.unused)).getD []))

/-- The built-in self-test of every tile: one that fails is RETIRED; the others wait for the map, with their repairs. -/
def Dev.startTiles (d : Dev) (l : List TileFind) : Dev :=
  (List.range 34).foldl (fun (d : Dev) p =>
    let x := l.getD p {}
    if x.pass && sparesSuffice [] x.pm && sparesSuffice [] x.dm then
      d.setPhys p { state := .vacated, pmSpare := x.pm, dmSpare := x.dm }
    else (d.setPhys p {}).bump0 .tilRetired) d

/-- At a warm start the ranks in service leave self-refresh, and every VACATED tile runs its self-test, and so does a spare whose
test the restart has cut (R474, R483). -/
def Dev.warmUnits (k : Clock) (d : Dev) : Dev :=
  let d := d.setDram { d.dram with ranks := mapStore {} (fun (r : Rank) =>
    if r.state == .inService then { r with selfRef := false, accrued := nowAbs k, used := nowAbs k } else r) d.dram.ranks }
  let placed := fun (p : Nat) => [32, 33].any (fun t => d.physOf t == some p)
  let l := (List.range 34).filter (fun p => (d.phys p).state == .vacated || ((d.phys p).state == .spare && !placed p))
  d.setSys { d.sys with tests := l.map (fun p => (p, false)) }

def startUnits (k : Clock) (f : StartFind) (m : Mems) (d : Dev) : Bool × Mems × Dev :=
  if d.sys.kind = 1 then (true, m, d.warmUnits k)
  else
    let q := (d.startTiles f.tiles).startRanks k f
    (q.1, { m with dram := [] }, q.2.setDram { q.2.dram with poison := [] })

/-! ### Step 6: control firmware and the images (R343, R344, R458, R465) -/

/-- The images of a slot's entries of types 2 and 3 that fail R343. -/
def Dev.imageFails (d : Dev) (x : BootSlot) : Nat :=
  (x.entries.filter (fun p => (p.1.x.img.typ == 2 || p.1.x.img.typ == 3) && d.imageCheck p.1.x true != .ok)).length

/-- Entries of type 4 that fail it: their tiles stay without code. -/
def Dev.ownFails (d : Dev) (x : BootSlot) : Nat :=
  (x.entries.filter (fun p => p.1.x.img.typ == 4 && d.imageCheck p.1.x true != .ok)).length

def maskTiles (v : Nat) : List Nat := (List.range 32).filter (bitOf v)

/-- The images of the chosen slot, ready for the lock. -/
def Dev.takeImages (d : Dev) : Dev :=
  let x := d.slotOf_ d.kln.bootB
  let imgs := x.entries.filter (fun p => (p.1.x.img.typ == 3 || p.1.x.img.typ == 4) && d.imageCheck p.1.x true == .ok)
  let d := d.bumpN ⟨.klnImageReject, 0, 0⟩ (d.ownFails x)
  let d := d.setSys { d.sys with images := imgs.map (fun p => ({ img := p.1, tiles := maskTiles p.2 } : TileImg)) }
  d.setKln { d.kln with ctrl := x.ctrl.map (·.x.img), boot := 2 }

/-- Step 6 with the chosen slot, or once with the other; the answer says whether a slot boots. -/
def Dev.startImages (d : Dev) : Bool × Dev :=
  let a := d.slotOf_ d.kln.bootB
  let n := d.imageFails a
  if n = 0 then (true, d.takeImages)
  else
    let d := d.bumpN ⟨.klnImageReject, 0, 0⟩ n
    let other := d.slotOf_ (!d.kln.bootB)
    if (d.slotBoots other).isNone then (false, d.recovery)
    else
      let d := d.bootSlot (!d.kln.bootB)
      let n := d.imageFails other
      if n = 0 then (true, d.takeImages) else (false, (d.bumpN ⟨.klnImageReject, 0, 0⟩ n).recovery)

/-- Control firmware runs: the start counts as completed (R454), the servo runs, a captured dump is packed, the copy of a migration
that a warm start has interrupted begins again (R447), a lock request that has waited is weighed. -/
def firmwareRuns (k : Clock) (m : Mems) (d : Dev) : Mems × Dev :=
  let d := (d.setSys { d.sys with step := 6, failed := 0, fatal := false, wdog := 0 }).setHtb { d.htb with servoOn := true }
  let d := d.ashPack.migResume k
  if d.hif.lockWait then weighLock k m d else (m, d)

/-! ### The steps end (R455, R458) -/

def Dev.setStep (d : Dev) (n : Nat) : Dev := d.setSys { d.sys with step := n }

/-- A lane that trains in its wave has reached LIVE or failed. -/
def Dev.lanesTried (d : Dev) : Bool :=
  (List.range 32).all (fun q => !(d.lane q).en || (d.lane q).train == .live || (d.lane q).waveDone || !d.oll.waves)

/-- Whether what steps 7 to 11 wait for has come about. -/
def Dev.laterDone (d : Dev) (n : Nat) : Bool :=
  if n = 7 then d.htb.state != .freeRun
  else if n = 8 || n = 9 then d.hif.locked && d.lanesTried
  else if n = 10 then d.hif.locked && [0, 1].all (fun p => !(d.port p).en || (d.port p).link)
  else n == 11 && d.htb.state == .locked

/-- Step `n` of Table 17.2 ends; `f` is what it finds outside the device. Steps 1 to 6 end in order, none with TEST_MODE high (R512). -/
def startStep (k : Clock) (n : Nat) (f : StartFind) (m : Mems) (d : Dev) : Mems × Dev :=
  if !d.sys.powered || d.sys.inReset.isSome || d.kln.boot == 3 || d.sys.testMode then (m, d)
  else if 7 ≤ n then
    if 6 ≤ d.sys.step && d.laterDone n then (m, d.setStep n) else (m, d)
  else if n != d.sys.step + 1 then (m, d)
  else if n = 1 then (m, (d.setStep 1).setSys { (d.setStep 1).sys with avs := some (min 20 f.avs), avsTicks := 8000 })
  else if n = 2 then
    if f.katOk then (m, (d.startKiln k f).setStep 2) else (m, d.kilnAlarm k)
  else if n = 3 then
    let q := d.startStage1 f
    (m, if q.1 then q.2.setStep 3 else q.2)
  else if n = 4 then
    let q := startUnits k f m d
    (q.2.1, if q.1 then (q.2.2.setStep 4).setSys { (q.2.2.setStep 4).sys with step4 := true } else q.2.2)
  else if n = 5 then (m, (d.setStep 5).setHif { d.hif with setupOpen := true })
  else if n = 6 then
    let q := d.startImages
    if q.1 then firmwareRuns k m q.2 else (m, q.2)
  else (m, d)

def execStartStepEnd (n : Nat) (f : StartFind) (s : State) : Out := onMem (fun k m d => startStep k n f m d) s

/-! ### The control restart (R346, R461, R462) -/

/-- Steps 3 to 6: the SRAM is cleared and repaired, the digest of the firmware copy and the object state are checked. -/
def execControlRestart (digestOk stateOk : Bool) (s : State) : Out :=
  onDev (fun _ d =>
    if !d.hif.paused || d.sys.checked || d.sys.ash == .capturing || d.sys.inReset.isSome then d
    else
      let d := d.ctrlRepair
      if !digestOk then (d.bump0 .klnReloadMismatch).askWarm 4
      else if !stateOk then (d.bump0 .sysStateCheckFail).askWarm 8
      else d.setSys { d.sys with checked := true }) s

def insertHeld (x : Nat × Evt) : List (Nat × Evt) → List (Nat × Evt)
  | [] => [x]
  | y :: r => if y.2.stamp ≤ x.2.stamp then y :: insertHeld x r else x :: y :: r

/-- The events held through the restart, in the order of their stamps. -/
def Hif.heldEvts (x : Hif) : List (Nat × Evt) :=
  (x.lineEvts ++ x.klnEvts ++ x.restartEvts).foldl (fun (acc : List (Nat × Evt)) y => insertHeld y acc) []

/-- Step 7: the servo resumes, PAUSED returns to 0, RESTARTS advances, and held events are delivered with HELD. -/
def Dev.restartDone (k : Clock) (d : Dev) : Dev :=
  let dma := d.hif.bme && !d.hif.d3hot
  let evs := d.hif.heldEvts
  let n := d.hif.restarts + 1
  let d := d.setHtb { d.htb with servoOn := true }
  let d := d.setHif { d.hif with paused := false, restarts := n, fetchAt := none, lineEvts := [], klnEvts := [], restartEvts := [] }
  let d := d.setSys { d.sys with fatal := false, checked := false, wdog := 0 }
  let d := if dma then (d.send (.paused false)).send (.restarts n) else d
  let d := evs.foldl (fun (d : Dev) (x : Nat × Evt) => d.postEvt k x.1 { evt := x.2, held := true }) d
  let d := (d.finish k .fwSwitch 0 .ok).finish k .sysRestart 0 .ok
  ((((d.flushHost k).ashPack).dumpReady k).evacNext k)

def execControlRestartDone (s : State) : Out :=
  onDev (fun k d => if d.hif.paused && d.sys.checked && !d.sys.inReset.isSome then d.restartDone k else d) s

/-! ### PFW_N and AVS (R142, R466, R479, R502) -/

/-- PFW_N falls; `last` says that a record write in progress can be finished within 1.5 ms. -/
def execPfwAssert (last : Bool) (s : State) : Out :=
  onDev (fun k d =>
    if !d.sys.pfwN then d
    else
      let d := (d.setSys { d.sys with pfwN := false }).bump0 .sysPfwAssert
      let d := if last then d else d.calAbandon k
      d.slotAbandon k) s

def execPfwRelease (s : State) : Out := onDev (fun _ d => d.setSys { d.sys with pfwN := true }) s

/-- Control firmware moves the AVS code one step at a tick boundary. -/
def execAvsStep (up : Bool) (s : State) : Out :=
  onDev (fun k d =>
    match d.sys.avs with
    | none => d
    | some c =>
      if !d.ctrlRuns || d.hif.paused || k.sub != 0 || d.sys.avsTicks < 8000 || (if up then decide (20 ≤ c) else c == 0) then d
      else d.setSys { d.sys with avs := some (if up then c + 1 else c - 1), avsTicks := 0 }) s

end Sys2Proof.Machine
end

