-- ==== Sys2Proof/Machine/Tick.lean ====
section
/-! DEFINITION. The boundary events of the Hearth, which reach every unit (R35 to R38, Table 2.3), and the time step (R48). -/
namespace Sys2Proof.Machine
open Sys2Proof

/-! ### What a tick boundary does to the timers of each unit -/

def KSess.tick (x : KSess) : KSess :=
  { x with age := x.age + 1, retx := x.retx.map (· - 1), linger := x.linger.map (· - 1) }

def Dev.klnTick (d : Dev) : Dev :=
  d.setKln { d.kln with
    chalLeft := d.kln.chalLeft - 1
    debugLeft := d.kln.debugLeft - 1
    sess := mapStore none (fun (x : Option KSess) => x.map KSess.tick) d.kln.sess }

/-- Control SRAM's corrected errors of the tick (R476): rows as bank times 4,096 plus row. -/
def Dev.ctrlCes (d : Dev) (rows : List Nat) : Dev :=
  rows.foldl (fun (d : Dev) r =>
    if 32768 ≤ r then d
    else
      let n := d.sys.cCe.get 0 r + 1
      let c := d.sys.cCand
      (d.setSys { d.sys with cCe := d.sys.cCe.put 0 r n, cCand := if 2 ≤ n && !c.contains r then c ++ [r] else c }).bump0
        .sysCtrlSramCe) d

/-- The watchdog, suspended in a control restart (R484), AVS and the pulse on TAMPER_N. -/
def Dev.sysTick (d : Dev) (service : Bool) : Dev :=
  let x := d.sys
  d.setSys { x with
    wdog := if d.hif.paused then x.wdog else if service || !d.ctrlRuns then 0 else x.wdog + 1
    avsTicks := min 8000 (x.avsTicks + 1)
    tamperLow := if 1 < x.tamperLow then x.tamperLow - 1 else x.tamperLow }

/-- PPS_OUT, driven at each tick divisible by 8,000 (R37). -/
def Dev.ppsTick (k : Clock) (d : Dev) : Dev :=
  if d.htb.ppsOut && k.tick % 8000 == 0 && d.sys.inReset.isNone then
    d.send (.pps (clockStamp k) (toBits 16 d.htb.ppsOutComp))
  else d

/-- TICK, delivered to every unit (R37). -/
def Dev.tickUnits (k : Clock) (d : Dev) (cyclesA cyclesB : Nat) (fault0 fault1 service : Bool) (ctrlCe : List Nat) : Dev :=
  let d := d.htbTick cyclesA cyclesB
  let d := d.setHtb { d.htb with bnd := 0 }
  let d := ((((d.ollTick k).hopTick).dramTick).medTick k).ethTick k fault0 fault1
  let d := ((d.klnTick.ctrlCes ctrlCe).sysTick service).ringTick
  let d := d.setTmp { d.tmp with disabling := d.tmp.disabling.map (· - 1) }
  let d := d.cancelsDone k
  if d.htb.step.isSome && k.tick % 160 == 0 then d else d.ppsTick k

/-- The Hearth counts: through a reset and a warm start, and from step 2 of a cold start on (Table 17.2, step 7). -/
def Dev.counts (d : Dev) : Bool :=
  d.sys.powered && (d.sys.inReset.isSome || d.sys.kind == 1 || decide (2 ≤ d.sys.step))

/-- A tick begins: `cyclesA` and `cyclesB` are the cycles of REFA and REFB in the tick before, `fault0` and `fault1` say that a
condition of R307 held in it, `service` that control firmware serviced its watchdog, `ctrlCe` names the rows of control SRAM
in which errors were corrected. -/
def execTick (cyclesA cyclesB : Nat) (fault0 fault1 service : Bool) (ctrlCe : List Nat) (s : State) : Out :=
  if s.dev.counts then
    let k : Clock := { s.clk with tick := s.clk.tick + 1, sub := 0 }
    .next { s with clk := k, dev := s.dev.tickUnits k cyclesA cyclesB fault0 fault1 service ctrlCe }
  else .next s

/-! ### Frames and windows (R36 to R38) -/

/-- The place of a frame length among the four. -/
def frameIdx (len : Nat) : Option Nat :=
  if len = 20 then some 0 else if len = 40 then some 1 else if len = 80 then some 2 else if len = 160 then some 3 else none

/-- A step is due at this instant (R48): the events that follow are those of the new count. -/
def stepDue (k : Clock) (d : Dev) : Bool := d.htb.step.isSome && k.tick % 160 == 0 && k.sub == 0 && d.htb.bnd == 0

/-- Event `n` of the order of R37 has its turn. -/
def Dev.bndTurn (k : Clock) (d : Dev) (n : Nat) : Bool := k.sub == 0 && decide (d.htb.bnd < n) && !stepDue k d

def Dev.frameEvent (k : Clock) (d : Dev) (len : Nat) : Dev := (d.hopFrame k len).medFrame k len

def execFrameBoundary (len : Nat) (s : State) : Out :=
  onDev (fun k d =>
    match frameIdx len with
    | some i =>
      if k.tick % len == 0 && d.bndTurn k (5 + i) then (d.setHtb { d.htb with bnd := 5 + i }).frameEvent k len else d
    | none => d) s

def execWindowClose (len : Nat) (s : State) : Out :=
  onDev (fun k d =>
    match frameIdx len with
    | some i =>
      if k.tick % len == len / 4 && d.bndTurn k (1 + i) then
        ((d.setHtb { d.htb with bnd := 1 + i }).hopClose k len).medClose k len
      else d
    | none => d) s

/-! ### The time step (R48, R50, R118, R288) -/

def moveTick (step : Int) (n : Nat) : Nat := ((n : Int) + step).toNat
def moveAbs (step : Int) (n : Nat) : Nat := ((n : Int) + step * 3072).toNat

/-- What else is kept as a count of ticks or as a place on the line of sub-ticks moves with the count: doorbell fetches (R380),
DRAM requests and refreshes, the boundary of an evacuation, scans. -/
def Dev.timesStep (d : Dev) (step : Int) : Dev :=
  let d := d.setHif { d.hif with fetchAt := d.hif.fetchAt.map (moveAbs step) }
  let d := d.setDram { d.dram with
    reqs := d.dram.reqs.map (fun (q : DReq) => { q with at_ := moveAbs step q.at_ })
    ranks := mapStore {} (fun (r : Rank) => { r with accrued := moveAbs step r.accrued, used := moveAbs step r.used }) d.dram.ranks }
  let d := d.setSys { d.sys with evac := d.sys.evac.map (fun (e : Evac) => { e with at_ := moveTick step e.at_ }) }
  { d with oll := { d.oll with
      lanes := mapStore {} (fun (x : Lane) => { x with
        scanFrom := x.scanFrom.map (moveTick step), lastAt := x.lastAt.map (moveTick step) }) d.oll.lanes } }

/-- The pending step is made: then the boundary events of the new count, and the slots that the step fires (R50). -/
def execTimeStep (s : State) : Out :=
  match s.dev.htb.step with
  | none => .next s
  | some step =>
    if !stepDue s.clk s.dev || !s.dev.counts then .next s
    else
      let k : Clock := { s.clk with tick := moveTick step s.clk.tick }
      let old := clockStamp s.clk
      let d := s.dev.filterStep s.clk k.tick
      let d := (((d.htbStep old step k).timesStep step).ethStep step).medStep k step
      let d := d.setHtb { d.htb with bnd := 8 }
      let d := [20, 40, 80, 160].foldl (fun (d : Dev) len => d.frameEvent k len) d
      .next { s with clk := k, dev := (d.ppsTick k).issueAlarms k }

end Sys2Proof.Machine
end

