-- ==== Sys2Proof/Machine/TileCtl.lean ====
section
/-! DEFINITION. The control slots' arithmetic, moves and redirects (Tables 7.8 to 7.10, 7.15; R183, R184, R191 to R195,
R200, R204). -/
namespace Sys2Proof.Machine
open Sys2Proof

/-! ### Fields -/

def cfXd (f : BitVec 14) : Nat := bitsOf f.toNat 10 4
def cfXa (f : BitVec 14) : Nat := bitsOf f.toNat 6 4
def cfXb (f : BitVec 14) : Nat := bitsOf f.toNat 2 4
def cfImm (f : BitVec 14) : Word := BitVec.ofInt 32 (sext 10 f.toNat)
def cfShift (f : BitVec 14) : Nat := bitsOf f.toNat 1 5
/-- The low `n` bits are zero. -/
def cfZero (f : BitVec 14) (n : Nat) : Bool := bitsOf f.toNat 0 n == 0

/-! ### Arithmetic (R183) -/

/-- Xd takes a result, with Z and N. -/
def aluZn (ok : Bool) (xd : Nat) (v : Word) : Bundle → Bundle :=
  ctlSlot ok (fun b => (b.names [xd]).wr [⟨1, .x xd v⟩, ⟨1, .zn (znOf v).1 (znOf v).2⟩])

/-- All four flags of a sum or a difference. -/
def flagsOf (q : Word × Bool × Bool) : PendW := ⟨1, .znCv (znOf q.1).1 (znOf q.1).2 q.2.1 q.2.2⟩

def aluZncv (ok : Bool) (xd : Nat) (q : Word × Bool × Bool) : Bundle → Bundle :=
  ctlSlot ok (fun b => (b.names [xd]).wr [⟨1, .x xd q.1⟩, flagsOf q])

def execNop (sl : Slot) (f : BitVec 14) (s : State) : Out := onMem (tileOp sl (fun _ => ctlSlot (f == 0) id)) s
def execAdd (sl : Slot) (f : BitVec 14) (s : State) : Out :=
  onMem (tileOp sl (fun c => aluZncv (cfZero f 2) (cfXd f) (addFlags (c.r.xr (cfXa f)) (c.r.xr (cfXb f))))) s
def execSub (sl : Slot) (f : BitVec 14) (s : State) : Out :=
  onMem (tileOp sl (fun c => aluZncv (cfZero f 2) (cfXd f) (subFlags (c.r.xr (cfXa f)) (c.r.xr (cfXb f))))) s
def execAnd (sl : Slot) (f : BitVec 14) (s : State) : Out :=
  onMem (tileOp sl (fun c => aluZn (cfZero f 2) (cfXd f) (c.r.xr (cfXa f) &&& c.r.xr (cfXb f)))) s
def execOr (sl : Slot) (f : BitVec 14) (s : State) : Out :=
  onMem (tileOp sl (fun c => aluZn (cfZero f 2) (cfXd f) (c.r.xr (cfXa f) ||| c.r.xr (cfXb f)))) s
def execXor (sl : Slot) (f : BitVec 14) (s : State) : Out :=
  onMem (tileOp sl (fun c => aluZn (cfZero f 2) (cfXd f) (c.r.xr (cfXa f) ^^^ c.r.xr (cfXb f)))) s
def execShl (sl : Slot) (f : BitVec 14) (s : State) : Out :=
  onMem (tileOp sl (fun c => aluZn (cfZero f 2) (cfXd f) (c.r.xr (cfXa f) <<< (bitsOf (c.r.xr (cfXb f)).toNat 0 5)))) s
def execShr (sl : Slot) (f : BitVec 14) (s : State) : Out :=
  onMem (tileOp sl (fun c => aluZn (cfZero f 2) (cfXd f)
    ((c.r.xr (cfXa f)).sshiftRight (bitsOf (c.r.xr (cfXb f)).toNat 0 5)))) s
def execShru (sl : Slot) (f : BitVec 14) (s : State) : Out :=
  onMem (tileOp sl (fun c => aluZn (cfZero f 2) (cfXd f) (c.r.xr (cfXa f) >>> (bitsOf (c.r.xr (cfXb f)).toNat 0 5)))) s
def execCmp (sl : Slot) (f : BitVec 14) (s : State) : Out :=
  onMem (tileOp sl (fun c => ctlSlot (cfZero f 2 && cfXd f == 0) (fun b =>
    b.wr [flagsOf (subFlags (c.r.xr (cfXa f)) (c.r.xr (cfXb f)))]))) s
def execAddi (sl : Slot) (f : BitVec 14) (s : State) : Out :=
  onMem (tileOp sl (fun c => aluZncv true (cfXd f) (addFlags (c.r.xr (cfXd f)) (cfImm f)))) s
def execMovi (sl : Slot) (f : BitVec 14) (s : State) : Out :=
  onMem (tileOp sl (fun _ => ctlSlot true (fun b => (b.names [cfXd f]).wr [⟨1, .x (cfXd f) (cfImm f)⟩]))) s
def execCmpi (sl : Slot) (f : BitVec 14) (s : State) : Out :=
  onMem (tileOp sl (fun c => ctlSlot true (fun b => b.wr [flagsOf (subFlags (c.r.xr (cfXd f)) (cfImm f))]))) s
def execShli (sl : Slot) (f : BitVec 14) (s : State) : Out :=
  onMem (tileOp sl (fun c => aluZn (cfZero f 1) (cfXd f) (c.r.xr (cfXa f) <<< cfShift f))) s
def execShri (sl : Slot) (f : BitVec 14) (s : State) : Out :=
  onMem (tileOp sl (fun c => aluZn (cfZero f 1) (cfXd f) ((c.r.xr (cfXa f)).sshiftRight (cfShift f)))) s
def execShrui (sl : Slot) (f : BitVec 14) (s : State) : Out :=
  onMem (tileOp sl (fun c => aluZn (cfZero f 1) (cfXd f) (c.r.xr (cfXa f) >>> cfShift f))) s

/-! ### Moves (R184, Table 7.15) -/

/-- A register by number takes a value. -/
def moveTo (n : Nat) (v : Word) (b : Bundle) : Bundle :=
  let q := regWrite n 1 v
  { (b.names (regDest n)).wr q.1 with fws := b.fws ++ q.2 }

def execMovr (sl : Slot) (f : BitVec 14) (s : State) : Out :=
  onMem (tileOp sl (fun c =>
    ctlSlot (cfZero f 2 && decide (bitsOf f.toNat 8 6 ≤ 57) && decide (bitsOf f.toNat 2 6 ≤ 57)) (fun b =>
      moveTo (bitsOf f.toNat 8 6) (c.r.regRead (bitsOf f.toNat 2 6)) b))) s

def execPadd (sl : Slot) (f : BitVec 14) (s : State) : Out :=
  onMem (tileOp sl (fun c =>
    let i := bitsOf f.toNat 11 3
    ctlSlot (cfZero f 6 && !(bitOf f.toNat 10)) (fun b =>
      (b.names [16 + i]).wr [⟨1, .p i (c.r.pr i + c.r.xr (cfXa f))⟩]))) s

/-- CURTH and NXTTH as a register: bit 31 is NONE. -/
def thWord : Option Nat → Word
  | none => 0x80000000
  | some n => BitVec.ofNat 32 n

/-- A control register of Table 7.15. -/
def Tile.ctlRead (r : Tile) (tile n : Nat) : Word :=
  match n with
  | 0 => r.spc.setWidth 32 | 1 => r.ssr | 2 => r.ecause | 3 => r.faddr | 4 => thWord r.curth | 5 => r.curctx
  | 6 => thWord r.nxtth | 7 => r.nxtctx | 8 => r.ks0 | 9 => r.ks1 | _ => BitVec.ofNat 32 tile

/-- The write of a control register, where it may be written. -/
def ctlWrite (n : Nat) (v : Word) : Option TWrite :=
  match n with
  | 0 => some (.spc v) | 1 => some (.ssr v) | 8 => some (.ks 0 v) | 9 => some (.ks 1 v) | _ => none

def execMovc (sl : Slot) (f : BitVec 14) (s : State) : Out :=
  onMem (tileOp sl (fun c =>
    let n := bitsOf f.toNat 8 6
    let cr := bitsOf f.toNat 4 4
    let write := bitOf f.toNat 3
    let ok := cfZero f 3 && decide (n ≤ 57) && decide (cr ≤ 10) &&
      (if write then c.r.eblk && (ctlWrite cr 0).isSome else c.r.eblk || cr == 4 || cr == 10)
    ctlSlot ok (fun b =>
      if write then
        match ctlWrite cr (c.r.regRead n) with
        | some w => b.wr [⟨1, w⟩]
        | none => b
      else moveTo n (c.r.ctlRead sl.tile cr) b))) s

/-! ### Redirects (R191, R192) -/

/-- A redirecting operation, illegal in a slot of another. -/
def redirect (c : OpCtx) (a : After) (b : Bundle) : Bundle :=
  let b := { b with flow := some a }
  if c.r.slots = 0 then b else b.illegal

/-- A conditional branch. -/
def branch (c : OpCtx) (cond : Nat) (target : BitVec 14) (b : Bundle) : Bundle :=
  redirect c (if condHolds c.r.sr cond then .jump target else .onward) b

/-- REP and REPI at the bundle's address. -/
def repeatOp (c : OpCtx) (k len : Nat) (count : BitVec 16) (b : Bundle) : Bundle :=
  let ls := c.r.pc + 3
  let le := ls + BitVec.ofNat 14 (len - 1)
  let b := redirect c (.jump (if count = 0 then le + 1 else ls)) b
  { b with fws := b.fws ++ [⟨2, .ls k ls⟩, ⟨2, .le k le⟩, ⟨2, .lc k count⟩] }

def execBcc (sl : Slot) (f : BitVec 14) (s : State) : Out :=
  onMem (tileOp sl (fun c => ctlSlot (decide (cfXd f ≤ 12))
    (branch c (cfXd f) (c.r.pc + BitVec.ofInt 14 (sext 10 f.toNat))))) s
def execBrx (sl : Slot) (f : BitVec 14) (s : State) : Out :=
  onMem (tileOp sl (fun c => ctlSlot (decide (cfXd f ≤ 12) && cfZero f 6)
    (branch c (cfXd f) ((c.r.xr (cfXa f)).setWidth 14)))) s
def execRep (sl : Slot) (f : BitVec 14) (s : State) : Out :=
  onMem (tileOp sl (fun c => ctlSlot (bitsOf f.toNat 12 2 != 3)
    (repeatOp c (bitsOf f.toNat 12 2) (bitsOf f.toNat 0 8 + 1) ((c.r.xr (bitsOf f.toNat 8 4)).setWidth 16)))) s
def execEndrep (sl : Slot) (f : BitVec 14) (s : State) : Out :=
  onMem (tileOp sl (fun _ => ctlSlot (bitsOf f.toNat 12 2 != 3 && cfZero f 12) (fun b =>
    { b with fws := b.fws ++ [⟨2, .lc (bitsOf f.toNat 12 2) 0⟩] }))) s

/-- RESUME: kernel state only, and not while NXTTH holds NONE. -/
def execResume (sl : Slot) (f : BitVec 14) (s : State) : Out :=
  onMem (tileOp sl (fun c => ctlSlot (f == 0 && c.r.eblk && c.r.nxtth.isSome) (redirect c (.resume c.r.spc)))) s
def execIdle (sl : Slot) (f : BitVec 14) (s : State) : Out :=
  onMem (tileOp sl (fun c => ctlSlot (f == 0 && c.r.eblk) (redirect c .idle))) s
def execWait (sl : Slot) (f : BitVec 14) (s : State) : Out :=
  onMem (tileOp sl (fun c => ctlSlot (cfZero f 9)
    (redirect c (.turn (.wait (c.r.xr (cfXd f)) (bitOf f.toNat 9)))))) s
def execYield (sl : Slot) (f : BitVec 14) (s : State) : Out :=
  onMem (tileOp sl (fun c => ctlSlot (f == 0) (redirect c (.turn .yield)))) s
def execTexit (sl : Slot) (f : BitVec 14) (s : State) : Out :=
  onMem (tileOp sl (fun c => ctlSlot (f == 0) (redirect c (.turn .texit)))) s

/-! ### The long control slot (Table 7.9) -/

def lfTop (f : BitVec 36) : Nat := bitsOf f.toNat 32 4
def lfImm (f : BitVec 36) : Word := f.setWidth 32

def execLmovi (sl : Slot) (f : BitVec 36) (s : State) : Out :=
  onMem (tileOp sl (fun _ => longSlot true (fun b => (b.names [lfTop f]).wr [⟨1, .x (lfTop f) (lfImm f)⟩]))) s
/-- Index 0 to 7 names P0 to P7, 8 to 15 B0 to B7: numbers 16 to 31 of Table 7.7. -/
def execLmova (sl : Slot) (f : BitVec 36) (s : State) : Out :=
  onMem (tileOp sl (fun _ => longSlot true (moveTo (16 + lfTop f) (lfImm f)))) s
/-- Index 0 to 7 names L0 to L7, 8 to 15 N0 to N7: numbers 32 to 47. -/
def execLmovn (sl : Slot) (f : BitVec 36) (s : State) : Out :=
  onMem (tileOp sl (fun _ => longSlot true (moveTo (32 + lfTop f) (lfImm f)))) s
def execLbcc (sl : Slot) (f : BitVec 36) (s : State) : Out :=
  onMem (tileOp sl (fun c => longSlot (decide (lfTop f ≤ 12) && bitsOf f.toNat 14 18 == 0)
    (branch c (lfTop f) (f.setWidth 14)))) s
def execLcall (sl : Slot) (f : BitVec 36) (s : State) : Out :=
  onMem (tileOp sl (fun c => longSlot (decide (lfTop f ≤ 12) && bitsOf f.toNat 14 18 == 0) (fun b =>
    let b := branch c (lfTop f) (f.setWidth 14) b
    if condHolds c.r.sr (lfTop f) then (b.names [15]).wr [⟨1, .x 15 ((c.r.pc + 3).setWidth 32)⟩] else b))) s
def execRepi (sl : Slot) (f : BitVec 36) (s : State) : Out :=
  onMem (tileOp sl (fun c => longSlot (bitsOf f.toNat 34 2 != 3 && bitsOf f.toNat 32 2 == 0 && bitsOf f.toNat 12 4 == 0)
    (repeatOp c (bitsOf f.toNat 34 2) (bitsOf f.toNat 0 12 + 1) (BitVec.ofNat 16 (bitsOf f.toNat 16 16))))) s

end Sys2Proof.Machine
end

