-- ==== Sys2Proof/Machine/TileMac.lean ====
section
/-! DEFINITION. The operations of the MAC slot (Tables 6.5, 7.2, 7.3; R161 to R166, R188). An operand is the slot's bits
below its opcode. -/
namespace Sys2Proof.Machine
open Sys2Proof

/-! ### Fields (Table 7.2) -/

def macMode (f : BitVec 17) : Nat := bitsOf f.toNat 15 2
def macAcc (f : BitVec 17) : Nat := bitsOf f.toNat 13 2
def macRa (f : BitVec 17) : Nat := bitsOf f.toNat 9 4
def macHa (f : BitVec 17) : Bool := bitOf f.toNat 8
def macRb (f : BitVec 17) : Nat := bitsOf f.toNat 4 4
def macHb (f : BitVec 17) : Bool := bitOf f.toNat 3

/-- Bits [2:0] are zero; a form that names a quad or a pair names an even register with its half bit zero. -/
def macZero (f : BitVec 17) (n : Nat) : Bool := bitsOf f.toNat 0 n == 0
def raEven (f : BitVec 17) : Bool := macRa f % 2 == 0 && !macHa f
def rbEven (f : BitVec 17) : Bool := macRb f % 2 == 0 && !macHb f
def macModeOk (f : BitVec 17) : Bool := decide (macMode f ≤ 2)

/-! ### Products (R161) -/

/-- A 16 × 16 product, doubled in fractional mode. -/
def mulFrac (sr : Word) (a b : Int) : Int := if srFrac sr then 2 * (a * b) else a * b

/-- A WIDE product. -/
def mulWide (sr : Word) (u w : Int) : Int := mulFrac sr u w / 65536

/-- An accumulator takes a sum by MODE: added, subtracted or written. -/
def accBy (sr : Word) (f : BitVec 17) (k : Nat) (v : Int) : PendW :=
  match macMode f with
  | 0 => ⟨4, .accAdd k v (srSat sr)⟩
  | 1 => ⟨4, .accAdd k (-v) (srSat sr)⟩
  | _ => ⟨4, .accSet k v (srSat sr)⟩

/-- A MAC form: the accumulators it updates and their sums. -/
def macForm (ok : Bool) (f : BitVec 17) (c : OpCtx) (sums : List (Nat × Int)) : Bundle → Bundle :=
  macSlot (ok && macModeOk f && macZero f 3) (fun b =>
    (b.names (sums.map (fun p => 64 + p.1))).wr (sums.map (fun p => accBy c.r.sr f p.1 p.2)))

/-- An operation that sets an accumulator to an exact result. -/
def accForm (ok : Bool) (f : BitVec 17) (c : OpCtx) (v : Int) : Bundle → Bundle :=
  macSlot (ok && macMode f == 0) (fun b =>
    (b.names [64 + macAcc f]).wr [⟨4, .accSet (macAcc f) v (srSat c.r.sr)⟩])

/-- An operation that writes an X register. -/
def macX (ok : Bool) (f : BitVec 17) (ws : List TWrite) : Bundle → Bundle :=
  macSlot (ok && macMode f == 0) (fun b => (b.names [macRa f]).wr (ws.map (fun w => ⟨2, w⟩)))

def OpCtx.acc (c : OpCtx) (f : BitVec 17) : Int := (c.r.ar (macAcc f)).toInt
def OpCtx.sa (c : OpCtx) (f : BitVec 17) : Int := c.r.halfI (macRa f) (macHa f)
def OpCtx.sb (c : OpCtx) (f : BitVec 17) : Int := c.r.halfI (macRb f) (macHb f)

def execMnop (sl : Slot) (f : BitVec 17) (s : State) : Out := onMem (tileOp sl (fun _ => macSlot (f == 0) id)) s

def execMac1 (sl : Slot) (f : BitVec 17) (s : State) : Out :=
  onMem (tileOp sl (fun c => macForm true f c [(macAcc f, mulFrac c.r.sr (c.sa f) (c.sb f))])) s

def execQcoef (sl : Slot) (f : BitVec 17) (s : State) : Out :=
  onMem (tileOp sl (fun c => macForm (macAcc f == 0 && rbEven f) f c
    ((List.range 4).map (fun i => (i, mulFrac c.r.sr (c.sa f) (c.r.lane (macRb f) i)))))) s

def execQsamp (sl : Slot) (f : BitVec 17) (s : State) : Out :=
  onMem (tileOp sl (fun c => macForm (macAcc f == 0 && raEven f) f c
    ((List.range 4).map (fun i => (i, mulFrac c.r.sr (c.r.lane (macRa f) i) (c.sb f)))))) s

def execDot4 (sl : Slot) (f : BitVec 17) (s : State) : Out :=
  onMem (tileOp sl (fun c => macForm (raEven f && rbEven f) f c
    [(macAcc f, (List.range 4).foldl
      (fun v i => v + mulFrac c.r.sr (c.r.lane (macRa f) i) (c.r.lane (macRb f) i)) 0)])) s

/-- CMPLX and CMPLXC: `g` is 1, or −1 for the conjugate version. -/
def cmplx (g : Int) (f : BitVec 17) (c : OpCtx) : Bundle → Bundle :=
  let p := mulFrac c.r.sr
  let x := c.r.lane (macRa f)
  let y := c.r.lane (macRb f)
  macForm (macAcc f % 2 == 0 && !macHa f && !macHb f) f c
    [(macAcc f, p (x 0) (y 0) - g * p (x 1) (y 1)), (macAcc f + 1, g * p (x 0) (y 1) + p (x 1) (y 0))]

def execCmplx (sl : Slot) (f : BitVec 17) (s : State) : Out := onMem (tileOp sl (cmplx 1 f)) s

/-- The conjugate version uses ac + bd and bc − ad. -/
def execCmplxc (sl : Slot) (f : BitVec 17) (s : State) : Out := onMem (tileOp sl (cmplx (-1) f)) s

/-- WIDE: `u` reads the 32-bit operands, `w` the half. -/
def wide (u : Word → Int) (w : BitVec 16 → Int) (f : BitVec 17) (c : OpCtx) : Bundle → Bundle :=
  let h := w (c.r.half (macRb f) (macHb f))
  macForm (macAcc f % 2 == 0 && raEven f) f c
    [(macAcc f, mulWide c.r.sr (u (c.r.xr (macRa f))) h), (macAcc f + 1, mulWide c.r.sr (u (c.r.xr (macRa f + 1))) h)]

def execWidess (sl : Slot) (f : BitVec 17) (s : State) : Out :=
  onMem (tileOp sl (wide (·.toInt) (·.toInt) f)) s
def execWideus (sl : Slot) (f : BitVec 17) (s : State) : Out :=
  onMem (tileOp sl (wide (fun v => (v.toNat : Int)) (·.toInt) f)) s
def execWidesu (sl : Slot) (f : BitVec 17) (s : State) : Out :=
  onMem (tileOp sl (wide (·.toInt) (fun v => (v.toNat : Int)) f)) s

def execAccadd (sl : Slot) (f : BitVec 17) (s : State) : Out :=
  onMem (tileOp sl (fun c => macForm (macZero f 6 && macRa f == 0 && !macHa f) f c
    [(macAcc f, (c.r.ar (bitsOf f.toNat 6 2)).toInt)])) s

def execAccneg (sl : Slot) (f : BitVec 17) (s : State) : Out :=
  onMem (tileOp sl (fun c => accForm (macZero f 13) f c (-(c.acc f)))) s

def execAccshi (sl : Slot) (f : BitVec 17) (s : State) : Out :=
  onMem (tileOp sl (fun c => accForm (macZero f 2 && macRa f == 0 && !macHa f) f c
    (shiftInt (c.acc f) (sext 6 (bitsOf f.toNat 2 6))))) s

def execAccshx (sl : Slot) (f : BitVec 17) (s : State) : Out :=
  onMem (tileOp sl (fun c => accForm (macZero f 9) f c
    (shiftInt (c.acc f) (sext 6 (c.r.xr (macRa f)).toNat)))) s

def execAccld (sl : Slot) (f : BitVec 17) (s : State) : Out :=
  onMem (tileOp sl (fun c => accForm (macZero f 9) f c (c.r.xr (macRa f)).toInt)) s

def execAccldh (sl : Slot) (f : BitVec 17) (s : State) : Out :=
  onMem (tileOp sl (fun c => accForm (macZero f 8) f c (c.sa f * 65536))) s

/-- What an extraction adds: EXS where it saturated. -/
def exsOf (sat : Bool) : List TWrite := if sat then [.sticky exsBit] else []

def execExt16 (sl : Slot) (f : BitVec 17) (s : State) : Out :=
  onMem (tileOp sl (fun c =>
    let q := ext16 (c.acc f) (srRnd c.r.sr) (srSat c.r.sr)
    let v := BitVec.ofInt 16 q.1
    macX (macZero f 8) f ((if macHa f then .xh (macRa f) v else .xl (macRa f) v) :: exsOf q.2))) s

def execExt32 (sl : Slot) (f : BitVec 17) (s : State) : Out :=
  onMem (tileOp sl (fun c =>
    let q := ext32 (c.acc f) (srSat c.r.sr)
    macX (macZero f 9) f (.x (macRa f) (BitVec.ofInt 32 q.1) :: exsOf q.2))) s

def execExtg (sl : Slot) (f : BitVec 17) (s : State) : Out :=
  onMem (tileOp sl (fun c =>
    macX (macZero f 9) f [.x (macRa f) (BitVec.ofInt 32 (c.acc f / 2 ^ 32))])) s

def execExpa (sl : Slot) (f : BitVec 17) (s : State) : Out :=
  onMem (tileOp sl (fun c =>
    macX (macZero f 9) f [.x (macRa f) (BitVec.ofInt 32 (expAcc (c.r.ar (macAcc f))))])) s

def OpCtx.expB (c : OpCtx) (f : BitVec 17) : Int := (expHalf (c.r.half (macRb f) (macHb f)) : Int)

def execExph (sl : Slot) (f : BitVec 17) (s : State) : Out :=
  onMem (tileOp sl (fun c =>
    macX (macZero f 3 && macAcc f == 0 && !macHa f) f [.x (macRa f) (BitVec.ofInt 32 (c.expB f))])) s

def execNorm (sl : Slot) (f : BitVec 17) (s : State) : Out :=
  onMem (tileOp sl (fun c =>
    let e := expAcc (c.r.ar (macAcc f))
    macSlot (macZero f 9 && macMode f == 0) (fun b => (b.names [macRa f, 64 + macAcc f]).wr
      [⟨2, .x (macRa f) (BitVec.ofInt 32 e)⟩, ⟨4, .accSet (macAcc f) (shiftInt (c.acc f) e) (srSat c.r.sr)⟩]))) s

/-- The smaller of the register's value and an exponent (R166). -/
def OpCtx.minExp (c : OpCtx) (f : BitVec 17) (e : Int) : TWrite :=
  .x (macRa f) (BitVec.ofInt 32 (if e < (c.r.xr (macRa f)).toInt then e else (c.r.xr (macRa f)).toInt))

def execExpmaxa (sl : Slot) (f : BitVec 17) (s : State) : Out :=
  onMem (tileOp sl (fun c => macX (macZero f 9) f [c.minExp f (expAcc (c.r.ar (macAcc f)))])) s

def execExpmaxh (sl : Slot) (f : BitVec 17) (s : State) : Out :=
  onMem (tileOp sl (fun c => macX (macZero f 3 && macAcc f == 0 && !macHa f) f [c.minExp f (c.expB f)])) s

def execAccz (sl : Slot) (f : BitVec 17) (s : State) : Out :=
  onMem (tileOp sl (fun _ => macSlot (macZero f 13 && macMode f == 0) (fun b =>
    (b.names [64 + macAcc f]).wr [⟨4, .accZero (macAcc f)⟩]))) s

end Sys2Proof.Machine
end

