-- ==== Sys2Proof/Machine/TileMem.lean ====
section
/-! DEFINITION. The operations of the memory slots (Tables 7.4 to 7.6; R151, R154, R155, R182, R190). `ecc` says what the
check bits of the word read say beside the marks of R155: 0 good, 1 corrected, 2 uncorrectable. -/
namespace Sys2Proof.Machine
open Sys2Proof

/-- The pointer's update, and the registers the operation names. -/
def pointerPart (c : OpCtx) (f : BitVec 16) (size : Nat) (dests : List Nat) (b : Bundle) : Bundle :=
  match c.r.pointerAfter f size with
  | some v => (b.names (dests ++ [16 + memPi f])).wr [⟨1, .p (memPi f) v⟩]
  | none => b.names dests

/-- A load of `size` bytes: `w` gives the writes of the value read; zero and MERR where it is uncorrectable. -/
def loadOp (ok : Bool) (size : Nat) (dests : List Nat) (w : Nat → List TWrite) (f : BitVec 16) (ecc : Nat) (c : OpCtx) :
    Bundle → Bundle :=
  memSlot (ok && memForm f) (fun b =>
    let a := c.r.addrOf f size
    let b := pointerPart c f size dests b
    if accessFault a size ≠ 0 then b.fault (accessFault a size) a.toNat
    else
      let ue := ecc == 2 || c.ue.ueIn a.toNat size
      let v := if ue then 0 else c.m.dmSeen b.was c.p a.toNat size
      let b := b.wr ((w v ++ (if ue then [TWrite.sticky merrBit] else [])).map (fun w => ⟨3, w⟩))
      if ue then { b with ues := b.ues ++ [a.toNat] }
      else if ecc = 1 then { b with ces := b.ces ++ [a.toNat] } else b)

/-- A store of `size` bytes; two stores make the bundle illegal (R181). -/
def storeOp (ok : Bool) (size : Nat) (v : BitVec 64) (mark : Bool) (f : BitVec 16) (c : OpCtx) : Bundle → Bundle :=
  memSlot (ok && memForm f) (fun b =>
    let a := c.r.addrOf f size
    let b := pointerPart c f size [] b
    let b := if b.stores.isEmpty then b else b.illegal
    if accessFault a size ≠ 0 then b.fault (accessFault a size) a.toNat
    else { b with stores := b.stores ++ [{ addr := a.toNat, size := size, val := v, mark := mark }] })

def execDnop (sl : Slot) (f : BitVec 16) (s : State) : Out := onMem (tileOp sl (fun _ => memSlot (f == 0) id)) s

def execLdhL (sl : Slot) (f : BitVec 16) (ecc : Nat) (s : State) : Out :=
  onMem (tileOp sl (loadOp true 2 [memRd f] (fun v => [.xl (memRd f) (BitVec.ofNat 16 v)]) f ecc)) s
def execLdhH (sl : Slot) (f : BitVec 16) (ecc : Nat) (s : State) : Out :=
  onMem (tileOp sl (loadOp true 2 [memRd f] (fun v => [.xh (memRd f) (BitVec.ofNat 16 v)]) f ecc)) s
def execLdhs (sl : Slot) (f : BitVec 16) (ecc : Nat) (s : State) : Out :=
  onMem (tileOp sl (loadOp true 2 [memRd f] (fun v => [.x (memRd f) (BitVec.ofInt 32 (sext 16 v))]) f ecc)) s
def execLdw (sl : Slot) (f : BitVec 16) (ecc : Nat) (s : State) : Out :=
  onMem (tileOp sl (loadOp true 4 [memRd f] (fun v => [.x (memRd f) (BitVec.ofNat 32 v)]) f ecc)) s
def execLdd (sl : Slot) (f : BitVec 16) (ecc : Nat) (s : State) : Out :=
  onMem (tileOp sl (loadOp (memRd f % 2 == 0) 8 [memRd f, memRd f + 1]
    (fun v => [.x (memRd f) (BitVec.ofNat 32 v), .x (memRd f + 1) (BitVec.ofNat 32 (v / 2 ^ 32))]) f ecc)) s
def execLda (sl : Slot) (f : BitVec 16) (ecc : Nat) (s : State) : Out :=
  onMem (tileOp sl (loadOp (decide (memRd f < 4)) 8 [64 + memRd f]
    (fun v => [.accSet (memRd f) (sext 40 v) true]) f ecc)) s

def execSthL (sl : Slot) (f : BitVec 16) (mark : Bool) (s : State) : Out :=
  onMem (tileOp sl (fun c => storeOp true 2 ((c.r.half (memRd f) false).setWidth 64) mark f c)) s
def execSthH (sl : Slot) (f : BitVec 16) (mark : Bool) (s : State) : Out :=
  onMem (tileOp sl (fun c => storeOp true 2 ((c.r.half (memRd f) true).setWidth 64) mark f c)) s
def execStw (sl : Slot) (f : BitVec 16) (s : State) : Out :=
  onMem (tileOp sl (fun c => storeOp true 4 ((c.r.xr (memRd f)).setWidth 64) false f c)) s
def execStd (sl : Slot) (f : BitVec 16) (s : State) : Out :=
  onMem (tileOp sl (fun c => storeOp (memRd f % 2 == 0) 8
    ((c.r.xr (memRd f)).setWidth 64 ||| ((c.r.xr (memRd f + 1)).setWidth 64 <<< 32)) false f c)) s
def execSta (sl : Slot) (f : BitVec 16) (s : State) : Out :=
  onMem (tileOp sl (fun c => storeOp (decide (memRd f < 4)) 8 ((c.r.ar (memRd f)).signExtend 64) false f c)) s

def execLea (sl : Slot) (f : BitVec 16) (s : State) : Out :=
  onMem (tileOp sl (fun c => memSlot (memForm f) (fun b =>
    (pointerPart c f 1 [memRd f] b).wr [⟨1, .x (memRd f) (c.r.addrOf f 1)⟩]))) s

end Sys2Proof.Machine
end

