-- ==== Sys2Proof/Machine/TileUnit.lean ====
section
/-! DEFINITION. The control operations that reach other units (Tables 7.8, 7.9, 7.13; R194 to R199). -/
namespace Sys2Proof.Machine
open Sys2Proof

/-- A unit operation that writes the registers named. -/
def unitSlot (ok : Bool) (dests : List Nat) (u : UnitOp) : Bundle → Bundle :=
  ctlSlot ok (fun b => { b.names dests with unit := some u })

/-- The Hopper that an X register names. -/
def OpCtx.hop (c : OpCtx) (x : Nat) : Nat := bitsOf (c.r.xr x).toNat 0 10

def execSignal (sl : Slot) (f : BitVec 14) (s : State) : Out :=
  onMem (tileOp sl (fun c => unitSlot (cfZero f 5) []
    (.signal (bitsOf (c.r.xr (cfXd f)).toNat 0 13) (bitsOf f.toNat 5 5)))) s
def execSignali (sl : Slot) (f : BitVec 36) (s : State) : Out :=
  onMem (tileOp sl (fun _ => longSlot (bitsOf f.toNat 5 11 == 0 && bitsOf f.toNat 29 7 == 0) (fun b =>
    { b with unit := some (.signal (bitsOf f.toNat 16 13) (bitsOf f.toNat 0 5)) }))) s
def execFlagtake (sl : Slot) (f : BitVec 14) (s : State) : Out :=
  onMem (tileOp sl (fun c => unitSlot (cfZero f 6) [cfXd f] (.flagtake (cfXd f) (c.r.xr (cfXa f))))) s
def execTime (sl : Slot) (f : BitVec 14) (s : State) : Out :=
  onMem (tileOp sl (fun _ => unitSlot (cfZero f 10 && cfXd f % 2 == 0) [cfXd f, cfXd f + 1] (.time (cfXd f)))) s
def execAlmarm (sl : Slot) (f : BitVec 14) (s : State) : Out :=
  onMem (tileOp sl (fun c => unitSlot (cfZero f 7) [cfXd f] (.almarm (cfXd f) (c.r.pr (bitsOf f.toNat 7 3)) sl.blkCe sl.blkUe))) s
def execAlmdis (sl : Slot) (f : BitVec 14) (s : State) : Out :=
  onMem (tileOp sl (fun c => unitSlot (cfZero f 6) [cfXd f] (.almdis (cfXd f) (c.hop (cfXa f))))) s
def execHput (sl : Slot) (f : BitVec 14) (s : State) : Out :=
  onMem (tileOp sl (fun c => unitSlot (cfZero f 6) [] (.hput (c.hop (cfXd f)) (c.r.xr (cfXa f))))) s
def execHcommit (sl : Slot) (f : BitVec 14) (s : State) : Out :=
  onMem (tileOp sl (fun c => unitSlot (cfZero f 3) [cfXd f] (.hcommit (cfXd f) (c.hop (cfXa f)) (bitsOf f.toNat 3 3)))) s
def execHabort (sl : Slot) (f : BitVec 14) (s : State) : Out :=
  onMem (tileOp sl (fun c => unitSlot (cfZero f 6) [cfXd f] (.habort (cfXd f) (c.hop (cfXa f))))) s
/-- `ecc` is what the check bits of the queue SRAM word say (R244). -/
def execHget (sl : Slot) (f : BitVec 14) (ecc : Nat) (s : State) : Out :=
  onMem (tileOp sl (fun c => unitSlot (cfZero f 6 && cfXd f % 2 == 0) [cfXd f, cfXd f + 1]
    (.hget (cfXd f) (c.hop (cfXa f)) ecc))) s
def execHnext (sl : Slot) (f : BitVec 14) (s : State) : Out :=
  onMem (tileOp sl (fun c => unitSlot (cfZero f 6) [cfXd f] (.hnext (cfXd f) (c.hop (cfXa f))))) s
def execHmark (sl : Slot) (f : BitVec 14) (s : State) : Out :=
  onMem (tileOp sl (fun c => unitSlot (cfZero f 6) [cfXd f] (.hmark (cfXd f) (c.hop (cfXa f))))) s
def execHrewind (sl : Slot) (f : BitVec 14) (s : State) : Out :=
  onMem (tileOp sl (fun c => unitSlot (cfZero f 6) [cfXd f] (.hrewind (cfXd f) (c.hop (cfXa f))))) s
def execHrelease (sl : Slot) (f : BitVec 14) (s : State) : Out :=
  onMem (tileOp sl (fun c => unitSlot (cfZero f 6) [cfXd f] (.hrelease (cfXd f) (c.hop (cfXa f))))) s
def execDmapost (sl : Slot) (f : BitVec 14) (s : State) : Out :=
  onMem (tileOp sl (fun c => unitSlot (cfZero f 5) [cfXd f]
    (.dmapost (cfXd f) (bitsOf f.toNat 8 2) (c.r.pr (bitsOf f.toNat 5 3))))) s
def execDmaabort (sl : Slot) (f : BitVec 14) (s : State) : Out :=
  onMem (tileOp sl (fun _ => unitSlot (cfZero f 8) [cfXd f] (.dmaabort (cfXd f) (bitsOf f.toNat 8 2)))) s
def execDmaq (sl : Slot) (f : BitVec 14) (s : State) : Out :=
  onMem (tileOp sl (fun _ => unitSlot (cfZero f 8) [cfXd f] (.dmaq (cfXd f) (bitsOf f.toNat 8 2)))) s

end Sys2Proof.Machine
end

