-- ==== Sys2Proof/Machine/Dispatch.lean ====
section
/-! DEFINITION. One arm per command of the table: the command's meaning, called by its full name. -/
namespace Sys2Proof.Machine
open Sys2Proof
def exec (i : Instr) (s : State) : Host.Outcome State Fault Refusal :=
  match i with
  | .powerOn => Sys2Proof.Machine.execPowerOn s
  | .rstNAssert => Sys2Proof.Machine.execRstNAssert s
  | .internalResetEnd ember => Sys2Proof.Machine.execInternalResetEnd ember s
  | .supplyFault => Sys2Proof.Machine.execSupplyFault s
  | .controlRestart digestOk stateOk => Sys2Proof.Machine.execControlRestart digestOk stateOk s
  | .controlRestartDone => Sys2Proof.Machine.execControlRestartDone s
  | .pfwAssert last => Sys2Proof.Machine.execPfwAssert last s
  | .pfwRelease => Sys2Proof.Machine.execPfwRelease s
  | .perstAssert => Sys2Proof.Machine.execPerstAssert s
  | .pcieHotReset => Sys2Proof.Machine.execPcieHotReset s
  | .pcieConfigWrite bme d3hot msixEn fmask devCtl => Sys2Proof.Machine.execPcieConfigWrite bme d3hot msixEn fmask devCtl s
  | .tick cyclesA cyclesB fault0 fault1 service ctrlCe => Sys2Proof.Machine.execTick cyclesA cyclesB fault0 fault1 service ctrlCe s
  | .frameBoundary len => Sys2Proof.Machine.execFrameBoundary len s
  | .windowClose len => Sys2Proof.Machine.execWindowClose len s
  | .refRecover b => Sys2Proof.Machine.execRefRecover b s
  | .ppsInEdge dev => Sys2Proof.Machine.execPpsInEdge dev s
  | .ptpEventRx port typ age => Sys2Proof.Machine.execPtpEventRx port typ age s
  | .esmcRx port dnu => Sys2Proof.Machine.execEsmcRx port dnu s
  | .servoUpdate slave0 slave1 data0 data1 offset utc => Sys2Proof.Machine.execServoUpdate slave0 slave1 data0 data1 offset utc s
  | .sourceLossTimeout => Sys2Proof.Machine.execSourceLossTimeout s
  | .holdoverLimit => Sys2Proof.Machine.execHoldoverLimit s
  | .timeStep => Sys2Proof.Machine.execTimeStep s
  | .alarmFire sub => Sys2Proof.Machine.execAlarmFire sub s
  | .hearthStatus o => Sys2Proof.Machine.execHearthStatus o s
  | .setTimeOfDay o stamp => Sys2Proof.Machine.execSetTimeOfDay o stamp s
  | .sourceEnable o enables => Sys2Proof.Machine.execSourceEnable o enables s
  | .forceHoldover o hold => Sys2Proof.Machine.execForceHoldover o hold s
  | .alarmArm o slot absolute replace target period typ targets => Sys2Proof.Machine.execAlarmArm o slot absolute replace target period typ targets s
  | .alarmDisarm o slot => Sys2Proof.Machine.execAlarmDisarm o slot s
  | .alarmRead o slot => Sys2Proof.Machine.execAlarmRead o slot s
  | .stepPolicy o thresh slew svc => Sys2Proof.Machine.execStepPolicy o thresh slew svc s
  | .downstreamFrameTx q => Sys2Proof.Machine.execDownstreamFrameTx q s
  | .latchPoint => Sys2Proof.Machine.execLatchPoint s
  | .laneCmdPacket q c => Sys2Proof.Machine.execLaneCmdPacket q c s
  | .upstreamFrame q comma codes spaced rt => Sys2Proof.Machine.execUpstreamFrame q comma codes spaced rt s
  | .telemetryPacket q => Sys2Proof.Machine.execTelemetryPacket q s
  | .turnaroundMiss q => Sys2Proof.Machine.execTurnaroundMiss q s
  | .losAssert q => Sys2Proof.Machine.execLosAssert q s
  | .losRelease q => Sys2Proof.Machine.execLosRelease q s
  | .trainTimeout q => Sys2Proof.Machine.execTrainTimeout q s
  | .holdoffEnd q => Sys2Proof.Machine.execHoldoffEnd q s
  | .trainingWaveStart => Sys2Proof.Machine.execTrainingWaveStart s
  | .relockTimeout q => Sys2Proof.Machine.execRelockTimeout q s
  | .lineCmdTimeout n => Sys2Proof.Machine.execLineCmdTimeout n s
  | .stateAckTimeout n => Sys2Proof.Machine.execStateAckTimeout n s
  | .mailboxTimeout q => Sys2Proof.Machine.execMailboxTimeout q s
  | .laneDisableEnd q => Sys2Proof.Machine.execLaneDisableEnd q s
  | .loopbackEnd q => Sys2Proof.Machine.execLoopbackEnd q s
  | .retrainBegin q => Sys2Proof.Machine.execRetrainBegin q s
  | .laneEnable o mask enable => Sys2Proof.Machine.execLaneEnable o mask enable s
  | .laneStatus o lane => Sys2Proof.Machine.execLaneStatus o lane s
  | .laneRetrain o lane full reset => Sys2Proof.Machine.execLaneRetrain o lane full reset s
  | .laneLoopback o lane ticks => Sys2Proof.Machine.execLaneLoopback o lane ticks s
  | .lineActivate o line active => Sys2Proof.Machine.execLineActivate o line active s
  | .lineSetState o line mask feed ring feedP => Sys2Proof.Machine.execLineSetState o line mask feed ring feedP s
  | .lineCommand o line opc args => Sys2Proof.Machine.execLineCommand o line opc args s
  | .lineActionWrite o line entry a => Sys2Proof.Machine.execLineActionWrite o line entry a s
  | .reflexWrite o line reflex x => Sys2Proof.Machine.execReflexWrite o line reflex x s
  | .mailboxSend o lane typ payload => Sys2Proof.Machine.execMailboxSend o lane typ payload s
  | .laneExpect o lane cls minVer lines feats => Sys2Proof.Machine.execLaneExpect o lane cls minVer lines feats s
  | .lineRead o line => Sys2Proof.Machine.execLineRead o line s
  | .streamSlot n => Sys2Proof.Machine.execStreamSlot n s
  | .filterBoundaryApply => Sys2Proof.Machine.execFilterBoundaryApply s
  | .fceCmdPacket c => Sys2Proof.Machine.execFceCmdPacket c s
  | .filterStreamConfig o stream tap rate hop ticks prio alt => Sys2Proof.Machine.execFilterStreamConfig o stream tap rate hop ticks prio alt s
  | .filterCoefWrite o stream bankB first ws => Sys2Proof.Machine.execFilterCoefWrite o stream bankB first ws s
  | .filterCoefRead o stream bankB first n => Sys2Proof.Machine.execFilterCoefRead o stream bankB first n s
  | .filterBankSelect o stream bankB => Sys2Proof.Machine.execFilterBankSelect o stream bankB s
  | .filterStart o stream flush => Sys2Proof.Machine.execFilterStart o stream flush s
  | .filterStop o stream => Sys2Proof.Machine.execFilterStop o stream s
  | .filterStopSwapStart o stream named bankB => Sys2Proof.Machine.execFilterStopSwapStart o stream named bankB s
  | .filterRamp o stream gm ga ticks => Sys2Proof.Machine.execFilterRamp o stream gm ga ticks s
  | .filterDetectorSet o stream det x => Sys2Proof.Machine.execFilterDetectorSet o stream det x s
  | .filterActionWrite o stream entry a => Sys2Proof.Machine.execFilterActionWrite o stream entry a s
  | .filterProtoWrite o set t first rows cs => Sys2Proof.Machine.execFilterProtoWrite o set t first rows cs s
  | .filterStatus o stream => Sys2Proof.Machine.execFilterStatus o stream s
  | .sensorConvert vals => Sys2Proof.Machine.execSensorConvert vals s
  | .sensorUpdate => Sys2Proof.Machine.execSensorUpdate s
  | .laneScanStart q => Sys2Proof.Machine.execLaneScanStart q s
  | .laneScanEnd q errs errsT => Sys2Proof.Machine.execLaneScanEnd q errs errsT s
  | .laneCalApplyStep q => Sys2Proof.Machine.execLaneCalApplyStep q s
  | .rankRecalMeasure r bad => Sys2Proof.Machine.execRankRecalMeasure r bad s
  | .rankRecalApplyStep r => Sys2Proof.Machine.execRankRecalApplyStep r s
  | .recordInterval => Sys2Proof.Machine.execRecordInterval s
  | .calRecordWriteDone => Sys2Proof.Machine.execCalRecordWriteDone s
  | .calStatus o kind n ch => Sys2Proof.Machine.execCalStatus o kind n ch s
  | .calRun o kind n ch => Sys2Proof.Machine.execCalRun o kind n ch s
  | .calPin o kind n ch pin => Sys2Proof.Machine.execCalPin o kind n ch pin s
  | .calSet o kind n delay thresh => Sys2Proof.Machine.execCalSet o kind n delay thresh s
  | .calSave o => Sys2Proof.Machine.execCalSave o s
  | .calRecordRead o slot => Sys2Proof.Machine.execCalRecordRead o slot s
  | .dataMemoryClearDone p => Sys2Proof.Machine.execDataMemoryClearDone p s
  | .dmaDescStart t c => Sys2Proof.Machine.execDmaDescStart t c s
  | .dmaDescComplete t c moved poison ces ues => Sys2Proof.Machine.execDmaDescComplete t c moved poison ces ues s
  | .tileStatus o t => Sys2Proof.Machine.execTileStatus o t s
  | .tileMapRead o => Sys2Proof.Machine.execTileMapRead o s
  | .tileRowStatus o p memory => Sys2Proof.Machine.execTileRowStatus o p memory s
  | .mnop sl f => Sys2Proof.Machine.execMnop sl f s
  | .mac1 sl f => Sys2Proof.Machine.execMac1 sl f s
  | .qcoef sl f => Sys2Proof.Machine.execQcoef sl f s
  | .qsamp sl f => Sys2Proof.Machine.execQsamp sl f s
  | .dot4 sl f => Sys2Proof.Machine.execDot4 sl f s
  | .cmplx sl f => Sys2Proof.Machine.execCmplx sl f s
  | .cmplxc sl f => Sys2Proof.Machine.execCmplxc sl f s
  | .widess sl f => Sys2Proof.Machine.execWidess sl f s
  | .wideus sl f => Sys2Proof.Machine.execWideus sl f s
  | .widesu sl f => Sys2Proof.Machine.execWidesu sl f s
  | .accadd sl f => Sys2Proof.Machine.execAccadd sl f s
  | .accneg sl f => Sys2Proof.Machine.execAccneg sl f s
  | .accshi sl f => Sys2Proof.Machine.execAccshi sl f s
  | .accshx sl f => Sys2Proof.Machine.execAccshx sl f s
  | .accld sl f => Sys2Proof.Machine.execAccld sl f s
  | .accldh sl f => Sys2Proof.Machine.execAccldh sl f s
  | .ext16 sl f => Sys2Proof.Machine.execExt16 sl f s
  | .ext32 sl f => Sys2Proof.Machine.execExt32 sl f s
  | .extg sl f => Sys2Proof.Machine.execExtg sl f s
  | .expa sl f => Sys2Proof.Machine.execExpa sl f s
  | .exph sl f => Sys2Proof.Machine.execExph sl f s
  | .norm sl f => Sys2Proof.Machine.execNorm sl f s
  | .expmaxa sl f => Sys2Proof.Machine.execExpmaxa sl f s
  | .expmaxh sl f => Sys2Proof.Machine.execExpmaxh sl f s
  | .accz sl f => Sys2Proof.Machine.execAccz sl f s
  | .dnop sl f => Sys2Proof.Machine.execDnop sl f s
  | .ldhL sl f ecc => Sys2Proof.Machine.execLdhL sl f ecc s
  | .ldhH sl f ecc => Sys2Proof.Machine.execLdhH sl f ecc s
  | .ldhs sl f ecc => Sys2Proof.Machine.execLdhs sl f ecc s
  | .ldw sl f ecc => Sys2Proof.Machine.execLdw sl f ecc s
  | .ldd sl f ecc => Sys2Proof.Machine.execLdd sl f ecc s
  | .sthL sl f mark => Sys2Proof.Machine.execSthL sl f mark s
  | .sthH sl f mark => Sys2Proof.Machine.execSthH sl f mark s
  | .stw sl f => Sys2Proof.Machine.execStw sl f s
  | .std sl f => Sys2Proof.Machine.execStd sl f s
  | .lda sl f ecc => Sys2Proof.Machine.execLda sl f ecc s
  | .sta sl f => Sys2Proof.Machine.execSta sl f s
  | .lea sl f => Sys2Proof.Machine.execLea sl f s
  | .nop sl f => Sys2Proof.Machine.execNop sl f s
  | .add sl f => Sys2Proof.Machine.execAdd sl f s
  | .sub sl f => Sys2Proof.Machine.execSub sl f s
  | .and sl f => Sys2Proof.Machine.execAnd sl f s
  | .or sl f => Sys2Proof.Machine.execOr sl f s
  | .xor sl f => Sys2Proof.Machine.execXor sl f s
  | .shl sl f => Sys2Proof.Machine.execShl sl f s
  | .shr sl f => Sys2Proof.Machine.execShr sl f s
  | .shru sl f => Sys2Proof.Machine.execShru sl f s
  | .cmp sl f => Sys2Proof.Machine.execCmp sl f s
  | .addi sl f => Sys2Proof.Machine.execAddi sl f s
  | .movi sl f => Sys2Proof.Machine.execMovi sl f s
  | .cmpi sl f => Sys2Proof.Machine.execCmpi sl f s
  | .shli sl f => Sys2Proof.Machine.execShli sl f s
  | .shri sl f => Sys2Proof.Machine.execShri sl f s
  | .shrui sl f => Sys2Proof.Machine.execShrui sl f s
  | .movr sl f => Sys2Proof.Machine.execMovr sl f s
  | .padd sl f => Sys2Proof.Machine.execPadd sl f s
  | .movc sl f => Sys2Proof.Machine.execMovc sl f s
  | .bcc sl f => Sys2Proof.Machine.execBcc sl f s
  | .brx sl f => Sys2Proof.Machine.execBrx sl f s
  | .rep sl f => Sys2Proof.Machine.execRep sl f s
  | .endrep sl f => Sys2Proof.Machine.execEndrep sl f s
  | .resume sl f => Sys2Proof.Machine.execResume sl f s
  | .idle sl f => Sys2Proof.Machine.execIdle sl f s
  | .signal sl f => Sys2Proof.Machine.execSignal sl f s
  | .wait sl f => Sys2Proof.Machine.execWait sl f s
  | .yield sl f => Sys2Proof.Machine.execYield sl f s
  | .texit sl f => Sys2Proof.Machine.execTexit sl f s
  | .flagtake sl f => Sys2Proof.Machine.execFlagtake sl f s
  | .time sl f => Sys2Proof.Machine.execTime sl f s
  | .almarm sl f => Sys2Proof.Machine.execAlmarm sl f s
  | .almdis sl f => Sys2Proof.Machine.execAlmdis sl f s
  | .hput sl f => Sys2Proof.Machine.execHput sl f s
  | .hcommit sl f => Sys2Proof.Machine.execHcommit sl f s
  | .habort sl f => Sys2Proof.Machine.execHabort sl f s
  | .hget sl f ecc => Sys2Proof.Machine.execHget sl f ecc s
  | .hnext sl f => Sys2Proof.Machine.execHnext sl f s
  | .hmark sl f => Sys2Proof.Machine.execHmark sl f s
  | .hrewind sl f => Sys2Proof.Machine.execHrewind sl f s
  | .hrelease sl f => Sys2Proof.Machine.execHrelease sl f s
  | .dmapost sl f => Sys2Proof.Machine.execDmapost sl f s
  | .dmaabort sl f => Sys2Proof.Machine.execDmaabort sl f s
  | .dmaq sl f => Sys2Proof.Machine.execDmaq sl f s
  | .lmovi sl f => Sys2Proof.Machine.execLmovi sl f s
  | .lmova sl f => Sys2Proof.Machine.execLmova sl f s
  | .lmovn sl f => Sys2Proof.Machine.execLmovn sl f s
  | .lbcc sl f => Sys2Proof.Machine.execLbcc sl f s
  | .lcall sl f => Sys2Proof.Machine.execLcall sl f s
  | .repi sl f => Sys2Proof.Machine.execRepi sl f s
  | .signali sl f => Sys2Proof.Machine.execSignali sl f s
  | .entry t => Sys2Proof.Machine.execEntry t s
  | .flagSet sets => Sys2Proof.Machine.execFlagSet sets s
  | .schCmdPacket c short => Sys2Proof.Machine.execSchCmdPacket c short s
  | .groupConfig o g weight ceiling aff => Sys2Proof.Machine.execGroupConfig o g weight ceiling aff s
  | .groupStatus o g => Sys2Proof.Machine.execGroupStatus o g s
  | .threadConfig o th g level preempt ctx => Sys2Proof.Machine.execThreadConfig o th g level preempt ctx s
  | .threadStart o th waiting mask all clear => Sys2Proof.Machine.execThreadStart o th waiting mask all clear s
  | .threadSignal o th flags => Sys2Proof.Machine.execThreadSignal o th flags s
  | .threadCancel o th sets => Sys2Proof.Machine.execThreadCancel o th sets s
  | .threadRead o th => Sys2Proof.Machine.execThreadRead o th s
  | .schedTileStatus o t => Sys2Proof.Machine.execSchedTileStatus o t s
  | .burstStart h p prio words => Sys2Proof.Machine.execBurstStart h p prio words s
  | .burstEnd h ok auth authNext => Sys2Proof.Machine.execBurstEnd h ok auth authNext s
  | .hopperDestroyEnd h => Sys2Proof.Machine.execHopperDestroyEnd h s
  | .hopperCreate o h base lg m => Sys2Proof.Machine.execHopperCreate o h base lg m s
  | .hopperDestroy o h grace => Sys2Proof.Machine.execHopperDestroy o h grace s
  | .hopperFlush o h => Sys2Proof.Machine.execHopperFlush o h s
  | .hopperSwap o h => Sys2Proof.Machine.execHopperSwap o h s
  | .hopperMode o h m => Sys2Proof.Machine.execHopperMode o h m s
  | .hopperStatus o h => Sys2Proof.Machine.execHopperStatus o h s
  | .lineFrameProcess n work => Sys2Proof.Machine.execLineFrameProcess n work s
  | .onHookTimeout n => Sys2Proof.Machine.execOnHookTimeout n s
  | .lineChannelDestroyEnd n => Sys2Proof.Machine.execLineChannelDestroyEnd n s
  | .lineChannelCreate o line set => Sys2Proof.Machine.execLineChannelCreate o line set s
  | .lineChannelDestroy o line => Sys2Proof.Machine.execLineChannelDestroy o line s
  | .lineChannelModify o line m => Sys2Proof.Machine.execLineChannelModify o line m s
  | .lineChannelStatus o line => Sys2Proof.Machine.execLineChannelStatus o line s
  | .lineRing o line cadence profile cycles cid => Sys2Proof.Machine.execLineRing o line cadence profile cycles cid s
  | .lineRingStop o line => Sys2Proof.Machine.execLineRingStop o line s
  | .lineCadenceSet o cadence pairs => Sys2Proof.Machine.execLineCadenceSet o cadence pairs s
  | .lineFeed o line mode => Sys2Proof.Machine.execLineFeed o line mode s
  | .linePolarity o line rev => Sys2Proof.Machine.execLinePolarity o line rev s
  | .lineMeter o line count on off freq level => Sys2Proof.Machine.execLineMeter o line count on off freq level s
  | .lineCidSend o line m => Sys2Proof.Machine.execLineCidSend o line m s
  | .lineTonePlay o line tones cad count mix ramp => Sys2Proof.Machine.execLineTonePlay o line tones cad count mix ramp s
  | .lineToneStop o line => Sys2Proof.Machine.execLineToneStop o line s
  | .lineHybChar o line => Sys2Proof.Machine.execLineHybChar o line s
  | .lineCptSet o defn x => Sys2Proof.Machine.execLineCptSet o defn x s
  | .lineEqSet o line mask rx tx => Sys2Proof.Machine.execLineEqSet o line mask rx tx s
  | .rtpReceive hop judged udptl => Sys2Proof.Machine.execRtpReceive hop judged udptl s
  | .pktFrameProcess c w => Sys2Proof.Machine.execPktFrameProcess c w s
  | .rtcpReport c voip => Sys2Proof.Machine.execRtcpReport c voip s
  | .rtcpReceive hop => Sys2Proof.Machine.execRtcpReceive hop s
  | .mediaTimeout c => Sys2Proof.Machine.execMediaTimeout c s
  | .bridgeMix n fades => Sys2Proof.Machine.execBridgeMix n fades s
  | .pktChannelDestroyEnd c => Sys2Proof.Machine.execPktChannelDestroyEnd c s
  | .bridgeDestroyEnd n => Sys2Proof.Machine.execBridgeDestroyEnd n s
  | .pktChannelCreate o chan set => Sys2Proof.Machine.execPktChannelCreate o chan set s
  | .pktChannelDestroy o chan => Sys2Proof.Machine.execPktChannelDestroy o chan s
  | .pktChannelModify o chan set => Sys2Proof.Machine.execPktChannelModify o chan set s
  | .pktChannelStatus o chan => Sys2Proof.Machine.execPktChannelStatus o chan s
  | .pktModeSet o chan mode => Sys2Proof.Machine.execPktModeSet o chan mode s
  | .pktEventSend o chan ev vol ticks => Sys2Proof.Machine.execPktEventSend o chan ev vol ticks s
  | .bridgeCreate o bridge set => Sys2Proof.Machine.execBridgeCreate o bridge set s
  | .bridgeDestroy o bridge => Sys2Proof.Machine.execBridgeDestroy o bridge s
  | .bridgeLegAdd o bridge l => Sys2Proof.Machine.execBridgeLegAdd o bridge l s
  | .bridgeLegRemove o bridge pkt chan => Sys2Proof.Machine.execBridgeLegRemove o bridge pkt chan s
  | .bridgeLegModify o bridge pkt chan role gain => Sys2Proof.Machine.execBridgeLegModify o bridge pkt chan role gain s
  | .bridgeStatus o bridge => Sys2Proof.Machine.execBridgeStatus o bridge s
  | .frameReceive port bs pcsErr fcsErr age => Sys2Proof.Machine.execFrameReceive port bs pcsErr fcsErr age s
  | .pauseFrameRx port quanta => Sys2Proof.Machine.execPauseFrameRx port quanta s
  | .pfcFrameRx port enables times => Sys2Proof.Machine.execPfcFrameRx port enables times s
  | .pauseExpiry port queue => Sys2Proof.Machine.execPauseExpiry port queue s
  | .txSelect port => Sys2Proof.Machine.execTxSelect port s
  | .linkDown port => Sys2Proof.Machine.execLinkDown port s
  | .linkUp port => Sys2Proof.Machine.execLinkUp port s
  | .protectSwitch => Sys2Proof.Machine.execProtectSwitch s
  | .protectRevert => Sys2Proof.Machine.execProtectRevert s
  | .portDisableDone port => Sys2Proof.Machine.execPortDisableDone port s
  | .flowDeleteDone h => Sys2Proof.Machine.execFlowDeleteDone h s
  | .portStatus o port => Sys2Proof.Machine.execPortStatus o port s
  | .portEnable o port enable => Sys2Proof.Machine.execPortEnable o port enable s
  | .portProtectSwitch o port => Sys2Proof.Machine.execPortProtectSwitch o port s
  | .queueCeilingSet o port queue rate burst => Sys2Proof.Machine.execQueueCeilingSet o port queue rate burst s
  | .destWrite o h entry => Sys2Proof.Machine.execDestWrite o h entry s
  | .destClear o h => Sys2Proof.Machine.execDestClear o h s
  | .destRead o h => Sys2Proof.Machine.execDestRead o h s
  | .flowAdd o entry => Sys2Proof.Machine.execFlowAdd o entry s
  | .flowDelete o h => Sys2Proof.Machine.execFlowDelete o h s
  | .flowModify o h tail => Sys2Proof.Machine.execFlowModify o h tail s
  | .flowRead o h => Sys2Proof.Machine.execFlowRead o h s
  | .flowLookup o key => Sys2Proof.Machine.execFlowLookup o key s
  | .flowTableStatus o => Sys2Proof.Machine.execFlowTableStatus o s
  | .kilnStatus o => Sys2Proof.Machine.execKilnStatus o s
  | .identityRead o addr len chain match_ => Sys2Proof.Machine.execIdentityRead o addr len chain match_ s
  | .challenge o => Sys2Proof.Machine.execChallenge o s
  | .challengeExpiry => Sys2Proof.Machine.execChallengeExpiry s
  | .ownerStatement o addr len x bad1 bad2 pfw => Sys2Proof.Machine.execOwnerStatement o addr len x bad1 bad2 pfw s
  | .attest o nonce addr len => Sys2Proof.Machine.execAttest o nonce addr len s
  | .ctxAlloc o => Sys2Proof.Machine.execCtxAlloc o s
  | .ctxFree o h => Sys2Proof.Machine.execCtxFree o h s
  | .ctxLink o h next => Sys2Proof.Machine.execCtxLink o h next s
  | .ctxResetRx o h => Sys2Proof.Machine.execCtxResetRx o h s
  | .ctxStatus o h => Sys2Proof.Machine.execCtxStatus o h s
  | .sealedImport o addr len x => Sys2Proof.Machine.execSealedImport o addr len x s
  | .importKeyInfo o addr len => Sys2Proof.Machine.execImportKeyInfo o addr len s
  | .certInfo o => Sys2Proof.Machine.execCertInfo o s
  | .certRenew o => Sys2Proof.Machine.execCertRenew o s
  | .dtlsOpen o target role versions profiles fpAlg peerFp flight => Sys2Proof.Machine.execDtlsOpen o target role versions profiles fpAlg peerFp flight s
  | .dtlsFeed o h addr len outAddr outLen f => Sys2Proof.Machine.execDtlsFeed o h addr len outAddr outLen f s
  | .dtlsPoll o h outAddr outLen => Sys2Proof.Machine.execDtlsPoll o h outAddr outLen s
  | .dtlsClose o h outAddr outLen notify => Sys2Proof.Machine.execDtlsClose o h outAddr outLen notify s
  | .dtlsRetransmitDue j => Sys2Proof.Machine.execDtlsRetransmitDue j s
  | .dtlsSessionTimeout n => Sys2Proof.Machine.execDtlsSessionTimeout n s
  | .dtlsLingerEnd n => Sys2Proof.Machine.execDtlsLingerEnd n s
  | .imageVerify o addr len x => Sys2Proof.Machine.execImageVerify o addr len x s
  | .rollbackAdvance o target revoke bads badR => Sys2Proof.Machine.execRollbackAdvance o target revoke bads badR s
  | .debugUnlock o addr len x => Sys2Proof.Machine.execDebugUnlock o addr len x s
  | .debugLock o => Sys2Proof.Machine.execDebugLock o s
  | .debugTicksExpiry => Sys2Proof.Machine.execDebugTicksExpiry s
  | .kilnJobConfig o hop en ring => Sys2Proof.Machine.execKilnJobConfig o hop en ring s
  | .random => Sys2Proof.Machine.execRandom s
  | .exportOpen => Sys2Proof.Machine.execExportOpen s
  | .exportWrite => Sys2Proof.Machine.execExportWrite s
  | .exportClose => Sys2Proof.Machine.execExportClose s
  | .tamperTrip sensor bad => Sys2Proof.Machine.execTamperTrip sensor bad s
  | .entropyTestFail => Sys2Proof.Machine.execEntropyTestFail s
  | .entropyRetestDone ok => Sys2Proof.Machine.execEntropyRetestDone ok s
  | .bar0Write a v good => Sys2Proof.Machine.execBar0Write a v good s
  | .sealedBar0Access write => Sys2Proof.Machine.execSealedBar0Access write s
  | .sysSetupLock v => Sys2Proof.Machine.execSysSetupLock v s
  | .doorbellFetch sub page => Sys2Proof.Machine.execDoorbellFetch sub page s
  | .msixModerationExpiry n => Sys2Proof.Machine.execMsixModerationExpiry n s
  | .counterSnapshot o zeros pre => Sys2Proof.Machine.execCounterSnapshot o zeros pre s
  | .ringCreate o n addr typ sizeLog2 gen bind cplRing vector irqEn modTicks modCount => Sys2Proof.Machine.execRingCreate o n addr typ sizeLog2 gen bind cplRing vector irqEn modTicks modCount s
  | .ringDestroy o n => Sys2Proof.Machine.execRingDestroy o n s
  | .ringStatus o n => Sys2Proof.Machine.execRingStatus o n s
  | .sysInfo o => Sys2Proof.Machine.execSysInfo o s
  | .echo o args => Sys2Proof.Machine.execEcho o args s
  | .tamperJob o x => Sys2Proof.Machine.execTamperJob o x s
  | .tamperJobPacket => Sys2Proof.Machine.execTamperJobPacket s
  | .tamperJobTurn host => Sys2Proof.Machine.execTamperJobTurn host s
  | .tamperJobDone id => Sys2Proof.Machine.execTamperJobDone id s
  | .tamperStatus o => Sys2Proof.Machine.execTamperStatus o s
  | .tamperEnable o en => Sys2Proof.Machine.execTamperEnable o en s
  | .tamperDisableTimeout => Sys2Proof.Machine.execTamperDisableTimeout s
  | .dramRequest who addr len data => Sys2Proof.Machine.execDramRequest who addr len data s
  | .dramTransaction ch ecc => Sys2Proof.Machine.execDramTransaction ch ecc s
  | .requestLate id => Sys2Proof.Machine.execRequestLate id s
  | .refreshAccrue r => Sys2Proof.Machine.execRefreshAccrue r s
  | .mr4Poll reports => Sys2Proof.Machine.execMr4Poll reports s
  | .powerDownEntry r => Sys2Proof.Machine.execPowerDownEntry r s
  | .scrubQueue => Sys2Proof.Machine.execScrubQueue s
  | .rankRetireStart => Sys2Proof.Machine.execRankRetireStart s
  | .migSpareTrained ok rd wr => Sys2Proof.Machine.execMigSpareTrained ok rd wr s
  | .migrationFlip => Sys2Proof.Machine.execMigrationFlip s
  | .spareTestDone trained errors offsets => Sys2Proof.Machine.execSpareTestDone trained errors offsets s
  | .dramStatus o => Sys2Proof.Machine.execDramStatus o s
  | .dramPortSet o port target rt panicEn level => Sys2Proof.Machine.execDramPortSet o port target rt panicEn level s
  | .dramRetire o r => Sys2Proof.Machine.execDramRetire o r s
  | .dramMigrateAbort o => Sys2Proof.Machine.execDramMigrateAbort o s
  | .dramSpareTest o r => Sys2Proof.Machine.execDramSpareTest o r s
  | .dramScrubSet o en rate ceRetire ceEvt => Sys2Proof.Machine.execDramScrubSet o en rate ceRetire ceEvt s
  | .dramErrorLog o => Sys2Proof.Machine.execDramErrorLog o s
  | .evacBoundary => Sys2Proof.Machine.execEvacBoundary s
  | .evacComplete => Sys2Proof.Machine.execEvacComplete s
  | .vacatedSelfTestDone p pass pm dm => Sys2Proof.Machine.execVacatedSelfTestDone p pass pm dm s
  | .tileEvacuate o t reload => Sys2Proof.Machine.execTileEvacuate o t reload s
  | .tileSpareTest o p => Sys2Proof.Machine.execTileSpareTest o p s
  | .tileFill o t => Sys2Proof.Machine.execTileFill o t s
  | .servicePolicy o row ue frame wdog qrow => Sys2Proof.Machine.execServicePolicy o row ue frame wdog qrow s
  | .imageSlotWrite o slot entries => Sys2Proof.Machine.execImageSlotWrite o slot entries s
  | .ctrlFwSwitch o dig => Sys2Proof.Machine.execCtrlFwSwitch o dig s
  | .sysRestart o kind => Sys2Proof.Machine.execSysRestart o kind s
  | .dumpStatus o => Sys2Proof.Machine.execDumpStatus o s
  | .dumpOffer o => Sys2Proof.Machine.execDumpOffer o s
  | .dumpDiscard o id => Sys2Proof.Machine.execDumpDiscard o id s
  | .fatalLogRead o => Sys2Proof.Machine.execFatalLogRead o s
  | .sramRowStatus o memory => Sys2Proof.Machine.execSramRowStatus o memory s
  | .watchdogExpiry mark applying pc0 pc1 => Sys2Proof.Machine.execWatchdogExpiry mark applying pc0 pc1 s
  | .lockstepMismatch mark applying pc0 pc1 => Sys2Proof.Machine.execLockstepMismatch mark applying pc0 pc1 s
  | .ctrlSramUe row mark applying pc0 pc1 => Sys2Proof.Machine.execCtrlSramUe row mark applying pc0 pc1 s
  | .ashCaptureDone secs all => Sys2Proof.Machine.execAshCaptureDone secs all s
  | .ashPackDone => Sys2Proof.Machine.execAshPackDone s
  | .avsStep up => Sys2Proof.Machine.execAvsStep up s
  | .announceReceiptTimeout port => Sys2Proof.Machine.execAnnounceReceiptTimeout port s
  | .commaFound q => Sys2Proof.Machine.execCommaFound q s
  | .perstDeassert => Sys2Proof.Machine.execPerstDeassert s
  | .startStepEnd n f => Sys2Proof.Machine.execStartStepEnd n f s
  | .imageSlotWriteDone ok => Sys2Proof.Machine.execImageSlotWriteDone ok s
  | .kilnIntegrityFault => Sys2Proof.Machine.execKilnIntegrityFault s
  | .tamperNPulseEnd => Sys2Proof.Machine.execTamperNPulseEnd s
  | .vddAonLoss => Sys2Proof.Machine.execVddAonLoss s
end Sys2Proof.Machine
end

