-- ==== Sys2Proof/Machine/Step.lean ====
section
/-! DEFINITION. One step of the block: the command at the front of the queue, or an idle sub-tick. -/
namespace Sys2Proof.Machine
open Sys2Proof

/-- With no command waiting, time passes by one sub-tick, up to the last of the tick: the next tick begins with the TICK
command (a DESIGN CHOICE of the model). -/
def idleStep (s : State) : State := { s with clk := { s.clk with sub := if s.clk.sub < 3071 then s.clk.sub + 1 else s.clk.sub } }

/-- Take the command at the front of the queue and run it on the state with the queue's rest. -/
def step (s : State) : Host.Outcome State Fault Refusal :=
  match s.pending with
  | [] => .next (idleStep s)
  | c :: r => exec c { s with pending := r }

/-- `s` with the command that a word spells at the front of its queue; `s` where the word spells none. -/
def State.withFetchWord (s : State) (nbits w : Nat) : State :=
  match decodeTableWord nbits w with
  | some c => { s with pending := c :: s.pending }
  | none => s

end Sys2Proof.Machine
end

