-- ==== Sys2Proof/Safety.lean ====
section
/-! DEFINITION. What a safe run of the block is, and the words in which the statements say what a command does: the next
state it answers, how a host command is answered, and how a tile's operation joins its bundle. -/
namespace Sys2Proof
open Sys2Proof.Machine

/-- A step that goes on. -/
def StepSafe (s : State) : Prop := ∃ t, step s = .next t

/-- The sub-tick counts 0 to 3,071 (R32). -/
def ClockOk (s : State) : Prop := s.clk.sub < 3072

/-- What every step keeps: the clock counts 3,072 sub-ticks to a tick (R32), and every memory is in its canonical form. -/
def Inv (s : State) : Prop := ClockOk s ∧ s.mem.wf

/-- The command answers a next state in which the device is `d`; the clock, the memories and the queue are as before. -/
def Does (i : Instr) (s : State) (d : Dev) : Prop := exec i s = .next { s with dev := d }

/-- The same with the memories changed to `m`. -/
def DoesMem (i : Instr) (s : State) (m : Mems) (d : Dev) : Prop := exec i s = .next { s with mem := m, dev := d }

/-- Host commands run: no control restart is in progress (R19), and the command's reserved fields are zero (R14). -/
def HostOk (o : Origin) (s : State) : Prop := s.dev.hif.paused = false ∧ o.rsvBad = false

/-- A host command with opcode `opc` leaves the device as `d`, and its completion with a status and a result is formed on it. -/
def Answers (i : Instr) (o : Origin) (opc : Nat) (s : State) (st : Status) (res : List RField) (d : Dev) : Prop :=
  Does i s (d.complete s.clk o opc st res)

/-- The same, with a result that may be cut to its buffer with ST_PARTIAL. -/
def Reads (i : Instr) (o : Origin) (opc : Nat) (s : State) (st : Status) (res : List RField) (d : Dev) : Prop :=
  Does i s (d.complete s.clk o opc st res true)

/-- A host command is accepted: it leaves the device as `d`, and it joins those that wait for `kind` of `key`. -/
def Waits (i : Instr) (o : Origin) (opc : Nat) (s : State) (kind : WKind) (key : Nat) (d : Dev) : Prop :=
  Does i s (d.await { kind := kind, key := key, src := .host o, opc := opc })

/-- `d'` differs from `d` in the Barista, the counters and the host's rings only. -/
def OnlySch (d d' : Dev) : Prop := d' = { d with sch := d'.sch, ctr := d'.ctr, hif := d'.hif }

/-- A thread stands in no Ready queue but that of its group and level. -/
def QueuedAtMost (d : Dev) (th : Nat) : Prop :=
  ∀ g l, l ≤ 3 → th ∈ d.fifo g l → g = (d.thr th).group ∧ l = (d.thr th).level

/-- `d'` differs from `d` in the Hoppers and the counters only. -/
def OnlyHop (d d' : Dev) : Prop := d' = { d with hop := d'.hop, ctr := d'.ctr }

/-- No tile's open packet names Hopper `h`. -/
def NoOpenPut (d : Dev) (h : Nat) : Prop := ∀ t, (d.putBuf t).owner.isSome = true → (d.putBuf t).hop ≠ h

/-- Hopper `x` after a swap (R236): its fill bank is the new drain bank, in reading order. -/
def swapped (x : Hopper) : Hopper :=
  { x with seq := readingOrder x.fill, fill := [], fb := 1 - x.fb, w := 0, rel := 0, rp := 0, ro := 0, mv := false,
           due := false }

/-- Lane `q` has received code groups, whose running disparity it keeps (R62). -/
def heard (d : Dev) (q : Nat) (codes : List Nat) : Dev :=
  d.setLane q { d.lane q with rxDisp := some (decFrame (d.lane q).rxDisp codes).2 }

/-- The channel of line `n` notes that host software has touched what it keeps (R253). -/
def touch (kept : Bool) (n : Nat) (d : Dev) : Dev := if kept then d.lineTouched n else d

/-- Line `n` has the channel `c`, no destroy of it is in progress, and the line is active on a lane in LIVE; the stores that
hold channels and lines are in canonical form. -/
def LineUp (s : State) (n : Nat) (c : LineCh) : Prop :=
  s.dev.lineCh n = some c ∧ c.destroying = none ∧ s.dev.lineLive n = true ∧ n ≤ 255 ∧
    Store.wf none s.dev.med.lines = true ∧ Store.wf {} s.dev.oll.lines = true

/-- Changes of a line's state wait for its next latch point (R77). -/
def withOps (d : Dev) (n : Nat) (ops : List LOp) : Dev := d.setLine n { d.line n with ops := (d.line n).ops ++ ops }

/-- `d'` differs from `d` in Sirboroth's channels only, but for the lines that the channels command. -/
def OnlyMed (d d' : Dev) : Prop := d' = { d with med := d'.med }

/-! ### Operations of a bundle -/

/-- The bundle with one operation more in its MAC slot, a memory slot, the short and the long control slot. -/
def withMac (b : Bundle) : Bundle := { b with macN := b.macN + 1 }
def withMem (b : Bundle) : Bundle := { b with memN := b.memN + 1 }
def withCtl (b : Bundle) : Bundle := { b with ctlN := b.ctlN + 1 }
def withLong (b : Bundle) : Bundle := { b with longN := b.longN + 1 }

/-- The tile of a slot issues, and the bundle `b` is being gathered on it: its physical tile is `p`. -/
def Gathering (sl : Slot) (s : State) (p : Nat) (b : Bundle) : Prop :=
  s.dev.physOf sl.tile = some p ∧ s.dev.issuing sl.tile = true ∧ (s.dev.tile sl.tile).opened = some b

/-- The state with `b` as the bundle being gathered. -/
def withBundle (sl : Slot) (s : State) (b : Bundle) : State :=
  { s with dev := s.dev.setTile sl.tile { s.dev.tile sl.tile with opened := some b } }

/-- An operation has left `b` as the bundle, which closes where the operation is its last (R180). -/
def Gathers (i : Instr) (sl : Slot) (s : State) (p : Nat) (b : Bundle) : Prop :=
  exec i s = .next (if sl.fin then
    { withBundle sl s b with
      mem := (closeBundle s.clk sl.tile p s.mem (withBundle sl s b).dev).1
      dev := (closeBundle s.clk sl.tile p s.mem (withBundle sl s b).dev).2 }
    else withBundle sl s b)

/-- The slot of a tile's operation, none for the other commands. -/
def slotOf (i : Instr) : Option Slot :=
  match i with
  | .mnop sl _ => some sl
  | .mac1 sl _ => some sl
  | .qcoef sl _ => some sl
  | .qsamp sl _ => some sl
  | .dot4 sl _ => some sl
  | .cmplx sl _ => some sl
  | .cmplxc sl _ => some sl
  | .widess sl _ => some sl
  | .wideus sl _ => some sl
  | .widesu sl _ => some sl
  | .accadd sl _ => some sl
  | .accneg sl _ => some sl
  | .accshi sl _ => some sl
  | .accshx sl _ => some sl
  | .accld sl _ => some sl
  | .accldh sl _ => some sl
  | .ext16 sl _ => some sl
  | .ext32 sl _ => some sl
  | .extg sl _ => some sl
  | .expa sl _ => some sl
  | .exph sl _ => some sl
  | .norm sl _ => some sl
  | .expmaxa sl _ => some sl
  | .expmaxh sl _ => some sl
  | .accz sl _ => some sl
  | .dnop sl _ => some sl
  | .ldhL sl _ _ => some sl
  | .ldhH sl _ _ => some sl
  | .ldhs sl _ _ => some sl
  | .ldw sl _ _ => some sl
  | .ldd sl _ _ => some sl
  | .sthL sl _ _ => some sl
  | .sthH sl _ _ => some sl
  | .stw sl _ => some sl
  | .std sl _ => some sl
  | .lda sl _ _ => some sl
  | .sta sl _ => some sl
  | .lea sl _ => some sl
  | .nop sl _ => some sl
  | .add sl _ => some sl
  | .sub sl _ => some sl
  | .and sl _ => some sl
  | .or sl _ => some sl
  | .xor sl _ => some sl
  | .shl sl _ => some sl
  | .shr sl _ => some sl
  | .shru sl _ => some sl
  | .cmp sl _ => some sl
  | .addi sl _ => some sl
  | .movi sl _ => some sl
  | .cmpi sl _ => some sl
  | .shli sl _ => some sl
  | .shri sl _ => some sl
  | .shrui sl _ => some sl
  | .movr sl _ => some sl
  | .padd sl _ => some sl
  | .movc sl _ => some sl
  | .bcc sl _ => some sl
  | .brx sl _ => some sl
  | .rep sl _ => some sl
  | .endrep sl _ => some sl
  | .resume sl _ => some sl
  | .idle sl _ => some sl
  | .signal sl _ => some sl
  | .wait sl _ => some sl
  | .yield sl _ => some sl
  | .texit sl _ => some sl
  | .flagtake sl _ => some sl
  | .time sl _ => some sl
  | .almarm sl _ => some sl
  | .almdis sl _ => some sl
  | .hput sl _ => some sl
  | .hcommit sl _ => some sl
  | .habort sl _ => some sl
  | .hget sl _ _ => some sl
  | .hnext sl _ => some sl
  | .hmark sl _ => some sl
  | .hrewind sl _ => some sl
  | .hrelease sl _ => some sl
  | .dmapost sl _ => some sl
  | .dmaabort sl _ => some sl
  | .dmaq sl _ => some sl
  | .lmovi sl _ => some sl
  | .lmova sl _ => some sl
  | .lmovn sl _ => some sl
  | .lbcc sl _ => some sl
  | .lcall sl _ => some sl
  | .repi sl _ => some sl
  | .signali sl _ => some sl
  | _ => none

end Sys2Proof
end

