-- ==== Sys2Proof/Certificates/Slice0/Obligations.lean ====
section
/-! DEFINITION. The statements for the provers, by the rules of spec/ they come from. -/
open Sys2Proof Sys2Proof.Machine

/-- For every command c and state s, a step of s with c in front of a queue is exec of c on s with the queue's rest. -/
def Obligations.StepRunsFrontCommand : Prop :=
  ∀ (c : Instr) (r : List Instr) (s : State),
    step { s with pending := c :: r } = exec c { s with pending := r }

/-- The model's own choice (log entry 2): on an empty queue a step only moves the sub-tick on by one, and it stays at 3,071, the
last sub-tick of a tick (Table 2.1), until TICK begins the next. -/
def Obligations.IdleStepMovesSubTick : Prop :=
  ∀ s : State, s.pending = [] →
    (s.clk.sub < 3071 → step s = .next { s with clk := { s.clk with sub := s.clk.sub + 1 } }) ∧
    (s.clk.sub = 3071 → step s = .next s)

/-- Every command answers a next state from every state, and leaves the queue of waiting commands as it is: no input of the
block ends its run. Where it goes beyond the words of the rules it is the model's own reading (log entry 9). -/
def Obligations.EveryCommandGoesOn : Prop :=
  ∀ (i : Instr) (s : State), ∃ t, exec i s = .next t ∧ t.pending = s.pending

/-- The state without power meets the invariant that StepKeepsInvariant carries along. Where it goes beyond the words of the rules
it is the model's own reading (log entry 3). -/
def Obligations.ResetMeetsInvariant : Prop := Inv State.reset

/-- From every state in which the sub-tick is below 3,072 and every memory (data memories, program memories, DRAM) is in its
canonical form, every step that answers a next state leaves them so. -/
def Obligations.StepKeepsInvariant : Prop :=
  ∀ s t : State, Inv s → step s = .next t → Inv t

/-- Every command but TICK, TIME_STEP, POWER_ON and INTERNAL_RESET_END leaves the tick count as it is and never moves the
sub-tick back. -/
def Obligations.TimeMovesForwardOnly : Prop :=
  ∀ (i : Instr) (s t : State), exec i s = .next t →
    (∀ a b f0 f1 sv ce, i ≠ .tick a b f0 f1 sv ce) → i ≠ .timeStep → i ≠ .powerOn → (∀ e, i ≠ .internalResetEnd e) →
    t.clk.tick = s.clk.tick ∧ s.clk.sub ≤ t.clk.sub

/-- POWER_ON makes a cold start with cause 0 at tick 0 with cleared memories. A fall of RST_N begins an internal reset that leads
to a warm start with cause 2, and clears the host interface, the filter engine, Sirboroth's channels and Tamper, but not the
Ember record of step 4. A supply's failure clears that record. The end of the internal reset makes a cold start with cause 1
where the Ember domain fails its check, with cause 9 after a supply fault, with the reset's cause where step 4 was never
completed, with cause 7 after two failed warm attempts, and a warm start otherwise, which counts in WARM_COUNT and clears the
data memories. PCIE_PERST_N, asserted, and a hot reset clear Bus Master Enable, D3hot, MSI-X Enable, Function Mask and Device
Control and keep every ring, index and the lock; the rise of PCIE_PERST_N starts the link's training on a powered device, but for one with TEST_MODE high. With no
ring, no dump on offer, no message pending and no write held back, a configuration write to a function whose link is up, step 4 having ended, sets
exactly those fields. Where it goes beyond the words of the rules it is the model's own reading (log entries 5, 15, 27). -/
def Obligations.PowerAndResetsChooseStart : Prop :=
  ∀ s : State,
    (∃ d, exec .powerOn s = .next { s with clk := { tick := 0, sub := 0, fine := 0 }, mem := Mems.reset, dev := d } ∧
      d.sys.powered = true ∧ d.sys.startWord = 0 ∧ d.ctr = [] ∧ d.til = Til.reset ∧ d.hop = Hop.reset ∧ d.oll = Oll.reset ∧
      d.dram = Dram.reset ∧ d.htb = Htb.reset ∧ d.waits = [] ∧ d.regs = []) ∧
    (s.dev.sys.powered = true → s.dev.sys.rstN = true → s.dev.sys.inReset = none →
      ∃ d, Does .rstNAssert s d ∧ d.sys.inReset = some (.warm, 2) ∧ d.sys.rstN = false ∧ d.sys.step4 = s.dev.sys.step4 ∧
        d.hif = { Hif.reset with perst := d.hif.perst, sent := d.hif.sent } ∧ d.fce = Fce.reset ∧ d.med = Med.reset ∧
        d.tmp = Tmp.reset ∧ d.waits = []) ∧
    (s.dev.sys.powered = true →
      Does .supplyFault s { s.dev with sys := { s.dev.sys with step4 := false, supplyFault := true } }) ∧
    Does .vddAonLoss s { s.dev with sys := { s.dev.sys with emberOk := false } } ∧
    (∀ kind cause ember, s.dev.sys.inReset = some (kind, cause) → ∃ t, exec (.internalResetEnd ember) s = .next t ∧
      t.dev.sys.inReset = none ∧ t.mem.dm = [] ∧ t.dev.sys.step = 0 ∧
      (s.dev.sys.emberOk = false ∨ ember = false → t.dev.sys.kind = 0 ∧ t.dev.sys.cause = 1) ∧
      (s.dev.sys.emberOk = true → ember = true → s.dev.sys.supplyFault = true → t.dev.sys.kind = 0 ∧ t.dev.sys.cause = 9) ∧
      (s.dev.sys.emberOk = true → ember = true → s.dev.sys.supplyFault = false → s.dev.sys.step4 = false →
        t.dev.sys.kind = 0 ∧ t.dev.sys.cause = cause) ∧
      (s.dev.sys.emberOk = true → ember = true → s.dev.sys.supplyFault = false → s.dev.sys.step4 = true →
        2 ≤ s.dev.sys.failed → t.dev.sys.kind = 0 ∧ t.dev.sys.cause = 7) ∧
      (s.dev.sys.emberOk = true → ember = true → s.dev.sys.supplyFault = false → s.dev.sys.step4 = true →
        s.dev.sys.failed < 2 → t.dev.sys.kind = 1 ∧ t.dev.sys.cause = cause ∧ t.clk = s.clk ∧
          t.dev.sys.warmCount = min 65535 (s.dev.sys.warmCount + 1))) ∧
    Does .perstAssert s { s.dev with hif := { s.dev.hif with
      bme := false, d3hot := false, msixEn := false, fmask := false, devCtl := 0, perst := true, linkUp := false } } ∧
    Does .pcieHotReset s { s.dev with hif := { s.dev.hif with
      bme := false, d3hot := false, msixEn := false, fmask := false, devCtl := 0 } } ∧
    Does .perstDeassert s { s.dev with hif := { s.dev.hif with perst := false, linkUp := s.dev.sys.powered && !s.dev.sys.testMode } } ∧
    (∀ bme d3 en fm dc, s.dev.cfgAnswers = true → Does (.pcieConfigWrite bme d3 en fm dc) s
      (({ s.dev with hif := { s.dev.hif with bme := bme, d3hot := d3, msixEn := en, fmask := fm, devCtl := dc } }).flushHost s.clk)) ∧
    (∀ bme d3 en fm dc, s.dev.hif.linkUp = true → s.dev.hif.perst = false → 4 ≤ s.dev.sys.step → s.dev.hif.rings = [] →
      s.dev.sys.offer = none → s.dev.hif.pba = 0 → s.dev.hif.heldWr = [] →
      Does (.pcieConfigWrite bme d3 en fm dc) s
        { s.dev with hif := { s.dev.hif with bme := bme, d3hot := d3, msixEn := en, fmask := fm, devCtl := dc } })

/-- On a powered device that is neither in reset nor in Kindling recovery: with TEST_MODE high no step ends and KLN_STATE is unreadable;
with TEST_MODE low a step of 1 to 6 other than the one that follows the
last changes nothing, and each of the others ends with what it finds, step 6 with control firmware running; step 1 drives the fused AVS code, at most 20; step 5 opens set-up; step 7 is shown once the Hearth has
left FREE_RUN and step 6 has ended, and step 11 once it is LOCKED. Where it goes beyond the words of the rules it is the model's
own reading (log entries 17, 21). -/
def Obligations.StartStepsEndInOrder : Prop :=
  ∀ (s : State) (n : Nat) (f : StartFind), s.dev.sys.powered = true → s.dev.sys.inReset = none → s.dev.kln.boot ≠ 3 →
    (s.dev.sys.testMode = true → exec (.startStepEnd n f) s = .next s ∧ s.dev.kilnState = none) ∧
    (s.dev.sys.testMode = false → (n < 7 → n ≠ s.dev.sys.step + 1 → exec (.startStepEnd n f) s = .next s) ∧
    (n = 1 → s.dev.sys.step = 0 → Does (.startStepEnd n f) s
      { s.dev with sys := { s.dev.sys with step := 1, avs := some (min 20 f.avs), avsTicks := 8000 } }) ∧
    (n = 2 → s.dev.sys.step = 1 → Does (.startStepEnd n f) s
      (if f.katOk then (s.dev.startKiln s.clk f).setStep 2 else s.dev.kilnAlarm s.clk)) ∧
    (n = 3 → s.dev.sys.step = 2 → Does (.startStepEnd n f) s
      (if (s.dev.startStage1 f).1 then (s.dev.startStage1 f).2.setStep 3 else (s.dev.startStage1 f).2)) ∧
    (∀ m d, n = 4 → s.dev.sys.step = 3 → startUnits s.clk f s.mem s.dev = (true, m, d) → DoesMem (.startStepEnd n f) s m
      { d with sys := { d.sys with step := 4, step4 := true } }) ∧
    (∀ d, n = 6 → s.dev.sys.step = 5 → s.dev.startImages = (true, d) →
      DoesMem (.startStepEnd n f) s (firmwareRuns s.clk s.mem d).1 (firmwareRuns s.clk s.mem d).2) ∧
    (n ∈ [8, 9, 10] → 6 ≤ s.dev.sys.step → s.dev.laterDone n = true →
      Does (.startStepEnd n f) s { s.dev with sys := { s.dev.sys with step := n } }) ∧
    (n = 5 → s.dev.sys.step = 4 → Does (.startStepEnd n f) s
      { s.dev with sys := { s.dev.sys with step := 5 }, hif := { s.dev.hif with setupOpen := true } }) ∧
    (n = 7 → 6 ≤ s.dev.sys.step → s.dev.htb.state ≠ .freeRun →
      Does (.startStepEnd n f) s { s.dev with sys := { s.dev.sys with step := 7 } }) ∧
    (n = 11 → 6 ≤ s.dev.sys.step → s.dev.htb.state = .locked →
      Does (.startStepEnd n f) s { s.dev with sys := { s.dev.sys with step := 11 } }))

/-- While a control restart is in progress steps 3 to 6 replace the candidate rows of control SRAM; they succeed where the digest of
the firmware copy and the object state are good, and with no rows to replace change nothing else; a digest or a state that is bad is
counted and leads to a warm start. Step 7 completes the restart; with no event held and no command waiting it resumes the servo,
returns PAUSED to 0, advances RESTARTS and shows both in the shadow page, and does no more. PFW_N's assertion is taken and counted;
it abandons a write of an image slot, and one of a calibration record that cannot be finished in time; its release is taken. Control
firmware moves the AVS code one step up or down, within 0 to 20 and at most once in
8,000 ticks. Where it goes beyond the words of the rules it is the model's own reading (log entries 19, 22). -/
def Obligations.ControlRestartAndPins : Prop :=
  ∀ s : State,
    (s.dev.sys.inReset = none → s.dev.hif.paused = true → s.dev.sys.checked = false → s.dev.sys.ash ≠ .capturing →
      ∀ d, s.dev.ctrlRepair = d →
        Does (.controlRestart true true) s { d with sys := { d.sys with checked := true } } ∧
        (∀ good, Does (.controlRestart false good) s ((d.bump0 .klnReloadMismatch).askWarm 4)) ∧
        Does (.controlRestart true false) s ((d.bump0 .sysStateCheckFail).askWarm 8) ∧
        (s.dev.sys.cCand = [] → d = s.dev)) ∧
    (s.dev.sys.inReset = none → s.dev.hif.paused = true → s.dev.sys.checked = true →
      Does .controlRestartDone s (s.dev.restartDone s.clk)) ∧
    (s.dev.sys.inReset = none → s.dev.hif.paused = true → s.dev.sys.checked = true → s.dev.hif.lineEvts = [] → s.dev.hif.klnEvts = [] →
      s.dev.hif.restartEvts = [] → s.dev.waits = [] → s.dev.hif.rings = [] → s.dev.hif.pba = 0 → s.dev.sys.offer = none →
      s.dev.sys.ash = .empty → s.dev.sys.evac = none → s.dev.sys.evacQ = [] → s.dev.hif.heldWr = [] → s.dev.hif.bme = true →
      s.dev.hif.d3hot = false → Does .controlRestartDone s { s.dev with
        htb := { s.dev.htb with servoOn := true }
        hif := { s.dev.hif with
          paused := false, restarts := s.dev.hif.restarts + 1, fetchAt := none
          sent := .restarts (s.dev.hif.restarts + 1) :: .paused false :: s.dev.hif.sent }
        sys := { s.dev.sys with fatal := false, checked := false, wdog := 0 } }) ∧
    (∀ d, s.dev.sys.pfwN = true → ({ s.dev with sys := { s.dev.sys with pfwN := false } }).bump0 .sysPfwAssert = d →
      Does (.pfwAssert true) s (d.slotAbandon s.clk) ∧
      Does (.pfwAssert false) s ((d.calAbandon s.clk).slotAbandon s.clk) ∧
      (s.dev.sys.slotWr = none → d.slotAbandon s.clk = d) ∧ (s.dev.cal.writing = none → d.calAbandon s.clk = d)) ∧
    Does .pfwRelease s { s.dev with sys := { s.dev.sys with pfwN := true } } ∧
    (∀ (up : Bool) (c : Nat), s.dev.sys.avs = some c → (if up then c < 20 else 0 < c) → s.dev.sys.powered = true → 3 ≤ s.dev.sys.step →
      s.dev.kln.boot ≠ 3 → s.dev.hif.paused = false → s.clk.sub = 0 → 8000 ≤ s.dev.sys.avsTicks →
      Does (.avsStep up) s
        { s.dev with sys := { s.dev.sys with avs := some (if up then c + 1 else c - 1), avsTicks := 0 } })

/-- HEARTH_STATUS returns the stamp, state, sources, offset estimate, UTC offset and ticks in the state; with no source to follow and a
residue left, the residue is the offset estimate. SOURCE_ENABLE keeps its enables for the next tick boundary; STEP_POLICY with
THRESH 1 to 65,535 and SLEW_MAX 1 to 200 sets its three settings, and a step that waits stands only while R47 calls for it under
them; ALARM_READ of a host slot returns the slot's fields. Nothing else changes. Where it goes beyond the words of the
rules it is the model's own reading (log entries 23, 52). -/
def Obligations.HearthCommandsAnswer : Prop :=
  ∀ (s : State) (o : Origin), HostOk o s →
    (Answers (.hearthStatus o) o 0x0201 s .ok
      [⟨8, s.clk.tick * 4096 + s.clk.sub⟩, ⟨1, hstateCode s.dev.htb.state⟩, ⟨1, s.dev.htb.timeSrc⟩, ⟨1, s.dev.htb.freqSrc⟩,
        ⟨8, toBits 64 (if s.dev.htb.residue ≠ 0 ∧ (s.dev.htb.timeSrc = 0 ∨ s.dev.htb.forced = true) then
          s.dev.htb.residue / 12000000 else s.dev.htb.offset)⟩, ⟨4, toBits 32 s.dev.htb.utcOff⟩, ⟨8, s.dev.htb.ticksIn⟩] s.dev) ∧
    (∀ en, Answers (.sourceEnable o en) o 0x0203 s .ok [] { s.dev with htb := { s.dev.htb with nextEn := some en } }) ∧
    (∀ thresh slew svc, 1 ≤ thresh → thresh ≤ 65535 → 1 ≤ slew → slew ≤ 200 →
      Answers (.stepPolicy o thresh slew svc) o 0x0208 s .ok []
        { s.dev with htb := ({ s.dev.htb with stepThr := thresh, slewMax := slew, stepSvc := svc } : Htb).keepStep }) ∧
    (∀ slot, slot ≤ 1023 → slot < s.dev.htb.hostSlots → Answers (.alarmRead o slot) o 0x0207 s .ok
      [⟨1, b2n (s.dev.alarm slot).armed⟩, ⟨2, slot⟩, ⟨2, b2n (s.dev.alarm slot).absolute⟩, ⟨8, (s.dev.alarm slot).target⟩,
        ⟨4, (s.dev.alarm slot).period⟩, ⟨4, (s.dev.alarm slot).typ * 2 ^ 30 + (s.dev.alarm slot).targets⟩] s.dev)

/-- SET_TIME_OF_DAY in FREE_RUN or HOLDOVER, with a stamp on any tick and sub-tick, answers ST_OK: the step it plans is the
multiple of 160 ticks nearest the offset (none for 0), the residue is at most 80 ticks and is what is slewed away; the offset is the stamp less the Hearth time, sub-ticks included. In COARSE or LOCKED it answers ST_REFUSED_BUSY
and changes nothing. Where it goes beyond the words of the rules it is the model's own reading (log entry 52). -/
def Obligations.SetTimeOfDayStepsAndSlews : Prop :=
  ∀ (s : State) (o : Origin) (stamp : Nat), HostOk o s → stamp % 4096 ≤ 3071 →
    (s.dev.htb.state = .freeRun ∨ s.dev.htb.state = .holdover →
      ∃ h : Htb, Answers (.setTimeOfDay o stamp) o 0x0202 s .ok [] { s.dev with htb := h } ∧ h.todSet = true ∧
        ∃ n : Int, n % 160 = 0 ∧ h.step = (if n = 0 then none else some n) ∧
          ((stampAbs stamp : Int) - (stampAbs (clockStamp s.clk) : Int) - n * 3072).natAbs ≤ 80 * 3072 ∧
          h.residue = ((stampAbs stamp : Int) - (stampAbs (clockStamp s.clk) : Int) - n * 3072) * 488281250) ∧
    (s.dev.htb.state = .coarse ∨ s.dev.htb.state = .locked →
      Answers (.setTimeOfDay o stamp) o 0x0202 s .refusedBusy [] s.dev)

/-- FORCE_HOLDOVER in COARSE or LOCKED enters HOLDOVER; in FREE_RUN and HOLDOVER, and with its release, the state stays. After SOURCE_LOSS ticks without a time source
COARSE and LOCKED move to HOLDOVER; after HOLD_LIMIT × 480,000 ticks HOLDOVER moves to FREE_RUN; every entry is counted, and
HOLDOVER holds the last disciplined frequency. An announce receipt timeout takes its port, and no other, out of the SLAVE state.
Nothing but the Hearth and its counters changes. Where it goes beyond the words of the rules it is the model's own reading (log
entry 52). -/
def Obligations.HoldoverIsForcedAndEntered : Prop :=
  ∀ (s : State),
    (∀ o hold, HostOk o s → ∃ h c, Answers (.forceHoldover o hold) o 0x0204 s .ok [] { s.dev with htb := h, ctr := c } ∧
      h.forced = hold ∧
      (hold = false ∨ s.dev.htb.state = .freeRun ∨ s.dev.htb.state = .holdover → h.state = s.dev.htb.state) ∧
      (hold = true → s.dev.htb.state = .coarse ∨ s.dev.htb.state = .locked → h.state = .holdover ∧ h.ticksIn = 0)) ∧
    (s.dev.htb.srcLoss ≤ s.dev.htb.noSrc → s.dev.htb.state = .coarse ∨ s.dev.htb.state = .locked →
      Does .sourceLossTimeout s (({ s.dev with htb := { s.dev.htb with
        state := .holdover, left := true, ticksIn := 0, inTicks := 0, inRun := false, badUpd := 0, sinceSel := 0, ppsRej := 0, step := none
        stepTod := false, leaving := false, residue := 0, rateHeld := true } }).bump0 .htbHoldoverEntry)) ∧
    (s.dev.htb.state = .holdover → s.dev.htb.holdLim ≠ 0 → s.dev.htb.holdLim * 480000 ≤ s.dev.htb.ticksIn →
      Does .holdoverLimit s (({ s.dev with htb := { s.dev.htb with
        state := .freeRun, ticksIn := 0, inTicks := 0, inRun := false, badUpd := 0, sinceSel := 0, ppsRej := 0
        rateHeld := false } }).bump0 .htbFreerunEntry)) ∧
    (s.dev.htb.servoOn = true → ∃ h c, Does (.announceReceiptTimeout 0) s { s.dev with htb := h, ctr := c } ∧
      h.port0 = { s.dev.htb.port0 with slave := false } ∧ h.port1 = s.dev.htb.port1 ∧ h.state = s.dev.htb.state) ∧
    (s.dev.htb.servoOn = true → ∃ h c, Does (.announceReceiptTimeout 1) s { s.dev with htb := h, ctr := c } ∧
      h.port1 = { s.dev.htb.port1 with slave := false } ∧ h.port0 = s.dev.htb.port0 ∧ h.state = s.dev.htb.state)

/-- ALARM_ARM of a host slot that is not armed, with a target in the future, arms it there; with a target in the past it fires at
the next sub-tick and is counted as htb.alarm_past; an armed slot without REPLACE answers ST_REFUSED_BUSY, and a slot that is
tile code's ST_NOT_PERMITTED. ALARM_DISARM of a slot whose action does not issue in this sub-tick disarms it and returns whether
it has fired in it; where the action issues in this sub-tick, the sub-tick's actions issue first. An alarm sub-tick behind its
boundary events with no slot due or waiting changes only the record of issue. Where it goes beyond the
words of the rules it is the model's own reading (log entries 23, 53). -/
def Obligations.AlarmSlotsArmAndDisarm : Prop :=
  ∀ (s : State) (o : Origin) (slot target period typ targets : Nat) (absolute replace : Bool), HostOk o s → slot ≤ 1023 →
    typ ≤ 3 → (typ = 1 → s.dev.hopUp targets = true) → alarmTargetsOk typ targets = true → target % 4096 ≤ 3071 →
    (slot < s.dev.htb.hostSlots → (s.dev.alarm slot).armed = false → clockStamp s.clk ≤ target →
      Answers (.alarmArm o slot absolute replace target period typ targets) o 0x0205 s .ok []
        (s.dev.setAlarm slot { armed := true, absolute := absolute, target := target, due := target, period := period,
                               typ := typ, targets := targets, firedAt := 0 })) ∧
    (slot < s.dev.htb.hostSlots → (s.dev.alarm slot).armed = false → target < clockStamp s.clk →
      Answers (.alarmArm o slot absolute replace target period typ targets) o 0x0205 s .ok []
        ((s.dev.setAlarm slot { armed := true, absolute := absolute, target := target, due := nextStamp (clockStamp s.clk),
                                period := period, typ := typ, targets := targets, firedAt := 0 }).bump0 .htbAlarmPast)) ∧
    (slot < s.dev.htb.hostSlots → (s.dev.alarm slot).armed = true →
      Answers (.alarmArm o slot absolute false target period typ targets) o 0x0205 s .refusedBusy [] s.dev) ∧
    (s.dev.htb.hostSlots ≤ slot →
      Answers (.alarmArm o slot absolute replace target period typ targets) o 0x0205 s .notPermitted [] s.dev) ∧
    (slot < s.dev.htb.hostSlots → slot ∉ s.dev.issuesNow s.clk →
      Answers (.alarmDisarm o slot) o 0x0206 s .ok [⟨1, b2n ((s.dev.alarm slot).firedAt == clockStamp s.clk + 1)⟩]
        (s.dev.setAlarm slot { s.dev.alarm slot with armed := false })) ∧
    (slot < s.dev.htb.hostSlots → slot ∈ s.dev.issuesNow s.clk → s.dev.bndDone s.clk = true →
      Answers (.alarmDisarm o slot) o 0x0206 s .ok
        [⟨1, b2n (((s.dev.issueAlarms s.clk).alarm slot).firedAt == clockStamp s.clk + 1)⟩]
        ((s.dev.issueAlarms s.clk).setAlarm slot { (s.dev.issueAlarms s.clk).alarm slot with armed := false })) ∧
    (slot < s.dev.htb.hostSlots → slot ∈ s.dev.issuesNow s.clk → s.dev.bndDone s.clk = false →
      Answers (.alarmDisarm o slot) o 0x0206 s .ok [⟨1, 1⟩] (s.dev.setAlarm slot { s.dev.alarm slot with period := 0 })) ∧
    (s.dev.htb.hostSlots ≤ slot → Answers (.alarmDisarm o slot) o 0x0206 s .notPermitted [] s.dev) ∧
    (∀ n, s.clk.sub ≤ n → n < 3072 → 0 < n ∨ lastBnd s.clk.tick ≤ s.dev.htb.bnd → exec (.alarmFire n) s = .next { s with
      clk := { s.clk with sub := n }, dev := s.dev.issueAlarms { s.clk with sub := n } }) ∧
    (∀ n, s.clk.sub ≤ n → n < 3072 → 0 < n ∨ lastBnd s.clk.tick ≤ s.dev.htb.bnd → s.dev.htb.alarms = [] → s.dev.htb.issueAt ≠ s.clk.tick * 4096 + n + 1 →
      exec (.alarmFire n) s = .next { s with
        clk := { s.clk with sub := n }
        dev := { s.dev with htb := { s.dev.htb with issueAt := s.clk.tick * 4096 + n + 1, issued := 0 } } })

/-- With one slot armed and due at this sub-tick, behind the boundary events of that instant, its action a filter action (type 3), the
slot fires: a slot without a period
disarms, one with a period takes the target one period of ticks later, and the action reaches the filter engine once. -/
def Obligations.AlarmFiresItsAction : Prop :=
  ∀ (s : State) (n slot : Nat) (a : Alarm), s.clk.sub ≤ n → n < 3072 → 0 < n ∨ lastBnd s.clk.tick ≤ s.dev.htb.bnd → s.dev.htb.alarms = [(slot, a)] → a.armed = true →
    a.typ = 3 → a.due = s.clk.tick * 4096 + n → a.target = a.due → a.period < 2 ^ 32 →
    s.dev.htb.issueAt ≠ s.clk.tick * 4096 + n + 1 →
    ∃ h : Htb, exec (.alarmFire n) s = .next { s with
        clk := { s.clk with sub := n }
        dev := ({ s.dev with htb := h }).filterAction (bitsOf a.targets 0 9) (bitsOf a.targets 9 2) } ∧
      h.alarms = [(slot, { a with
        armed := decide (a.period ≠ 0), firedAt := a.due + 1,
        target := if a.period = 0 then a.target else a.target + a.period * 4096,
        due := if a.period = 0 then a.due else a.target + a.period * 4096 })]

/-- With one slot armed and due at this sub-tick, behind the boundary events of that instant, its action a LINE_ACTION (type 2): for a line that is not active, or whose lane is not
in LIVE, the action is discarded and counted as action_inactive of the line; for an active line on a lane in LIVE whose action entry is
empty nothing changes and action_empty of the line counts it. The slot itself disarms or takes its next target, as for any action. -/
def Obligations.AlarmLineActionsNeedAnActiveLine : Prop :=
  ∀ (s : State) (n slot line entry : Nat) (a : Alarm), s.clk.sub ≤ n → n < 3072 → 0 < n ∨ lastBnd s.clk.tick ≤ s.dev.htb.bnd → s.dev.htb.alarms = [(slot, a)] → a.armed = true →
    a.typ = 2 → a.due = s.clk.tick * 4096 + n → a.target = a.due → a.period < 2 ^ 32 →
    s.dev.htb.issueAt ≠ s.clk.tick * 4096 + n + 1 → bitsOf a.targets 0 8 = line → bitsOf a.targets 8 3 = entry →
    ∃ h : Htb, h.alarms = [(slot, { a with
        armed := decide (a.period ≠ 0), firedAt := a.due + 1,
        target := if a.period = 0 then a.target else a.target + a.period * 4096,
        due := if a.period = 0 then a.due else a.target + a.period * 4096 })] ∧
      ((s.dev.line line).active = false ∨ (s.dev.lane (line / 8)).train ≠ .live →
        exec (.alarmFire n) s = .next { s with
          clk := { s.clk with sub := n }
          dev := ({ s.dev with htb := h }).bump1 .ollLineActionInactive line }) ∧
      ((s.dev.line line).active = true → (s.dev.lane (line / 8)).train = .live → ((s.dev.line line).actions.get {} entry).kind = 0 →
        exec (.alarmFire n) s = .next { s with
          clk := { s.clk with sub := n }
          dev := ({ s.dev with htb := h }).bump1 .ollLineActionEmpty line })

/-- A lost reference that has counted 8,000 good ticks is valid again. With PPS_IN as time source an edge that is not rejected sets the
offset, which is slewed away but for the step that then waits; beyond 100 µs, in LOCKED, it is rejected and counted, and the eighth
in a row moves the Hearth to COARSE. An ESMC message sets its port's quality. The first servo update with a time source in FREE_RUN
enters COARSE, and keeps its offset. Where it goes beyond the words of the rules it is the model's own reading (log entry 52). -/
def Obligations.HearthInputsMoveSources : Prop :=
  ∀ s : State,
    (s.dev.htb.refB.lost = true → 8000 ≤ s.dev.htb.refB.good → ∃ h c,
      Does (.refRecover true) s { s.dev with htb := h, ctr := c } ∧ h.refB = { ok := true, lost := false, good := 0 } ∧
        h.refA = s.dev.htb.refA) ∧
    (s.dev.htb.refA.lost = true → 8000 ≤ s.dev.htb.refA.good → ∃ h c,
      Does (.refRecover false) s { s.dev with htb := h, ctr := c } ∧ h.refA = { ok := true, lost := false, good := 0 } ∧
        h.refB = s.dev.htb.refB) ∧
    (∀ x : Int, s.dev.htb.timeSrc = 3 → s.dev.htb.state ≠ .locked ∨ (x - s.dev.htb.ppsInComp).natAbs ≤ 100000 → ∃ h c,
      Does (.ppsInEdge x) s { s.dev with htb := h, ctr := c } ∧ h.ppsRej = 0 ∧ h.offset = -(x - s.dev.htb.ppsInComp) ∧
        (s.dev.htb.servoOn = true → s.dev.htb.forced = false → s.dev.htb.stepTod = false →
          h.residue = (h.offset - h.step.getD 0 * 125000) * 12000000)) ∧
    (∀ x : Int, s.dev.htb.timeSrc = 3 → s.dev.htb.state = .locked → 100000 < (x - s.dev.htb.ppsInComp).natAbs →
      s.dev.htb.ppsRej < 7 → Does (.ppsInEdge x) s
        (({ s.dev with htb := { s.dev.htb with ppsRej := s.dev.htb.ppsRej + 1 } }).bump0 .htbPpsInReject)) ∧
    (∀ x : Int, s.dev.htb.timeSrc = 3 → s.dev.htb.state = .locked → 100000 < (x - s.dev.htb.ppsInComp).natAbs →
      s.dev.htb.ppsRej = 7 → ∃ h c, Does (.ppsInEdge x) s { s.dev with htb := h, ctr := c } ∧ h.state = .coarse ∧ h.ppsRej = 0) ∧
    (∀ port dnu, s.dev.hif.paused = false → ∃ h c, Does (.esmcRx port dnu) s { s.dev with htb := h, ctr := c } ∧
      (if port = 0 then h.port0 = { s.dev.htb.port0 with dnu := dnu } ∧ h.port1 = s.dev.htb.port1
       else h.port1 = { s.dev.htb.port1 with dnu := dnu } ∧ h.port0 = s.dev.htb.port0)) ∧
    (∀ s0 s1 data0 data1 offset utc d, s.dev.htb.servoOn = true → ({ s.dev with htb := { s.dev.htb with
        port0 := { s.dev.htb.port0 with slave := s0, dataset := data0 }
        port1 := { s.dev.htb.port1 with slave := s1, dataset := data1 } } }).selectTime = d →
      Does (.servoUpdate s0 s1 data0 data1 offset utc) s (if d.htb.timeSrc = 0 ∨ d.htb.timeSrc = 3 then d
        else ({ d with htb := { d.htb with utcOff := utc } }).discipline offset)) ∧
    (∀ data0 data1 offset utc, s.dev.htb.servoOn = true → s.dev.htb.state = .freeRun → s.dev.htb.forced = false →
      s.dev.htb.enables.getLsbD 0 = true → s.dev.htb.ptpOff = false → ∃ h c,
        Does (.servoUpdate true false data0 data1 offset utc) s { s.dev with htb := h, ctr := c } ∧ h.state = .coarse ∧
          h.timeSrc = 1 ∧ h.offset = offset ∧ h.utcOff = utc)

/-- While the Hearth counts, TICK moves the count to the next tick at sub-tick 0 and changes no memory. At a tick divisible by a
frame length of 20, 40, 80 or 160 that frame event is delivered to the Hoppers and the channels, and at a tick of a quarter of
the length modulo the length the close event, each at sub-tick 0 when it has not been delivered before; at any other tick
neither has an effect. With no step pending TIME_STEP has none; a step is made only at a tick divisible by 160, and moves the
tick count by its size. Where it goes beyond the words of the rules it is the model's own reading (log entries 12, 13). -/
def Obligations.TickBoundariesAreDelivered : Prop :=
  ∀ s : State,
    (∀ a b f0 f1 sv ce, s.dev.sys.powered = true → s.dev.sys.inReset = none → 2 ≤ s.dev.sys.step →
      ∃ d, exec (.tick a b f0 f1 sv ce) s = .next { s with clk := { s.clk with tick := s.clk.tick + 1, sub := 0 }, dev := d }) ∧
    (∀ a b f0 f1 sv ce, s.dev.counts = true → exec (.tick a b f0 f1 sv ce) s = .next { s with
      clk := { s.clk with tick := s.clk.tick + 1, sub := 0 }
      dev := s.dev.tickUnits { s.clk with tick := s.clk.tick + 1, sub := 0 } a b f0 f1 sv ce }) ∧
    (∀ len i, (len, i) ∈ [(20, 0), (40, 1), (80, 2), (160, 3)] →
      (s.clk.tick % len = 0 → s.dev.bndTurn s.clk (5 + i) = true →
        Does (.frameBoundary len) s (({ s.dev with htb := { s.dev.htb with bnd := 5 + i } }).frameEvent s.clk len)) ∧
      (s.clk.tick % len = len / 4 → s.dev.bndTurn s.clk (1 + i) = true → Does (.windowClose len) s
        ((({ s.dev with htb := { s.dev.htb with bnd := 1 + i } }).hopClose s.clk len).medClose s.clk len))) ∧
    (∀ n : Int, s.dev.htb.step = some n → stepDue s.clk s.dev = true → s.dev.counts = true →
      ∃ d, exec .timeStep s = .next { s with clk := { s.clk with tick := ((s.clk.tick : Int) + n).toNat }, dev := d }) ∧
    (∀ len i, (len, i) ∈ [(20, 0), (40, 1), (80, 2), (160, 3)] →
      (s.clk.tick % len = 0 → s.clk.sub = 0 → s.dev.htb.bnd < 5 + i → s.dev.htb.step = none →
        Does (.frameBoundary len) s (({ s.dev with htb := { s.dev.htb with bnd := 5 + i } }).frameEvent s.clk len)) ∧
      (s.clk.tick % len ≠ 0 → exec (.frameBoundary len) s = .next s) ∧
      (s.clk.tick % len = len / 4 → s.clk.sub = 0 → s.dev.htb.bnd < 1 + i → s.dev.htb.step = none →
        Does (.windowClose len) s
          ((({ s.dev with htb := { s.dev.htb with bnd := 1 + i } }).hopClose s.clk len).medClose s.clk len)) ∧
      (s.clk.tick % len ≠ len / 4 → exec (.windowClose len) s = .next s)) ∧
    (s.dev.htb.step = none → exec .timeStep s = .next s) ∧
    (∀ n : Int, s.dev.htb.step = some n → s.clk.tick % 160 ≠ 0 → exec .timeStep s = .next s) ∧
    (∀ n : Int, s.dev.htb.step = some n → s.clk.tick % 160 = 0 → s.clk.sub = 0 → s.dev.htb.bnd = 0 →
      s.dev.sys.powered = true → s.dev.sys.inReset = none → 2 ≤ s.dev.sys.step → 0 ≤ (s.clk.tick : Int) + n →
      ∃ d, exec .timeStep s = .next { s with clk := { s.clk with tick := ((s.clk.tick : Int) + n).toNat }, dev := d })

/-- A lane that sends and is in LIVE starts its frame with the number of the tick it arrives in, moving f by at most one step
towards its goal. The latch point moves to sub-tick 1,152 and latches every line; with nothing queued on any line and no frame
started, it changes only the sub-tick. In a loopback a received frame only counts its errors; a lane that hears none takes none.
In LIVE a frame within 2 µs of its window's centre is taken where its code groups, its CRC and its number are good, and is
otherwise counted by the first of these that is not and is a miss. A miss in LIVE before the eighth is counted. The active
lines' telemetry of an enabled lane goes to its status Hopper at each 2^TELEM_LOG2 ticks. Where it goes beyond the words
of the rules it is the model's own reading (log entry 48). -/
def Obligations.LaneFramesAreCheckedAndSent : Prop :=
  ∀ (s : State) (q : Nat), q < 32 → Store.wf {} s.dev.oll.lanes = true →
    ((s.dev.lane q).sends = true → (s.dev.lane q).loop = none → (s.dev.lane q).train = .live → ∃ (x : Lane) (c : Store Nat),
      Does (.downstreamFrameTx q) s { (s.dev.setLane q x) with ctr := c } ∧
      x.dsNum = some ((if 1536 ≤ s.clk.sub then s.clk.tick + 1 else s.clk.tick) % 2 ^ 24) ∧
      x.f ≤ (s.dev.lane q).f + 1 ∧ (s.dev.lane q).f ≤ x.f + 1 ∧
      ((s.dev.lane q).f = (s.dev.lane q).fGoal → x.f = (s.dev.lane q).fGoal) ∧ x.train = .live) ∧
    ((s.dev.lane q).sends = true → (s.dev.lane q).loop = none → Does (.downstreamFrameTx q) s (s.dev.startFrame s.clk q)) ∧
    (s.clk.sub ≤ 1152 → exec .latchPoint s = .next { s with
      clk := { s.clk with sub := 1152 }, dev := s.dev.latchAll { s.clk with sub := 1152 } }) ∧
    (s.clk.sub ≤ 1152 → s.dev.oll.lines = [] → s.dev.oll.lanes = [] →
      exec .latchPoint s = .next { s with clk := { s.clk with sub := 1152 } }) ∧
    (∀ comma codes spaced rt, (s.dev.lane q).loop ≠ none → Does (.upstreamFrame q comma codes spaced rt) s
      ((heard s.dev q (comma :: codes)).setLane q { (heard s.dev q (comma :: codes)).lane q with
        loopCode := (s.dev.lane q).loopCode + b2n ((s.dev.lane q).reads (comma :: codes)).1.isNone
        loopCrc := (s.dev.lane q).loopCrc +
          b2n (((s.dev.lane q).reads (comma :: codes)).1.isSome && !((s.dev.lane q).reads (comma :: codes)).2) })) ∧
    ((s.dev.lane q).loop = none →
      (∀ comma codes spaced rt, (s.dev.lane q).hears s.clk.tick = false → Does (.upstreamFrame q comma codes spaced rt) s
        (s.dev.setLane q { s.dev.lane q with rxDisp := none })) ∧
      (∀ comma codes spaced rt d, (s.dev.lane q).hears s.clk.tick = true → heard s.dev q (comma :: codes) = d →
        ((s.dev.lane q).train = .live → (s.dev.lane q).rt + 4000 < rt ∨ rt + 4000 < (s.dev.lane q).rt →
          Does (.upstreamFrame q comma codes spaced rt) s ((d.bump1 .ollLTurnaroundMiss q).laneMiss s.clk q)) ∧
        ((s.dev.lane q).train = .frameLock →
          (∀ bs, (s.dev.lane q).reads (comma :: codes) = (some bs, true) → Does (.upstreamFrame q comma codes spaced rt) s
            ((d.linesIn s.clk q (leAt bs 1 3) bs).seekFrame s.clk q (leAt bs 1 3) rt true spaced)) ∧
          (∀ bs, (s.dev.lane q).reads (comma :: codes) = (some bs, false) → Does (.upstreamFrame q comma codes spaced rt) s
            ((d.bump1 .ollLCrcError q).seekFrame s.clk q (leAt bs 1 3) rt false spaced)) ∧
          ((s.dev.lane q).reads (comma :: codes) = (none, false) → Does (.upstreamFrame q comma codes spaced rt) s
            ((d.bump1 .ollLCodeError q).seekFrame s.clk q 0 rt false spaced))) ∧
        ((s.dev.lane q).train ≠ .frameLock → (s.dev.lane q).train ≠ .live →
          (∀ bs, (s.dev.lane q).reads (comma :: codes) = (some bs, false) →
            Does (.upstreamFrame q comma codes spaced rt) s (d.bump1 .ollLCrcError q)) ∧
          ((s.dev.lane q).reads (comma :: codes) = (none, false) →
            Does (.upstreamFrame q comma codes spaced rt) s (d.bump1 .ollLCodeError q))) ∧
        ((s.dev.lane q).train ≠ .frameLock → (s.dev.lane q).train ≠ .live → ∀ bs,
          (s.dev.lane q).reads (comma :: codes) = (some bs, true) →
          (leAt bs 1 3 ≠ (s.dev.lane q).expectNum s.clk.tick → Does (.upstreamFrame q comma codes spaced rt) s (d.bump1 .ollLSeqError q)) ∧
          (leAt bs 1 3 = (s.dev.lane q).expectNum s.clk.tick → ∀ e,
            (((d.modLane q (fun y => y.took s.clk.tick (leAt bs 1 3))).linesIn s.clk q (leAt bs 1 3) bs).chunkIn s.clk q
              (slice bs 132 64)) = e →
            Does (.upstreamFrame q comma codes spaced rt) s (if (e.lane q).train = .delayMeasure ∧ (s.dev.lane q).train = .delayMeasure
              then e.measure s.clk q rt ((s.dev.lane q).lastAt == some (s.clk.tick - 1)) else e)))) ∧
      (∀ comma codes spaced rt, (s.dev.lane q).hears s.clk.tick = true → (s.dev.lane q).train = .live →
        rt ≤ (s.dev.lane q).rt + 4000 → (s.dev.lane q).rt ≤ rt + 4000 →
        (∀ bs, (s.dev.lane q).reads (comma :: codes) = (some bs, true) → leAt bs 1 3 = (s.dev.lane q).expectNum s.clk.tick →
          Does (.upstreamFrame q comma codes spaced rt) s ((heard s.dev q (comma :: codes)).liveFrame s.clk q (leAt bs 1 3) rt bs)) ∧
        (∀ bs, (s.dev.lane q).reads (comma :: codes) = (some bs, true) → leAt bs 1 3 ≠ (s.dev.lane q).expectNum s.clk.tick →
          Does (.upstreamFrame q comma codes spaced rt) s (((heard s.dev q (comma :: codes)).bump1 .ollLSeqError q).laneMiss s.clk q)) ∧
        (∀ bs, (s.dev.lane q).reads (comma :: codes) = (some bs, false) →
          Does (.upstreamFrame q comma codes spaced rt) s (((heard s.dev q (comma :: codes)).bump1 .ollLCrcError q).laneMiss s.clk q)) ∧
        ((s.dev.lane q).reads (comma :: codes) = (none, false) →
          Does (.upstreamFrame q comma codes spaced rt) s (((heard s.dev q (comma :: codes)).bump1 .ollLCodeError q).laneMiss s.clk q)))) ∧
    (∀ d, s.dev.modLane q (fun y => { y with rxDisp := none }) = d →
      ((s.dev.lane q).train = .live → (s.dev.lane q).scanned (s.clk.tick + 1) = false →
        Does (.turnaroundMiss q) s ((d.bump1 .ollLTurnaroundMiss q).laneMiss s.clk q)) ∧
      ((s.dev.lane q).train = .frameLock → Does (.turnaroundMiss q) s (d.setLane q { d.lane q with good := 0 }))) ∧
    ((s.dev.lane q).train = .live → (s.dev.lane q).scanFrom = none → (s.dev.lane q).misses < 7 →
      Does (.turnaroundMiss q) s ((s.dev.bump1 .ollLTurnaroundMiss q).setLane q
        { s.dev.lane q with misses := (s.dev.lane q).misses + 1, rxDisp := none })) ∧
    ((s.dev.lane q).en = true → 0 < (s.dev.lane q).telemLog2 → s.clk.tick % 2 ^ (s.dev.lane q).telemLog2 = 0 →
      Does (.telemetryPacket q) s (s.dev.lanePacket s.clk q 2 (s.dev.lane q).lastNum 2 (s.dev.activeMask q) 0 0
        (((laneLines q).filter (fun n => (s.dev.line n).active)).flatMap
          (fun n => bytesWords (((s.dev.line n).telem ++ List.replicate 16 0).take 16)))))

/-- LOS puts a lane that is training on from BIT_LOCK in DARK with reason 9 as a training failure, and a lane in LIVE, or in a
FRAME_LOCK reached from LIVE, without one; its release begins the eight ticks before the lane may leave DARK. A comma moves BIT_LOCK to FRAME_LOCK. A training state's timeout fails the lane with the state's reason,
counted by reason, and four failures hold it off. The end of the holdoff clears the failures. With waves, the next wave starts
480 ticks after the one before, or once each of its enabled lanes is in LIVE or has failed. A relock that takes 32 ticks fails the lane with reason 2 after its lines are lost. Where it
goes beyond the words of the rules it is the model's own reading (log entries 48, 49). -/
def Obligations.LaneSignalAndTraining : Prop :=
  ∀ (s : State) (q : Nat), q < 32 → Store.wf {} s.dev.oll.lanes = true →
    ((s.dev.lane q).train = .dark → Does (.losAssert q) s (s.dev.setLane q { s.dev.lane q with los := true })) ∧
    ((s.dev.lane q).train ≠ .dark → (s.dev.lane q).train ≠ .live → (s.dev.lane q).fromLive = false → Does (.losAssert q) s
      ((((s.dev.setLane q { s.dev.lane q with los := true }).linesLost s.clk q).abortMail s.clk q).trainFail s.clk q 9)) ∧
    ((s.dev.lane q).train = .live ∨ (s.dev.lane q).train = .frameLock ∧ (s.dev.lane q).fromLive = true → Does (.losAssert q) s
      ((((s.dev.setLane q { s.dev.lane q with los := true }).linesLost s.clk q).abortMail s.clk q).setTrain s.clk q .dark 9)) ∧
    ((s.dev.lane q).los = true →
      Does (.losRelease q) s (s.dev.setLane q { s.dev.lane q with los := false, losOff := 0 })) ∧
    ((s.dev.lane q).los = false → exec (.losRelease q) s = .next s) ∧
    ((s.dev.lane q).train = .bitLock → (s.dev.lane q).startScan = false →
      Does (.commaFound q) s ((s.dev.setLane q { s.dev.lane q with align := 0 }).setTrain s.clk q .frameLock 0)) ∧
    (∀ t n reason, (t, n, reason) ∈ [(Train.bitLock, 64, 1), (.frameLock, 32, 2), (.delayMeasure, 128, 3),
        (.capability, 256, 5), (.activate, 512, 8)] → (s.dev.lane q).train = t → (s.dev.lane q).fromLive = false →
      (n ≤ (s.dev.lane q).inTicks → Does (.trainTimeout q) s (s.dev.trainFail s.clk q reason)) ∧
      ((s.dev.lane q).inTicks < n → exec (.trainTimeout q) s = .next s)) ∧
    ((s.dev.lane q).train = .frameLock → (s.dev.lane q).fromLive = true → 32 ≤ (s.dev.lane q).inTicks →
      Does (.relockTimeout q) s ((s.dev.linesLost s.clk q).trainFail s.clk q 2)) ∧
    ((s.dev.lane q).holdoff = 1 → Does (.holdoffEnd q) s
      ((s.dev.setLane q { s.dev.lane q with holdoff := 0, fails := 0 }).leaveDark s.clk q)) ∧
    (∀ w, s.dev.oll.wave = some w → w < 3 → 480 ≤ s.dev.oll.waveTicks →
      Does .trainingWaveStart s (s.dev.startWave s.clk (w + 1))) ∧
    (∀ w, s.dev.oll.wave = some w → w < 3 → (∀ p ∈ waveLanes w, (s.dev.lane p).en = false ∨ (s.dev.lane p).waveDone = true) →
      Does .trainingWaveStart s (s.dev.startWave s.clk (w + 1)))

/-- A lane's change of training state to any but LIVE, from any but LIVE and not in the middle of the scan of its start, is written to the lane, raised as the event LANE_STATE
(0x0380) with old state, new state and reason, and sent as a status packet of KIND 3. A training failure counts its reason and
its run of failures, holds the lane off at the fourth in a row or where the reason says so, and returns FRAME_LOCK's failure to
BIT_LOCK. -/
def Obligations.TrainingStateChangeIsReported : Prop :=
  ∀ (k : Clock) (d : Dev) (q : Nat) (new : Train) (reason : Nat), (d.lane q).train ≠ .live → new ≠ .live →
    ((d.lane q).train = .bitLock → (d.lane q).startScan = false) →
    (∃ y : Lane, y.train = new ∧ y.reason = reason ∧ y.inTicks = 0 ∧ y.fromLive = false ∧ y.kept = (d.lane q).kept ∧
      d.setTrain k q new reason = ((d.setLane q y).event k 0x0380 q
        (trainCode new + 16 * trainCode (d.lane q).train + 256 * reason)).lanePacket k q 7 k.tick 3 0
          (trainCode new + 16 * trainCode (d.lane q).train) reason []) ∧
    (∃ y : Lane, y.fails = (d.lane q).fails + 1 ∧ y.fast = false ∧
      (3 ≤ (d.lane q).fails ∨ reason = 4 ∨ reason = 6 ∨ reason = 7 → y.holdoff = d.oll.holdoffTicks + 1) ∧
      (¬ (3 ≤ (d.lane q).fails ∨ reason = 4 ∨ reason = 6 ∨ reason = 7) → y.holdoff = (d.lane q).holdoff) ∧
      d.trainFail k q reason = ((d.bump ⟨.ollLTrainFail, q, reason⟩).setLane q y).setTrain k q
        (if reason = 2 ∧ (d.lane q).fails < 3 then .bitLock else .dark) reason)

/-- A line command sent 16 times without acknowledgement ends with ST_DROPPED and is counted. A LINE_SET_STATE 16 ticks old ends
with ST_DROPPED. A lane without mailbox requests drops none. The end of a loopback answers it with its error counts. An
acknowledged retrain begins and completes with ST_OK. The end of a disable brings the lane to rest in DARK with reason 11
and answers the LANE_ENABLE that waited. A lane
whose command Hopper is empty consumes nothing, a packet whose words spell a command is consumed as that command, and one whose
words spell none is consumed with ST_BAD_ARG. Where it
goes beyond the words of the rules it is the model's own reading (log entries 23, 49, 80). -/
def Obligations.LaneTimeoutsAnswerWhoAsked : Prop :=
  ∀ (s : State) (q n : Nat), q < 32 → n < 256 →
    (∀ fl, (s.dev.line n).flight = some fl → 16 ≤ fl.sent → Does (.lineCmdTimeout n) s
      (((s.dev.setLine n { s.dev.line n with flight := none }).bump1 .ollLineCmdTimeout n).answer s.clk fl.cmd.src 0x0307
        .dropped)) ∧
    (∀ seq age src, (s.dev.line n).acks = [(seq, age, src)] → 16 ≤ age → Does (.stateAckTimeout n) s
      (((s.dev.setLine n { s.dev.line n with acks := [] }).bump1 .ollLineStateAckTimeout n).answer s.clk src 0x0306
        .dropped)) ∧
    (∀ late, (s.dev.line n).acks.filter (fun a => decide (16 ≤ a.2.1)) = late → Does (.stateAckTimeout n) s
      (late.foldl (fun d a => (d.bump1 .ollLineStateAckTimeout n).answer s.clk a.2.2 0x0306 .dropped)
        (s.dev.setLine n { s.dev.line n with acks := (s.dev.line n).acks.filter (fun a => !decide (16 ≤ a.2.1)) }))) ∧
    (∀ late, (s.dev.lane q).mbx.reqs.filter (fun r => decide (answerTicks r.msg.typ ≤ r.age)) = late → Does (.mailboxTimeout q) s
      (late.foldl (fun d r => (d.bump1 .ollLMbxTimeout q).dropMsg s.clk .dropped r.msg)
        (s.dev.setLane q { s.dev.lane q with
          mbx := (s.dev.lane q).mbx.endReqs (fun x => decide (answerTicks x.msg.typ ≤ x.age)) }))) ∧
    ((s.dev.lane q).mbx.reqs = [] → Does (.mailboxTimeout q) s (s.dev.setLane q (s.dev.lane q))) ∧
    (∀ (r : MbxReq) (o : Origin), (s.dev.lane q).mbx.reqs = [r] → answerTicks r.msg.typ ≤ r.age → r.msg.who = .host o →
      Does (.mailboxTimeout q) s (((s.dev.setLane q { s.dev.lane q with
        mbx := (s.dev.lane q).mbx.endReqs (fun x => decide (answerTicks x.msg.typ ≤ x.age)) }).bump1
          .ollLMbxTimeout q).answer s.clk (.host o) 0x030A .dropped)) ∧
    ((s.dev.lane q).loop = some 0 → Does (.loopbackEnd q) s
      (((s.dev.setLane q { s.dev.lane q with loop := none, loopCode := 0, loopCrc := 0 }).finish s.clk .laneLoopback q .ok
        [⟨4, (s.dev.lane q).loopCode⟩, ⟨4, (s.dev.lane q).loopCrc⟩]).leaveDark s.clk q)) ∧
    (∀ full age, (s.dev.lane q).retrain = some (full, age, true) → Does (.retrainBegin q) s
      ((s.dev.beginRetrain s.clk q full).finish s.clk .laneRetrain q .ok)) ∧
    (∀ full age, (s.dev.lane q).retrain = some (full, age, false) → 40 ≤ age.getD 0 ∨ (s.dev.lane q).train.mailOn = false →
      Does (.retrainBegin q) s ((s.dev.beginRetrain s.clk q full).finish s.clk .laneRetrain q .ok)) ∧
    ((s.dev.lane q).disabling = some 0 → Does (.laneDisableEnd q) s ((s.dev.restDark s.clk q).enableDone s.clk q)) ∧
    (∀ o, Store.wf {} s.dev.oll.lanes = true → s.dev.lane q = { disabling := some 0 } → s.dev.oll.lines = [] → s.dev.waits = [] →
      s.dev.oll.enWaits = [(2 ^ q, .host o)] → ∃ x : Oll,
        Does (.laneDisableEnd q) s (({ s.dev with oll := x }).answer s.clk (.host o) 0x0301 .ok) ∧ x.enWaits = [] ∧
          x.lanes.get {} q = { reason := 11 }) ∧
    (∀ c, (s.dev.hopper (s.dev.lane q).cmdHop).seq = [] → exec (.laneCmdPacket q c) s = .next s) ∧
    (∀ p w0 ws d, s.dev.hopTake s.clk (s.dev.lane q).cmdHop = (some (p, w0 :: ws), d) →
      Does (.laneCmdPacket q .other) s (d.answer s.clk (.lanePkt q (bitsOf w0.toNat 16 8)) (bitsOf w0.toNat 0 16) .badArg)) ∧
    (∀ p w0 ws d, s.dev.hopTake s.clk (s.dev.lane q).cmdHop = (some (p, w0 :: ws), d) → bitsOf w0.toNat 0 16 = 0x030C →
      bitsOf w0.toNat 16 8 = n → bitsOf w0.toNat 24 8 = 0 → (d.lane (n / 8)).disabling = none →
      ∃ res, Does (.laneCmdPacket q (.read n)) s (d.answer s.clk (.lanePkt q n) 0x030C .ok res)) ∧
    (∀ p w0 ws d c, s.dev.hopTake s.clk (s.dev.lane q).cmdHop = (some (p, w0 :: ws), d) →
      bitsOf w0.toNat 0 16 = laneCmdOpc c → bitsOf w0.toNat 16 8 = laneCmdLine c → bitsOf w0.toNat 24 8 = 0 →
      Does (.laneCmdPacket q c) s ((d.laneCmd (.lanePkt q (laneCmdLine c)) c).2.reply s.clk (.lanePkt q (laneCmdLine c))
        (laneCmdOpc c) (d.laneCmd (.lanePkt q (laneCmdLine c)) c).1))

/-- LANE_ENABLE of one idle lane enables it and lets it leave DARK; a disable of one enabled lane starts its 16 ticks and answers
when they end. LANE_STATUS returns the state, reason and timing of a lane. LANE_RETRAIN without PARTNER_RESET begins at once
and answers ST_OK; with it, on a lane whose mailbox works, it queues the message of type 7 and waits. LANE_LOOPBACK of 8 to
80,000 ticks on a DARK lane without active lines starts it and waits. MAILBOX_SEND of a host's type on a LIVE lane with room
queues its message. LANE_EXPECT sets its expectations. A lane above 31 is ST_UNKNOWN_OBJECT. Where it goes beyond the words of
the rules it is the model's own reading (log entries 23, 49). -/
def Obligations.LaneCommandsAnswer : Prop :=
  ∀ (s : State) (o : Origin) (q : Nat), HostOk o s →
    (31 < q → Answers (.laneStatus o q) o 0x0302 s .unknownObject [] s.dev ∧
      Answers (.laneRetrain o q true true) o 0x0303 s .unknownObject [] s.dev ∧
      Answers (.laneExpect o q 0 0 0 0) o 0x030B s .unknownObject [] s.dev) ∧
    (∀ mask qs, (List.range 32).filter (fun p => mask.testBit p) = qs →
      Answers (.laneEnable o mask true) o 0x0301 s .ok [] (qs.foldl (fun d p =>
        if (d.lane p).disabling.isSome then d.setLane p { d.lane p with enAfter := true }
        else if (d.lane p).en then d
        else (d.setLane p { d.lane p with en := true, waveWait := false }).leaveDark s.clk p) s.dev) ∧
      ((∀ p ∈ qs, (s.dev.lane p).en = false ∧ (s.dev.lane p).disabling = none) →
        Answers (.laneEnable o mask false) o 0x0301 s .ok [] s.dev) ∧
      (∀ off busy d, qs.filter (fun p => (s.dev.lane p).en) = off → qs.filter (fun p => (s.dev.lane p).disabling.isSome) = busy →
        off ++ busy ≠ [] → busy.foldl (fun d p => d.modLane p (fun x => { x with enAfter := false }))
          (off.foldl (fun d p => d.modLane p (fun x => { x with en := false, disabling := some 16, waveWait := false })) s.dev) = d →
        Does (.laneEnable o mask false) s { d with oll := { d.oll with
          enWaits := d.oll.enWaits ++ [((off ++ busy).foldl (fun m p => m + 2 ^ p) 0, .host o)] } })) ∧
    (q < 32 →
      (∀ full reset age a, (s.dev.lane q).en = true → (s.dev.lane q).retrain = some (full, age, a) → ∀ f,
        Waits (.laneRetrain o q f reset) o 0x0303 s .laneRetrain q
          (s.dev.setLane q { s.dev.lane q with retrain := some (full || f, age, a) })) ∧
      (∀ full reset, (s.dev.lane q).en = true → (s.dev.lane q).retrain = none →
        (reset = true → (s.dev.lane q).train.mailOn = true → Waits (.laneRetrain o q full reset) o 0x0303 s .laneRetrain q
          ((s.dev.mail q true 7 [] .reset).modLane q (fun y => { y with retrain := some (full, none, false) }))) ∧
        (reset = false ∨ (s.dev.lane q).train.mailOn = false →
          Answers (.laneRetrain o q full reset) o 0x0303 s .ok [] (s.dev.beginRetrain s.clk q full))) ∧
      (∀ ticks, 8 ≤ ticks → ticks ≤ 80000 → s.dev.activeMask q = 0 → (s.dev.lane q).loop = none →
        (s.dev.lane q).disabling = none → (s.dev.lane q).train ≠ .dark →
        Waits (.laneLoopback o q ticks) o 0x0304 s .laneLoopback q ((s.dev.setTrain s.clk q .dark 0).modLane q (fun x => { x with
          loop := some ticks, loopCode := 0, loopCrc := 0 }))) ∧
      (∀ typ payload, payload.length ≤ 1016 → hostMailTyp typ = true → (s.dev.lane q).mbx.host.length < 4 →
        (s.dev.lane q).train = .live → (s.dev.lane q).disabling = none →
        Does (.mailboxSend o q typ payload) s (s.dev.mail q false typ payload (.host o))) ∧
      ((s.dev.lane 0).disabling = none → (s.dev.lane 0).en = false → Answers (.laneEnable o 1 true) o 0x0301 s .ok []
        ((s.dev.setLane 0 { s.dev.lane 0 with en := true, waveWait := false }).leaveDark s.clk 0)) ∧
      ((∀ p, (s.dev.lane p).disabling = none) → (s.dev.lane 0).en = true → ∃ d : Dev, Does (.laneEnable o 1 false) s
        { d with oll := { d.oll with enWaits := d.oll.enWaits ++ [(1, .host o)] } } ∧
          d = s.dev.setLane 0 { s.dev.lane 0 with en := false, disabling := some 16, waveWait := false }) ∧
      (∃ more, Answers (.laneStatus o q) o 0x0302 s .ok ([⟨1, trainCode (s.dev.lane q).train⟩, ⟨1, (s.dev.lane q).reason⟩,
        ⟨4, (s.dev.lane q).rt⟩] ++ more) s.dev) ∧
      (∀ full, (s.dev.lane q).en = true → (s.dev.lane q).retrain = none →
        Answers (.laneRetrain o q full false) o 0x0303 s .ok [] (s.dev.beginRetrain s.clk q full)) ∧
      (∀ full, (s.dev.lane q).en = true → (s.dev.lane q).retrain = none → (s.dev.lane q).train = .live →
        Waits (.laneRetrain o q full true) o 0x0303 s .laneRetrain q
          ((s.dev.mail q true 7 [] .reset).modLane q (fun y => { y with retrain := some (full, none, false) }))) ∧
      (∀ ticks, 8 ≤ ticks → ticks ≤ 80000 → s.dev.activeMask q = 0 → (s.dev.lane q).loop = none →
        (s.dev.lane q).disabling = none → (s.dev.lane q).train = .dark →
        Waits (.laneLoopback o q ticks) o 0x0304 s .laneLoopback q
          (s.dev.setLane q { s.dev.lane q with loop := some ticks, loopCode := 0, loopCrc := 0 })) ∧
      (∀ typ payload, payload.length ≤ 1016 → 0x2000 ≤ typ → typ ≤ 0x3FFF → (s.dev.lane q).mbx.host.length < 4 →
        (s.dev.lane q).train = .live → (s.dev.lane q).disabling = none →
        Does (.mailboxSend o q typ payload) s (s.dev.mail q false typ payload (.host o))) ∧
      (∀ cls minVer lines feats, Answers (.laneExpect o q cls minVer lines feats) o 0x030B s .ok []
        (s.dev.setLane q { s.dev.lane q with
          expect := { cls := cls, minVer := minVer, lines := lines, feats := feats } })))

/-- On an active line whose lane is not being disabled (a line channel there notes the host's hand): LINE_ACTIVATE 1 answers ST_OK at once and
LINE_ACTIVATE 0 waits for the latch point; LINE_SET_STATE with fields of 0 to 7, and LINE_COMMAND with a host's opcode and
room, join what waits for the latch point; LINE_ACTION_WRITE takes effect at the latch point and REFLEX_WRITE at once, both
answered ST_OK; LINE_READ returns the states. On a line that is not active LINE_SET_STATE and LINE_COMMAND answer
ST_REFUSED_BUSY with nothing changed, LINE_ACTIVATE 1 sends ACTIVATE on a lane in LIVE and records the line on another, and
LINE_ACTIVATE 0 records it too. A line above 255 is ST_UNKNOWN_OBJECT. Where it goes beyond the words of the rules it is the model's own
reading (log entries 23, 49). -/
def Obligations.LineCommandsAnswer : Prop :=
  ∀ (s : State) (o : Origin) (n : Nat), HostOk o s → n < 256 →
    (s.dev.lane (n / 8)).disabling = none →
    ((s.dev.line n).active = true →
      Answers (.lineActivate o n true) o 0x0305 s .ok [] (s.dev.setLine n { s.dev.line n with enabled := true }) ∧
      Does (.lineActivate o n false) s
        (s.dev.setLine n { s.dev.line n with ops := (s.dev.line n).ops ++ [.deactivate (.host o)] }) ∧
      (∀ mask feed ring feedP, mask ≤ 7 → feed ≤ 7 → ring ≤ 7 → feedP ≤ 7 → Does (.lineSetState o n mask feed ring feedP) s
        ((s.dev.setLine n { s.dev.line n with
          ops := (s.dev.line n).ops ++ [.state mask feed ring feedP (.host o)] }).lineTouched n)) ∧
      (∀ opc args, lineOpcodeOk opc = true → args.length ≤ 14 → (s.dev.line n).full = false →
        Does (.lineCommand o n opc args) s ((s.dev.setLine n { s.dev.line n with
          queue := (s.dev.line n).queue ++ [{ opc := opc, args := args, src := .host o }] }).lineTouched n))) ∧
    ((s.dev.line n).active = false →
      Answers (.lineSetState o n 7 0 0 0) o 0x0306 s .refusedBusy [] s.dev ∧
      (∀ args, args.length ≤ 14 → (s.dev.line n).full = false →
        Answers (.lineCommand o n 1 args) o 0x0307 s .refusedBusy [] s.dev) ∧
      ((s.dev.lane (n / 8)).train = .live →
        Does (.lineActivate o n true) s (s.dev.mail (n / 8) true 3 [2 ^ (n % 8)] (.lineAct n (.host o)))) ∧
      ((s.dev.lane (n / 8)).train ≠ .live →
        Answers (.lineActivate o n true) o 0x0305 s .ok [] (s.dev.setLine n { s.dev.line n with enabled := true })) ∧
      Answers (.lineActivate o n false) o 0x0305 s .ok [] (s.dev.setLine n { s.dev.line n with enabled := false })) ∧
    (∀ e (a : LAction), e ≤ 7 → a.kind ≤ 3 → a.feed ≤ 7 → a.ring ≤ 7 → a.feedP ≤ 7 → a.mask ≤ 7 →
      (2 ≤ a.kind → lineOpcodeOk a.opc = true) → a.args.length ≤ 14 → Answers (.lineActionWrite o n e a) o 0x0308 s .ok []
        (touch (e < 4) n (s.dev.setLine n { s.dev.line n with ops := (s.dev.line n).ops ++ [.actionWrite e a] }))) ∧
    (∀ e mask feed ring feedP, e ≤ 7 → mask ≤ 7 → feed ≤ 7 → ring ≤ 7 → feedP ≤ 7 →
      Answers (.lineActionWrite o n e { kind := 1, mask := mask, feed := feed, ring := ring, feedP := feedP }) o 0x0308 s .ok []
        (touch (e < 4) n (s.dev.setLine n { s.dev.line n with ops := (s.dev.line n).ops ++
          [.actionWrite e { kind := 1, mask := mask, feed := feed, ring := ring, feedP := feedP }] }))) ∧
    (∀ r x, r ≤ 7 → 1 ≤ x.edge → x.edge ≤ 3 → x.bit ≤ 5 → x.condMode ≤ 15 → x.action ≤ 7 →
      Answers (.reflexWrite o n r x) o 0x0309 s .ok []
        (touch (r < 4) n (s.dev.setLine n { s.dev.line n with reflexes := (s.dev.line n).reflexes.put {} r x }))) ∧
    (∃ more, Answers (.lineRead o n) o 0x030C s .ok ([⟨1, (s.dev.line n).feed⟩,
      ⟨1, (s.dev.line n).ring + 8 * (s.dev.line n).feedP⟩, ⟨1, 0⟩, ⟨1, (s.dev.line n).seq⟩] ++ more) s.dev) ∧
    (∀ m, 255 < m → Answers (.lineActivate o m true) o 0x0305 s .unknownObject [] s.dev ∧
      Answers (.lineRead o m) o 0x030C s .unknownObject [] s.dev)

/-- On a stopped stream that no compound holds: FILTER_STREAM_CONFIG of a transmit stream sets tap, rate and Hoppers, of a receive
stream also block and priority; FILTER_COEF_WRITE of words within the bank and their masks writes the bank named;
FILTER_BANK_SELECT selects the bank; each answers ST_OK, and each answers ST_REFUSED_BUSY on a running stream, which it leaves
as it is. On any stream FILTER_COEF_READ, FILTER_DETECTOR_SET, FILTER_ACTION_WRITE and FILTER_STATUS answer ST_OK, the detector
taking effect at the next boundary and the status clearing the saturation bits. A prototype set that no running stream selects
takes the rows written. Where it goes beyond the words of the rules it is the model's own reading (log entries 23, 50). -/
def Obligations.FilterSettingsAreWritten : Prop :=
  ∀ (s : State) (o : Origin) (i : Nat), HostOk o s → i < 512 →
    ((s.dev.fst i).state = .stopped → (s.dev.fst i).held = none →
      (∀ tap rate hop ticks prio alt, tap ≤ 3 → ratesOk (tapHz tap) rate = true → 256 ≤ i →
        Answers (.filterStreamConfig o i tap rate hop ticks prio alt) o 0x0401 s .ok []
          (s.dev.setFst i { s.dev.fst i with tap := tapHz tap, chRate := rate, hopper := hop, altHop := alt })) ∧
      (∀ tap rate hop ticks prio alt, tap ≤ 3 → ratesOk (tapHz tap) rate = true → i < 256 → ticks ≠ 0 → 160 % ticks = 0 →
        prio ≤ 7 → Answers (.filterStreamConfig o i tap rate hop ticks prio alt) o 0x0401 s .ok []
          (s.dev.setFst i { s.dev.fst i with
            tap := tapHz tap, chRate := rate, hopper := hop, blockTicks := ticks, prio := prio })) ∧
      (∀ b first ws, first + ws.length ≤ 96 → ws ≠ [] → coefWordsOk (isRx i) first ws = true →
        Answers (.filterCoefWrite o i b first ws) o 0x0402 s .ok []
          (s.dev.setFst i (if b then { s.dev.fst i with bank1 := putWords (s.dev.fst i).bank1 first ws }
            else { s.dev.fst i with bank0 := putWords (s.dev.fst i).bank0 first ws }))) ∧
      (∀ b, Answers (.filterBankSelect o i b) o 0x0404 s .ok [] (s.dev.setFst i { s.dev.fst i with bankB := b }))) ∧
    ((s.dev.fst i).state = .running →
      (∀ b, Answers (.filterBankSelect o i b) o 0x0404 s .refusedBusy [] s.dev) ∧
      (∀ b first ws, first + ws.length ≤ 96 → ws ≠ [] → coefWordsOk (isRx i) first ws = true →
        Answers (.filterCoefWrite o i b first ws) o 0x0402 s .refusedBusy [] s.dev)) ∧
    (∀ b first n, first + n ≤ 96 → 0 < n → Answers (.filterCoefRead o i b first n) o 0x0403 s .ok
      ((List.range n).map (fun j => ⟨4, (bankWord (isRx i)
        (if b then (s.dev.fst i).bank1 else (s.dev.fst i).bank0) (first + j)).toNat⟩)) s.dev) ∧
    (∀ j x, j ≤ 3 → x.typ ≤ 3 → x.stage ≤ 10 → x.win ≤ 15 → x.attack ≤ 15 → x.release ≤ 15 → x.hi ≤ 8388608 → x.lo ≤ x.hi →
      x.thread ≤ 8191 → x.up ≤ 32 → x.down ≤ 32 → Answers (.filterDetectorSet o i j x) o 0x0409 s .ok []
        { s.dev with fce := { s.dev.fce with
          cmds := s.dev.fce.cmds ++ [{ stream := i, kind := .det j x, who := none }] } }) ∧
    (∀ e a, e ≤ 3 → a.kind ≤ 3 → Answers (.filterActionWrite o i e a) o 0x040A s .ok []
      (s.dev.setFst i { s.dev.fst i with acts := (s.dev.fst i).acts.put {} e a })) ∧
    (∃ more, Answers (.filterStatus o i) o 0x040C s .ok ([⟨1, fstateCode (s.dev.fst i).state⟩,
      ⟨1, b2n (s.dev.fst i).bankB⟩, ⟨2, (s.dev.fst i).gm⟩, ⟨2, (s.dev.fst i).ga⟩] ++ more)
      (s.dev.setFst i { s.dev.fst i with satBits := [] })) ∧
    (∀ set t first rows cs, set ≤ 3 → (t = 8 ∨ t = 12 ∨ t = 16) → first + rows ≤ 257 → 0 < rows → cs.length = rows * t →
      s.dev.protoBusy set = false → Answers (.filterProtoWrite o set t first rows cs) o 0x040B s .ok []
        { s.dev with fce := { s.dev.fce with
          protos := s.dev.fce.protos.put {} set (if (s.dev.proto set).t = t
            then { s.dev.proto set with rows := putRows t (s.dev.proto set).rows (first * t) cs }
            else { t := t, own := true, rows := putRows t [] (first * t) cs }) } }) ∧
    (∀ e a, e ≤ 3 → a.kind = 4 → 256 ≤ i → 1 ≤ a.ticks → a.ticks ≤ 256 → a.gm ≤ 32768 → a.ga ≤ 32768 →
      Answers (.filterActionWrite o i e a) o 0x040A s .ok []
        (s.dev.setFst i { s.dev.fst i with acts := (s.dev.fst i).acts.put {} e a })) ∧
    (∀ set first rows cs, set ≤ 3 → first + rows ≤ 257 → 0 < rows → cs.length = rows * 16 → s.dev.protoBusy set = false →
      (s.dev.proto set).t = 16 → Answers (.filterProtoWrite o set 16 first rows cs) o 0x040B s .ok []
        { s.dev with fce := { s.dev.fce with
          protos := s.dev.fce.protos.put {} set
            { s.dev.proto set with rows := putRows 16 (s.dev.proto set).rows (first * 16) cs } } })

/-- FILTER_START, FILTER_STOP, FILTER_STOP_SWAP_START and, on a running transmit stream, FILTER_RAMP join the requests of the next
boundary; a stop or a swap of a fading stream for which nothing waits is deferred and counted as it is accepted, and in
STOP_PENDING each is refused ST_REFUSED_BUSY. With one request waiting, no stream held or deferred and no ramp over, the boundary starts a stopped stream and answers ST_OK,
stops a running one without a ramp, holds one that is swapped for a tick with the bank named, starts its ramp, and refuses a
start of a running stream. On a stopped transmit stream with nothing waiting a ramp sets the gains at once. A command packet of
FCE_CMD_HOP that spells no command is consumed and answered ST_BAD_ARG; none is consumed while the Hopper is not enabled. Where
it goes beyond the words of the rules it is the model's own reading (log entries 50, 80). -/
def Obligations.FilterRequestsWaitForTheBoundary : Prop :=
  ∀ (s : State) (i : Nat), i < 512 →
    (∀ o, HostOk o s →
      (∀ flush, Does (.filterStart o i flush) s { s.dev with fce := { s.dev.fce with
        cmds := s.dev.fce.cmds ++ [{ stream := i, kind := .start flush, who := some (.host o, 0x0405) }] } }) ∧
      ((s.dev.fst i).state ≠ .stopPending →
        ((s.dev.fst i).state = .stopped ∨ (s.dev.fst i).ramp = none ∨ s.dev.reqWaits i = true) →
        Does (.filterStop o i) s { s.dev with fce := { s.dev.fce with
          cmds := s.dev.fce.cmds ++ [{ stream := i, kind := .stop, who := some (.host o, 0x0406) }] } } ∧
        (∀ named b, Does (.filterStopSwapStart o i named b) s { s.dev with fce := { s.dev.fce with
          cmds := s.dev.fce.cmds ++ [{ stream := i, kind := .swap named b, who := some (.host o, 0x0407) }] } })) ∧
      ((s.dev.fst i).state = .running → (s.dev.fst i).ramp.isSome = true → s.dev.reqWaits i = false →
        Does (.filterStop o i) s ((s.dev.setFst i { s.dev.fst i with
          state := .stopPending, pend := some { stream := i, kind := .stop, who := some (.host o, 0x0406) } }).bump1
          .fceLineStopDeferred (i % 256)) ∧
        (∀ named b, Does (.filterStopSwapStart o i named b) s ((s.dev.setFst i { s.dev.fst i with
          state := .stopPending, pend := some { stream := i, kind := .swap named b, who := some (.host o, 0x0407) } }).bump1
          .fceLineStopDeferred (i % 256)))) ∧
      ((s.dev.fst i).state = .stopPending → Answers (.filterStop o i) o 0x0406 s .refusedBusy [] s.dev ∧
        (∀ named b, Answers (.filterStopSwapStart o i named b) o 0x0407 s .refusedBusy [] s.dev)) ∧
      (∀ gm ga n, 1 ≤ n → n ≤ 256 → gm ≤ 32768 → ga ≤ 32768 → 256 ≤ i → (s.dev.fst i).state = .running →
        Does (.filterRamp o i gm ga n) s { s.dev with fce := { s.dev.fce with
          cmds := s.dev.fce.cmds ++ [{ stream := i, kind := .ramp gm ga n, who := some (.host o, 0x0408) }] } }) ∧
      (∀ gm ga n, 1 ≤ n → n ≤ 256 → gm ≤ 32768 → ga ≤ 32768 → 256 ≤ i → (s.dev.fst i).state = .stopped →
        (s.dev.fst i).held = none → s.dev.reqWaits i = false → Answers (.filterRamp o i gm ga n) o 0x0408 s .ok []
          (s.dev.setFst i { s.dev.fst i with gm := gm, ga := ga }))) ∧
    (∀ r : FReq, s.clk.sub = 0 → s.dev.fce.cmds = [r] → s.dev.fce.acts = [] → r.stream = i →
      (∀ j, (s.dev.fst j).held = none ∧ (s.dev.fst j).pend = none ∧ (s.dev.fst j).rampOver = false) → ∃ d0, d0 = { s.dev with fce := { s.dev.fce with cmds := [] } } ∧
      (∀ flush, r.kind = .start flush → (s.dev.fst i).state = .stopped →
        Does .filterBoundaryApply s ((d0.startStream s.clk i flush).answerReq s.clk r .ok)) ∧
      (∀ flush, r.kind = .start flush → (s.dev.fst i).state = .running →
        Does .filterBoundaryApply s (d0.answerReq s.clk r .refusedBusy)) ∧
      (r.kind = .stop → (s.dev.fst i).state = .running → (s.dev.fst i).ramp = none → Does .filterBoundaryApply s
        ((d0.setFst i { s.dev.fst i with state := .stopped, ramp := none, pend := none, block := none, ended := (s.dev.fst i).block }).answerReq s.clk r .ok)) ∧
      (∀ named b, r.kind = .swap named b → (s.dev.fst i).state = .running → (s.dev.fst i).ramp = none →
        Does .filterBoundaryApply s (d0.setFst i { s.dev.fst i with
          state := .stopped, ramp := none, pend := none, held := some r, block := none, ended := (s.dev.fst i).block,
          bankB := if named then b else !(s.dev.fst i).bankB })) ∧
      (∀ gm ga n, r.kind = .ramp gm ga n → 256 ≤ i → (s.dev.fst i).state = .running → Does .filterBoundaryApply s
        ((d0.setFst i { s.dev.fst i with
          ramp := some { gm0 := (s.dev.fst i).gm, ga0 := (s.dev.fst i).ga, gm1 := gm, ga1 := ga, ticks := n, done := 0 } }).answerReq s.clk r
          .ok))) ∧
    (∀ o gm ga n, HostOk o s → 1 ≤ n → n ≤ 256 → gm ≤ 32768 → ga ≤ 32768 → 256 ≤ i →
      ((s.dev.fst i).state ≠ .stopPending → (s.dev.fst i).held ≠ none ∨ s.dev.reqWaits i = true →
        Does (.filterRamp o i gm ga n) s { s.dev with fce := { s.dev.fce with
          cmds := s.dev.fce.cmds ++ [{ stream := i, kind := .ramp gm ga n, who := some (.host o, 0x0408) }] } }) ∧
      ((s.dev.fst i).state = .stopPending → Answers (.filterRamp o i gm ga n) o 0x0408 s .refusedBusy [] s.dev)) ∧
    (s.clk.sub = 0 → Does .filterBoundaryApply s (s.dev.filterBoundary s.clk)) ∧
    (∀ p w0 ws d c, s.dev.fce.cmdEn = true → s.dev.hopTake s.clk s.dev.fce.cmdHop = (some (p, w0 :: ws), d) →
      w0.toNat % 65536 = fceOpc c → Does (.fceCmdPacket c) s
        ((d.fceRun (.fcePkt (w0.toNat / 65536)) c).2.reply s.clk (.fcePkt (w0.toNat / 65536)) (fceOpc c)
          (d.fceRun (.fcePkt (w0.toNat / 65536)) c).1)) ∧
    (s.dev.fce.cmdEn = false → ∀ c, exec (.fceCmdPacket c) s = .next s) ∧
    (∀ p w0 ws d, s.dev.fce.cmdEn = true → s.dev.hopTake s.clk s.dev.fce.cmdHop = (some (p, w0 :: ws), d) →
      Does (.fceCmdPacket .other) s (d.answer s.clk (.fcePkt (w0.toNat / 65536)) (w0.toNat % 65536) .badArg)) ∧
    (∀ p w0 ws d flush, s.dev.fce.cmdEn = true → s.dev.hopTake s.clk s.dev.fce.cmdHop = (some (p, w0 :: ws), d) →
      w0.toNat % 65536 = 0x0405 → Does (.fceCmdPacket (.start i flush)) s { d with fce := { d.fce with
        cmds := d.fce.cmds ++ [{ stream := i, kind := .start flush, who := some (.fcePkt (w0.toNat / 65536), 0x0405) }] } })

/-- Stream n's slot starts at sub-tick 6 n and its results are available from the sub-tick that follows its end: the slot runs
then, once in a tick; after that sub-tick, or a second time in one tick, it has no further effect. A stopped transmit stream that
no compound holds sends eight zero samples, which join those placed on its lane. A stopped receive stream commits the block that
its stop has ended and takes in nothing. That the work of a slot is one step at its end is the model's own reading (log entry
50). -/
def Obligations.StreamSlotsFallInTheirSubTicks : Prop :=
  ∀ (s : State) (n : Nat), n < 512 →
    (slotSub n < s.clk.sub → exec (.streamSlot n) s = .next s) ∧
    (s.clk.sub ≤ slotSub n → (s.dev.fst n).served = s.clk.tick + 1 →
      exec (.streamSlot n) s = .next { s with clk := { s.clk with sub := slotSub n } }) ∧
    (s.clk.sub ≤ slotSub n → (s.dev.fst n).served ≠ s.clk.tick + 1 → exec (.streamSlot n) s = .next { s with
      clk := { s.clk with sub := slotSub n }, dev := s.dev.slot { s.clk with sub := slotSub n } n }) ∧
    (Store.wf {} s.dev.fce.streams = true → s.clk.sub ≤ slotSub n → (s.dev.fst n).served ≠ s.clk.tick + 1 →
      (s.dev.fst n).state = .stopped → (s.dev.fst n).held = none →
      (256 ≤ n → exec (.streamSlot n) s = .next { s with
        clk := { s.clk with sub := slotSub n }
        dev := (s.dev.setFst n { s.dev.fst n with served := s.clk.tick + 1 }).modFst n (fun y => { y with
          out := List.replicate 8 0, played := (List.replicate 8 0 ++ y.played).take 64 }) }) ∧
      (n < 256 → exec (.streamSlot n) s = .next { s with
        clk := { s.clk with sub := slotSub n }
        dev := (s.dev.setFst n { s.dev.fst n with served := s.clk.tick + 1 }).commitEnded { s.clk with sub := 6 * n + 6 } n }))

/-- At a tick divisible by 8, once, all eight sensors take their conversion, keeping 16. At one divisible by 64, once, the readings
are updated and every item compared; with no item and no
sensor known the update changes only its mark. A queued lane in LIVE, when no other scan is in progress, begins its scan with the
reading as it is. The end of a scan, four ticks later, counts it and starts the application of its result; that of a lane
that has been pinned meanwhile keeps its codes, ST_ABORTED. The scan of a lane's start ends in BIT_LOCK, after 4 ticks, or after
the 32 of a full sweep. An application step moves DELAY
by one code the shorter way around 64 and THRESH by one code, at most once a tick and not while the sensor's reading is
invalid. Where it goes beyond the words of the rules
it is the model's own reading (log entries 30, 31). -/
def Obligations.SensorsAndScansFollowTheirTicks : Prop :=
  ∀ (s : State),
    (∀ vals : List Int, vals.length = 8 → s.clk.tick % 8 = 0 → s.dev.cal.convAt ≠ s.clk.tick + 1 → ∃ st : Store Sensor,
      Does (.sensorConvert vals) s { s.dev with cal := { s.dev.cal with sensors := st, convAt := s.clk.tick + 1 } } ∧
      (Store.wf {} s.dev.cal.sensors = true → ∀ i v, vals[i]? = some v → st.get {} i =
        { s.dev.cal.sensors.get {} i with conv := (v :: (s.dev.cal.sensors.get {} i).conv).take 16 })) ∧
    (s.clk.tick % 64 = 0 → s.dev.cal.updAt ≠ s.clk.tick + 1 → Does .sensorUpdate s (s.dev.updateTemps s.clk)) ∧
    (s.clk.tick % 64 = 0 → s.dev.cal.updAt ≠ s.clk.tick + 1 → s.dev.cal.sensors = [] → s.dev.cal.items = [] →
      Does .sensorUpdate s { s.dev with cal := { s.dev.cal with updAt := s.clk.tick + 1 } }) ∧
    (∀ q, q < 32 → s.clk.tick % 8 = 0 → s.clk.sub = 0 → s.dev.laneCalBusy = false → s.dev.nextLane = some q →
      Does (.laneScanStart q) s (((s.dev.calUnqueue q).setItem q { s.dev.calItem q with
        phase := .measuring, newRef := s.dev.refNow q, discard := false }).setLane q { s.dev.lane q with scanFrom := some s.clk.tick })) ∧
    (∀ q errs errsT, errs.length = 64 → errsT.length = 32 → (s.dev.lane q).train = .live →
      (s.dev.calItem q).phase = .measuring → 4 ≤ s.clk.tick → (s.dev.lane q).scanFrom = some (s.clk.tick - 4) →
      ((s.dev.calItem q).pinned = true → ∃ n, Does (.laneScanEnd q errs errsT) s
        (({ s.dev with freeN := n }.bump1 .calLScan q).calEnd s.clk q .aborted)) ∧
      ((s.dev.calItem q).pinned = false → (s.dev.calItem q).discard = false → ∃ n goal ref c d,
        Does (.laneScanEnd q errs errsT) s d ∧ (goal = (s.dev.scanResult q (errs ++ errsT)).1) ∧
        (ref = (s.dev.calItem q).newRef.or (s.dev.calItem q).ref) ∧
        (c = { s.dev.cal with dirty := true, items := s.dev.cal.items.put {} q { s.dev.calItem q with
          phase := .applying, goalD := goal.1, goalT := goal.2, ref := ref } }) ∧
        (d = if goal.1 = (s.dev.calItem q).delay ∧ goal.2 = (s.dev.calItem q).thresh then
            ({ ({ s.dev with freeN := n }.bump1 .calLScan q) with cal := c }).calEnd s.clk q .ok
          else { ({ s.dev with freeN := n }.bump1 .calLScan q) with cal := c }))) ∧
    (∀ q errs errsT, (s.dev.lane q).train = .bitLock → (s.dev.lane q).startScan = true →
      errs.length = (if s.dev.cal.hadRec then 64 else 2048) → errsT.length = (if s.dev.cal.hadRec then 32 else 0) → (if s.dev.cal.hadRec then 4 else 32) ≤ (s.dev.lane q).inTicks →
      Does (.laneScanEnd q errs errsT) s (s.dev.endStartScan s.clk q (errs ++ errsT))) ∧
    (∀ q, q < 32 → (s.dev.calItem q).phase = .applying → s.dev.readingBad q = true → (s.dev.calItem q).setting = false →
      exec (.laneCalApplyStep q) s = .next s) ∧
    (∀ q, q < 32 → (s.dev.calItem q).phase = .applying → (s.dev.calItem q).stepped ≠ s.clk.tick + 1 →
      (s.dev.readingBad q = false ∨ (s.dev.calItem q).setting = true) →
      (s.dev.calItem q).delay < 64 → (s.dev.calItem q).goalD < 64 → ∃ y o d, Does (.laneCalApplyStep q) s d ∧
        (d = { s.dev with oll := o, cal := { s.dev.cal with items := s.dev.cal.items.put {} q y, dirty := true } } ∨
          d = ({ s.dev with oll := o, cal := { s.dev.cal with
            items := s.dev.cal.items.put {} q y, dirty := true } }).calEnd s.clk q .ok) ∧
        (stepAlign (s.dev.calItem q).delay y.delay = 0 → o = s.dev.oll) ∧
        (stepAlign (s.dev.calItem q).delay y.delay ≠ 0 → o = (s.dev.setLane q { s.dev.lane q with
          align := (s.dev.lane q).align + stepAlign (s.dev.calItem q).delay y.delay }).oll) ∧
        y.delay = (if (s.dev.calItem q).delay = (s.dev.calItem q).goalD then (s.dev.calItem q).delay
          else if ((s.dev.calItem q).goalD + 64 - (s.dev.calItem q).delay) % 64 ≤ 32 then ((s.dev.calItem q).delay + 1) % 64
          else ((s.dev.calItem q).delay + 63) % 64) ∧
        ((s.dev.calItem q).thresh < (s.dev.calItem q).goalT → y.thresh = (s.dev.calItem q).thresh + 1) ∧
        y.stepped = s.clk.tick + 1)

/-- A measurement of the rank whose turn it is, at most one in a sub-tick, adds its byte lanes in error to the points; the first
takes the rank from the queue, with the reading as it is. An
application step moves every delay of a rank by one code. At a record interval with a change to keep, and PFW_N high, a record
write begins; its end puts the record in the slot it was for, counts it and completes CAL_SAVE. Where it goes beyond the words
of the rules it is the model's own reading (log entries 29, 31). -/
def Obligations.RankRecalibrationAndRecords : Prop :=
  ∀ (s : State) (r : Nat), r < 4 →
    (∀ bad, s.dev.rankTurn = some r → s.dev.cal.measAt ≠ clockStamp s.clk + 1 → (s.dev.calItem (rankKey r)).phase = .measuring →
      (s.dev.calItem (rankKey r)).points.length < 63 → Store.wf {} s.dev.cal.items = true →
      Does (.rankRecalMeasure r bad) s (({ s.dev with cal := { s.dev.cal with measAt := clockStamp s.clk + 1 } }).setItem
        (rankKey r) { s.dev.calItem (rankKey r) with points := (s.dev.calItem (rankKey r)).points ++ [bad] })) ∧
    (∀ bad, s.dev.rankTurn = some r → s.dev.cal.measAt ≠ clockStamp s.clk + 1 → (s.dev.calItem (rankKey r)).phase = .queued →
      Store.wf {} s.dev.cal.items = true → ∃ c : Cal, Does (.rankRecalMeasure r bad) s { s.dev with cal := c } ∧
        c.items = s.dev.cal.items.put {} (rankKey r) { s.dev.calItem (rankKey r) with
          phase := .measuring, points := [bad], newRef := s.dev.refNow (rankKey r), discard := false } ∧
        c.rankQ = s.dev.cal.rankQ.filter (· != rankKey r) ∧ c.measAt = clockStamp s.clk + 1) ∧
    (∀ bad, s.dev.rankTurn = some r → s.dev.cal.measAt ≠ clockStamp s.clk + 1 → (s.dev.calItem (rankKey r)).phase = .measuring →
      (s.dev.calItem (rankKey r)).points.length = 63 → Store.wf {} s.dev.cal.items = true →
      Does (.rankRecalMeasure r bad) s ((({ s.dev with cal := { s.dev.cal with measAt := clockStamp s.clk + 1 } }).setItem
        (rankKey r) { s.dev.calItem (rankKey r) with points := (s.dev.calItem (rankKey r)).points ++ [bad] }).recalChoose
          s.clk r)) ∧
    (∀ rd wr d, (s.dev.calItem (rankKey r)).phase = .applying → (s.dev.calItem (rankKey r)).stepped ≠ s.clk.tick + 1 →
      ((s.dev.calItem (rankKey r)).setting = true ∨ s.dev.readingBad (rankKey r) = false) →
      List.zipWith stepCode (s.dev.calItem (rankKey r)).rd (s.dev.calItem (rankKey r)).goalRd = rd →
      List.zipWith stepCode (s.dev.calItem (rankKey r)).wr (s.dev.calItem (rankKey r)).goalWr = wr →
      { s.dev with cal := { s.dev.cal with
        dirty := true
        items := s.dev.cal.items.put {} (rankKey r) { s.dev.calItem (rankKey r) with rd := rd, wr := wr, stepped := s.clk.tick + 1 } } } = d →
      Does (.rankRecalApplyStep r) s
        (if rd = (s.dev.calItem (rankKey r)).goalRd ∧ wr = (s.dev.calItem (rankKey r)).goalWr
          then (d.bump1 .calRankRecal r).calEnd s.clk (rankKey r) .ok else d)) ∧
    ((s.dev.calItem (rankKey r)).phase = .applying → (s.dev.calItem (rankKey r)).stepped ≠ s.clk.tick + 1 →
      s.dev.readingBad (rankKey r) = false →
      List.zipWith stepCode (s.dev.calItem (rankKey r)).rd (s.dev.calItem (rankKey r)).goalRd ≠
        (s.dev.calItem (rankKey r)).goalRd →
      Does (.rankRecalApplyStep r) s ({ s.dev with cal := { s.dev.cal with
        dirty := true
        items := s.dev.cal.items.put {} (rankKey r) { s.dev.calItem (rankKey r) with
          rd := List.zipWith stepCode (s.dev.calItem (rankKey r)).rd (s.dev.calItem (rankKey r)).goalRd
          wr := List.zipWith stepCode (s.dev.calItem (rankKey r)).wr (s.dev.calItem (rankKey r)).goalWr
          stepped := s.clk.tick + 1 } } })) ∧
    (s.clk.tick % (max 1 s.dev.cal.interval * 28800000) = 0 → s.dev.cal.dirty = true → s.dev.cal.writing = none →
      s.dev.hif.paused = false → s.dev.sys.pfwN = true → ∃ b rec, Does .recordInterval s { s.dev with cal :=
        { s.dev.cal.setSlot b {} with writing := some (b, rec), dirty := false } } ∧ rec.valid = true ∧
          rec.stamp = clockStamp s.clk ∧ s.dev.cal.newer ≠ some b) ∧
    (∀ b rec, s.dev.cal.writing = some (b, rec) → Does .calRecordWriteDone s
      ((({ s.dev with cal := { s.dev.cal.setSlot b rec with writing := none } }).bump0 .calRecordWrite).finish s.clk .calSave 0
        .ok))

/-- CAL_STATUS of a lane returns its codes; CAL_RUN of an idle lane that is not pinned queues it and waits, of a pinned one it
answers ST_LOCKED; CAL_PIN of an idle lane pins it, and unpinning takes the present reading as reference; CAL_SET of an idle lane
to other codes pins it, begins the move and waits; CAL_SAVE with no write in progress and PFW_N high begins a record write and
waits, with PFW_N low it answers ST_ABORTED; CAL_RECORD_READ returns SEQ, STAMP and validity of a slot. Where it goes beyond the
words of the rules it is the model's own reading (log entries 23, 29, 31). -/
def Obligations.CalibrationCommandsAnswer : Prop :=
  ∀ (s : State) (o : Origin) (n : Nat), HostOk o s → n < 32 →
    (∃ more, Answers (.calStatus o 0 n 0) o 0x0501 s .ok
      ([⟨1, (s.dev.calItem n).delay⟩, ⟨1, (s.dev.calItem n).thresh⟩] ++ more) s.dev) ∧
    ((s.dev.calItem n).pinned = false → (s.dev.calItem n).phase = .idle →
      Waits (.calRun o 0 n 0) o 0x0502 s .calRun n (s.dev.calQueue n)) ∧
    ((s.dev.calItem n).pinned = true → Answers (.calRun o 0 n 0) o 0x0502 s .locked [] s.dev) ∧
    ((s.dev.calItem n).pinned = false → (s.dev.calItem n).phase ≠ .idle → Waits (.calRun o 0 n 0) o 0x0502 s .calRun n s.dev) ∧
    (∀ r, r < 4 → ∀ x, s.dev.calItem (rankKey r) = x →
      (∃ more, Answers (.calStatus o 1 r (r / 2)) o 0x0501 s .ok
        (x.rd.map (fun v => ⟨1, v⟩) ++ x.wr.map (fun v => ⟨1, v⟩) ++ more) s.dev) ∧
      (x.pinned = false → (s.dev.rank r).state = .inService → Waits (.calRun o 1 r (r / 2)) o 0x0502 s .calRun (rankKey r)
        (if x.phase = .idle then s.dev.calQueue (rankKey r) else s.dev)) ∧
      (x.pinned = false → (s.dev.rank r).state ≠ .inService → Answers (.calRun o 1 r (r / 2)) o 0x0502 s .refusedBusy [] s.dev) ∧
      (x.pinned = true → Answers (.calRun o 1 r (r / 2)) o 0x0502 s .locked [] s.dev) ∧
      (x.phase = .idle → Answers (.calPin o 1 r (r / 2) 1) o 0x0503 s .ok []
        (({ s.dev with cal := { s.dev.cal with dirty := true } }).setItem (rankKey r) { x with pinned := true })) ∧
      Answers (.calSet o 1 r 0 0) o 0x0504 s .badArg [] s.dev) ∧
    (∀ d : Dev, ({ s.dev with cal := { s.dev.cal with dirty := true } }).setItem n { s.dev.calItem n with
        pinned := true, discard := (s.dev.calItem n).discard || (s.dev.calState n == CPhase.measuring) } = d →
      ((s.dev.calItem n).phase = .queued ∨ ((s.dev.calItem n).phase = .applying ∧ (s.dev.calItem n).setting = false) →
        Answers (.calPin o 0 n 0 1) o 0x0503 s .ok [] (d.calEnd s.clk n .aborted)) ∧
      ((s.dev.calItem n).phase = .idle ∨ (s.dev.calItem n).phase = .measuring ∨
          ((s.dev.calItem n).phase = .applying ∧ (s.dev.calItem n).setting = true) →
        Answers (.calPin o 0 n 0 1) o 0x0503 s .ok [] d)) ∧
    (∀ delay thresh, delay ≤ 63 → thresh ≤ 31 → s.dev.calState n ≠ .measuring → ∀ d : Dev,
      (if (s.dev.calItem n).phase = .idle then s.dev else s.dev.calEnd s.clk n .aborted) = d →
      ((d.calItem n).delay = delay → (d.calItem n).thresh = thresh → Answers (.calSet o 0 n delay thresh) o 0x0504 s .ok []
        (({ d with cal := { d.cal with dirty := true } }).setItem n { d.calItem n with pinned := true })) ∧
      ((d.calItem n).delay ≠ delay ∨ (d.calItem n).thresh ≠ thresh → Waits (.calSet o 0 n delay thresh) o 0x0504 s .calSet n
        (({ d with cal := { d.cal with dirty := true } }).setItem n { d.calItem n with
          pinned := true, phase := .applying, setting := true, goalD := delay, goalT := thresh }))) ∧
    ((s.dev.calItem n).phase = .idle → s.dev.startScans n = false → Answers (.calPin o 0 n 0 1) o 0x0503 s .ok []
      (({ s.dev with cal := { s.dev.cal with dirty := true } }).setItem n { s.dev.calItem n with pinned := true })) ∧
    ((s.dev.calItem n).pinned = true → (s.dev.cal.sensors.get {} (n / 8)).valid = true → Answers (.calPin o 0 n 0 0) o 0x0503 s .ok []
      (({ s.dev with cal := { s.dev.cal with dirty := true } }).setItem n { s.dev.calItem n with
        pinned := false, ref := some (s.dev.reading n) })) ∧
    ((s.dev.calItem n).pinned = true → (s.dev.cal.sensors.get {} (n / 8)).valid = false → Answers (.calPin o 0 n 0 0) o 0x0503 s .ok []
      (({ s.dev with cal := { s.dev.cal with dirty := true } }).setItem n { s.dev.calItem n with pinned := false })) ∧
    (∀ delay thresh, delay ≤ 63 → thresh ≤ 31 → (s.dev.calItem n).phase = .idle → s.dev.startScans n = false →
      (s.dev.calItem n).delay ≠ delay →
      Waits (.calSet o 0 n delay thresh) o 0x0504 s .calSet n
        (({ s.dev with cal := { s.dev.cal with dirty := true } }).setItem n { s.dev.calItem n with
          pinned := true, phase := .applying, setting := true, goalD := delay, goalT := thresh })) ∧
    (s.dev.cal.writing = none → s.dev.sys.pfwN = true →
      Waits (.calSave o) o 0x0505 s .calSave 0 (s.dev.calWrite s.clk)) ∧
    (s.dev.cal.writing = none → s.dev.sys.pfwN = false → Answers (.calSave o) o 0x0505 s .aborted [] s.dev) ∧
    (∀ slot, slot ≤ 1 → Answers (.calRecordRead o slot) o 0x0506 s .ok [⟨4, (s.dev.cal.slot (slot == 1)).seq.toNat⟩,
      ⟨8, (s.dev.cal.slot (slot == 1)).stamp⟩, ⟨1, b2n (s.dev.cal.slot (slot == 1)).valid⟩] s.dev)

/-- For every operation of the tile instruction set: on a position without a tile, on a tile that does not issue, or where an entry
is due in place of the fetch, the operation changes nothing; the first operation of a bundle whose word is defined does what it
would do on the tile once its bundle has been fetched; and that of a word that chapter 7 does not define faults ILLEGAL. Where it goes beyond the words of the rules it is the model's own reading (log entry 33). -/
def Obligations.TileOperationsJoinOnlyAnIssuingTile : Prop :=
  ∀ (i : Instr) (sl : Slot) (s : State), slotOf i = some sl →
    (s.dev.physOf sl.tile = none ∨ s.dev.issuing sl.tile = false ∨ s.dev.requestDue sl.tile = true → exec i s = .next s) ∧
    (∀ p b, s.dev.physOf sl.tile = some p → s.dev.issuing sl.tile = true → s.dev.requestDue sl.tile = false →
      (s.dev.tile sl.tile).opened = none → s.dev.undefinedAt s.mem sl.tile p = false →
      Gathering sl { s with dev := s.dev.fetch s.clk sl.tile p sl.pmEcc } p b →
      exec i s = exec i { s with dev := s.dev.fetch s.clk sl.tile p sl.pmEcc }) ∧
    (∀ p b d, s.dev.physOf sl.tile = some p → s.dev.issuing sl.tile = true → s.dev.requestDue sl.tile = false →
      (s.dev.tile sl.tile).opened = none → s.dev.undefinedAt s.mem sl.tile p = true →
      d = s.dev.fetch s.clk sl.tile p sl.pmEcc → (d.tile sl.tile).opened = some b → b.faults = [] → b.formed = true →
      Store.wf {} d.til.tiles = true →
      Does i s ((d.setTile sl.tile { d.tile sl.tile with opened := some { b with faults := [(4, 0)] } }).tileFault s.clk
        sl.tile 4 0))

/-- With MODE 0 to 2 and its unused bits zero, each multiply names its accumulators and adds the exact sum of its products,
doubled in fractional mode, subtracted or written by MODE, four bundles later: MAC1 one product; QCOEF and QSAMP four products
into A0 to A3 of a scalar and the lanes of a quad at an even register; DOT4 the sum of four; CMPLX and CMPLXC the two parts of a
complex product and of its conjugate version; the WIDE forms two 32 × 16 products shifted right by 16; ACCADD another
accumulator. MNOP with zero fields adds nothing. Where it goes beyond the words of the rules it is the model's own reading (log
entry 33). -/
def Obligations.MacProductsJoinTheirBundle : Prop :=
  ∀ (s : State) (sl : Slot) (p : Nat) (b : Bundle) (f : BitVec 17) (r : Tile), Gathering sl s p b → r = s.dev.tile sl.tile →
    Gathers (.mnop sl 0) sl s p (withMac b) ∧
    (macZero f 3 = true → macMode f ≤ 2 →
      Gathers (.mac1 sl f) sl s p (((withMac b).names [64 + macAcc f]).wr [accBy r.sr f (macAcc f)
        (mulFrac r.sr (r.halfI (macRa f) (macHa f)) (r.halfI (macRb f) (macHb f)))]) ∧
      (macAcc f = 0 → rbEven f = true → Gathers (.qcoef sl f) sl s p (((withMac b).names [64, 65, 66, 67]).wr
        ([0, 1, 2, 3].map (fun i => accBy r.sr f i
          (mulFrac r.sr (r.halfI (macRa f) (macHa f)) (r.lane (macRb f) i)))))) ∧
      (macAcc f = 0 → raEven f = true → Gathers (.qsamp sl f) sl s p (((withMac b).names [64, 65, 66, 67]).wr
        ([0, 1, 2, 3].map (fun i => accBy r.sr f i
          (mulFrac r.sr (r.lane (macRa f) i) (r.halfI (macRb f) (macHb f))))))) ∧
      (raEven f = true → rbEven f = true → Gathers (.dot4 sl f) sl s p (((withMac b).names [64 + macAcc f]).wr
        [accBy r.sr f (macAcc f) (mulFrac r.sr (r.lane (macRa f) 0) (r.lane (macRb f) 0) +
          mulFrac r.sr (r.lane (macRa f) 1) (r.lane (macRb f) 1) + mulFrac r.sr (r.lane (macRa f) 2) (r.lane (macRb f) 2) +
          mulFrac r.sr (r.lane (macRa f) 3) (r.lane (macRb f) 3))])) ∧
      (macAcc f % 2 = 0 → macHa f = false → macHb f = false →
        Gathers (.cmplx sl f) sl s p (((withMac b).names [64 + macAcc f, 64 + (macAcc f + 1)]).wr
          [accBy r.sr f (macAcc f) (mulFrac r.sr (r.lane (macRa f) 0) (r.lane (macRb f) 0) -
            mulFrac r.sr (r.lane (macRa f) 1) (r.lane (macRb f) 1)),
           accBy r.sr f (macAcc f + 1) (mulFrac r.sr (r.lane (macRa f) 0) (r.lane (macRb f) 1) +
            mulFrac r.sr (r.lane (macRa f) 1) (r.lane (macRb f) 0))]) ∧
        Gathers (.cmplxc sl f) sl s p (((withMac b).names [64 + macAcc f, 64 + (macAcc f + 1)]).wr
          [accBy r.sr f (macAcc f) (mulFrac r.sr (r.lane (macRa f) 0) (r.lane (macRb f) 0) +
            mulFrac r.sr (r.lane (macRa f) 1) (r.lane (macRb f) 1)),
           accBy r.sr f (macAcc f + 1) (mulFrac r.sr (r.lane (macRa f) 1) (r.lane (macRb f) 0) -
            mulFrac r.sr (r.lane (macRa f) 0) (r.lane (macRb f) 1))])) ∧
      (macAcc f % 2 = 0 → raEven f = true →
        Gathers (.widess sl f) sl s p (((withMac b).names [64 + macAcc f, 64 + (macAcc f + 1)]).wr
          [accBy r.sr f (macAcc f) (mulFrac r.sr (r.xr (macRa f)).toInt (r.half (macRb f) (macHb f)).toInt / 65536),
           accBy r.sr f (macAcc f + 1) (mulFrac r.sr (r.xr (macRa f + 1)).toInt (r.half (macRb f) (macHb f)).toInt / 65536)]) ∧
        Gathers (.wideus sl f) sl s p (((withMac b).names [64 + macAcc f, 64 + (macAcc f + 1)]).wr
          [accBy r.sr f (macAcc f) (mulFrac r.sr ((r.xr (macRa f)).toNat : Int) (r.half (macRb f) (macHb f)).toInt / 65536),
           accBy r.sr f (macAcc f + 1)
            (mulFrac r.sr ((r.xr (macRa f + 1)).toNat : Int) (r.half (macRb f) (macHb f)).toInt / 65536)]) ∧
        Gathers (.widesu sl f) sl s p (((withMac b).names [64 + macAcc f, 64 + (macAcc f + 1)]).wr
          [accBy r.sr f (macAcc f) (mulFrac r.sr (r.xr (macRa f)).toInt ((r.half (macRb f) (macHb f)).toNat : Int) / 65536),
           accBy r.sr f (macAcc f + 1)
            (mulFrac r.sr (r.xr (macRa f + 1)).toInt ((r.half (macRb f) (macHb f)).toNat : Int) / 65536)]))) ∧
    (macMode f ≤ 2 → macZero f 6 = true → macRa f = 0 → macHa f = false →
      Gathers (.accadd sl f) sl s p (((withMac b).names [64 + macAcc f]).wr
        [accBy r.sr f (macAcc f) (r.ar (bitsOf f.toNat 6 2)).toInt]))

/-- With MODE 0 and their unused bits zero: ACCNEG, ACCSHI, ACCSHX, ACCLD and ACCLDH set the accumulator to the exact result at
latency 4, ACCZ clears it; EXT16, EXT32, EXTG, EXPA, EXPH, EXPMAXA and EXPMAXH write their register at latency 2, a saturating
extraction setting EXS too; NORM writes both the exponent and the shifted accumulator. Each names what it writes. Where it goes
beyond the words of the rules it is the model's own reading (log entry 33). -/
def Obligations.AccumulatorOperationsJoinTheirBundle : Prop :=
  ∀ (s : State) (sl : Slot) (p : Nat) (b : Bundle) (f : BitVec 17) (r : Tile), Gathering sl s p b → r = s.dev.tile sl.tile →
    macMode f = 0 →
    (macZero f 13 = true →
      Gathers (.accneg sl f) sl s p (((withMac b).names [64 + macAcc f]).wr
        [⟨4, .accSet (macAcc f) (-(r.ar (macAcc f)).toInt) (srSat r.sr)⟩]) ∧
      Gathers (.accz sl f) sl s p (((withMac b).names [64 + macAcc f]).wr [⟨4, .accZero (macAcc f)⟩])) ∧
    (macZero f 2 = true → macRa f = 0 → macHa f = false →
      Gathers (.accshi sl f) sl s p (((withMac b).names [64 + macAcc f]).wr
        [⟨4, .accSet (macAcc f) (shiftInt (r.ar (macAcc f)).toInt (sext 6 (bitsOf f.toNat 2 6))) (srSat r.sr)⟩])) ∧
    (macZero f 9 = true →
      Gathers (.accshx sl f) sl s p (((withMac b).names [64 + macAcc f]).wr
        [⟨4, .accSet (macAcc f) (shiftInt (r.ar (macAcc f)).toInt (sext 6 (r.xr (macRa f)).toNat)) (srSat r.sr)⟩]) ∧
      Gathers (.accld sl f) sl s p (((withMac b).names [64 + macAcc f]).wr
        [⟨4, .accSet (macAcc f) (r.xr (macRa f)).toInt (srSat r.sr)⟩]) ∧
      Gathers (.ext32 sl f) sl s p (((withMac b).names [macRa f]).wr
        (⟨2, .x (macRa f) (BitVec.ofInt 32 (ext32 (r.ar (macAcc f)).toInt (srSat r.sr)).1)⟩ ::
          (if (ext32 (r.ar (macAcc f)).toInt (srSat r.sr)).2 then [⟨2, .sticky exsBit⟩] else []))) ∧
      Gathers (.extg sl f) sl s p (((withMac b).names [macRa f]).wr
        [⟨2, .x (macRa f) (BitVec.ofInt 32 ((r.ar (macAcc f)).toInt / 2 ^ 32))⟩]) ∧
      Gathers (.expa sl f) sl s p (((withMac b).names [macRa f]).wr
        [⟨2, .x (macRa f) (BitVec.ofInt 32 (expAcc (r.ar (macAcc f))))⟩]) ∧
      Gathers (.norm sl f) sl s p (((withMac b).names [macRa f, 64 + macAcc f]).wr
        [⟨2, .x (macRa f) (BitVec.ofInt 32 (expAcc (r.ar (macAcc f))))⟩,
         ⟨4, .accSet (macAcc f) (shiftInt (r.ar (macAcc f)).toInt (expAcc (r.ar (macAcc f)))) (srSat r.sr)⟩]) ∧
      Gathers (.expmaxa sl f) sl s p (((withMac b).names [macRa f]).wr [⟨2, .x (macRa f)
        (BitVec.ofInt 32 (if expAcc (r.ar (macAcc f)) < (r.xr (macRa f)).toInt then expAcc (r.ar (macAcc f))
          else (r.xr (macRa f)).toInt))⟩])) ∧
    (macZero f 8 = true →
      Gathers (.accldh sl f) sl s p (((withMac b).names [64 + macAcc f]).wr
        [⟨4, .accSet (macAcc f) (r.halfI (macRa f) (macHa f) * 65536) (srSat r.sr)⟩]) ∧
      Gathers (.ext16 sl f) sl s p (((withMac b).names [macRa f]).wr
        (⟨2, if macHa f then .xh (macRa f) (BitVec.ofInt 16 (ext16 (r.ar (macAcc f)).toInt (srRnd r.sr) (srSat r.sr)).1)
            else .xl (macRa f) (BitVec.ofInt 16 (ext16 (r.ar (macAcc f)).toInt (srRnd r.sr) (srSat r.sr)).1)⟩ ::
          (if (ext16 (r.ar (macAcc f)).toInt (srRnd r.sr) (srSat r.sr)).2 then [⟨2, .sticky exsBit⟩] else [])))) ∧
    (macZero f 3 = true → macAcc f = 0 → macHa f = false →
      Gathers (.exph sl f) sl s p (((withMac b).names [macRa f]).wr
        [⟨2, .x (macRa f) (BitVec.ofInt 32 (expHalf (r.half (macRb f) (macHb f)) : Nat))⟩]) ∧
      Gathers (.expmaxh sl f) sl s p (((withMac b).names [macRa f]).wr [⟨2, .x (macRa f)
        (BitVec.ofInt 32 (if ((expHalf (r.half (macRb f) (macHb f)) : Nat) : Int) < (r.xr (macRa f)).toInt
          then ((expHalf (r.half (macRb f) (macHb f)) : Nat) : Int) else (r.xr (macRa f)).toInt))⟩]))

/-- With an address mode that Table 7.4 defines, an aligned address below 2^19 and no error in the words read: each load names its
destination and its pointer where the mode updates it, and writes the bytes read at latency 3 in its form (low half, high half,
sign-extended half, word, pair, accumulator). Each store, the only one of its bundle, adds its bytes at the address. LEA writes
the address at latency 1 without an access. DNOP adds nothing. A bad address adds its fault instead. Where it goes beyond the
words of the rules it is the model's own reading (log entries 33, 38). -/
def Obligations.MemoryOperationsJoinTheirBundle : Prop :=
  ∀ (s : State) (sl : Slot) (p : Nat) (b : Bundle) (f : BitVec 16) (r : Tile), Gathering sl s p b → r = s.dev.tile sl.tile →
    Gathers (.dnop sl 0) sl s p (withMem b) ∧
    (memForm f = true →
      Gathers (.lea sl f) sl s p ((pointerPart { r := r, m := s.mem, p := p, ue := s.dev.phys p } f 1 [memRd f] (withMem b)).wr
        [⟨1, .x (memRd f) (r.addrOf f 1)⟩]) ∧
      (∀ size c, c = ({ r := r, m := s.mem, p := p, ue := s.dev.phys p } : OpCtx) → accessFault (r.addrOf f size) size = 0 →
        (s.dev.phys p).ueIn (r.addrOf f size).toNat size = false →
        (size = 2 →
          Gathers (.ldhL sl f 0) sl s p ((pointerPart c f 2 [memRd f] (withMem b)).wr
            [⟨3, .xl (memRd f) (BitVec.ofNat 16 (s.mem.dmSeen b.was p (r.addrOf f 2).toNat 2))⟩]) ∧
          Gathers (.ldhH sl f 0) sl s p ((pointerPart c f 2 [memRd f] (withMem b)).wr
            [⟨3, .xh (memRd f) (BitVec.ofNat 16 (s.mem.dmSeen b.was p (r.addrOf f 2).toNat 2))⟩]) ∧
          Gathers (.ldhs sl f 0) sl s p ((pointerPart c f 2 [memRd f] (withMem b)).wr
            [⟨3, .x (memRd f) (BitVec.ofInt 32 (sext 16 (s.mem.dmSeen b.was p (r.addrOf f 2).toNat 2)))⟩])) ∧
        (size = 4 →
          Gathers (.ldw sl f 0) sl s p ((pointerPart c f 4 [memRd f] (withMem b)).wr
            [⟨3, .x (memRd f) (BitVec.ofNat 32 (s.mem.dmSeen b.was p (r.addrOf f 4).toNat 4))⟩])) ∧
        (size = 8 →
          (memRd f % 2 = 0 → Gathers (.ldd sl f 0) sl s p ((pointerPart c f 8 [memRd f, memRd f + 1] (withMem b)).wr
            [⟨3, .x (memRd f) (BitVec.ofNat 32 (s.mem.dmSeen b.was p (r.addrOf f 8).toNat 8))⟩,
             ⟨3, .x (memRd f + 1) (BitVec.ofNat 32 (s.mem.dmSeen b.was p (r.addrOf f 8).toNat 8 / 2 ^ 32))⟩])) ∧
          (memRd f < 4 → Gathers (.lda sl f 0) sl s p ((pointerPart c f 8 [64 + memRd f] (withMem b)).wr
            [⟨3, .accSet (memRd f) (sext 40 (s.mem.dmSeen b.was p (r.addrOf f 8).toNat 8)) true⟩])))) ∧
      (∀ size c b0, c = ({ r := r, m := s.mem, p := p, ue := s.dev.phys p } : OpCtx) →
        b0 = pointerPart c f size [] (withMem b) → b.stores = [] → accessFault (r.addrOf f size) size = 0 →
        (size = 2 → ∀ mark,
          Gathers (.sthL sl f mark) sl s p { b0 with stores := [{ addr := (r.addrOf f 2).toNat, size := 2, val := (r.half (memRd f) false).setWidth 64, mark := mark }] } ∧
          Gathers (.sthH sl f mark) sl s p { b0 with stores := [{ addr := (r.addrOf f 2).toNat, size := 2, val := (r.half (memRd f) true).setWidth 64, mark := mark }] }) ∧
        (size = 4 → Gathers (.stw sl f) sl s p { b0 with
          stores := [{ addr := (r.addrOf f 4).toNat, size := 4, val := (r.xr (memRd f)).setWidth 64 }] }) ∧
        (size = 8 →
          (memRd f % 2 = 0 → Gathers (.std sl f) sl s p { b0 with
            stores := [{ addr := (r.addrOf f 8).toNat, size := 8, val := (r.xr (memRd f)).setWidth 64 ||| ((r.xr (memRd f + 1)).setWidth 64 <<< 32) }] }) ∧
          (memRd f < 4 → Gathers (.sta sl f) sl s p { b0 with
            stores := [{ addr := (r.addrOf f 8).toNat, size := 8, val := (r.ar (memRd f)).signExtend 64 }] }))) ∧
      (∀ ecc, accessFault (r.addrOf f 4) 4 ≠ 0 → Gathers (.ldw sl f ecc) sl s p
        ((pointerPart { r := r, m := s.mem, p := p, ue := s.dev.phys p } f 4 [memRd f] (withMem b)).fault
          (accessFault (r.addrOf f 4) 4) (r.addrOf f 4).toNat)))

/-- With unused bits zero, each names its register and writes, at latency 1: ADD, ADDI and SUB the sum or difference with Z, N, C and
V; CMP and CMPI the flags alone; AND, OR, XOR and the shifts, by the low five bits of a register or by an immediate, the result
with Z and N; MOVI, LMOVI the immediate without flags; PADD a pointer. The carry of a difference is 1 without a borrow. Where it
goes beyond the words of the rules it is the model's own reading (log entry 33). -/
def Obligations.AluOperationsJoinTheirBundle : Prop :=
  ∀ (s : State) (sl : Slot) (p : Nat) (b : Bundle) (f : BitVec 14) (r : Tile), Gathering sl s p b → r = s.dev.tile sl.tile →
    ∀ x y im : Word, x = r.xr (cfXa f) → y = r.xr (cfXb f) → im = BitVec.ofInt 32 (sext 10 f.toNat) →
    ∀ sh : Nat, sh = y.toNat % 32 →
    ∀ zn : Word → PendW, zn = (fun v => ⟨1, .zn (decide (v = 0)) v.msb⟩) →
    ∀ addF subF : Word → Word → PendW,
      addF = (fun u v => ⟨1, .znCv (decide (u + v = 0)) (u + v).msb (decide (2 ^ 32 ≤ u.toNat + v.toNat))
        (u.msb == v.msb && (u + v).msb != u.msb)⟩) →
      subF = (fun u v => ⟨1, .znCv (decide (u - v = 0)) (u - v).msb (decide (v.toNat ≤ u.toNat))
        (u.msb != v.msb && (u - v).msb != u.msb)⟩) →
    Gathers (.nop sl 0) sl s p (withCtl b) ∧
    (cfZero f 2 = true →
      Gathers (.add sl f) sl s p (((withCtl b).names [cfXd f]).wr [⟨1, .x (cfXd f) (x + y)⟩, addF x y]) ∧
      Gathers (.sub sl f) sl s p (((withCtl b).names [cfXd f]).wr [⟨1, .x (cfXd f) (x - y)⟩, subF x y]) ∧
      Gathers (.and sl f) sl s p (((withCtl b).names [cfXd f]).wr [⟨1, .x (cfXd f) (x &&& y)⟩, zn (x &&& y)]) ∧
      Gathers (.or sl f) sl s p (((withCtl b).names [cfXd f]).wr [⟨1, .x (cfXd f) (x ||| y)⟩, zn (x ||| y)]) ∧
      Gathers (.xor sl f) sl s p (((withCtl b).names [cfXd f]).wr [⟨1, .x (cfXd f) (x ^^^ y)⟩, zn (x ^^^ y)]) ∧
      Gathers (.shl sl f) sl s p (((withCtl b).names [cfXd f]).wr [⟨1, .x (cfXd f) (x <<< sh)⟩, zn (x <<< sh)]) ∧
      Gathers (.shr sl f) sl s p (((withCtl b).names [cfXd f]).wr
        [⟨1, .x (cfXd f) (x.sshiftRight sh)⟩, zn (x.sshiftRight sh)]) ∧
      Gathers (.shru sl f) sl s p (((withCtl b).names [cfXd f]).wr [⟨1, .x (cfXd f) (x >>> sh)⟩, zn (x >>> sh)]) ∧
      (cfXd f = 0 → Gathers (.cmp sl f) sl s p ((withCtl b).wr [subF x y]))) ∧
    Gathers (.addi sl f) sl s p (((withCtl b).names [cfXd f]).wr
      [⟨1, .x (cfXd f) (r.xr (cfXd f) + im)⟩, addF (r.xr (cfXd f)) im]) ∧
    Gathers (.movi sl f) sl s p (((withCtl b).names [cfXd f]).wr [⟨1, .x (cfXd f) im⟩]) ∧
    Gathers (.cmpi sl f) sl s p ((withCtl b).wr [subF (r.xr (cfXd f)) im]) ∧
    (cfZero f 1 = true →
      Gathers (.shli sl f) sl s p (((withCtl b).names [cfXd f]).wr
        [⟨1, .x (cfXd f) (x <<< cfShift f)⟩, zn (x <<< cfShift f)]) ∧
      Gathers (.shri sl f) sl s p (((withCtl b).names [cfXd f]).wr
        [⟨1, .x (cfXd f) (x.sshiftRight (cfShift f))⟩, zn (x.sshiftRight (cfShift f))]) ∧
      Gathers (.shrui sl f) sl s p (((withCtl b).names [cfXd f]).wr
        [⟨1, .x (cfXd f) (x >>> cfShift f)⟩, zn (x >>> cfShift f)])) ∧
    (cfZero f 6 = true → bitOf f.toNat 10 = false → Gathers (.padd sl f) sl s p
      (((withCtl b).names [16 + bitsOf f.toNat 11 3]).wr [⟨1, .p (bitsOf f.toNat 11 3) (r.pr (bitsOf f.toNat 11 3) + x)⟩])) ∧
    (∀ g : BitVec 36, Gathers (.lmovi sl g) sl s p (((withLong b).names [lfTop g]).wr
      [⟨1, .x (lfTop g) (g.setWidth 32)⟩]))

/-- A move between registers of Table 7.7 gives the destination the source's value at latency 1, the loop registers and SR.LEN for
the choices two fetches on; LMOVA and LMOVN give pointers, bases, lengths and modifiers their immediate. A branch outside
another's two slots redirects to its target after its slots where its condition holds, and otherwise opens its slots and goes
on; LCALL, taken, also writes the address after the slots to X15. REP and REPI set the three loop registers of their level to
the body that follows the slots, and skip it for a count of 0. ENDREP clears the count. MOVC reads and, in kernel state,
writes a control register. Where it goes beyond the words of the rules it is the model's own reading (log entries 33, 36). -/
def Obligations.MovesAndRedirectsJoinTheirBundle : Prop :=
  ∀ (s : State) (sl : Slot) (p : Nat) (b : Bundle) (f : BitVec 14) (g : BitVec 36) (r : Tile), Gathering sl s p b →
    r = s.dev.tile sl.tile →
    (cfZero f 2 = true → bitsOf f.toNat 8 6 < 16 → bitsOf f.toNat 2 6 ≤ 57 → Gathers (.movr sl f) sl s p
      (((withCtl b).names [bitsOf f.toNat 8 6]).wr [⟨1, .x (bitsOf f.toNat 8 6) (r.regRead (bitsOf f.toNat 2 6))⟩])) ∧
    (cfZero f 2 = true → 16 ≤ bitsOf f.toNat 8 6 → bitsOf f.toNat 8 6 ≤ 57 → bitsOf f.toNat 2 6 ≤ 57 → Gathers (.movr sl f) sl s p
      (moveTo (bitsOf f.toNat 8 6) (r.regRead (bitsOf f.toNat 2 6)) (withCtl b))) ∧
    Gathers (.lmova sl g) sl s p (moveTo (16 + lfTop g) (g.setWidth 32) (withLong b)) ∧
    Gathers (.lmovn sl g) sl s p (moveTo (32 + lfTop g) (g.setWidth 32) (withLong b)) ∧
    (r.slots = 0 →
      (cfXd f ≤ 12 → Gathers (.bcc sl f) sl s p { withCtl b with
        flow := some (if condHolds r.sr (cfXd f) then .jump (r.pc + BitVec.ofInt 14 (sext 10 f.toNat)) else .onward) }) ∧
      (cfXd f ≤ 12 → cfZero f 6 = true → Gathers (.brx sl f) sl s p { withCtl b with
        flow := some (if condHolds r.sr (cfXd f) then .jump ((r.xr (cfXa f)).setWidth 14) else .onward) }) ∧
      (lfTop g ≤ 12 → bitsOf g.toNat 14 18 = 0 →
        Gathers (.lbcc sl g) sl s p { withLong b with
          flow := some (if condHolds r.sr (lfTop g) then .jump (g.setWidth 14) else .onward) } ∧
        (condHolds r.sr (lfTop g) = true → Gathers (.lcall sl g) sl s p
          (({ withLong b with flow := some (.jump (g.setWidth 14)) }.names [15]).wr
            [⟨1, .x 15 ((r.pc + 3).setWidth 32)⟩])) ∧
        (condHolds r.sr (lfTop g) = false → Gathers (.lcall sl g) sl s p { withLong b with flow := some .onward })) ∧
      (∀ k n c, k = bitsOf f.toNat 12 2 → k ≠ 3 → n = bitsOf f.toNat 0 8 + 1 →
        c = (r.xr (bitsOf f.toNat 8 4)).setWidth 16 → Gathers (.rep sl f) sl s p { withCtl b with
          flow := some (.jump (if c = 0 then r.pc + 3 + BitVec.ofNat 14 (n - 1) + 1 else r.pc + 3))
          fws := b.fws ++ [⟨2, .ls k (r.pc + 3)⟩, ⟨2, .le k (r.pc + 3 + BitVec.ofNat 14 (n - 1))⟩, ⟨2, .lc k c⟩] }) ∧
      (∀ k n c, k = bitsOf g.toNat 34 2 → k ≠ 3 → bitsOf g.toNat 32 2 = 0 → bitsOf g.toNat 12 4 = 0 →
        n = bitsOf g.toNat 0 12 + 1 → c = BitVec.ofNat 16 (bitsOf g.toNat 16 16) →
        Gathers (.repi sl g) sl s p { withLong b with
          flow := some (.jump (if c = 0 then r.pc + 3 + BitVec.ofNat 14 (n - 1) + 1 else r.pc + 3))
          fws := b.fws ++ [⟨2, .ls k (r.pc + 3)⟩, ⟨2, .le k (r.pc + 3 + BitVec.ofNat 14 (n - 1))⟩, ⟨2, .lc k c⟩] })) ∧
    (bitsOf f.toNat 12 2 ≠ 3 → cfZero f 12 = true → Gathers (.endrep sl f) sl s p { withCtl b with
      fws := b.fws ++ [⟨2, .lc (bitsOf f.toNat 12 2) 0⟩] }) ∧
    (cfZero f 3 = true → bitsOf f.toNat 8 6 ≤ 57 → bitsOf f.toNat 4 4 ≤ 10 → bitOf f.toNat 3 = false → r.eblk = true →
      Gathers (.movc sl f) sl s p (moveTo (bitsOf f.toNat 8 6) (r.ctlRead sl.tile (bitsOf f.toNat 4 4)) (withCtl b))) ∧
    (cfZero f 3 = true → bitsOf f.toNat 8 6 ≤ 57 → bitsOf f.toNat 4 4 = 8 → bitOf f.toNat 3 = true → r.eblk = true →
      Gathers (.movc sl f) sl s p ((withCtl b).wr [⟨1, .ks 0 (r.regRead (bitsOf f.toNat 8 6))⟩]))

/-- Outside the slots of another redirecting operation WAIT, YIELD and TEXIT end the thread's turn after their two slots; in kernel
state IDLE gates the tile and RESUME, with a thread selected, goes on at SPC. In user state IDLE and RESUME make their bundle
illegal, as does any of the five inside another's slots. Where it goes beyond the words of the rules it is the model's own
reading (log entries 33, 36). -/
def Obligations.TurnsAndKernelOperationsRedirect : Prop :=
  ∀ (s : State) (sl : Slot) (p : Nat) (b : Bundle) (f : BitVec 14) (r : Tile), Gathering sl s p b → r = s.dev.tile sl.tile →
    (r.slots = 0 →
      (cfZero f 9 = true → Gathers (.wait sl f) sl s p { withCtl b with
        flow := some (.turn (.wait (r.xr (cfXd f)) (bitOf f.toNat 9))) }) ∧
      Gathers (.yield sl 0) sl s p { withCtl b with flow := some (.turn .yield) } ∧
      Gathers (.texit sl 0) sl s p { withCtl b with flow := some (.turn .texit) } ∧
      (r.eblk = true → Gathers (.idle sl 0) sl s p { withCtl b with flow := some .idle }) ∧
      (r.eblk = true → r.nxtth ≠ none → Gathers (.resume sl 0) sl s p { withCtl b with flow := some (.resume r.spc) })) ∧
    (r.slots ≠ 0 →
      Gathers (.yield sl 0) sl s p ({ withCtl b with flow := some (.turn .yield) }.illegal) ∧
      Gathers (.texit sl 0) sl s p ({ withCtl b with flow := some (.turn .texit) }.illegal)) ∧
    (r.eblk = false →
      Gathers (.idle sl 0) sl s p (withCtl b).illegal ∧ Gathers (.resume sl 0) sl s p (withCtl b).illegal)

/-- With unused bits zero, each operation on another unit names the registers it will write and joins its bundle as the request the
unit performs when the bundle acts: SIGNAL and SIGNALI, FLAGTAKE, TIME, ALMARM, ALMDIS, the Hopper operations on the Hopper that a
register names, and the DMA operations on their channel. Where it goes beyond the words of the rules it is the model's own
reading (log entry 33). -/
def Obligations.UnitOperationsJoinTheirBundle : Prop :=
  ∀ (s : State) (sl : Slot) (p : Nat) (b : Bundle) (f : BitVec 14) (r : Tile), Gathering sl s p b → r = s.dev.tile sl.tile →
    (cfZero f 5 = true →
      Gathers (.signal sl f) sl s p { (withCtl b).names [] with
        unit := some (.signal (bitsOf (r.xr (cfXd f)).toNat 0 13) (bitsOf f.toNat 5 5)) } ∧
      Gathers (.dmapost sl f) sl s p { (withCtl b).names [cfXd f] with
        unit := some (.dmapost (cfXd f) (bitsOf f.toNat 8 2) (r.pr (bitsOf f.toNat 5 3))) }) ∧
    (∀ g : BitVec 36, bitsOf g.toNat 5 11 = 0 → bitsOf g.toNat 29 7 = 0 → Gathers (.signali sl g) sl s p { withLong b with
      unit := some (.signal (bitsOf g.toNat 16 13) (bitsOf g.toNat 0 5)) }) ∧
    (cfZero f 6 = true → ∀ h, h = bitsOf (r.xr (cfXa f)).toNat 0 10 →
      Gathers (.flagtake sl f) sl s p { (withCtl b).names [cfXd f] with unit := some (.flagtake (cfXd f) (r.xr (cfXa f))) } ∧
      Gathers (.almdis sl f) sl s p { (withCtl b).names [cfXd f] with unit := some (.almdis (cfXd f) h) } ∧
      Gathers (.hput sl f) sl s p { (withCtl b).names [] with
        unit := some (.hput (bitsOf (r.xr (cfXd f)).toNat 0 10) (r.xr (cfXa f))) } ∧
      Gathers (.habort sl f) sl s p { (withCtl b).names [cfXd f] with unit := some (.habort (cfXd f) h) } ∧
      Gathers (.hnext sl f) sl s p { (withCtl b).names [cfXd f] with unit := some (.hnext (cfXd f) h) } ∧
      Gathers (.hmark sl f) sl s p { (withCtl b).names [cfXd f] with unit := some (.hmark (cfXd f) h) } ∧
      Gathers (.hrewind sl f) sl s p { (withCtl b).names [cfXd f] with unit := some (.hrewind (cfXd f) h) } ∧
      Gathers (.hrelease sl f) sl s p { (withCtl b).names [cfXd f] with unit := some (.hrelease (cfXd f) h) } ∧
      (cfXd f % 2 = 0 → ∀ ecc, Gathers (.hget sl f ecc) sl s p { (withCtl b).names [cfXd f, cfXd f + 1] with
        unit := some (.hget (cfXd f) h ecc) })) ∧
    (cfZero f 3 = true → Gathers (.hcommit sl f) sl s p { (withCtl b).names [cfXd f] with
      unit := some (.hcommit (cfXd f) (bitsOf (r.xr (cfXa f)).toNat 0 10) (bitsOf f.toNat 3 3)) }) ∧
    (cfZero f 7 = true → Gathers (.almarm sl f) sl s p { (withCtl b).names [cfXd f] with
      unit := some (.almarm (cfXd f) (r.pr (bitsOf f.toNat 7 3)) sl.blkCe sl.blkUe) }) ∧
    (cfZero f 10 = true → cfXd f % 2 = 0 → Gathers (.time sl f) sl s p { (withCtl b).names [cfXd f, cfXd f + 1] with
      unit := some (.time (cfXd f)) }) ∧
    (cfZero f 8 = true →
      Gathers (.dmaabort sl f) sl s p { (withCtl b).names [cfXd f] with
        unit := some (.dmaabort (cfXd f) (bitsOf f.toNat 8 2)) } ∧
      Gathers (.dmaq sl f) sl s p { (withCtl b).names [cfXd f] with unit := some (.dmaq (cfXd f) (bitsOf f.toNat 8 2)) })

/-- A bundle whose slots do not form a format, or with a fault, leaves memory and changes the device only as the fault does: the
first cause in the order of Table 6.2. Outside kernel state the fault is taken as an entry to address 32 with its code in ECAUSE;
in kernel state the tile stops. A well-formed bundle without faults performs its store, and every write joins the pipeline: a
write of latency 1 is in its register once the bundle has passed, one of a greater latency waits one bundle less. Where it goes
beyond the words of the rules it is the model's own reading (log entries 33, 35). -/
def Obligations.BundlesActWholeOrFault : Prop :=
  ∀ (k : Clock) (t p : Nat) (m : Mems) (d : Dev) (b : Bundle), (d.tile t).opened = some b →
    Store.wf {} d.til.tiles = true →
    (∀ code addr, pickFault (b.faults ++ (if b.formed then [] else [(4, 0)])) = some (code, addr) →
      closeBundle k t p m d = (m, d.tileFault k t code addr)) ∧
    (∀ code addr, (code, addr) ∈ b.faults → 1 ≤ code → code ≤ 4 →
      ∃ c a, pickFault (b.faults ++ (if b.formed then [] else [(4, 0)])) = some (c, a) ∧ c ≤ code) ∧
    (b.formed = false → b.faults = [] → closeBundle k t p m d = (m, d.tileFault k t 4 0)) ∧
    ((d.tile t).eblk = true → ∀ code addr, d.tileFault k t code addr =
      ((((d.setTile t { d.tile t with run := .stopped, opened := none, slots := 0 }).bump1 .tilTDoubleFault t).schStop k
        t).evacTrigger k t true).cancelsDone k) ∧
    (b.formed = true → b.faults = [] → b.unit = none → b.ces = [] → b.ues = [] → b.stores = [] → b.fws = [] → b.flow = none →
      (d.tile t).slots = 0 → (d.tile t).run = .issuing → (d.tile t).pend = [] → ∀ n v,
      (b.writes = [⟨1, .x n v⟩] → closeBundle k t p m d = (m, d.setTile t { d.tile t with
        x := (d.tile t).x.put 0 n v, opened := none, pc := (d.tile t).next })) ∧
      (∀ l, 2 ≤ l → b.writes = [⟨l, .x n v⟩] → closeBundle k t p m d = (m, d.setTile t { d.tile t with
        pend := [⟨l - 1, .x n v⟩], opened := none, pc := (d.tile t).next }))) ∧
    (∀ a size v, b.formed = true → b.faults = [] → b.unit = none → b.ces = [] → b.ues = [] →
      b.stores = [{ addr := a, size := size, val := v }] →
      (closeBundle k t p m d).1 = m.dmWrite p a size v.toNat)

/-- A gated tile with a thread bound takes its dispatch entry: shadow registers saved, vector 0, NXTTH and NXTCTX of the thread; one
whose turn has ended takes the entry of its cause; a gated tile without one stays. The hardware clear of a data memory makes
every byte of it zero. A posted descriptor that fails validation is taken with ST_BAD_ARG, an empty channel starts nothing, and
a refused descriptor completes by writing RESULT alone; one of
KIND 7 starts, and moved so far that it is short of its bytes it has filled them and stays in progress. In general an entry, the
start of a channel's next descriptor and its moving on are the shared operations of chapters 6 and 8, for every descriptor. The
tile commands return map, state and row histories. Where it goes
beyond the words of the rules it is the model's own reading (log entries 23, 32, 44). -/
def Obligations.EntriesClearsAndDmaOfATile : Prop :=
  ∀ (s : State) (t p : Nat), s.dev.physOf t = some p →
    Does (.entry t) s (s.dev.takeEntry s.clk t) ∧
    (∀ x : ChanRead, x.chan < 4 → s.dev.sys.evac = none → Does (.dmaDescStart t x) s (dmaStart s.clk t p x s.mem s.dev)) ∧
    (∀ c moved poison ces ues m d, c < 4 → dmaComplete s.clk t p c moved poison ces ues s.mem s.dev = (m, d) →
      DoesMem (.dmaDescComplete t c moved poison ces ues) s m d) ∧
    (s.dev.posActive t = true → (s.dev.phys p).cleared = true → (s.dev.tile t).run = .gated →
      ((s.dev.stl t).bound = none → exec (.entry t) s = .next s) ∧
      (∀ n r, (s.dev.stl t).bound = some n → r = (s.dev.tile t).drain → Does (.entry t) s ((s.dev.setTile t { r with
        ssr := r.sr, sr := srPut r.sr 4 false, len := false, eblk := true, spc := r.pc, ecause := 0, faddr := 0
        run := .issuing, pc := 0, nxtth := some n, nxtctx := (s.dev.thr n).ctx }).bump1 .tilTDispatch t))) ∧
    (∀ e, s.dev.posActive t = true → (s.dev.phys p).cleared = true → (s.dev.tile t).run = .ended e → Does (.entry t) s
      ((s.dev.bump1 .tilTDispatch t).entry s.clk t (.turn e) (s.dev.tile t).pc
        (match e with | .wait _ _ => 1 | .yield => 2 | .texit => 3) 0 0)) ∧
    (p < 34 → (s.dev.phys p).cleared = false → s.mem.wf → ∃ m, DoesMem (.dataMemoryClearDone p) s m
        (s.dev.setPhys p { s.dev.phys p with cleared := true, ueWords := [] }) ∧
      (∀ a, a < 524288 → m.dm.get 0 (dmKey p a) = 0) ∧
      (∀ q a, q ≠ p → a < 524288 → m.dm.get 0 (dmKey q a) = s.mem.dm.get 0 (dmKey q a)) ∧ m.pm = s.mem.pm ∧ m.dram = s.mem.dram) ∧
    (∀ c, c < 4 → s.dev.sys.evac = none →
      ((s.dev.chan t c).queue = [] → exec (.dmaDescStart t { chan := c }) s = .next s) ∧
      (∀ a rest, (s.dev.chan t c).queue = a :: rest → (s.dev.chan t c).run = none → (s.dev.phys p).badWords [] a 8 = [] →
        ((s.mem.desc p a).invalid = true → Does (.dmaDescStart t { chan := c }) s (s.dev.setChan t c
          { queue := rest, cut := 0, run := some { addr := a, desc := s.mem.desc p a, st := .badArg, port := tilePort p } })) ∧
        ((s.mem.desc p a).invalid = false → (s.mem.desc p a).kind = 7 → Does (.dmaDescStart t { chan := c }) s
          (s.dev.setChan t c
            { queue := rest, cut := 0, run := some { addr := a, desc := s.mem.desc p a, st := .ok, port := tilePort p } }))) ∧
      (∀ run n, (s.dev.chan t c).run = some run → run.st = .ok → run.desc.kind = 7 → run.moved = 0 → 0 < run.desc.len →
        n * 64 ≤ run.desc.len → n * 64 < run.desc.rows * run.desc.len → 0 < n → Store.wf {} s.dev.til.tiles = true →
        (∀ u, (s.dev.tile u).opened = none) → s.dev.sys.evac = none →
        ∃ d : Dev, DoesMem (.dmaDescComplete t c (n * 64) none [] []) s
          (s.mem.dmPut p run.desc.loc (fillBytes run.desc.remote (n * 64))) d ∧
          (d.chan t c).run = some { run with moved := n * 64 }) ∧
      (∀ run moved ces ues, (s.dev.chan t c).run = some run → run.st = .badArg → (s.dev.chan t c).cut = 0 →
        run.desc.kind = 7 → run.desc.notify = false → ∃ d, DoesMem (.dmaDescComplete t c moved none ces ues) s
          (s.mem.dmWrite p (run.addr + 28) 4 (3 + 256 + run.desc.rows % 65536 * 65536)) d)) ∧
    (∀ o, HostOk o s →
      (t ≤ 33 → ∃ more, Answers (.tileStatus o t) o 0x0601 s .ok
        ([⟨1, p⟩, ⟨1, pstateCode (s.dev.phys p).state⟩] ++ more) s.dev) ∧
      (∃ res, Answers (.tileMapRead o) o 0x0602 s .ok res s.dev ∧ (∀ x ∈ res, x.len = 1)) ∧
      (∀ q, q ≤ 33 → Answers (.tileRowStatus o q 0) o 0x0603 s .ok
        (rowFields (s.dev.phys q).pmHist ++ spareFields 4 (s.dev.phys q).pmSpare) s.dev ∧
        Answers (.tileRowStatus o q 1) o 0x0603 s .ok
        (rowFields (s.dev.phys q).dmHist ++ spareFields 16 (s.dev.phys q).dmSpare) s.dev))

/-- GROUP_CONFIG with a weight of 1 to 255, a ceiling of 1 to 65,535 and an affinity that names an active position writes the three and
answers ST_OK; only the Barista, counters and the rings can change. GROUP_STATUS, THREAD_READ and SCHED_TILE_STATUS return what the
Barista holds of a group, a thread and a tile and change nothing. THREAD_CONFIG of a Dormant or Cancelled thread writes its group,
level, PREEMPT and context pointer alone; of any other thread it answers ST_REFUSED_BUSY and changes nothing. Where it goes
beyond the words of the rules it is the model's own reading (log entries 23, 39). -/
def Obligations.BaristaCommandsAnswer : Prop :=
  ∀ (s : State) (o : Origin), HostOk o s →
    (∀ g weight ceiling (aff : BitVec 34), Store.wf {} s.dev.sch.groups = true → g ≤ 63 → 0 < weight → weight ≤ 255 → 0 < ceiling →
      ceiling ≤ 65535 →
      aff.toNat % 2 ^ 32 ≠ 0 → ∃ d, Answers (.groupConfig o g weight ceiling aff) o 0x0620 s .ok [] d ∧ OnlySch s.dev d ∧
        (d.grp g).weight = weight ∧ (d.grp g).ceiling = ceiling ∧ (d.grp g).aff = aff ∧
        ∀ h, h ≠ g → (d.grp h).weight = (s.dev.grp h).weight ∧ (d.grp h).ceiling = (s.dev.grp h).ceiling ∧
          (d.grp h).aff = (s.dev.grp h).aff) ∧
    (∀ g, g ≤ 63 → Answers (.groupStatus o g) o 0x0621 s .ok
      ([⟨2, (s.dev.grp g).weight⟩, ⟨2, (s.dev.grp g).ceiling⟩, ⟨5, (s.dev.grp g).aff.toNat⟩,
        ⟨2, (s.dev.fifo g 0).length⟩, ⟨2, (s.dev.fifo g 1).length⟩, ⟨2, (s.dev.fifo g 2).length⟩,
        ⟨2, (s.dev.fifo g 3).length⟩, ⟨2, s.dev.maxPass g⟩, ⟨1, b2n (s.dev.grp g).stranded⟩]) s.dev) ∧
    (∀ th g level preempt (ctx : Word), th ≤ 8191 → g ≤ 63 → level ≤ 3 → ctx.toNat % 8 = 0 → ctx.toNat < 2 ^ 25 →
      ctxPos ctx ≤ 31 →
      ((s.dev.thr th).off = true → Answers (.threadConfig o th g level preempt ctx) o 0x0622 s .ok []
        (s.dev.setThr th { s.dev.thr th with group := g, level := level, preempt := preempt, ctx := ctx })) ∧
      ((s.dev.thr th).off = false →
        Answers (.threadConfig o th g level preempt ctx) o 0x0622 s .refusedBusy [] s.dev)) ∧
    (∀ th, th ≤ 8191 → ∀ t, s.dev.thr th = t → Answers (.threadRead o th) o 0x0626 s .ok
      [⟨1, tstateCode t.state⟩, ⟨4, t.flags.toNat⟩, ⟨4, t.mask.toNat⟩, ⟨1, b2n t.all⟩, ⟨1, t.group⟩, ⟨1, t.level⟩,
        ⟨1, b2n t.preempt⟩, ⟨4, t.ctx.toNat⟩, ⟨1, t.tile.getD 0x3F⟩, ⟨1, b2n t.resumed⟩, ⟨1, b2n (s.dev.causeOf th)⟩]
      s.dev) ∧
    (∀ t, t ≤ 33 → ∃ deficits passes : List RField, deficits.length = 64 ∧ passes.length = 64 ∧
      (∀ g, g < 64 → deficits[g]? = some ⟨2, s.dev.sch.deficit.get 0 (64 * t + g)⟩ ∧
        passes[g]? = some ⟨2, s.dev.sch.pass.get 0 (64 * t + g)⟩) ∧
      Answers (.schedTileStatus o t) o 0x0627 s .ok
        ([⟨2, (s.dev.stl t).running.getD 0xFFFF⟩, ⟨2, (s.dev.stl t).bound.getD 0xFFFF⟩,
          ⟨1, b2n (s.dev.stl t).idle + 2 * b2n (s.dev.stl t).frozen + 4 * b2n (s.dev.stl t).within⟩,
          ⟨1, reqCode (s.dev.stl t).req⟩, ⟨2, (s.dev.stl t).cause.getD 0xFFFF⟩, ⟨1, (s.dev.stl t).cur⟩] ++
          deficits ++ passes) s.dev)

/-- A flag set, or THREAD_SIGNAL, adds its flags to those of the thread and to no other thread's. THREAD_START of an inactive thread
writes its MASK, MODE and flags; it is Waiting when started so with its condition not met, else Ready or already selected.
THREAD_CANCEL of a thread that is not Running makes it Cancelled and completes; a Running thread's tile is sent a cancel request and
the command waits, whatever flags are set in the same cycle. Only the Barista, counters and rings can change, and with THREAD_START the thread's voided state, which it ends. A THREAD_READ packet from CMD_HOP is answered as a packet, and so
is every command of CMD_HOP as the host's is; one
that is too short is answered ST_BAD_ARG and counted, and an empty Hopper leaves all as it is. Where it goes beyond the words of
the rules it is the model's own reading (log entries 39, 80). -/
def Obligations.FlagsStartsAndCancelsMoveThreads : Prop :=
  ∀ (s : State) (o : Origin) (th : Nat), HostOk o s → th ≤ 8191 → Store.wf {} s.dev.sch.threads = true →
    Store.wf {} s.dev.sch.tiles = true → Store.wf [] s.dev.sch.fifos = true →
    (∀ src f, f < 32 → ∃ d, Does (.flagSet [(src, th, f)]) s d ∧ OnlySch s.dev d ∧
      (d.thr th).flags = (s.dev.thr th).flags ||| BitVec.twoPow 32 f ∧
      ∀ n, n ≠ th → (d.thr n).flags = (s.dev.thr n).flags) ∧
    (∀ flags : Word, flags ≠ 0 → ∃ d, Answers (.threadSignal o th flags) o 0x0624 s .ok [] d ∧ OnlySch s.dev d ∧
      (d.thr th).flags = (s.dev.thr th).flags ||| flags ∧ ∀ n, n ≠ th → (d.thr n).flags = (s.dev.thr n).flags) ∧
    (∀ waiting mask all clear, (s.dev.thr th).off = true → ∃ d,
      Answers (.threadStart o th waiting mask all clear) o 0x0623 s .ok [] d ∧ OnlySch (s.dev.endVoided th) d ∧
      (d.thr th).mask = mask ∧ (d.thr th).all = all ∧
      (d.thr th).flags = (if clear then 0 else (s.dev.thr th).flags) ∧
      (waiting = false → (d.thr th).state = .ready ∨ (d.thr th).state = .running) ∧
      (waiting = true → (d.thr th).met = false → QueuedAtMost s.dev th →
        th ∉ s.dev.fifo (s.dev.thr th).group (s.dev.thr th).level → (d.thr th).state = .waiting)) ∧
    ((s.dev.thr th).state ≠ .running → QueuedAtMost s.dev th →
      (s.dev.thr th).level ≤ 3 → ∃ d, Answers (.threadCancel o th []) o 0x0625 s .ok [] d ∧ OnlySch s.dev d ∧
        (d.thr th).state = .cancelled) ∧
    (∀ t, (s.dev.thr th).state = .running → (s.dev.thr th).tile = some t → ∃ d,
      Waits (.threadCancel o th []) o 0x0625 s .threadCancel th d ∧ OnlySch s.dev d ∧ (d.stl t).req = some .cancel) ∧
    (∀ sets r d, s.dev.cmdThreadCancel s.clk th sets = (r, d) →
      Does (.threadCancel o th sets) s (d.reply s.clk (.host o) 0x0625 r)) ∧
    (∀ sets, Does (.flagSet sets) s (s.dev.setFlags s.clk sets)) ∧
    (∀ c short d, s.dev.sch.cmdEn = true → s.dev.hopTake s.clk s.dev.sch.cmdHop = (none, d) → Does (.schCmdPacket c short) s d) ∧
    (∀ c p (w0 : Word) ws d r d', s.dev.sch.cmdEn = true → s.dev.hopTake s.clk s.dev.sch.cmdHop = (some (p, w0 :: ws), d) →
      w0.toNat % 65536 = schOpc c → d.schRun s.clk c = (r, d') →
      Does (.schCmdPacket c false) s (d'.reply s.clk (.schPkt (w0.toNat / 65536)) (schOpc c) r)) ∧
    (∀ p (w0 : Word) ws d, s.dev.sch.cmdEn = true → s.dev.hopTake s.clk s.dev.sch.cmdHop = (some (p, w0 :: ws), d) →
      w0.toNat % 65536 = 0x0626 → ∀ t, d.thr th = t →
      Does (.schCmdPacket (.threadRead th) false) s (d.answer s.clk (.schPkt (w0.toNat / 65536)) 0x0626 .ok
        [⟨1, tstateCode t.state⟩, ⟨4, t.flags.toNat⟩, ⟨4, t.mask.toNat⟩, ⟨1, b2n t.all⟩, ⟨1, t.group⟩, ⟨1, t.level⟩,
          ⟨1, b2n t.preempt⟩, ⟨4, t.ctx.toNat⟩, ⟨1, t.tile.getD 0x3F⟩, ⟨1, b2n t.resumed⟩, ⟨1, b2n (d.causeOf th)⟩]) ∧
      Does (.schCmdPacket (.threadRead th) true) s
        ((d.bump0 .schCmdBadPacket).answer s.clk (.schPkt (w0.toNat / 65536)) 0x0626 .badArg))

/-- HOPPER_SWAP of a Hopper with no burst in progress swaps its banks at once, in either mode: the fill bank becomes the drain
bank in reading order, the packets not released are counted as swap_residue_lost, and an empty fill bank leaves an empty drain
bank. During a burst the swap is recorded, and made when that burst ends, committed or aborted. The alarm action does the same, at
sub-tick 0 behind the boundary events of that instant (log entry 12).
Nothing but the Hopper, the counters and, for the swap flag, the Barista changes. -/
def Obligations.HopperSwapIsForced : Prop :=
  ∀ (s : State) (h : Nat) (x : Hopper), s.dev.hopUp h = true → s.dev.hopper h = x → Store.wf {} s.dev.hop.hops = true →
    Store.wf 0 s.dev.ctr = true →
    (∀ o, HostOk o s → x.burst = none → ∃ d, Answers (.hopperSwap o h) o 0x0704 s .ok [] d ∧
      d.hopper h = swapped x ∧ (x.fill = [] → (d.hopper h).seq = []) ∧
      (∀ g, g ≠ h → d.hopper g = s.dev.hopper g) ∧ d.hop.qsram = s.dev.hop.qsram ∧
      (x.swapFlagEn = false → OnlyHop s.dev d ∧
        d.count ⟨.hopHSwapResidueLost, h, 0⟩ = s.dev.count ⟨.hopHSwapResidueLost, h, 0⟩ + (x.seq.length - x.rel)) ∧
      (x.swapFlagEn = true → ∃ d', OnlyHop s.dev d' ∧ d = d'.setFlag s.clk x.thread x.swapFlag ∧
        d'.count ⟨.hopHSwapResidueLost, h, 0⟩ = s.dev.count ⟨.hopHSwapResidueLost, h, 0⟩ + (x.seq.length - x.rel))) ∧
    (∀ o b, HostOk o s → x.burst = some b → Answers (.hopperSwap o h) o 0x0704 s .ok []
      (s.dev.setHopper h { x with burst := some { b with swapAfter := true } })) ∧
    (∀ b a c, x.burst = some b → (∀ p, b.prod ≠ .eth p) → b.swapAfter = true → b.voided = false → x.noticeEn = false →
      x.swapFlagEn = false → x.queue = [] →
      (∃ d, Does (.burstEnd h true a c) s d ∧ OnlyHop s.dev d ∧ d.hopper h = swapped { x with
        burst := none, fill := x.fill ++ [{ start := b.start, n := b.words.length, prio := b.prio }] }) ∧
      ((∀ t, b.prod ≠ .put t) →
        ∃ d, Does (.burstEnd h false a c) s d ∧ OnlyHop s.dev d ∧ d.hopper h = swapped { x with burst := none })) ∧
    (∀ n slot (al : Alarm), s.clk.sub ≤ n → n < 3072 → s.dev.htb.alarms = [(slot, al)] → al.armed = true → al.typ = 1 →
      al.targets = h → al.due = s.clk.tick * 4096 + n → al.target = al.due → al.period = 0 →
      s.dev.htb.issueAt ≠ s.clk.tick * 4096 + n + 1 → s.dev.bndDone { s.clk with sub := n } = true →
      ∃ d : Dev, exec (.alarmFire n) s = .next { s with clk := { s.clk with sub := n }, dev := d } ∧
        (x.burst = none → d.hopper h = swapped x ∧ (x.swapFlagEn = false → d = { s.dev with
            hop := d.hop, ctr := d.ctr, htb := d.htb })) ∧
        (∀ b, x.burst = some b → d.hopper h = { x with burst := some { b with swapAfter := true } } ∧
          d = { s.dev with hop := d.hop, htb := d.htb }))

/-- A burst that fits reserves its header word and its words in the fill bank, stores them and changes no other word; one that does
not fit any more swaps the banks first, which is counted; one for a Hopper that is closing is counted and dropped; one that
finds a burst in progress waits behind those that became ready before it, and before one that became ready in the same cycle whose
producer stands behind it in the port order; one longer than a bank is counted and not written. Its end commits it as a packet
(in work-conserving mode with a released drain bank, the banks then swap) or frees its words and counts, but for a put buffer's,
which always commits. HOPPER_CREATE sets a Hopper up on a free region,
HOPPER_MODE writes its mode, HOPPER_FLUSH empties it and voids what is open, HOPPER_DESTROY closes it, and its end empties it and
completes the command; HOPPER_STATUS reads. Where it goes beyond the words of the rules it is the model's own reading (log
entries 23, 40, 89). -/
def Obligations.HoppersTakeWholePackets : Prop :=
  ∀ (s : State) (h : Nat) (x : Hopper), s.dev.hopper h = x → h < 1024 → Store.wf {} s.dev.hop.hops = true →
    Store.wf 0 s.dev.ctr = true → Store.wf 0 s.dev.hop.qsram = true → Store.wf {} s.dev.hop.puts = true →
    (∀ p prio (words : List Word), x.setUp = true → x.closing = none →
      (x.burst = none → x.w + words.length + 1 ≤ x.size → ∃ d, Does (.burstStart h p prio words) s d ∧ OnlyHop s.dev d ∧
        d.hopper h = { x with
          w := x.w + words.length + 1
          burst := some { prod := p, start := x.w, prio := prio, words := words } } ∧
        (∀ i, i < words.length → words[i]? = some (d.qword (x.bankAt x.fb + x.w + 1 + i))) ∧
        (∀ i, i < x.bankAt x.fb + x.w + 1 ∨ x.bankAt x.fb + x.w + 1 + words.length ≤ i → d.qword i = s.dev.qword i)) ∧
      (x.burst.isSome = true → words.length + 1 ≤ x.size → (∀ w ∈ x.queue, w.at_ ≠ s.clk) →
        Does (.burstStart h p prio words) s (s.dev.setHopper h { x with
          queue := x.queue ++ [{ at_ := s.clk, prod := p, prio := prio, words := words }] })) ∧
      (x.burst = none → words.length + 1 ≤ x.size → x.size < x.w + words.length + 1 → x.swapFlagEn = false → ∃ d,
        Does (.burstStart h p prio words) s d ∧ OnlyHop s.dev d ∧ d.hopper h = { swapped x with
          w := words.length + 1, burst := some { prod := p, start := 0, prio := prio, words := words } } ∧
        d.count ⟨.hopHOverflowSwap, h, 0⟩ = s.dev.count ⟨.hopHOverflowSwap, h, 0⟩ + 1) ∧
      (x.burst.isSome = true → words.length + 1 ≤ x.size → Does (.burstStart h p prio words) s (s.dev.setHopper h { x with
        queue := insertWait { at_ := s.clk, prod := p, prio := prio, words := words } x.queue })) ∧
      Does (.burstStart h p prio words) s (s.dev.burstOpen s.clk h p prio words).2 ∧
      (∀ w, x.burst.isSome = true → words.length + 1 ≤ x.size → x.queue = [w] → w.at_ = s.clk → p.place < w.prod.place →
        Does (.burstStart h p prio words) s (s.dev.setHopper h { x with
          queue := [{ at_ := s.clk, prod := p, prio := prio, words := words }, w] })) ∧
      (x.size < words.length + 1 →
        Does (.burstStart h p prio words) s (s.dev.bump1 .hopHTooLong h))) ∧
    (∀ p prio (words : List Word), x.setUp = true → x.closing.isSome = true →
      Does (.burstStart h p prio words) s (s.dev.bump1 .hopHClosedDrop h)) ∧
    (∀ ok a c, Does (.burstEnd h ok a c) s (s.dev.endBurst s.clk h ok a c)) ∧
    (∀ b a c, x.setUp = true → x.burst = some b → (∀ p, b.prod ≠ .eth p) → b.voided = false → b.swapAfter = false →
      x.noticeEn = false → x.queue = [] → x.due = false →
      (x.sched = true → Does (.burstEnd h true a c) s (s.dev.setHopper h { x with
        burst := none, fill := x.fill ++ [{ start := b.start, n := b.words.length, prio := b.prio }] })) ∧
      (x.sched = false → x.rel = x.seq.length → x.swapFlagEn = false → ∃ d, Does (.burstEnd h true a c) s d ∧
        OnlyHop s.dev d ∧ d.hopper h = swapped { x with
          burst := none, fill := x.fill ++ [{ start := b.start, n := b.words.length, prio := b.prio }] }) ∧
      (x.sched = true → (∀ t, b.prod ≠ .put t) → Does (.burstEnd h false a c) s
        ((s.dev.setHopper h { x with burst := none, w := b.start }).bump1 .hopHAbort h))) ∧
    (∀ o base lg (m : HopMode), HostOk o s → 8 ≤ lg → lg ≤ 18 → base ≤ 8191 → m.bad = false → x.setUp = false →
      s.dev.regionOk h base lg = true → Answers (.hopperCreate o h base lg m) o 0x0701 s .ok [] (s.dev.setHopper h
        { setUp := true, base := base, sizeLog2 := lg, sched := m.sched, frame := m.frame, noticeEn := m.noticeEn,
          noticeFlag := m.noticeFlag, swapFlagEn := m.swapFlagEn, swapFlag := m.swapFlag, thread := m.thread })) ∧
    (∀ o (m : HopMode), HostOk o s → m.bad = false → m.sched = true → x.setUp = true → x.due = false →
      Answers (.hopperMode o h m) o 0x0705 s .ok [] (s.dev.setHopper h { x with
        sched := true, frame := m.frame, noticeEn := m.noticeEn, noticeFlag := m.noticeFlag, swapFlagEn := m.swapFlagEn,
        swapFlag := m.swapFlag, thread := m.thread })) ∧
    (∀ o (m : HopMode), HostOk o s → m.bad = false → x.setUp = true →
      Answers (.hopperMode o h m) o 0x0705 s .ok [] ((s.dev.setHopper h (x.setMode m)).trySwap s.clk h)) ∧
    (∀ o, HostOk o s → x.setUp = true → ∃ d, Answers (.hopperFlush o h) o 0x0703 s .ok [] d ∧ OnlyHop s.dev d ∧
      d.hopper h = { x with
        w := 0, fill := [], seq := [], rel := 0, rp := 0, ro := 0, mv := false, due := false,
        burst := x.burst.map (fun b => { b with voided := true }) } ∧ NoOpenPut d h ∧
      d.count ⟨.hopHFlushDiscard, h, 0⟩ =
        s.dev.count ⟨.hopHFlushDiscard, h, 0⟩ + x.fill.length + (x.seq.length - x.rel)) ∧
    (∀ o grace, HostOk o s → grace ≤ 160 → x.setUp = true → x.closing = none → x.burst = none → x.queue = [] →
      Waits (.hopperDestroy o h grace) o 0x0702 s .hopperDestroy h ((s.dev.dropFlights (fun f => f.hop == h)).setHopper h
          { x with closing := some grace, queue := [] })) ∧
    (∀ o grace, HostOk o s → grace ≤ 160 → x.setUp = true → x.closing = none → ∃ d,
      Waits (.hopperDestroy o h grace) o 0x0702 s .hopperDestroy h d ∧ d.hopper h = { x with closing := some grace, queue := [] } ∧
      d = { s.dev with hop := d.hop, ctr := d.ctr, eth := d.eth } ∧
      d.count ⟨.hopHClosedDrop, h, 0⟩ = s.dev.count ⟨.hopHClosedDrop, h, 0⟩ + x.queue.length) ∧
    (x.setUp = true → (x.closing = some 0 ∨ x.closing.isSome = true ∧ x.empty = true) →
      Does (.hopperDestroyEnd h) s ((s.dev.hopDestroyEnd h).finish s.clk .hopperDestroy h .ok)) ∧
    (∀ o, x.setUp = true → x.closing = some 0 → x.burst = none → NoOpenPut s.dev h →
      s.dev.waits = [{ kind := .hopperDestroy, key := h, src := .host o, opc := 0x0702 }] →
      ∃ d : Dev, Does (.hopperDestroyEnd h) s (({ d with waits := [] }).complete s.clk o 0x0702 .ok []) ∧ d.hopper h = {} ∧
        d = { s.dev with hop := d.hop, ctr := d.ctr, eth := d.eth, regs := d.regs } ∧
        d.count ⟨.hopHDestroyDiscard, h, 0⟩ = s.dev.count ⟨.hopHDestroyDiscard, h, 0⟩ +
          (x.fill.length + (x.seq.length - x.rel) + x.queue.length)) ∧
    (∀ o, HostOk o s → x.setUp = true → ∃ opens voids, Answers (.hopperStatus o h) o 0x0706 s .ok
      ([⟨2, x.base⟩, ⟨4, x.size⟩, ⟨1, b2n x.sched + 2 * x.frame⟩, ⟨1, x.fb⟩, ⟨4, x.w⟩, ⟨4, x.fill.length⟩,
        ⟨4, x.seq.length⟩, ⟨4, x.rel⟩, ⟨4, x.rp⟩, ⟨4, x.ro⟩, ⟨1, b2n x.mv⟩, ⟨1, b2n x.due⟩, ⟨2, opens⟩, ⟨2, voids⟩] ++
        hopCounters.map (fun c => ⟨8, s.dev.count ⟨c, h, 0⟩⟩)) s.dev)

/-- On a channel that is idle on hook, LINE_RING takes an alarm slot armed for its first step at the next frame boundary and
starts the cadence with its profile and cycles; LINE_CID_SEND of mode 0 waits for the ring, of mode 1 is sent behind 800 ticks of
DT-AS and its delay; LINE_TONE_PLAY, with a ramp of 16 ticks where none is given, and DT-AS start at the close of the next window;
LINE_HYB_CHAR, off hook, starts the probe at the next frame boundary; LINE_EQ_SET stops the streams of its mask for one tick. Each is
accepted and completes later. Where it goes beyond the words of the rules it is the model's own reading (log entries 54, 55, 90). -/
def Obligations.LineChannelsStartTheirWork : Prop :=
  ∀ (s : State) (o : Origin) (n : Nat) (c : LineCh), HostOk o s → ClockOk s → LineUp s n c →
    (∀ cadence profile cycles cid sl, c.offHook = false → c.ring = none → cadence ≤ 7 → profile ≤ 7 →
      s.dev.cadence cadence ≠ [] → s.dev.slotFor c = some sl →
      (cid = true → ∀ m, c.cidArm = some m → c.cid = none ∧ m.fits (s.dev.cadence cadence) = true) →
      ∀ first takes, (c.cid.map (fun r => r.dataEnd + r.msg.guard)).getD (nextBoundary c.set.frame s.clk.tick) = first →
        (cid && c.cidArm.isSome) = takes → ∃ d : Dev, d.lineCh n = some { c with
          slot := some sl
          ring := some { cadIx := cadence, cad := s.dev.cadence cadence, profile := profile, cycles := cycles, cid := cid,
                         first := first, next := first }
          cid := if takes then c.cidArm.map (fun m => m.after first (s.dev.cadence cadence)) else c.cid
          cidArm := if takes then none else c.cidArm } ∧
        Waits (.lineRing o n cadence profile cycles cid) o 0x0805 s .lineRing n
          (((d.putAction n 1).putAction n 2).armStep s.clk n)) ∧
    (∀ m : CidMsg, c.offHook = false → c.cidOn s.clk.tick = false → c.tone = none → c.paging = none → m.mode ≤ 2 → m.mod ≤ 1 →
      -40 ≤ m.level → m.level ≤ -6 → 400 ≤ m.guard → m.guard ≤ 16000 → m.body ≠ [] → m.body.length ≤ 253 → m.typ ≤ 255 →
      (m.mode = 0 → Waits (.lineCidSend o n m) o 0x080B s .lineCid (armedCid n) (s.dev.armCid s.clk n c m)) ∧
      (∀ sl, m.mode ≠ 0 → c.cid = none → s.dev.slotFor c = some sl → ∀ d : Dev, (s.dev.setLineCh n (some { c with
          slot := some sl, cid := some (m.now c.set.frame s.clk.tick),
          rev := if m.pr && m.mode != 2 then !c.rev else c.rev })).putEntries n = d →
        Waits (.lineCidSend o n m) o 0x080B s .lineCid n (if m.mode = 2 then d.putState n 7 6 else d.putFeed n 4))) ∧
    (∀ tones cad count mix ramp sl, tones ≠ [] → tones.length ≤ 2 → (∀ t ∈ tones, 50 ≤ t.1 ∧ t.1 ≤ 14000 ∧ -60 ≤ t.2 ∧ t.2 ≤ -3) →
      cad ≠ [] → cad.length ≤ 4 → (∀ p ∈ cad, 8 ≤ p.1 ∧ 8 ≤ p.2) → (∀ r, ramp = some r → 1 ≤ r ∧ r ≤ 256) →
      (∀ r, c.cid = some r → s.clk.tick < r.dataAt) → c.tone = none → c.paging = none → s.dev.slotFor c = some sl →
      ∀ t, nextBoundary c.set.frame s.clk.tick + c.set.frame / 4 = t →
      Waits (.lineTonePlay o n tones cad count mix ramp) o 0x080C s .lineTone n (s.dev.setLineCh n (some { c with
        slot := some sl
        tone := some { tones := tones, cad := cad, count := count, mix := mix, ramp := ramp.getD 16, start := t,
                       stop := if count = 0 then none else some (t + count * cadTicks cad) } }))) ∧
    (c.offHook = true → c.charac = false → Waits (.lineHybChar o n) o 0x080E s .lineHyb n ((s.dev.setLineCh n (some { c with
      hyb := some { start := nextBoundary c.set.frame s.clk.tick, bad := false, second := false } })).feedAlt s.clk n)) ∧
    (∀ mask (rx tx : List Word) jobs, 1 ≤ mask → mask ≤ 3 → (mask.testBit 0 = true → rx.length = 20) →
      (mask.testBit 1 = true → tx.length = 20) → c.swaps = [] →
      (if mask.testBit 0 then [eqSwap n rx] else []) ++ (if mask.testBit 1 then [eqSwap (256 + n) tx] else []) = jobs →
      Waits (.lineEqSet o n mask rx tx) o 0x0810 s .lineEq n
        (jobs.foldl (fun d j => d.askStream j.stream .stop) (s.dev.setLineCh n (some { c with swaps := jobs })))) ∧
    (c.cid = none → c.cidArm = none → c.tone = none → c.paging = none →
    (∀ cadence profile cycles cid sl, c.offHook = false → c.ring = none → cadence ≤ 7 → profile ≤ 7 →
      s.dev.cadence cadence ≠ [] → mediaFrame c.set.frame = true → s.dev.slotFor c = some sl → s.dev.htb.hostSlots ≤ sl →
      sl ≤ 1023 → Store.wf ({} : Alarm) s.dev.htb.alarms = true →
      ∃ d, Waits (.lineRing o n cadence profile cycles cid) o 0x0805 s .lineRing n d ∧
        d = { s.dev with med := d.med, oll := d.oll, htb := d.htb } ∧
        d.lineCh n = some { c with
          slot := some sl
          ring := some { cadIx := cadence, cad := s.dev.cadence cadence, profile := profile, cycles := cycles, cid := cid,
                         first := nextBoundary c.set.frame s.clk.tick, next := nextBoundary c.set.frame s.clk.tick } } ∧
        d.alarm sl = { armed := true, absolute := false, target := nextBoundary c.set.frame s.clk.tick * 4096,
                       due := nextBoundary c.set.frame s.clk.tick * 4096, period := 0, typ := 2, targets := n + 256,
                       firedAt := 0 }) ∧
    (∀ m : CidMsg, c.offHook = false → m.mod ≤ 1 → -40 ≤ m.level → m.level ≤ -6 → 400 ≤ m.guard → m.guard ≤ 16000 →
      m.body ≠ [] → m.body.length ≤ 253 → m.typ ≤ 255 →
      (m.mode = 0 → Waits (.lineCidSend o n m) o 0x080B s .lineCid (armedCid n)
        (s.dev.setLineCh n (some { c with cidArm := some m }))) ∧
      (∀ sl, m.mode = 1 → s.dev.slotFor c = some sl → ∃ d, Waits (.lineCidSend o n m) o 0x080B s .lineCid n d ∧
        d = { s.dev with med := d.med, oll := d.oll } ∧ d.lineCh n = some { c with
          cid := some { msg := m, burst := none, tas := some (nextBoundary c.set.frame s.clk.tick + c.set.frame / 4),
                        dataAt := nextBoundary c.set.frame s.clk.tick + c.set.frame / 4 + 800 + m.delay.getD 480,
                        dataEnd := nextBoundary c.set.frame s.clk.tick + c.set.frame / 4 + 800 + m.delay.getD 480 + m.ticks }
          slot := some sl
          rev := if m.pr then !c.rev else c.rev })) ∧
    (∀ f lv cad count mix ramp sl, 50 ≤ f → f ≤ 14000 → -60 ≤ lv → lv ≤ -3 → cad ≠ [] → cad.length ≤ 4 →
      (∀ p ∈ cad, 8 ≤ p.1 ∧ 8 ≤ p.2) → (∀ r, ramp = some r → 1 ≤ r ∧ r ≤ 256) → s.dev.slotFor c = some sl →
      Waits (.lineTonePlay o n [(f, lv)] cad count mix ramp) o 0x080C s .lineTone n (s.dev.setLineCh n (some { c with
        slot := some sl
        tone := some { tones := [(f, lv)], cad := cad, count := count, mix := mix, ramp := ramp.getD 16,
                       start := nextBoundary c.set.frame s.clk.tick + c.set.frame / 4,
                       stop := if count = 0 then none
                         else some (nextBoundary c.set.frame s.clk.tick + c.set.frame / 4 + count * cadTicks cad) } }))) ∧
    (c.offHook = true → c.charac = false → ∃ (d : Dev) (c' : LineCh), Waits (.lineHybChar o n) o 0x080E s .lineHyb n d ∧
      d.lineCh n = some c' ∧ d.oll = s.dev.oll ∧ d.fce = s.dev.fce ∧ c' = { c with
        altTo := c'.altTo, hyb := some { start := nextBoundary c.set.frame s.clk.tick, bad := false, second := false } }) ∧
    (∀ rx : List Word, rx.length = 20 → c.swaps = [] → (s.dev.fst n).state = .running → (s.dev.fst n).ramp = none → ∃ w : Swap, w.stream = n ∧ w.hyb = none ∧ w.eq = true ∧ w.phase = 0 ∧
      w.words.length = 20 ∧ (∀ j, j < 20 → w.words[j]? = some (36 + j, rx.getD j 0 &&& 0xFFFFFF)) ∧
      Waits (.lineEqSet o n 1 rx []) o 0x0810 s .lineEq n { s.dev with
        med := (s.dev.setLineCh n (some { c with swaps := [w] })).med
        fce := { s.dev.fce with cmds := s.dev.fce.cmds ++ [{ stream := n, kind := .stop, who := some (.self, 0x0406) }] } }))

/-- LINE_CHANNEL_STATUS reads settings and state; MODIFY keeps its settings for the frame boundary; LINE_FEED writes the feed and
commands it at the next latch point; LINE_POLARITY writes REV and the line's four actions; LINE_METER gives the line command 1;
LINE_RING_STOP ends the ring, frees the slot and commands STANDBY; LINE_TONE_STOP fades the tone out over its ramp;
LINE_CADENCE_SET and LINE_CPT_SET write their tables. LINE_FEED during ringing answers ST_REFUSED_BUSY. Where it goes beyond the
words of the rules it is the model's own reading (log entries 23, 54, 55, 56). -/
def Obligations.LineChannelCommandsAnswer : Prop :=
  ∀ (s : State) (o : Origin) (n : Nat) (c : LineCh), HostOk o s → LineUp s n c →
    (∃ est rx tx, Answers (.lineChannelStatus o n) o 0x0804 s .ok
      ([⟨2, c.set.thread⟩, ⟨1, c.set.group⟩, ⟨1, c.set.level⟩, ⟨1, c.set.frame⟩, ⟨2, c.set.rate⟩, ⟨2, c.set.rxHop⟩,
        ⟨2, c.set.mainHop⟩, ⟨2, c.set.altHop⟩, ⟨1, c.set.evtRing⟩] ++ c.set.m.fields ++
        [⟨4, loopNs c.set.rate⟩, ⟨2, est⟩, ⟨1, b2n c.offHook⟩, ⟨1, c.feedCode (s.dev.presentFeed s.clk c)⟩, ⟨1, b2n c.rev⟩,
         ⟨1, b2n c.ring.isSome + 2 * b2n c.cid.isSome + 4 * b2n c.tone.isSome + 8 * b2n c.charac⟩, ⟨2, rx⟩, ⟨2, tx⟩])
      { s.dev with freeN := s.dev.freeN + 3 }) ∧
    (∀ m : LineMod, m.bad = false → s.dev.peerBad c.set.thread (.line n) m.peer = false → s.dev.peerGone m.peer = false →
      s.dev.peerEnds m.peer = false →
      Answers (.lineChannelModify o n m) o 0x0803 s .ok [] (s.dev.setLineCh n (some { c with mod := some m }))) ∧
    (∀ m : LineMod, m.bad = false → m.peer = .none →
      Answers (.lineChannelModify o n m) o 0x0803 s .ok [] (s.dev.setLineCh n (some { c with mod := some m }))) ∧
    (∀ mode, mode ∈ [0, 1, 2] ∨ (mode = 4 ∧ s.dev.feature n 1 = true) ∨ (mode = 7 ∧ s.dev.feature n 2 = true) → c.ring = none →
      c.cid = none → Answers (.lineFeed o n mode) o 0x0808 s .ok [] ((s.dev.setLineCh n (some { c with feed := mode })).putFeed n
        (if c.paging.isSome && !c.offHook then 4 else mode))) ∧
    (∀ mode, mode ∈ [0, 1, 2] → c.ring = none → c.cid = none → Answers (.lineFeed o n mode) o 0x0808 s .ok []
      (withOps (s.dev.setLineCh n (some { c with feed := mode })) n
        [.state 5 (c.feedCode (if c.paging.isSome && !c.offHook then 4 else mode)) c.set.m.ringProf c.set.m.feedProf .self])) ∧
    (∀ mode, mode ∈ [0, 1, 2] → c.ring.isSome = true → Answers (.lineFeed o n mode) o 0x0808 s .refusedBusy [] s.dev) ∧
    (∀ rev now (c' : LineCh) (d : Dev), rev ≤ 1 → c' = { c with rev := rev == 1 } →
      (s.dev.setLineCh n (some c')).putEntries n = d → d.presentFeed s.clk c' = now →
      Answers (.linePolarity o n rev) o 0x0809 s .ok [] (if c.ring.isNone && (now = 2 || now = 4) then d.putFeed n now else d)) ∧
    (∀ rev now, rev ≤ 1 → c.ring = none → c.cid = none → now = (if c.paging.isSome && !c.offHook then 4 else c.feed) → ∃ (c' : LineCh) (d : Dev), c' = { c with rev := rev == 1 } ∧
      Answers (.linePolarity o n rev) o 0x0809 s .ok [] d ∧ d = { s.dev with med := d.med, oll := d.oll } ∧
      d.lineCh n = some c' ∧ (d.line n).ops = (s.dev.line n).ops ++
        [.actionWrite 0 (c'.action 0), .actionWrite 1 (c'.action 1), .actionWrite 2 (c'.action 2),
         .actionWrite 3 (c'.action 3)] ++
        (if now = 2 ∨ now = 4 then [.state 5 (c'.feedCode now) c.set.m.ringProf c.set.m.feedProf .self] else [])) ∧
    (∀ count on off freq level, 1 ≤ count → count ≤ 255 → 8 ≤ on → on ≤ 4000 → 8 ≤ off → off ≤ 4000 → freq ≤ 1 → 1 ≤ level →
      level ≤ 50 → s.dev.feature n 0 = true → s.dev.lineUp n = true → (s.dev.line n).full = false →
      Does (.lineMeter o n count on off freq level) s (s.dev.setLine n { s.dev.line n with
        queue := (s.dev.line n).queue ++ [{ opc := 1, src := .hostAs o 0x080A, args :=
          [count, on % 256, on / 256, off % 256, off / 256, freq, level] }] })) ∧
    (∀ r, c.ring = some r → ∃ d e : Dev, e = (if c.cidPending then s.dev.endCid s.clk n s.clk.tick 2 else s.dev) ∧
      d = ((e.endRing n s.clk.tick 2 false).modLineCh n (fun c => { c with feed := 1 })) ∧
      Answers (.lineRingStop o n) o 0x0806 s .ok [] (((d.lineCh n).elim d (fun c => d.putFeed n (d.presentFeed s.clk c))).lineFlush
        s.clk n)) ∧
    (c.ring = none → Answers (.lineRingStop o n) o 0x0806 s .refusedBusy [] s.dev) ∧
    (∀ r, c.ring = some r → c.cid = none → c.tone = none → c.paging = none → c.onAt = none → c.ears.cur = none → ∃ (d : Dev) (c' : LineCh), Answers (.lineRingStop o n) o 0x0806 s .ok [] d ∧
      d.lineCh n = some c' ∧ c'.ring = none ∧ c'.slot = none ∧ c'.feed = 1 ∧ c'.evq = [] ∧
      (d.line n).ops = (s.dev.line n).ops ++ [.state 5 1 c.set.m.ringProf c.set.m.feedProf .self]) ∧
    (∀ t, c.tone = some t → t.fade = none → Answers (.lineToneStop o n) o 0x080D s .ok [] { s.dev with
      med := (s.dev.setLineCh n (some { c with tone := some { t with fade := some (s.clk.tick + 1 + t.ramp) } })).med
      fce := { s.dev.fce with cmds := s.dev.fce.cmds ++
        [{ stream := 256 + n, kind := .ramp 32768 (c.gaRest s.clk.tick) t.ramp, who := some (.self, 0x0408) }] } }) ∧
    (∀ t u, c.tone = some t → t.fade = some u → Answers (.lineToneStop o n) o 0x080D s .ok [] s.dev) ∧
    (c.tone = none → Answers (.lineToneStop o n) o 0x080D s .refusedBusy [] s.dev) ∧
    (∀ i (l : List (Nat × Nat)), i ≤ 7 → l ≠ [] → l.length ≤ 4 → (∀ p ∈ l, 400 ≤ p.1 ∧ p.1 ≤ 65535 ∧ 400 ≤ p.2 ∧ p.2 ≤ 65535) →
      (∀ p ∈ s.dev.lineChs, ∀ r, p.2.ring = some r → r.cadIx ≠ i) → Answers (.lineCadenceSet o i l) o 0x0807 s .ok []
        { s.dev with med := { s.dev.med with cads := s.dev.med.cads.put [] i l } }) ∧
    (∀ i on off, i ≤ 7 → 400 ≤ on → on ≤ 65535 → 400 ≤ off → off ≤ 65535 →
      (∀ p ∈ s.dev.lineChs, ∀ r, p.2.ring = some r → r.cadIx ≠ i) → Answers (.lineCadenceSet o i [(on, off)]) o 0x0807 s .ok []
        { s.dev with med := { s.dev.med with cads := s.dev.med.cads.put [] i [(on, off)] } }) ∧
    (∀ i (x : CptDef), i ≤ 15 → x.freqs ≠ [] → x.freqs.length ≤ 2 → x.cad ≠ [] → x.cad.length ≤ 4 → 1 ≤ x.tol → x.tol ≤ 25 →
      Answers (.lineCptSet o i x) o 0x080F s .ok [] { s.dev with med := { s.dev.med with cpts := s.dev.med.cpts.put {} i x } })

/-- LINE_CHANNEL_CREATE of a line without a channel, on an inactive thread that carries nothing, writes the settings, starts the
thread and both streams. A turn that finds the line gone off hook reports LINE_OFF_HOOK with the stamp of the change and takes the
talk feed; one that finishes a frame gives it, of the frame's length, to the peer. FLASH_MAX ticks on hook report LINE_ON_HOOK with
the stamp of the change and command STANDBY. LINE_CHANNEL_DESTROY stops admission, ends what the channel does, answers the commands
in flight and commands STANDBY; at the first frame boundary 16 ticks later at which the thread is inactive or carries something
else the channel is gone and the command is answered, and not before. Where it goes beyond the words of the rules it is the model's
own reading (log entries 55, 56, 90). -/
def Obligations.LineChannelsLiveAndReport : Prop :=
  ∀ (s : State) (n : Nat), Store.wf none s.dev.med.lines = true → Store.wf {} s.dev.oll.lines = true →
    Store.wf {} s.dev.sch.threads = true →
    (∀ o (set : LineSet), HostOk o s → n ≤ 255 → s.dev.lineCh n = none → set.m.bad = false → set.m.peer = .none →
      set.thread ≤ 8191 → set.group ≤ 63 → set.level ≤ 3 → mediaFrame set.frame = true → mediaRate set.rate = true →
      set.rxHop ≤ 1023 → set.mainHop ≤ 1023 → set.altHop ≤ 1023 → set.evtRing ≤ 255 → s.dev.chanFrame set.thread = none →
      s.dev.bridgeFrame set.thread = none → s.dev.rxShared set.rxHop set.thread = false →
      (s.dev.thr set.thread).off = true → (s.dev.fst n).open = true → (s.dev.fst (256 + n)).open = true → ∃ (d : Dev) (c : LineCh),
        Answers (.lineChannelCreate o n set) o 0x0801 s .ok [] d ∧ d.lineCh n = some c ∧ c.set = set ∧
        c.lost = !s.dev.lineLive n ∧ c.offHook = (s.dev.line n).us0.testBit 0 ∧ c.ring = none ∧ c.destroying = none ∧
        (d.thr set.thread).group = set.group ∧ (d.thr set.thread).level = set.level ∧
        ((d.thr set.thread).state = .ready ∨ (d.thr set.thread).state = .running) ∧
        d.fce.cmds = s.dev.fce.cmds ++ [{ stream := n, kind := .start false, who := some (.self, 0x0406) },
          { stream := 256 + n, kind := .start false, who := some (.self, 0x0406) }]) ∧
    (∀ o (set : LineSet), HostOk o s → n ≤ 255 → s.dev.lineCh n = none → set.m.bad = false →
      s.dev.peerBad set.thread (.line n) set.m.peer = false → s.dev.peerGone set.m.peer = false → s.dev.peerEnds set.m.peer = false →
      set.thread ≤ 8191 → set.group ≤ 63 → set.level ≤ 3 → mediaFrame set.frame = true → mediaRate set.rate = true →
      set.rxHop ≤ 1023 → set.mainHop ≤ 1023 → set.altHop ≤ 1023 → set.evtRing ≤ 255 →
      (∀ f, s.dev.chanFrame set.thread = some f → f = set.frame) → s.dev.bridgeFrame set.thread = none →
      s.dev.rxShared set.rxHop set.thread = false → (s.dev.chanFrame set.thread = none → (s.dev.thr set.thread).off = true) →
      (s.dev.fst n).open = true → (s.dev.fst (256 + n)).open = true → ∀ (d e : Dev) off,
        s.dev.takeThread s.clk set.thread set.group set.level = d → (d.line n).us0.testBit 0 = off →
        (((d.setLineCh n (some {
          set := set, lastTick := s.clk.tick, lastEdges := (d.line n).us3, offHook := off,
          lost := !d.lineLive n, feed := if off then 2 else 1 })).pair (.line n) set.m.peer).putEntries n).putFeed n
            (if off then 2 else 1) = e →
        Answers (.lineChannelCreate o n set) o 0x0801 s .ok [] ((e.useStream n set.rate set.rxHop set.frame 0xFFFF).useStream (256 + n)
          set.rate set.mainHop 80 set.altHop)) ∧
    (∀ c d, s.dev.lineCh n = some c → ((s.dev.setLineCh n (some { c with recs := [] })).lineHooks s.clk n c.recs).ringTurn s.clk n = d →
      Does (.lineFrameProcess n none) s ((d.feedAlt s.clk n).lineFlush s.clk n) ∧
      ∀ w b, c.frameAt = some b →
        Does (.lineFrameProcess n (some w)) s (((d.lineFrame s.clk n b w).feedAlt s.clk n).lineFlush s.clk n)) ∧
    (∀ c a, s.dev.lineCh n = some c → c.onAt = some a → a + c.set.m.flashMax ≤ s.clk.tick →
      Does (.onHookTimeout n) s ((s.dev.goOnHook n a).lineFlush s.clk n)) ∧
    (∀ c (r : HookRec), s.dev.lineCh n = some c → c.recs = [r] → r.old.testBit 0 = false → r.new.testBit 0 = true →
      r.old.testBit 2 = r.new.testBit 2 → bitsOf r.old 3 3 = bitsOf r.new 3 3 → c.onAt = none → c.offHook = false →
      c.ring = none → c.cid = none → c.tone = none → c.hyb = none → c.page = none → c.set.m.hybMode = 0 → c.set.m.peer = .none →
      c.evq = [] → c.ears.cur = none → ∃ d : Dev, OnlyMed s.dev d ∧
        d.lineCh n = some { c with
          recs := [], offHook := true, feed := 2, hybDone := true
          altTo := max (max c.altTo (s.clk.tick + 1)) (nextBoundary c.set.frame s.clk.tick + c.set.frame / 4) } ∧
        Does (.lineFrameProcess n none) s (d.raiseOn s.clk c.set.evtRing
          { typ := 0x0880, detail := 0, obj := n, stamp := r.tick * 4096, arg := 0 })) ∧
    (∀ c w b, s.dev.lineCh n = some c → c.frameAt = some b → mediaRate c.set.rate = true → ∃ (d : Dev) (c' : LineCh) (near : List Int),
      Does (.lineFrameProcess n (some w)) s d ∧ d.lineCh n = some c' ∧ c'.frameAt = none ∧ c'.near = some (b, false, near) ∧
        near.length = c.set.frame * c.set.rate / 8000 ∧ c'.recs = [] ∧ c'.set = c.set) ∧
    (∀ c a, s.dev.lineCh n = some c → c.onAt = some a → a + c.set.m.flashMax ≤ s.clk.tick → c.paging = none → c.evq = [] →
      c.ears.cur = none →
      ∃ d : Dev, d = { s.dev with med := d.med, oll := d.oll } ∧
        d.lineCh n = some { c with onAt := none, offHook := false, feed := 1 } ∧
        (d.line n).ops = (s.dev.line n).ops ++ [.state 5 1 c.ringProfile c.set.m.feedProf .self] ∧
        Does (.onHookTimeout n) s (d.raiseOn s.clk c.set.evtRing
          { typ := 0x0881, detail := 0, obj := n, stamp := a * 4096, arg := 0 })) ∧
    (∀ o c, HostOk o s → s.dev.lineCh n = some c → c.destroying = none → ∃ (d : Dev) (c' : LineCh),
      Waits (.lineChannelDestroy o n) o 0x0802 s .lineDestroy n d ∧ d.lineCh n = some c' ∧
        c'.destroying = some (s.clk.tick + 16) ∧ c'.ring = none ∧ c'.cid = none ∧ c'.cidArm = none ∧ c'.tone = none ∧
        c'.hyb = none ∧ c'.slot = none ∧ c'.paging = none ∧ c'.set = c.set ∧
        (∀ w, w ∈ [WKind.lineRing, .lineCid, .lineHyb, .lineTone, .lineEq] → d.waiting w n = false) ∧
        (d.line n).ops = (s.dev.line n).ops ++ [.state 5 1 c.set.m.ringProf c.set.m.feedProf .self]) ∧
    (∀ o c, HostOk o s → s.dev.lineCh n = some c → c.destroying = none →
      Waits (.lineChannelDestroy o n) o 0x0802 s .lineDestroy n (s.dev.lineEnd s.clk n c)) ∧
    (∀ c t, s.dev.lineCh n = some c → c.destroying = some t → t ≤ s.clk.tick → s.clk.tick % c.set.frame = 0 →
      ((s.dev.idleThread c.set.thread = false ∨ (s.dev.thr c.set.thread).off = true) →
        ∃ d : Dev, Does (.lineChannelDestroyEnd n) s d ∧ d.lineCh n = none ∧ d.waiting .lineDestroy n = false) ∧
      (s.dev.idleThread c.set.thread = true → (s.dev.thr c.set.thread).off = false →
        exec (.lineChannelDestroyEnd n) s = .next s))

/-- An RTP packet of the latched source with G.711 audio, new and in time, joins the jitter buffer of its channel and is counted;
one for no channel is dropped and counted. A receiver report is taken and reported. A frame with a payload is sent with the
channel's RTP header, the marker after a pause, and the next sequence number; one without sends nothing. A report is sent in the
window of the first frame boundary from its tick on, and the next one drawn between half and one and a half intervals ahead. MEDIA_TIMEOUT ticks of silence are reported once.
Where it goes beyond the words of the rules it is the model's own reading (log entries 56, 57). -/
def Obligations.PacketChannelsCarryMedia : Prop :=
  ∀ (s : State), Store.wf none s.dev.med.pkts = true →
    (∀ hop judged p ws (d : Dev) x (r : RxRec), s.dev.hopReady hop = true →
      s.dev.hopTake s.clk hop = (some (p, ws), d) → rxRecOf ws = r → r.l4bad = false →
      (d.pkt r.tag = none → Does (.rtpReceive hop judged false) s (d.bump0 .medNoChannelDrop)) ∧
      (d.pkt r.tag = some x → ∀ udptl,
        (x.mode = 2 → r.bytes.length ≤ 1400 →
          Does (.rtpReceive hop judged udptl) s (d.setPkt r.tag (some (x.accept (stampTick r.stamp))))) ∧
        (udptl = true → x.mode = 1 → Does (.rtpReceive hop judged udptl) s (d.faxTone r.tag 5 (some r.stamp))) ∧
        (x.mode ≠ 2 → (udptl = false ∨ x.mode ≠ 1) →
          Does (.rtpReceive hop judged udptl) s (d.rtpIn s.clk r.tag r.stamp r.bytes judged))) ∧
      (d.pkt r.tag = some x →
        (rtcpParts r.bytes.length r.bytes = none → Does (.rtcpReceive hop) s (d.bump0 .medRtcpBadDrop)) ∧
        ∀ pt rc first rest, rtcpParts r.bytes.length r.bytes = some ((pt, rc, first) :: rest) → (pt = 200 ∨ pt = 201) →
          ∃ (e : Dev) (y : PktCh), Does (.rtcpReceive hop) s e ∧ e.pkt r.tag = some y ∧ y.rxTick = stampTick r.stamp ∧
            y.mediaOn = true ∧ (pt = 200 → y.sr = some (beAt first 4 4, beAt first 10 4, r.stamp)) ∧ (pt = 201 → y.sr = x.sr) ∧
            y.set = x.set ∧ y.jb = x.jb) ∧
      (∀ a0 ts0, d.pkt r.tag = some x → x.mode = 0 → x.set.codec ≤ 2 → x.set.rxPt ≠ x.set.evtPt → x.set.rxSsrc = 0 →
        r.bytes.getD 0 0 = 0x80 → r.bytes.getD 1 0 % 128 = x.set.rxPt → 12 < r.bytes.length → r.bytes.length ≤ 972 →
        x.ssrc = some (beAt r.bytes 8 4) → x.anchor = some (a0, ts0) → x.reanchor = false →
        x.acc.contains (beAt r.bytes 2 2, beAt r.bytes 4 4) = false →
        (x.formed : Int) ≤ x.playAt a0 ts0 (beAt r.bytes 4 4) →
        x.playAt a0 ts0 (beAt r.bytes 4 4) ≤ (s.clk.tick : Int) + x.set.jbMax + 8000 →
        ∃ (e : Dev) (y : PktCh), Does (.rtpReceive hop judged false) s e ∧ OnlyMed d e ∧ e.pkt r.tag = some y ∧
          y.jb = x.jb ++ [{ ts := beAt r.bytes 4 4, seq := beAt r.bytes 2 2, pt := x.set.rxPt,
                            ticks := r.bytes.length - 12 }] ∧
          y.received = x.received + 1 ∧ y.rxTick = stampTick r.stamp ∧ y.anchor = x.anchor ∧ y.ssrc = x.ssrc) ∧
      (∀ b0 b1 b2 b3, d.pkt r.tag = some x → r.bytes = [0x80, 201, 0, 1, b0, b1, b2, b3] → ∃ e : Dev, OnlyMed d e ∧
        e.pkt r.tag = some (x.accept (stampTick r.stamp)) ∧
        Does (.rtcpReceive hop) s (e.raiseOn s.clk x.set.evtRing
          { typ := 0x0891, detail := 1, obj := r.tag, stamp := r.stamp, arg := 0 }))) ∧
    (∀ c x b (w : PktWork), s.dev.pkt c = some x → x.frameAt = some b → s.dev.hopReady x.set.rxHop = false →
      Does (.pktFrameProcess c w) s (((s.dev.pktPlay s.clk c b w).pktFarEnd s.clk c b).pktSend s.clk c b w.payload)) ∧
    (∀ c x b (w : PktWork), s.dev.pkt c = some x → x.frameAt = some b → x.mode = 0 → x.evtOut = none →
      s.dev.legsOf true c = [] → s.dev.hopReady x.set.rxHop = false →
      (∀ p, w.payload = some p → ∃ (d0 d1 d : Dev) (y : PktCh) (near : List Int),
        d0 = { s.dev with med := d0.med, freeN := d0.freeN } ∧
        d1 = d0.sendTo s.clk x.set.thread x.set.dest x.set.txKey false
          (rtpHead (!x.sentLast) x.set.txPt x.seq x.ts x.txSsrc ++ p) ∧
        OnlyMed d1 d ∧ Does (.pktFrameProcess c w) s d ∧ d.pkt c = some y ∧ y.seq = (x.seq + 1) % 65536 ∧
        y.frameAt = none ∧ y.near = some (b, false, near) ∧ near.length = x.set.frame * x.rate / 8000 ∧ y.formed = b ∧
        y.sentLast = true ∧ y.sentN = x.sentN + 1) ∧
      (w.payload = none → ∃ (d : Dev) (y : PktCh), d = { s.dev with med := d.med, freeN := d.freeN } ∧ Does (.pktFrameProcess c w) s d ∧ d.pkt c = some y ∧
        y.seq = x.seq ∧ y.frameAt = none ∧ y.sentLast = false)) ∧
    (∀ c x t voip, s.dev.pkt c = some x → x.rtcpAt = some t → t ≤ s.clk.tick / x.set.frame * x.set.frame →
      s.clk.tick / x.set.frame * x.set.frame < t + x.set.frame →
      s.clk.tick < s.clk.tick / x.set.frame * x.set.frame + x.set.frame / 4 →
      ∃ (d : Dev) (nxt : Option Nat), Does (.rtcpReport c voip) s d ∧
        d = { s.dev.sendTo s.clk x.set.thread x.set.dest x.set.txKey true
                (x.report s.dev.htb.utcOff (clockStamp s.clk) ++
                  (if x.set.xr then x.xrPacket s.dev.htb.utcOff (clockStamp s.clk) voip else [])) with med := d.med, freeN := d.freeN } ∧
        d.pkt c = some { x.reported with rtcpAt := nxt, sent1 := x.sent0, sent0 := false } ∧
        (x.set.rtcp = 0 → nxt = none) ∧
        (x.set.rtcp ≠ 0 → ∃ n, nxt = some n ∧ s.clk.tick + 4000 * x.set.rtcp ≤ n ∧ n ≤ s.clk.tick + 12000 * x.set.rtcp)) ∧
    (∀ c x, s.dev.pkt c = some x → x.mediaOn = true → x.set.mediaTo ≠ 0 → x.rxTick + x.set.mediaTo ≤ s.clk.tick →
      ∃ e : Dev, OnlyMed s.dev e ∧ e.pkt c = some { x with mediaOn := false } ∧
        Does (.mediaTimeout c) s (e.raiseOn s.clk x.set.evtRing
          { typ := 0x0894, detail := 0, obj := c, stamp := clockStamp s.clk, arg := (s.clk.tick - x.rxTick) % 2 ^ 32 }))

/-- Packet channels: CREATE writes its settings and starts its thread, MODIFY keeps its settings for the frame boundary, STATUS
reads, PKT_MODE_SET and PKT_EVENT_SEND take effect with the frame, DESTROY stops admission for a frame and then removes the channel.
Bridges: CREATE, legs added, modified and removed at the frame boundary, STATUS reads and clears its two counts, DESTROY and its end,
and a mix that is due forms one frame for every listening leg and keeps at most MIX_MAX talkers. Where it goes beyond the words
of the rules it is the model's own reading (log entries 23, 56, 57, 58). -/
def Obligations.PacketChannelAndBridgeCommands : Prop :=
  ∀ (s : State) (o : Origin) (c : Nat), HostOk o s → Store.wf none s.dev.med.pkts = true →
    Store.wf none s.dev.med.bridges = true → Store.wf {} s.dev.sch.threads = true →
    (∀ set : PktSet, set.bad = false → set.peer = .none → c ≤ 4095 → s.dev.pkt c = none → s.dev.jbRoom = true →
      s.dev.chanFrame set.thread = none → s.dev.bridgeFrame set.thread = none →
      s.dev.rxHopBad set.rxHop set.thread = false → (s.dev.thr set.thread).off = true → ∃ (d : Dev) (x : PktCh),
        Answers (.pktChannelCreate o c set) o 0x0820 s .ok [] d ∧ d.pkt c = some x ∧ x.set = set ∧ x.mode = 0 ∧
        x.dly = set.jbInit ∧ x.jb = [] ∧ x.rxTick = s.clk.tick ∧ (set.txSsrc ≠ 0 → x.txSsrc = set.txSsrc) ∧
        (d.thr set.thread).group = set.group ∧ (d.thr set.thread).level = set.level) ∧
    (∀ set : PktSet, set.bad = false → c ≤ 4095 → s.dev.pkt c = none → s.dev.jbRoom = true →
      (∀ f, s.dev.chanFrame set.thread = some f → f = set.frame) → s.dev.bridgeFrame set.thread = none →
      s.dev.rxHopBad set.rxHop set.thread = false → (s.dev.chanFrame set.thread = none → (s.dev.thr set.thread).off = true) →
      s.dev.peerBad set.thread (.pkt c) set.peer = false → s.dev.peerGone set.peer = false → s.dev.peerEnds set.peer = false →
      ∃ (d : Dev) (x : PktCh), Answers (.pktChannelCreate o c set) o 0x0820 s .ok [] ((d.setPkt c (some x)).pair (.pkt c) set.peer) ∧
        d = { s.dev.takeThread s.clk set.thread set.group set.level with freeN := d.freeN } ∧ x.set = set ∧ x.mode = 0 ∧
        x.dly = set.jbInit ∧ x.rxTick = s.clk.tick ∧ (set.txSsrc ≠ 0 → x.txSsrc = set.txSsrc)) ∧
    (∀ x, s.dev.pkt c = some x → x.destroying = none →
      ∀ n : PktSet, n.thread = x.set.thread → n.group = x.set.group → n.level = x.set.level → n.frame = x.set.frame →
        n.bad = false → s.dev.rxHopBad n.rxHop n.thread = false → s.dev.peerBad x.set.thread (.pkt c) n.peer = false →
        s.dev.peerGone n.peer = false → s.dev.peerEnds n.peer = false →
        Answers (.pktChannelModify o c n) o 0x0822 s .ok [] (s.dev.setPkt c (some { x with next := some n }))) ∧
    (∀ x, s.dev.pkt c = some x →
      (x.destroying = none →
        Waits (.pktChannelDestroy o c) o 0x0821 s .pktDestroy c
          (s.dev.setPkt c (some { x with destroying := some (s.clk.tick + x.set.frame) })) ∧
        (∀ n : PktSet, n.thread = x.set.thread → n.group = x.set.group → n.level = x.set.level → n.frame = x.set.frame →
          n.bad = false → s.dev.rxHopBad n.rxHop n.thread = false → n.peer = .none →
          Answers (.pktChannelModify o c n) o 0x0822 s .ok [] (s.dev.setPkt c (some { x with next := some n }))) ∧
        Answers (.pktChannelStatus o c) o 0x0823 s .ok (x.set.fields ++ [⟨1, x.mode⟩, ⟨1, b2n x.source.isSome⟩,
          ⟨4, x.source.getD 0⟩, ⟨4, x.received⟩,
          ⟨4, x.lost + (x.expected - x.srcN).toNat⟩, ⟨4, x.late⟩, ⟨4, x.early⟩,
          ⟨4, x.dup⟩, ⟨4, x.concealed⟩, ⟨2, x.dly⟩, ⟨4, x.jitter / 16⟩, ⟨4, x.rtt⟩] ++ x.voip.map (fun b => ⟨1, b⟩)) s.dev ∧
        (∀ mode, mode ≤ 2 → (mode = 2 → s.dev.t38Count c < 64) → Answers (.pktModeSet o c mode) o 0x0824 s .ok []
          (s.dev.setPkt c (some { x with nextMode := some (mode, 0, none) }))) ∧
        (∀ ev vol ticks, ev ≤ 16 → vol ≤ 63 → 8 ≤ ticks → ticks ≤ 65535 → x.set.evtPt ≠ 0 → x.evtOut = none →
          (x.mode = 0 → Answers (.pktEventSend o c ev vol ticks) o 0x0825 s .ok [] (s.dev.setPkt c (some { x with
            evtOut := some { ev := ev, vol := vol, ts := x.ts, start := none, total := some ticks } }))) ∧
          (x.mode ≠ 0 → Answers (.pktEventSend o c ev vol ticks) o 0x0825 s .ok [] s.dev))) ∧
      (∀ t, x.destroying = some t → t ≤ s.clk.tick → s.clk.tick % x.set.frame = 0 → ∃ d : Dev,
        Does (.pktChannelDestroyEnd c) s d ∧ d.pkt c = none ∧ d.waiting .pktDestroy c = false)) ∧
    (∀ (set : BridgeSet) sl, set.bad = false → c ≤ 511 → s.dev.bridge c = none → s.dev.chanFrame set.thread = none →
      s.dev.bridgeFrame set.thread = none → s.dev.rxHopBad set.inHop set.thread = false → (s.dev.thr set.thread).off = true →
      s.dev.freeAlarm = some sl → Store.wf ({} : Alarm) s.dev.htb.alarms = true → ClockOk s → ∃ d : Dev,
        Answers (.bridgeCreate o c set) o 0x0840 s .ok [] d ∧ d.bridge c = some { set := set } ∧
        (d.alarm sl).armed = true ∧ (d.alarm sl).period = set.frame) ∧
    (∀ (set : BridgeSet), set.bad = false → c ≤ 511 → s.dev.bridge c = none → s.dev.chanFrame set.thread = none →
      s.dev.bridgeFrame set.thread = some set.frame → s.dev.rxHopBad set.inHop set.thread = false →
      Answers (.bridgeCreate o c set) o 0x0840 s .ok [] (s.dev.setBridge c (some { set := set }))) ∧
    (∀ x, s.dev.bridge c = some x →
      (x.destroying = none → ∀ chan,
        (x.allLegs.any (fun l => l.is false chan) = true →
          Does (.bridgeLegRemove o c false chan) s ((s.dev.endPaging s.clk c chan).modBridge c (fun y => { y with
            ops := y.ops ++ [.remove false chan (.host o)] })) ∧
          (∀ role gain, role ≤ 2 → gainOk gain = true → Answers (.bridgeLegModify o c false chan role gain) o 0x0844 s .ok []
            (s.dev.setBridge c (some { x with ops := x.ops ++ [.modify false chan role gain] })))) ∧
        (∀ pkt, x.allLegs.any (fun l => l.is pkt chan) = false →
          Answers (.bridgeLegRemove o c pkt chan) o 0x0843 s .unknownObject [] s.dev) ∧
        (∀ (l : Leg) p, l.role ≤ 2 → gainOk l.gain = true → l.hop ≤ 1023 → s.dev.legChan l.pkt l.chan = some p → p.1 = x.set.frame →
          s.dev.rxHopBad l.hop p.2.1 = false → x.allLegs.length < 64 → s.dev.legBound x l p.2.2 = false → s.dev.legEnds l = false →
          Answers (.bridgeLegAdd o c l) o 0x0842 s .ok [] (s.dev.setBridge c (some { x with ops := x.ops ++ [.add l] }))) ∧
        Waits (.bridgeDestroy o c) o 0x0841 s .bridgeDestroy c (((x.legs.filter (fun l => !l.pkt)).foldl (fun d l =>
          d.endPaging s.clk c l.chan) s.dev).modBridge c (fun y => { y with destroying := some (s.clk.tick + 1) }))) ∧
      (∀ b fades voices, x.frameAt = some b → x.mixDue b s.clk.tick = true → x.voices b (Dev.drainIn s.clk x.set.inHop
          ((s.dev.hopper x.set.inHop).seq.length + (s.dev.hopper x.set.inHop).fill.length) s.dev []).1 = voices → ∃ d : Dev,
        Does (.bridgeMix c fades) s ((x.legs.filter (·.hears)).foldl (fun d l => d.putMix s.clk c b x l (mixFor (l.pkt, l.chan)
          (frameSamples x.set.rate x.set.frame) (fadedVoices x.talkers (x.chosen voices) voices fades))) d) ∧
        d.bridge c = some { x with
          frameAt := none, present := [], mixed := some b,
          late := x.late + ((x.legs.filter (·.talks)).filter (fun l => !x.present.contains (l.pkt, l.chan))).length,
          talkers := x.chosen voices }) ∧
      (x.destroying = none →
        (∀ (l : Leg) th, l.role ≤ 2 → gainOk l.gain = true → l.hop ≤ 1023 → s.dev.legChan l.pkt l.chan = some (x.set.frame, th, .none) →
          s.dev.rxHopBad l.hop th = false → x.allLegs.length < 64 → s.dev.legBound x l .none = false → s.dev.legEnds l = false →
          Answers (.bridgeLegAdd o c l) o 0x0842 s .ok [] (s.dev.setBridge c (some { x with ops := x.ops ++ [.add l] }))) ∧
        (∀ chan, x.allLegs.any (fun l => l.is true chan) = true →
          Does (.bridgeLegRemove o c true chan) s
            (s.dev.setBridge c (some { x with ops := x.ops ++ [.remove true chan (.host o)] })) ∧
          (∀ role gain, role ≤ 2 → gainOk gain = true → Answers (.bridgeLegModify o c true chan role gain) o 0x0844 s .ok []
            (s.dev.setBridge c (some { x with ops := x.ops ++ [.modify true chan role gain] })))) ∧
        (∃ res, Answers (.bridgeStatus o c) o 0x0845 s .ok res (s.dev.setBridge c (some { x with late := 0, lateMix := 0 })) ∧
          res.take 12 = [⟨2, x.set.thread⟩, ⟨1, x.set.group⟩, ⟨1, x.set.level⟩, ⟨1, x.set.frame⟩, ⟨2, x.set.rate⟩,
            ⟨1, b2n x.set.paging⟩, ⟨1, x.set.mixMax⟩, ⟨2, x.set.inHop⟩, ⟨1, b2n x.set.pageAdd⟩, ⟨2, x.set.pageRamp⟩,
            ⟨1, x.set.evtRing⟩, ⟨1, x.legs.length⟩] ∧
          res.drop (res.length - 2) = [⟨4, x.late⟩, ⟨4, x.lateMix⟩]) ∧
        (x.legs.all (fun l => l.pkt) = true → Waits (.bridgeDestroy o c) o 0x0841 s .bridgeDestroy c
          (s.dev.setBridge c (some { x with destroying := some (s.clk.tick + 1) })))) ∧
      (∀ t, x.destroying = some t → t ≤ s.clk.tick → s.clk.tick % x.set.frame = 0 → ∃ d : Dev,
        Does (.bridgeDestroyEnd c) s d ∧ d.bridge c = none ∧ d.waiting .bridgeDestroy c = false) ∧
      (∀ b fades, x.frameAt = some b → b + x.set.frame / 8 ≤ s.clk.tick → ∃ (d : Dev) (y : Bridge),
        Does (.bridgeMix c fades) s d ∧ d.bridge c = some y ∧ y.frameAt = none ∧ y.present = [] ∧ y.mixed = some b ∧
        y.talkers.length ≤ x.set.mixMax ∧ y.legs = x.legs ∧ y.set = x.set))

/-- A port counts a frame that it is disabled for, that fails PCS or FCS, is too short, too long, or not for its addresses, and
does nothing else with it. A frame that passes is a MAC control frame, or is classified where the receive buffer has room, and otherwise
dropped and counted. One with no flow entry is written into the next buffer of its port's miss ring and the entry is
written back; a hit with action DROP counts the hit and the drop. A PTP event message is timestamped, a management message counted, another discarded; during a control restart PTP frames are
dropped and counted. PAUSE pauses all eight queues,
PFC those of its classes, each from the next sub-tick for its quanta, 0 ending the pause; an expired pause is cleared. Where it
goes beyond the words of the rules it is the model's own reading (log entries 61, 62). -/
def Obligations.FramesAreCheckedAndReceived : Prop :=
  ∀ (s : State) (p : Nat), p ≤ 1 → ∀ x, s.dev.port p = x →
    (∀ bs pcs fcs age,
      (x.en = false → Does (.frameReceive p bs pcs fcs age) s (s.dev.bump1 .ethERxDisabledDrop p)) ∧
      (x.en = true → Does (.frameReceive p bs true fcs age) s (s.dev.bump1 .ethERxPcsError p) ∧
        Does (.frameReceive p bs false true age) s (s.dev.bump1 .ethERxFcsError p) ∧
        (bs.length < 60 → Does (.frameReceive p bs false false age) s (s.dev.bump1 .ethERxRunt p)) ∧
        (60 ≤ bs.length → x.maxFrame < bs.length + 4 →
          Does (.frameReceive p bs false false age) s (s.dev.bump1 .ethERxOversize p)) ∧
        (60 ≤ bs.length → bs.length + 4 ≤ x.maxFrame → s.dev.addrOk p (bs.take 6) = false →
          Does (.frameReceive p bs false false age) s (s.dev.bump1 .ethERxAddrDrop p)))) ∧
    (∀ bs age, x.en = true → 60 ≤ bs.length → bs.length + 4 ≤ x.maxFrame → s.dev.addrOk p (bs.take 6) = true →
      (beAt bs 12 2 = 0x8808 → Does (.frameReceive p bs false false age) s (s.dev.macControl s.clk p bs 14)) ∧
      (beAt bs 12 2 ≠ 0x8808 → 131072 < x.rxBytes + bs.length →
        Does (.frameReceive p bs false false age) s (s.dev.bump1 .ethERxBufferDrop p)) ∧
      (beAt bs 12 2 ≠ 0x8808 → x.rxBytes + bs.length ≤ 131072 →
        Does (.frameReceive p bs false false age) s (s.dev.frameIn s.clk p bs age))) ∧
    (∀ bs age, x.en = true → 60 ≤ bs.length → bs.length + 4 ≤ x.maxFrame → s.dev.addrOk p (bs.take 6) = true →
      beAt bs 12 2 ≠ 0x8808 → x.rxBytes + bs.length ≤ 131072 → s.dev.ptpOn p = false → s.dev.syncOn p = false →
      x.dropIp = false → x.dropL4 = false → ∀ f, parseFrame bs (s.dev.tpid p) = f →
      (∀ (b : Buf), (f.classified = false ∨ s.dev.flowLookup f = none) → Store.wf {} s.dev.hif.rings = true →
        s.dev.hif.paused = false → s.dev.hif.bme = true → s.dev.hif.d3hot = false → s.dev.ringIs x.missRing 4 = true →
        (s.dev.ring x.missRing).posted = [b] → b.good = true → bs.length ≤ b.len → ∃ d : Dev,
          Does (.frameReceive p bs false false age) s d ∧ Sent.hostWrite b.addr bs ∈ d.hif.sent ∧
          (d.ring x.missRing).c = (s.dev.ring x.missRing).c + 1 ∧ (d.ring x.missRing).posted = []) ∧
      (∀ h fl, f.classified = true → s.dev.flowLookup f = some (h, fl) → fl.action = 2 →
        Does (.frameReceive p bs false false age) s
          ((({ s.dev with freeN := s.dev.freeN + 1 }).setFlow h (some { fl with hits := fl.hits + 1 })).bump1 .ethEFlowDrop p))) ∧
    (x.en = false → ∀ typ age quanta enables times, Does (.ptpEventRx p typ age) s (s.dev.bump1 .ethERxDisabledDrop p) ∧
      Does (.pauseFrameRx p quanta) s (s.dev.bump1 .ethERxDisabledDrop p) ∧
      Does (.pfcFrameRx p enables times) s (s.dev.bump1 .ethERxDisabledDrop p)) ∧
    (∀ typ age, x.en = true → s.dev.ptpOn p = true → s.dev.hif.paused = true →
      Does (.ptpEventRx p typ age) s (s.dev.bump1 .ethEPtpRestartDrop p)) ∧
    (∀ typ age, x.en = true → s.dev.ptpOn p = true → s.dev.hif.paused = false →
      (4 ≤ typ % 16 → typ % 16 ≠ 13 → Does (.ptpEventRx p typ age) s s.dev) ∧
      (typ % 16 < 4 → ∀ ns, ptpNs s.clk (-(((20 * age : Nat) : Int) + 20 * x.rxComp)) = ns →
        Does (.ptpEventRx p typ age) s { s.dev with htb := if p = 0
          then { s.dev.htb with port0 := { s.dev.htb.port0 with rxSec := ns / 1000000000, rxNs := ns % 1000000000 } }
          else { s.dev.htb with port1 := { s.dev.htb.port1 with rxSec := ns / 1000000000, rxNs := ns % 1000000000 } } }) ∧
      (typ % 16 = 13 → Does (.ptpEventRx p typ age) s (s.dev.bump1 .htbEPtpMgmtDrop p))) ∧
    (∀ quanta enables times, x.en = true →
      (s.dev.takesPause p = false → Does (.pauseFrameRx p quanta) s (s.dev.bump1 .ethEMacCtrlDrop p)) ∧
      (x.pfcEn = false → Does (.pfcFrameRx p enables times) s (s.dev.bump1 .ethEMacCtrlDrop p))) ∧
    (Store.wf {} s.dev.eth.queues = true → Store.wf 0 s.dev.ctr = true → x.en = true →
      (∀ quanta, quanta < 65536 → x.pauseEn = true → x.pfcEn = false → ∃ d : Dev, Does (.pauseFrameRx p quanta) s d ∧
        d = { s.dev with eth := d.eth, ctr := d.ctr } ∧
        (∀ q, q < 8 → d.txq p q = { s.dev.txq p q with
          pauseTo := if quanta = 0 then 0 else clockAbs s.clk + 1 + pauseLen x.mode quanta } ∧
          d.txq (1 - p) q = s.dev.txq (1 - p) q) ∧
        d.count ⟨.ethEPauseQuanta, p, 0⟩ = s.dev.count ⟨.ethEPauseQuanta, p, 0⟩ + quanta) ∧
      (∀ enables times, x.pfcEn = true → ∃ d : Dev, Does (.pfcFrameRx p enables times) s d ∧
        d = { s.dev with eth := d.eth, ctr := d.ctr } ∧
        ∀ q, q < 8 → ∀ c t, s.dev.pfcClass p q = c → times.getD c 0 % 65536 = t → d.txq p q =
          if bitOf enables c then { s.dev.txq p q with
            pauseTo := if t = 0 then 0 else clockAbs s.clk + 1 + pauseLen x.mode t } else s.dev.txq p q)) ∧
    (∀ q, q < 8 → (s.dev.txq p q).pauseTo ≤ clockAbs s.clk →
      Does (.pauseExpiry p q) s (s.dev.setTxq p q { s.dev.txq p q with pauseTo := 0 }))

/-- An idle port that is up takes the packet of the first queue that may go, and none where none may, and sends a RAW frame padded to 60
bytes, busy until it and its gap have left. Loss and return of the link are written, counted and reported, and a port outside a pair
discards what its queues hold; of a protected pair the other port becomes
active after the hold-off, a frame in transmission being lost, E0 again after wait-to-restore, or by command. PORT_ENABLE opens a port at the next tick; disabling it
waits until it is done. QUEUE_CEILING_SET waits for the tick; PORT_STATUS reads; a port above 1 is ST_UNKNOWN_OBJECT. Where it goes beyond the words of the rules it
is the model's own reading (log entries 23, 59). -/
def Obligations.PortsSendAndSwitch : Prop :=
  ∀ (s : State) (o : Origin) (p : Nat), HostOk o s → p ≤ 1 → Store.wf {} s.dev.eth.ports = true → ∀ x, s.dev.port p = x →
    (s.dev.eth.switchTo = none → x.en = true → x.link = true → x.busyTo ≤ clockAbs s.clk * 78125 →
      ((s.dev.readsOf p).find? (fun q => s.dev.txEligible s.clk p q) = none → Does (.txSelect p) s s.dev) ∧
      (∀ y pk ws d1, (s.dev.readsOf p).find? (fun q => s.dev.txEligible s.clk p q) = some y →
        s.dev.hopTake s.clk (s.dev.txq y.1 y.2).hop = (some (pk, ws), d1) →
        Does (.txSelect p) s (d1.txPacket s.clk p y ws))) ∧
    (∀ y pk (w0 : Word) ws content (d1 : Dev), s.dev.eth.switchTo = none → x.en = true → x.link = true →
      x.busyTo ≤ clockAbs s.clk * 78125 → (s.dev.readsOf p).find? (fun q => s.dev.txEligible s.clk p q) = some y →
      s.dev.hopTake s.clk (s.dev.txq y.1 y.2).hop = (some (pk, w0 :: 0 :: ws), d1) →
      w0.toNat = 2 ^ 13 + content.length * 2 ^ 16 → content.length < 2 ^ 14 → ws.length = (content.length + 3) / 4 →
      content ≠ [] → (wordsBytes ws).take content.length = content → delayReqAt content (s.dev.tpid p) = none → content.length + 4 ≤ x.maxFrame →
      64 ≤ x.maxFrame → ∃ d : Dev, Does (.txSelect p) s d ∧ d.hif.sent = .frame p (padFrame content) :: d1.hif.sent ∧
        d.port p = { x with
          busyQ := some y.2, busySec := false
          busyTo := clockAbs s.clk * 78125 + txLat x.mode ((padFrame content).length + 4) +
            ((padFrame content).length + 16) * byteTime x.mode }) ∧
    (x.link = true → x.fault = true → s.clk.sub = 0 → ∃ d : Dev,
      (s.dev.eth.protect = true → Does (.linkDown p) s ((d.bump1 .ethELinkDown p).event s.clk 0x0980 p 0)) ∧
      (s.dev.eth.protect = false →
        Does (.linkDown p) s (((d.bump1 .ethELinkDown p).event s.clk 0x0980 p 0).drainPort s.clk p .ethEQLinkDownDrop)) ∧
      d = { s.dev with eth := d.eth, htb := d.htb, ctr := d.ctr } ∧ d.port p = { x with link := false, good := 0 } ∧
      d.port (1 - p) = s.dev.port (1 - p)) ∧
    (x.link = false → 8 ≤ x.good → s.clk.sub = 0 → ∃ d : Dev,
      Does (.linkUp p) s (d.event s.clk 0x0980 p 1) ∧ d = { s.dev with eth := d.eth, htb := d.htb, ctr := d.ctr } ∧
      d.port p = { x with link := true, good := 0 } ∧ d.port (1 - p) = s.dev.port (1 - p)) ∧
    (∀ e, s.dev.eth = e → e.protect = true →
      (s.clk.sub = 0 → (s.dev.port e.active).link = false → e.holdoff ≤ e.downFor → (s.dev.port (1 - e.active)).link = true →
        (∀ q, clockAbs s.clk * 78125 < (s.dev.port e.active).busyTo → (s.dev.port e.active).busyQ = some q →
          Does .protectSwitch s (((s.dev.bump ⟨.ethEQSwitchLost, e.active, q⟩).setPort e.active
            { s.dev.port e.active with busyTo := 0 }).makeActive s.clk (1 - e.active) 0)) ∧
        ((s.dev.port e.active).busyTo ≤ clockAbs s.clk * 78125 → Does .protectSwitch s
          ((({ s.dev with eth := { e with active := 1 - e.active, switchTo := none, downFor := 0, upFor := 0 } }).bump0
            .ethProtectSwitch).event s.clk 0x0981 (1 - e.active) 0))) ∧
      (e.revert = true → e.active = 1 → (s.dev.port 0).link = true → e.wtr * 8000 ≤ e.upFor →
        clockAbs s.clk * 78125 < (s.dev.port 1).busyTo →
        Does .protectRevert s { s.dev with eth := { e with switchTo := some (0, 1) } }) ∧
      (e.revert = true → e.active = 1 → (s.dev.port 0).link = true → e.wtr * 8000 ≤ e.upFor →
        (s.dev.port 1).busyTo ≤ clockAbs s.clk * 78125 → Does .protectRevert s
          ((({ s.dev with eth := { e with active := 0, switchTo := none, downFor := 0, upFor := 0 } }).bump0
            .ethProtectSwitch).event s.clk 0x0981 0 1)) ∧
      (x.link = true → p ≠ e.active → (s.dev.port e.active).busyTo ≤ clockAbs s.clk * 78125 →
        Answers (.portProtectSwitch o p) o 0x0903 s .ok []
          ((({ s.dev with eth := { e with active := p, switchTo := none, downFor := 0, upFor := 0 } }).bump0
            .ethProtectSwitch).event s.clk 0x0981 p 2)) ∧
      (x.link = true → p ≠ e.active → clockAbs s.clk * 78125 < (s.dev.port e.active).busyTo →
        Answers (.portProtectSwitch o p) o 0x0903 s .ok [] { s.dev with eth := { e with switchTo := some (p, 2) } })) ∧
    (x.lockOff = false → Answers (.portEnable o p true) o 0x0902 s .ok [] (s.dev.setPort p { x with enNext := true })) ∧
    (x.lockOff = true → Answers (.portEnable o p true) o 0x0902 s .refusedBusy [] s.dev) ∧
    (∃ d : Dev, Waits (.portEnable o p false) o 0x0902 s .portEnable p d ∧
      d.port p = { x with en := false, enNext := false, disabling := true }) ∧
    (x.disabling = true → x.rxBytes = 0 → x.busyTo ≤ clockAbs s.clk * 78125 → Does (.portDisableDone p) s
      ((s.dev.setPort p { x with disabling := false }).finish s.clk .portEnable p .ok)) ∧
    (x.disabling = true → x.rxBytes = 0 → x.busyTo ≤ clockAbs s.clk * 78125 →
      s.dev.waits = [{ kind := .portEnable, key := p, src := .host o, opc := 0x0902 }] →
      Does (.portDisableDone p) s
        (({ s.dev.setPort p { x with disabling := false } with waits := [] }).complete s.clk o 0x0902 .ok [])) ∧
    (∀ q rate burst, q ≤ 7 → rate ≤ 262143 → 1 ≤ burst → burst ≤ 4095 → Answers (.queueCeilingSet o p q rate burst) o 0x0904 s .ok []
      (s.dev.setTxq p q { s.dev.txq p q with next := some (rate, burst * 1024) })) ∧
    (∃ qs : List RField, qs.length = 24 ∧ (∀ q, q < 8 →
        qs[3 * q + 1]? = some ⟨4, (s.dev.txq p q).pauseTo - clockAbs s.clk⟩ ∧
        qs[3 * q + 2]? = some ⟨4, toBits 32 (s.dev.txq p q).credit⟩) ∧
      Answers (.portStatus o p) o 0x0901 s .ok ([⟨1, x.mode⟩, ⟨1, b2n x.link⟩,
        ⟨1, b2n (!s.dev.eth.protect || s.dev.eth.active == p)⟩] ++ qs ++ [⟨4, x.rxBytes⟩]) s.dev) ∧
    (∀ m en, 1 < m → Answers (.portStatus o m) o 0x0901 s .unknownObject [] s.dev ∧
      Answers (.portEnable o m en) o 0x0902 s .unknownObject [] s.dev ∧
      Answers (.portProtectSwitch o m) o 0x0903 s .unknownObject [] s.dev)

/-- DEST_WRITE, DEST_CLEAR and DEST_READ write, clear and read an entry of the destination table. FLOW_ADD puts an entry whose key is
new into a slot, that of its first way where it is free, under the lowest free handle and returns it; with no slot for it the answer
is ST_NO_RESOURCE, and else a key that is there answers ST_REFUSED_BUSY.
FLOW_MODIFY replaces all but the key and keeps the hit count, FLOW_READ and FLOW_LOOKUP find it, FLOW_TABLE_STATUS counts the ways,
and FLOW_DELETE removes it and completes once no frame that found it is in flight. Where it goes beyond the words of the rules
it is the model's own reading (log entries 23, 60). -/
def Obligations.FlowTableAndDestinations : Prop :=
  ∀ (s : State) (o : Origin) (h : Nat), HostOk o s →
    (1 ≤ h → h ≤ 8191 →
      (∀ entry, destOk entry = true → s.dev.eth.protect = false ∨ entry.getD 0 0 % 2 = 0 → Answers (.destWrite o h entry) o 0x0905 s .ok []
        { s.dev with eth := { s.dev.eth with dests := s.dev.eth.dests.put [] h entry } }) ∧
      Answers (.destClear o h) o 0x0906 s .ok [] { s.dev with eth := { s.dev.eth with dests := s.dev.eth.dests.put [] h [] } } ∧
      (∀ e, s.dev.eth.dests.get [] h = e → e ≠ [] →
        Answers (.destRead o h) o 0x0907 s .ok (e.map (fun b => ⟨1, b⟩)) s.dev) ∧
      (s.dev.eth.dests.get [] h = [] → Answers (.destRead o h) o 0x0907 s .unknownObject [] s.dev)) ∧
    (∀ entry key, slice entry 0 40 = key → entry.length = 64 → keyOk key = true → flowTailOk (slice entry 40 16) = true →
      (∀ b ∈ slice entry 56 8, b = 0) →
      (s.dev.flowFind key = none → s.dev.slotUser 0 (s.dev.slotOf 0 key) = none →
        least 32768 (fun n => (s.dev.flow n).isNone && !s.dev.waiting .flowDelete n) = some h →
        Answers (.flowAdd o entry) o 0x0908 s .ok [⟨4, h⟩] { s.dev with eth := { s.dev.eth with
          flows := s.dev.eth.flows.put none h (some { flowOf entry with way := 0, slot := s.dev.slotOf 0 key })
          chains := (0 :: s.dev.eth.chains).take 1024 } }) ∧
      (∀ way n n' e, s.dev.flowPlace key = some (way, n, e) →
        least 32768 (fun i => (s.dev.flow i).isNone && !s.dev.waiting .flowDelete i) = some n' →
        (s.dev.flowFind key = none → ∃ d : Dev, d = e.setFlow n' (some { flowOf entry with way := way, slot := s.dev.slotOf way key }) ∧
          Answers (.flowAdd o entry) o 0x0908 s .ok [⟨4, n'⟩]
            { d with eth := { d.eth with chains := (n :: d.eth.chains).take 1024 } }) ∧
        (∀ f, s.dev.flowFind key = some f → Answers (.flowAdd o entry) o 0x0908 s .refusedBusy [] s.dev)) ∧
      (s.dev.flowPlace key = none → Answers (.flowAdd o entry) o 0x0908 s .noResource [] s.dev)) ∧
    (∀ f, s.dev.flow h = some f →
      Waits (.flowDelete o h) o 0x0909 s .flowDelete h (s.dev.setFlow h none) ∧
      Answers (.flowRead o h) o 0x090B s .ok f.fields s.dev ∧
      (∀ tail, tail.length = 16 → flowTailOk tail = true → Answers (.flowModify o h tail) o 0x090A s .ok []
        (s.dev.setFlow h (some { flowOf (f.key ++ tail) with hits := f.hits, way := f.way, slot := f.slot })))) ∧
    (∀ key f, keyOk key = true → s.dev.flowFind key = some (h, f) →
      Answers (.flowLookup o key) o 0x090C s .ok [⟨4, h⟩] s.dev) ∧
    (∀ key, keyOk key = true → s.dev.flowFind key = none →
      Answers (.flowLookup o key) o 0x090C s .unknownObject [] s.dev) ∧
    (∃ n0 n1 n2 n3, Answers (.flowTableStatus o) o 0x090D s .ok
      [⟨4, n0⟩, ⟨4, n1⟩, ⟨4, n2⟩, ⟨4, n3⟩, ⟨4, s.dev.eth.chains.foldl max 0⟩] s.dev ∧
      ((∀ e ∈ s.dev.flowList, e.2.way < 4) → n0 + n1 + n2 + n3 = s.dev.flowList.length)) ∧
    ((∀ f ∈ s.dev.eth.flight, f.handle ≠ h) → Does (.flowDeleteDone h) s (s.dev.finish s.clk .flowDelete h .ok)) ∧
    ((∀ f ∈ s.dev.eth.flight, f.handle ≠ h) →
      s.dev.waits = [{ kind := .flowDelete, key := h, src := .host o, opc := 0x0909 }] →
      Does (.flowDeleteDone h) s (({ s.dev with waits := [] }).complete s.clk o 0x0909 .ok [])) ∧
    (∀ f ∈ s.dev.eth.flight, f.handle = h → Does (.flowDeleteDone h) s s.dev)

/-- The Kiln reads out its state, identity, certificates, import key and attestation report into buffers the host may write; gives a
challenge and lets it expire; applies an owner statement that passes its checks, adopting, keying, recovering or burning as its type
says, aborts a record write that PFW_N cuts, and counts one that does not pass; advances ULITHEN_SVN by burned steps and revokes the
first root; opens and locks debug access; renews its certificate; holds requests while its entropy source retests, serves
them when it passes and raises an integrity alarm when it does not; and on tamper zeroises contexts, sessions and exports, locks debug access and pulls TAMPER_N low for 80,000 ticks.
Where it goes beyond the words of the rules it is the model's own reading (log entries 23, 65, 66, 68). -/
def Obligations.KilnIdentityOwnerAndAlarms : Prop :=
  ∀ (s : State) (o : Origin), HostOk o s → ∀ x, s.dev.kln = x →
    Answers (.kilnStatus o) o 0x0A01 s .ok [⟨4, x.stateWord⟩, ⟨4, x.loaded⟩, ⟨4, x.open_⟩] s.dev ∧
    (∀ addr len, s.dev.winOk true addr len = true →
      (∀ chain, Answers (.identityRead o addr len chain true) o 0x0A02 s .ok [⟨4, chain.length⟩]
          (s.dev.hostWr addr (chain.take len)) ∧
        Answers (.identityRead o addr len chain false) o 0x0A02 s .checkFail [] s.dev) ∧
      (∀ nonce, ∃ sig : List Nat, sig.length = 3405 ∧ (∀ b ∈ sig, b < 256) ∧
        Answers (.attest o nonce addr len) o 0x0A05 s .ok [⟨4, 4136⟩] (({ s.dev with freeN := s.dev.freeN + 3405 }).hostWr
          addr ((s.dev.reportBytes s.clk nonce ++ sig ++ [0, 0, 0]).take len))) ∧
      (x.epoch ≠ 0 → ∃ bs : List Nat, bs.length = 4625 ∧
        bs.take 1220 = bytesLE 1216 (Config.importKey x.epoch) ++ bytesLE 4 x.epoch ∧
        Answers (.importKeyInfo o addr len) o 0x0A0C s .ok [⟨4, 4625⟩] (({ s.dev with freeN := s.dev.freeN + 3405 }).hostWr
          addr (bs.take len)))) ∧
    (x.entropyOk = true → (∃ v, v < 2 ^ 256 ∧ Answers (.challenge o) o 0x0A03 s .ok [⟨32, v⟩] { s.dev with
        kln := { x with chal := some v, chalLeft := 2400000 }, freeN := s.dev.freeN + 1 }) ∧
      (∃ c : KCert, Answers (.certRenew o) o 0x0A0E s .ok [] { s.dev with
          kln := if x.curCert = 0 then { x with cert1 := some c, curCert := 1 } else { x with cert0 := some c, curCert := 0 }
          freeN := s.dev.freeN + 2 } ∧
        (s.dev.htb.left = false → s.dev.htb.todSet = false → c.notBefore = none ∧ c.notAfter = none) ∧
        (s.dev.htb.todSet = true → ∃ t : Int, t = (s.clk.tick / 8000 : Nat) - s.dev.htb.utcOff ∧
          c.notBefore = some (t - 86400) ∧ c.notAfter = some (t + 31536000))) ∧
      Does .entropyTestFail s (({ s.dev with kln := { x with entropyOk := false, fails := x.fails + 1 } }).bump0
        .klnEntropyFail)) ∧
    (x.entropyOk = false → Does (.challenge o) s { s.dev with kln := { x with held := x.held ++ [.challenge o] } } ∧
      Does (.certRenew o) s { s.dev with kln := { x with held := x.held ++ [.certRenew o] } } ∧
      (x.fails ≠ 0 → ∀ d, { s.dev with kln := { x with entropyOk := true, fails := 0 } } = d →
        Does (.entropyRetestDone true) s (d.serveHeld s.clk) ∧ (x.held = [] → d.serveHeld s.clk = d)) ∧
      (x.fails ≠ 0 →
        Does (.entropyRetestDone false) s (({ s.dev with kln := { x with fails := 0 } }).kilnAlarm s.clk))) ∧
    (x.chal.isSome = true → x.chalLeft = 0 → Does .challengeExpiry s { s.dev with kln := { x with chal := none } }) ∧
    (∀ addr len st bad1 bad2 pfw, s.dev.winOk false addr len = true →
      (s.dev.stmtCheck st false ≠ .ok → Answers (.ownerStatement o addr len st bad1 bad2 pfw) o 0x0A04 s
        (s.dev.stmtCheck st false) [] (s.dev.bump0 .klnStatementReject)) ∧
      (∀ res d, s.dev.stmtCheck st false = .ok → s.dev.stmtApply s.clk st bad1 bad2 pfw = (.now .ok res, d) →
        Answers (.ownerStatement o addr len st bad1 bad2 pfw) o 0x0A04 s .ok res d) ∧
      (s.dev.stmtCheck st false = .ok → st.typ = 6 → ∃ d : Dev,
        Answers (.ownerStatement o addr len st bad1 bad2 pfw) o 0x0A04 s .ok [] d ∧ d.kln.epoch = x.epoch ∧
        d.kln.chal = none ∧ d.kln.recLost = false ∧ d.kln.record = some { newRecord {} st with epoch := x.epoch }) ∧
      (s.dev.stmtCheck st false = .ok → (st.typ < 4 → s.dev.sys.pfwN = false ∨ pfw = true →
        Answers (.ownerStatement o addr len st bad1 bad2 pfw) o 0x0A04 s .aborted [] (s.dev.bump0 .klnRecordAbandon)))) ∧
    (∀ addr len st bad1 bad2, s.dev.winOk false addr len = true → s.dev.sys.pfwN = true → bad1 ≤ 1 →
      (s.dev.stmtCheck st false = .ok → st.typ < 2 → bad2 ≤ 1 → ∃ d : Dev,
        Answers (.ownerStatement o addr len st bad1 bad2 false) o 0x0A04 s .ok [] d ∧ d.kln.epoch = x.epoch + 1 ∧
        d.kln.chal = none ∧ d.kln.roots = x.roots ++ [st.root]) ∧
      (s.dev.stmtCheck st false = .ok → st.typ = 4 → Answers (.ownerStatement o addr len st bad1 bad2 false) o 0x0A04 s .ok []
        (({ s.dev.bump0 .klnOtpBurn with kln := { x with chal := none, hold := x.hold + 1 } }))) ∧
      (s.dev.stmtCheck st false = .ok → st.typ = 2 ∨ st.typ = 3 → ∃ d : Dev,
        Answers (.ownerStatement o addr len st bad1 bad2 false) o 0x0A04 s .ok [] d ∧ d.kln.epoch = x.epoch + 1 ∧
        d.kln.chal = none ∧ d.kln.record = some { newRecord (x.record.getD {}) st with epoch := x.epoch + 1 }) ∧
      (s.dev.stmtCheck st true = .ok → Answers (.debugUnlock o addr len st) o 0x0A15 s .ok []
        ((({ s.dev with kln := { x with chal := none, scope := st.scope, debugLeft := st.ticks } }).bump0
          .klnDebugUnlock).klnEvt s.clk 0x0A85 1 st.scope))) ∧
    (x.scope = 0 → Answers (.debugLock o) o 0x0A16 s .ok [] s.dev) ∧
    (x.scope ≠ 0 → ∀ d, (({ s.dev with kln := { x with scope := 0, debugLeft := 0 } }).klnEvt s.clk 0x0A85 0 0) = d →
      Answers (.debugLock o) o 0x0A16 s .ok [] d ∧ (x.debugLeft = 0 → Does .debugTicksExpiry s d)) ∧
    Answers (.certInfo o) o 0x0A0D s .ok (⟨1, x.curCert⟩ :: KCert.fields x.cert0 ++ KCert.fields x.cert1) s.dev ∧
    (∀ target bads badR d, (∀ i ∈ x.ulithen, target ≤ i.svn) → target ≤ 64 → s.dev.burnSvn s.clk target bads 64 = (true, d) →
      Answers (.rollbackAdvance o target false bads badR) o 0x0A14 s .ok [] d ∧ (target ≤ x.svn → d = s.dev)) ∧
    (∀ bads badR, badR ≤ 1 → x.root0Rev = false → (∀ i ∈ x.ulithen, i.signer = 1 ∧ i.revoke = true) →
      Answers (.rollbackAdvance o 0 true bads badR) o 0x0A14 s .ok []
        { s.dev.bump0 .klnOtpBurn with kln := { x with root0Rev := true } }) ∧
    (∀ bads badR, x.svn < 64 → bads.headD 0 ≤ 1 → (∀ i ∈ x.ulithen, x.svn < i.svn) →
      Answers (.rollbackAdvance o (x.svn + 1) false bads badR) o 0x0A14 s .ok []
        { s.dev.bump0 .klnOtpBurn with kln := { x with svn := x.svn + 1 } }) ∧
    Does .kilnIntegrityFault s (s.dev.kilnAlarm s.clk) ∧
    (∀ y, s.dev.sys = y → y.inReset = none → y.ash = .empty → y.warmDue = none → y.dumpId < 65535 → y.log.length < 64 →
      ∃ d : Dev, Does .kilnIntegrityFault s d ∧ d = { s.dev with ctr := d.ctr, sys := { y with
        fatal := true, ash := .capturing, dumpId := y.dumpId + 1, dumpCls := 4, rawLen := 0, envLen := 0, complete := true,
        noKey := false, offer := none, env := [], warmDue := some 3
        log := y.log ++ [{ stamp := clockStamp s.clk, cls := 4, warm := true, dumpId := y.dumpId + 1, pc0 := 0, pc1 := 0 }] } }) ∧
    (∀ sensor bad, sensor ≤ 3 → bad ≤ 1 → Store.wf {} x.ctxs = true → Store.wf none x.sess = true → ∃ d : Dev,
      Does (.tamperTrip sensor bad) s d ∧ d.kln.tampers = x.tampers + 1 ∧ d.kln.last = sensor ∧ d.kln.scope = 0 ∧
      d.kln.exps = [] ∧ d.sys.tamperLow = 80001 ∧ (∀ i, d.sess i = none) ∧ (∀ i, (s.dev.ctx i).used = true →
        d.ctx i = { used := false, made := true, gen := nextGen (s.dev.ctx i).gen })) ∧
    (s.dev.sys.tamperLow = 1 → Does .tamperNPulseEnd s { s.dev with sys := { s.dev.sys with tamperLow := 0 } })

/-- CTX_ALLOC takes the lowest free context with its next generation; CTX_FREE frees it; links, receive resets and imports change one
context; DTLS_OPEN opens the lowest free session, as a client with its first flight, and waits while the entropy source retests; a
datagram acts on its session and hands out what answers it, one that fails is counted, DTLS_POLL hands out what waits, each with
ST_PARTIAL where it does not fit; DTLS_CLOSE ends the session, a flight is repeated at double the interval, six times, and a session
ends at its timeout or after lingering. A tile
job of KILN_JOB_CONFIG's Hopper returns random bytes, or opens, writes or closes an export in the tile DRAM window. Where it
goes beyond the words of the rules it is the model's own reading (log entries 23, 65, 67, 68). -/
def Obligations.KilnContextsSessionsAndJobs : Prop :=
  ∀ (s : State) (o : Origin) (h : Nat), HostOk o s → Store.wf {} s.dev.kln.ctxs = true → Store.wf none s.dev.kln.sess = true →
    Store.wf none s.dev.kln.exps = true → ∀ c, s.dev.ctx (hIndex h) = c →
    (∀ i, s.dev.kln.isHeld = false → least 16384 (fun n => !(s.dev.ctx n).used) = some i →
      ∀ g, (if (s.dev.ctx i).made then nextGen (s.dev.ctx i).gen else 1) = g →
      Answers (.ctxAlloc o) o 0x0A06 s .ok [⟨4, handleOf 1 g i⟩] (s.dev.setCtx i { used := true, made := true, gen := g })) ∧
    (s.dev.hCurrent h = true →
      (∃ d : Dev, Answers (.ctxFree o h) o 0x0A07 s .ok [] d ∧
        d.ctx (hIndex h) = { used := false, made := c.made, gen := c.gen } ∧
        ∀ j x, s.dev.sess j = some x → hIndex x.target = hIndex h → d.sess j = none) ∧
      (∀ nx, hTx h = false → hRtcp h = false → c.rx.isSome = true → s.dev.hCurrent nx = true → (s.dev.hRxOf nx).isSome = true →
        nx ≠ 0 → hIndex nx ≠ hIndex h → hRtcp nx = false → (s.dev.ctx (hIndex nx)).link.next = 0 →
        Answers (.ctxLink o h nx) o 0x0A08 s .ok [] (s.dev.setCtx (hIndex h) { c with link := { next := nx } })) ∧
      (∀ nx, hTx h = false → c.rx.isSome = true → (nx = 0 ∨ (s.dev.hRxOf nx).isSome = true ∧ hIndex nx ≠ hIndex h ∧
          hRtcp nx = hRtcp h ∧ (s.dev.linkOf nx).next = 0) →
        Answers (.ctxLink o h nx) o 0x0A08 s .ok [] (s.dev.setCtx (hIndex h)
          (if hRtcp h then { c with linkC := { next := nx } } else { c with link := { next := nx } }))) ∧
      (∀ x, hTx h = false → c.rx = some x → Answers (.ctxResetRx o h) o 0x0A09 s .ok [] (s.dev.setCtx (hIndex h)
        { c with rx := some { x with roc := 0, latched := none, win := {}, winC := {} } })) ∧
      (∀ tx rx, c.tx = some tx → c.rx = some rx → Answers (.ctxStatus o h) o 0x0A0A s .ok
        [⟨1, rx.suite⟩, ⟨1, tx.suite⟩, ⟨1, 3⟩, ⟨1, 0⟩, ⟨4, if rx.ssrc = 0 then rx.latched.getD 0 else rx.ssrc⟩, ⟨4, rx.roc⟩,
         ⟨4, tx.roc⟩, ⟨8, rx.win.hi.getD 0⟩, ⟨8, tx.roc * 65536 + tx.last.getD 0⟩, ⟨4, c.link.next⟩, ⟨4, c.linkC.next⟩,
         ⟨4, c.link.hits⟩, ⟨4, c.linkC.hits⟩] s.dev) ∧
      (∀ tx rx, c.tx.getD { suite := 0, key := 0 } = tx → c.rx.getD { suite := 0, key := 0 } = rx →
        Answers (.ctxStatus o h) o 0x0A0A s .ok
          [⟨1, rx.suite⟩, ⟨1, tx.suite⟩, ⟨1, b2n c.rx.isSome + 2 * b2n c.tx.isSome⟩, ⟨1, 0⟩,
           ⟨4, if rx.ssrc = 0 then rx.latched.getD 0 else rx.ssrc⟩, ⟨4, rx.roc⟩, ⟨4, tx.roc⟩, ⟨8, rx.win.hi.getD 0⟩,
           ⟨8, tx.roc * 65536 + tx.last.getD 0⟩, ⟨4, c.link.next⟩, ⟨4, c.linkC.next⟩, ⟨4, c.link.hits⟩, ⟨4, c.linkC.hits⟩] s.dev) ∧
      (∀ addr len (x : Sealed), s.dev.winOk false addr len = true → x.format = true → 1 ≤ x.suite → x.suite ≤ 4 → x.target = h →
        (s.dev.kln.record.bind (·.imp)).isSome = true → s.dev.kln.recLost = false → x.devOk = true → s.dev.kln.isHeld = false →
        x.epoch = s.dev.kln.epoch → s.clk.tick ≤ x.notAfter → x.sigOk = true → x.tagOk = true →
        (x.dir = 0 → c.rx = none → Answers (.sealedImport o addr len x) o 0x0A0B s .ok [] (s.dev.setCtx (hIndex h)
          { c with rx := some { suite := x.suite, key := x.key, roc := x.roc, ssrc := x.ssrc } })) ∧
        (x.dir = 1 → c.tx = none → Answers (.sealedImport o addr len x) o 0x0A0B s .ok [] (s.dev.setCtx (hIndex h)
          { c with tx := some { suite := x.suite, key := x.key, roc := x.roc } }))) ∧
      (∀ v p fa fp fl i, s.dev.kln.entropyOk = true → s.dev.kln.isHeld = false → v ≤ 3 → p ≤ 15 → fa ≤ 1 → c.tx = none →
        c.rx = none → s.dev.kln.open_ < 512 → least 512 (fun n => (s.dev.sess n).isNone) = some i →
        ∀ g, nextGen (s.dev.kln.sessGen.get 0 i) = g →
        Answers (.dtlsOpen o h 1 v p fa fp fl) o 0x0A0F s .ok [⟨4, handleOf 2 g i⟩]
          (({ s.dev with kln := { s.dev.kln with sessGen := s.dev.kln.sessGen.put 0 i g } }).setSess i (some
            { gen := g, target := h, role := 1, versions := v, profiles := p, fpAlg := fa, peerFp := fp,
              cert := s.dev.kln.curCert })) ∧
        Answers (.dtlsOpen o h 0 v p fa fp fl) o 0x0A0F s .ok [⟨4, handleOf 2 g i⟩]
          ((({ s.dev with kln := { s.dev.kln with sessGen := s.dev.kln.sessGen.put 0 i g } }).setSess i (some
            (({ gen := g, target := h, role := 0, versions := v, profiles := p, fpAlg := fa, peerFp := fp,
                cert := s.dev.kln.curCert } : KSess).sendFlight fl))).klnEvt s.clk 0x0A82 0 (handleOf 2 g i)))) ∧
    (∀ t r v p fa fp fl, s.dev.kln.entropyOk = false → Does (.dtlsOpen o t r v p fa fp fl) s
      { s.dev with kln := { s.dev.kln with held := s.dev.kln.held ++ [.dtlsOpen o t r v p fa fp fl] } }) ∧
    (∀ j x, s.dev.sessOf h = some (j, x) →
      (∀ addr len oa ol f, s.dev.winOk false addr len = true → s.dev.winOk true oa ol = true → 1500 < len →
        Answers (.dtlsFeed o h addr len oa ol f) o 0x0A10 s .ok [⟨2, 0⟩, ⟨2, 0⟩, ⟨4, 0⟩] (s.dev.bump0 .klnDtlsBadRecord)) ∧
      (∀ addr len oa ol, s.dev.winOk false addr len = true → s.dev.winOk true oa ol = true → len ≤ 1500 → x.out = [] →
        Answers (.dtlsFeed o h addr len oa ol .quiet) o 0x0A10 s .ok [⟨2, 0⟩, ⟨2, 0⟩, ⟨4, 0⟩]
          (s.dev.setSess j (some { x with out := [] }))) ∧
      (∀ addr len oa ol f, s.dev.winOk false addr len = true → s.dev.winOk true oa ol = true → len ≤ 1500 → f ≠ .bad →
        ∀ out d w, s.dev.dtlsTake s.clk j x f = (out, d) → d.outWrite out oa ol = w →
        Answers (.dtlsFeed o h addr len oa ol f) o 0x0A10 s w.1 w.2.1 (w.2.2.2.keepOut j w.2.2.1)) ∧
      (∀ oa ol, s.dev.winOk true oa ol = true → ∀ w, s.dev.outWrite x.out oa ol = w →
        Answers (.dtlsPoll o h oa ol) o 0x0A11 s w.1 w.2.1 (w.2.2.2.keepOut j w.2.2.1)) ∧
      (∀ oa ol notify, s.dev.winOk true oa ol = true → ∀ w, s.dev.outWrite [notify] oa ol = w →
        Answers (.dtlsClose o h oa ol notify) o 0x0A12 s .ok w.2.1 (w.2.2.2.endSess s.clk j 6)) ∧
      (∀ oa ol g, s.dev.winOk true oa ol = true → x.out = [g] → g.length + 2 ≤ ol →
        Answers (.dtlsPoll o h oa ol) o 0x0A11 s .ok [⟨2, 1⟩, ⟨2, 0⟩, ⟨4, g.length + 2⟩]
          ((s.dev.hostWr oa (bytesLE 2 g.length ++ g)).setSess j (some { x with out := [] }))) ∧
      (∀ oa ol notify, s.dev.winOk true oa ol = true → notify.length + 2 ≤ ol → ∃ d : Dev,
        Answers (.dtlsClose o h oa ol notify) o 0x0A12 s .ok [⟨2, 1⟩, ⟨2, 0⟩, ⟨4, notify.length + 2⟩] d ∧ d.sess j = none)) ∧
    (∀ j x, s.dev.sess j = some x →
      (x.retx = some 0 → x.tries < 6 → Does (.dtlsRetransmitDue j) s ((s.dev.setSess j (some { x with
        out := x.out ++ x.flight, tries := x.tries + 1, interval := min 480000 (2 * x.interval),
        retx := some (min 480000 (2 * x.interval)) })).klnEvt s.clk 0x0A82 0 (handleOf 2 x.gen j))) ∧
      (x.retx = some 0 → 6 ≤ x.tries → Does (.dtlsRetransmitDue j) s (s.dev.endSess s.clk j 4)) ∧
      (x.linger = none → 1440000 ≤ x.age → Does (.dtlsSessionTimeout j) s
        ((s.dev.setSess j none).klnEvt s.clk 0x0A81 4 (handleOf 2 x.gen j))) ∧
      (x.linger = some 0 → Does (.dtlsLingerEnd j) s (s.dev.setSess j none))) ∧
    (∀ hop en ring, ring ≤ 255 → s.dev.hopUp hop = true → Answers (.kilnJobConfig o hop en ring) o 0x0A17 s .ok []
      { s.dev with kln := { s.dev.kln with jobHop := hop, jobEn := en, evtRing := ring } }) ∧
    (∀ (w0 w1 : Word) args (d : Dev), s.dev.kln.jobEn = true → s.dev.kln.entropyOk = true →
      s.dev.hopReady s.dev.kln.jobHop = true → s.dev.hopRest s.dev.kln.jobHop = w0 :: w1 :: args → w1.toNat < 2 ^ 29 →
      (s.dev.hopTake s.clk s.dev.kln.jobHop).2 = d →
      (∀ n : Word, w0.toNat % 65536 = 0x0A40 → args = [n] → 1 ≤ n.toNat → n.toNat ≤ 256 → ∃ bs : List Nat,
        bs.length = n.toNat ∧ (∀ b ∈ bs, b < 256) ∧ DoesMem .random s s.mem
          (({ d with freeN := d.freeN + n.toNat }).jobAnswer s.clk w0 w1 .ok (bytesWords bs))) ∧
      (∀ lo hi key i, w0.toNat % 65536 = 0x0A41 → args = [lo, hi] → d.kln.record.bind (·.recKey) = some key →
        d.inTileWin (addr2 lo hi) 1232 = true → least 64 (fun n => (d.exp n).isNone) = some i →
        ∃ (hs : List Nat) (e : Dev) (g : Nat), hs.length = 1232 ∧ g = nextGen (d.kln.expGen.get 0 i) ∧
          e.exp i = some { gen := g, kind := 1 } ∧ DoesMem .exportOpen s (s.mem.dramPut (addr2 lo hi) (natsBytes hs))
            (e.jobAnswer s.clk w0 w1 .ok [BitVec.ofNat 32 (handleOf 3 g i)])) ∧
      (∀ eh sl sh dl dh lw i x n, w0.toNat % 65536 = 0x0A42 → args = [eh, sl, sh, dl, dh, lw] → lw.toNat % 2 ^ 31 = n → 1 ≤ n →
        n ≤ 65536 → d.expOf eh.toNat = some (i, x) → x.final = false → d.inTileWin (addr2 sl sh) n = true →
        d.inTileWin (addr2 dl dh) (n + 16) = true → d.dramPoisoned (addr2 sl sh) n = false →
        ∃ (cs : List Nat) (e : Dev), cs.length = n + 16 ∧ e.exp i = some { x with
            chunks := x.chunks + 1, total := x.total + n + 16, final := bitOf lw.toNat 31 } ∧
          DoesMem .exportWrite s (s.mem.dramPut (addr2 dl dh) (natsBytes cs)) (e.jobAnswer s.clk w0 w1 .ok [])) ∧
      (∀ eh dl dh i x, w0.toNat % 65536 = 0x0A43 → args = [eh, dl, dh] → d.expOf eh.toNat = some (i, x) → x.final = true →
        d.inTileWin (addr2 dl dh) 3413 = true → ∃ (sig : List Nat) (e : Dev), sig.length = 3405 ∧ e.exp i = none ∧
          DoesMem .exportClose s (s.mem.dramPut (addr2 dl dh) (natsBytes (bytesLE 8 x.total ++ sig)))
            (e.jobAnswer s.clk w0 w1 .ok [])))

/-- From the lock on (LOCKED is 1, and a start makes it 0), every BAR0 address reads zero and the read is counted as sealed_read;
every BAR0 write, to the MSI-X table, the DBG_ block and SYS_SETUP_LOCK too, changes nothing and is counted as sealed_write alone.
A start is what ends it: the states that the two kinds of reset leave have LOCKED 0. -/
def Obligations.SealedBar0IgnoresEveryWrite : Prop :=
  (∀ (s : State) (a : Nat) (v : Word) (good : Bool), s.dev.hif.locked = true →
    s.dev.bar0 a = 0 ∧ Does (.sealedBar0Access false) s (s.dev.bump0 .hifSealedRead) ∧
    Does (.sealedBar0Access true) s (s.dev.bump0 .hifSealedWrite) ∧
    (s.dev.sys.powered = true → s.dev.sys.inReset = none → Does (.bar0Write a v good) s (s.dev.bump0 .hifSealedWrite) ∧
      Does (.sysSetupLock v) s (s.dev.bump0 .hifSealedWrite))) ∧
  ∀ d : Dev, d.resetWarm.hif.locked = false ∧ d.resetCold.hif.locked = false

/-- Before the lock an aligned 32-bit write of a register acts on it, and that of a set-up register keeps its writable bits; another
access and one of the DBG_ block are counted alone. The lock with its key and no refusal code
sets LOCKED, clears SETUP_OPEN and makes the first doorbell fetch due; a refused one writes LOCK_ERR and is counted, another value is
counted alone. COUNTER_SNAPSHOT writes its stamp and every record it takes, or those that fit with ST_PARTIAL; RING_CREATE and RING_DESTROY
make and end a ring, but for a CPL ring that another uses,
RING_STATUS and SYS_INFO read, ECHO gives its first eight bytes back. Where it goes beyond the words of the rules it is the
model's own reading (log entries 23, 71, 77). -/
def Obligations.SetUpIsWrittenAndLocked : Prop :=
  ∀ (s : State) (o : Origin) (n : Nat), HostOk o s →
    (s.dev.sys.powered = true → s.dev.sys.inReset = none → s.dev.hif.locked = false →
      (∀ a v rv mask, a < 0xF00000 → a ≠ 4 → regSpec a = some (rv, mask) → inArr a 0xA1000C 16 64 = false →
        Store.wf none s.dev.regs = true → ∃ d : Dev, Does (.bar0Write a v true) s d ∧ d = { s.dev with regs := d.regs } ∧
          d.reg a = (v &&& BitVec.ofNat 32 mask).toNat ∧ ∀ b, b ≠ a → d.reg b = s.dev.reg b) ∧
      (∀ a v, a < 0xF00000 → a ≠ 4 → Does (.bar0Write a v true) s (s.dev.writeReg s.clk a v)) ∧
      (∀ a v, a < 0xF00000 → Does (.bar0Write a v false) s (s.dev.bump0 .sysBarBadAccess)) ∧
      (∀ a v good, 0xF00000 ≤ a → Does (.bar0Write a v good) s (s.dev.bump0 .klnDbgBarAccess)) ∧
      (s.dev.hif.setupOpen = true → 6 ≤ s.dev.sys.step → s.dev.lockCode = 0 → ∃ m d,
        exec (.sysSetupLock 0x4C4F434B) s = .next { s with mem := m, dev := d } ∧ d.hif.locked = true ∧
        d.hif.setupOpen = false ∧ d.hif.lockErr = 0 ∧ d.hif.fetchAt = some (clockAbs s.clk + 1)) ∧
      (∀ c, 6 ≤ s.dev.sys.step → s.dev.lockCode = c → c ≠ 0 → Does (.sysSetupLock 0x4C4F434B) s
        (({ s.dev with hif := { s.dev.hif with lockErr := c, lockWait := false } }).bump0 .hifLockRefused)) ∧
      (∀ v, v ≠ 0x4C4F434B → Does (.sysSetupLock v) s (s.dev.bump0 .hifLockBadValue))) ∧
    (∀ zeros pre (rs : List (List Nat)), pre.length ≤ 63 → o.resLen ≠ 0 →
      (allCtrs.filter (fun c => (zeros || s.dev.count c != 0) && pre.isPrefixOf c.nameBytes)).map
        (fun c => ctrRecord c.nameBytes (s.dev.count c)) = rs →
      ∀ full, 16 + (rs.map List.length).foldl (· + ·) 0 = full → full ≤ o.resLen →
      Does (.counterSnapshot o zeros pre) s (s.dev.completeWith s.clk o 0x0101 .ok
        (bytesLE 8 (clockStamp s.clk) ++ bytesLE 4 rs.length ++ bytesLE 4 0 ++ rs.flatten) (full + full * 2 ^ 32))) ∧
    (∀ zeros pre (rs : List (List Nat)) fit full bs, pre.length ≤ 63 → o.resLen ≠ 0 →
      (allCtrs.filter (fun c => (zeros || s.dev.count c != 0) && pre.isPrefixOf c.nameBytes)).map
        (fun c => ctrRecord c.nameBytes (s.dev.count c)) = rs →
      16 + (rs.map List.length).foldl (· + ·) 0 = full → o.resLen < full → fitRecords rs (o.resLen - 16) = fit →
      (bytesLE 8 (clockStamp s.clk) ++ bytesLE 4 fit.length ++ bytesLE 4 0 ++ fit.flatten).take o.resLen = bs →
      Does (.counterSnapshot o zeros pre) s (s.dev.completeWith s.clk o 0x0101 .partialDone bs (bs.length + full * 2 ^ 32))) ∧
    (∀ x : RingSet, x.shapeOk = true → s.dev.txpQueueOk x = true → n ≤ 255 → x.vector ≤ 63 → x.modTicks ≤ 255 → x.modCount ≤ 255 →
      (x.typ = 1 → s.dev.ringIs x.cplRing 2 = true) → s.dev.ringWin x = true → (s.dev.ring n).enabled = false →
      Answers (.ringCreate o n x.addr x.typ x.sizeLog2 x.gen x.bind x.cplRing x.vector x.irqEn x.modTicks x.modCount) o 0x0102 s
        .ok [] ((s.dev.setRing n { x.ring with held := (s.dev.ring n).held }).dumpReady s.clk) ∧
      (s.dev.sys.ash ≠ .ready →
      Answers (.ringCreate o n x.addr x.typ x.sizeLog2 x.gen x.bind x.cplRing x.vector x.irqEn x.modTicks x.modCount) o 0x0102 s
        .ok [] (s.dev.setRing n {
          enabled := true, typ := x.typ, sizeLog2 := x.sizeLog2, gen := x.gen, addr := x.addr,
          bindPort := x.bind / 2 % 2, bindQueue := x.bind / 4 % 8, cplRing := x.cplRing, vector := x.vector % 64,
          irqEn := x.irqEn, modTicks := x.modTicks, modCount := x.modCount, held := (s.dev.ring n).held }))) ∧
    (∀ r, s.dev.ring n = r → r.enabled = true →
      (r.typ ≠ 2 ∨ s.dev.cplBound n = false → Answers (.ringDestroy o n) o 0x0103 s .ok [] (s.dev.ringEnd s.clk n)) ∧
      (r.typ = 2 → s.dev.cplBound n = true → Answers (.ringDestroy o n) o 0x0103 s .refusedBusy [] s.dev) ∧
      (r.typ ≠ 2 → r.evts = [] → s.dev.sys.offer = none → Answers (.ringDestroy o n) o 0x0103 s .ok [] (s.dev.setRing n
        { r with enabled := false, posted := [], evts := [], pend := 0, pendTicks := 0 })) ∧
      Answers (.ringStatus o n) o 0x0104 s .ok [⟨1, r.typ⟩, ⟨1, r.sizeLog2⟩, ⟨2, r.gen⟩, ⟨4, r.p.toNat⟩, ⟨4, r.c.toNat⟩,
        ⟨4, r.held.length + r.evts.length⟩, ⟨4, r.pend⟩, ⟨8, s.dev.count ⟨.hifRingDbBad, n, 0⟩⟩,
        ⟨8, s.dev.count ⟨.hifRingDbStale, n, 0⟩⟩, ⟨8, s.dev.count ⟨.hifRingDbInvalid, n, 0⟩⟩] s.dev) ∧
    (∀ a b, (s.dev.kln.stage1.map (·.ver)).getD 0 = a → (s.dev.kln.ctrl.map (·.ver)).getD 0 = b → Answers (.sysInfo o) o 0x0105 s .ok
      ([⟨32, a⟩, ⟨32, b⟩] ++ s.dev.kln.tiles.map (fun t => ⟨32, t.ver⟩) ++ [⟨1, 0x10⟩, ⟨4, s.dev.tilCount⟩]) s.dev) ∧
    (∀ i j, s.dev.kln.stage1 = some i → s.dev.kln.ctrl = some j → Answers (.sysInfo o) o 0x0105 s .ok
      ([⟨32, i.ver⟩, ⟨32, j.ver⟩] ++ s.dev.kln.tiles.map (fun t => ⟨32, t.ver⟩) ++ [⟨1, 0x10⟩, ⟨4, s.dev.tilCount⟩]) s.dev) ∧
    (∀ args : List Nat, args.length ≤ 24 →
      Answers (.echo o args) o 0x0106 s .ok ((args.take 8).map (fun b => ⟨1, b⟩)) s.dev)

/-- A doorbell fetch that is due sets the next one period on and takes the page as it was read: it moves a ring's producer index, admits its next command, and writes FETCH_STAMP; one whose read fails is
counted and changes nothing else. A completion takes the next slot of the CPL ring bound to its command's ring, with PHASE of that
pass, and none is lost: without a free slot it joins those held. The moderation timer of a ring sends one message and clears its
pending count, or sets the pending bit where the vector is masked. Where it goes beyond the words of the rules it is the model's
own reading (log entries 26, 69). -/
def Obligations.DoorbellsAdmitAndCompletionsAreWritten : Prop :=
  ∀ (s : State),
    (∀ sub n r (x : CmdDesc) (w : DbWord) vm vc t, s.clk.sub ≤ sub → sub < 3072 → s.dev.hif.locked = true → s.dev.dmaOn = true →
      s.dev.hif.fetchAt = some t → t ≤ s.clk.tick * 3072 + sub → s.dev.hif.rings = [(n, r)] → r.enabled = true → r.typ = 1 →
      n < 256 → r.cplRing ≠ n → w.ring = n → w.gen = r.gen → w.chk = 65535 - w.gen → (w.index - r.c).toNat ≤ r.size →
      0 < (w.index - r.c).toNat → (w.index - r.p).toNat < 2 ^ 31 → vc ≠ ~~~vm → s.dev.sys.offer = none → s.dev.hif.pba = 0 →
      s.dev.hif.outst.length < 1024 → x.fence = false → x.indirect = false → x.rsvOk = true → x.argLen ≤ 24 →
      definedOp x.opcode = true → ∃ d : Dev,
      exec (.doorbellFetch sub (some { words := [w], vmask := vm, vchk := vc, cmds := [(n, [x])], txps := [], bufs := [] })) s =
        .next { s with clk := { s.clk with sub := sub }, dev := d } ∧
      (d.ring n).p = w.index ∧ (d.ring n).c = r.c + 1 ∧ (d.ring n).shadowC = r.c + 1 ∧ d.hif.vmask = s.dev.hif.vmask ∧
      d.hif.outst = s.dev.hif.outst ++ [
        { ring := n, tag := x.tag, opcode := x.opcode, resAddr := 0, resLen := 0, cpl := (s.dev.ring n).cplRing }] ∧
      d.hif.sent.head? = some (.fetchStamp (s.clk.tick * 4096 + sub))) ∧
    (∀ sub t page, s.clk.sub ≤ sub → sub < 3072 → s.dev.hif.locked = true → s.dev.dmaOn = true → s.dev.hif.fetchAt = some t →
      t ≤ s.clk.tick * 3072 + sub → exec (.doorbellFetch sub page) s = .next { s with
        clk := { s.clk with sub := sub }
        dev := (s.dev.setHif { s.dev.hif with fetchAt := some (t + s.dev.hif.period) }).dbFetch { s.clk with sub := sub } page }) ∧
    (∀ sub t, s.clk.sub ≤ sub → sub < 3072 → s.dev.hif.locked = true → s.dev.dmaOn = true → s.dev.hif.fetchAt = some t →
      t ≤ s.clk.tick * 3072 + sub → exec (.doorbellFetch sub none) s = .next { s with
        clk := { s.clk with sub := sub }
        dev := ((s.dev.setHif { s.dev.hif with fetchAt := some (t + s.dev.hif.period) }).bump0 .hifDbFetchError).bump0
                  .hifDmaReadError }) ∧
    (∀ o args q r, HostOk o s → args.length ≤ 24 → s.dev.sys.inReset = none →
      ((s.dev.hif.outst.find? (fun x => x.ring == o.ring && x.tag == o.tag && x.opcode == 0x0106)).map (·.cpl)).getD
        (s.dev.ring o.ring).cplRing = q → s.dev.ring q = r →
      o.resLen = 0 → r.held = [] → Store.wf {} s.dev.hif.rings = true →
      ∀ e : Cpl, e = { tag := o.tag, status := .ok, buffered := false, opcode := 0x0106, cmdRing := o.ring,
                       result := ofBytesLE ((args.take 8).flatMap (bytesLE 1)) } →
      (r.enabled = true → 0 < r.free → s.dev.dmaOn = true → ∃ d : Dev, Does (.echo o args) s d ∧
        Sent.cpl q r.c ((r.c.toNat / r.size + 1) % 2) e ∈ d.hif.sent ∧ (d.ring q).c = r.c + 1 ∧ (d.ring q).held = []) ∧
      (r.free = 0 → ∃ d : Dev, Does (.echo o args) s d ∧ d.hif.sent = s.dev.hif.sent ∧ (d.ring q).c = r.c ∧
        (d.ring q).held = [e])) ∧
    (∀ n r, s.dev.ring n = r → r.enabled = true → r.irqEn = true → 0 < r.pend → 0 < r.modTicks → r.modTicks ≤ r.pendTicks →
      Store.wf {} s.dev.hif.rings = true →
      (s.dev.vecMasked r.vector = false → s.dev.hif.msgAt.get 0 r.vector ≠ clockStamp s.clk + 1 → ∃ d : Dev,
        Does (.msixModerationExpiry n) s d ∧ d = { s.dev with hif := d.hif } ∧ d.hif.sent.head? = some (.msix r.vector) ∧
        (d.ring n).pend = 0 ∧ (d.ring n).c = r.c) ∧
      (s.dev.vecMasked r.vector = true → Does (.msixModerationExpiry n) s
        { s.dev with hif := { s.dev.hif with pba := s.dev.hif.pba ||| BitVec.twoPow 64 r.vector } }))

/-- A job that passes the four checks of a host command or a tile's packet joins those that wait and takes a free context; the first
check that fails answers at once, with the bound where the destination is too small, and a disabled Tamper aborts it. A turn reads up
to 65,536 source bytes, from the host or from DRAM, and ends a job whose source is poisoned. A compression that has read its whole
source writes the format's output to its destination, frees its context and answers ST_OK with the output's length and check value; a decompression that no source still unread could change
writes what it has decoded and answers ST_OK, ST_PARTIAL where the destination is full, or ST_CHECK_FAIL with its REASON.
TAMPER_STATUS reads; TAMPER_ENABLE opens, and lets a captured dump be packed; it aborts what waits and, with no job active, closes at
once; a disable that runs out ends every active job.
Where it goes beyond the words of the rules it is the model's own reading (log entries 23, 72, 73). -/
def Obligations.TamperRunsItsJobs : Prop :=
  ∀ (s : State) (o : Origin) (x : Tmp), HostOk o s → s.dev.tmp = x →
    (∀ t : TmpDesc, 24 ≤ o.resLen →
      (t.shapeOk = false → Answers (.tamperJob o t) o 0x0B01 s .badArg (tmpResult 0 0 0 0 0) (s.dev.bump0 .tmpJobBad)) ∧
      (t.shapeOk = true → s.dev.tmpMemOk .host t = false →
        Answers (.tamperJob o t) o 0x0B01 s .notPermitted (tmpResult 0 0 0 0 0) (s.dev.bump0 .hifWindowDenied)) ∧
      (t.shapeOk = true → s.dev.tmpMemOk .host t = true → t.dir = 0 → t.cap < tmpBound t.cls t.inLen →
        Answers (.tamperJob o t) o 0x0B01 s .noResource (tmpResult (tmpBound t.cls t.inLen) 0 0 0 0) s.dev) ∧
      (t.shapeOk = true → s.dev.tmpMemOk .host t = true → (t.dir = 0 → tmpBound t.cls t.inLen ≤ t.cap) → x.enabled = true →
        Waits (.tamperJob o t) o 0x0B01 s .tamperJob x.nextId (s.dev.tmpSubmit .host t)) ∧
      (t.shapeOk = true → s.dev.tmpMemOk .host t = true → (t.dir = 0 → tmpBound t.cls t.inLen ≤ t.cap) → x.enabled = false →
        Answers (.tamperJob o t) o 0x0B01 s .aborted (tmpResult 0 0 0 0 0) (s.dev.bump0 .tmpAbort)) ∧
      (t.shapeOk = true → s.dev.tmpMemOk .host t = true → (t.dir = 0 → tmpBound t.cls t.inLen ≤ t.cap) → x.enabled = true →
        x.active.length < 4 → x.waitCtrl = [] → x.waitTile = [] → x.waitHost = [] → x.turn < 3 →
        Waits (.tamperJob o t) o 0x0B01 s .tamperJob x.nextId { s.dev with tmp := { x with
          nextId := x.nextId + 1, turn := 0, active := x.active ++ [{ id := x.nextId, who := .host, desc := t }] } })) ∧
    (∀ (w0 w1 : Word) args (d : Dev) th, x.jobEn = true → s.dev.hopReady x.jobHop = true → s.dev.hopRest x.jobHop = w0 :: w1 :: args →
      (s.dev.hopTake s.clk x.jobHop).2 = d → w0.toNat % 65536 = 0x0B01 → args.length = 8 → w1.toNat < 2 ^ 29 →
      TmpSrc.tile w0 (bitsOf w1.toNat 0 13) (bitsOf w1.toNat 13 5) (bitOf w1.toNat 18) (bitsOf w1.toNat 19 10) = th →
      (∀ d1, d.tmpCheckJob th (descOf args) = (none, d1) → Does .tamperJobPacket s (d1.tmpSubmit th (descOf args))) ∧
      (∀ r d1, d.tmpCheckJob th (descOf args) = (some r, d1) →
        Does .tamperJobPacket s (d1.tmpAnswer s.clk { id := 0, who := th, desc := descOf args } r.1 r.2))) ∧
    (∀ (w0 w1 : Word) args (d : Dev) th, x.jobEn = true → s.dev.hopReady x.jobHop = true → s.dev.hopRest x.jobHop = w0 :: w1 :: args →
      (s.dev.hopTake s.clk x.jobHop).2 = d → w0.toNat % 65536 = 0x0B01 → args.length = 8 → w1.toNat < 2 ^ 29 →
      TmpSrc.tile w0 (bitsOf w1.toNat 0 13) (bitsOf w1.toNat 13 5) (bitOf w1.toNat 18) (bitsOf w1.toNat 19 10) = th →
      (descOf args).shapeOk = true → d.tmpMemOk th (descOf args) = true →
      ((descOf args).dir = 0 → tmpBound (descOf args).cls (descOf args).inLen ≤ (descOf args).cap) → x.enabled = true →
      x.active.length < 4 → x.waitCtrl = [] → x.waitTile = [] → x.waitHost = [] → x.turn < 3 →
      Does .tamperJobPacket s { d with tmp := { x with
        nextId := x.nextId + 1, turn := 2, active := x.active ++ [{ id := x.nextId, who := th, desc := descOf args }] } }) ∧
    (∀ j r host, x.active = j :: r → j.who = .host → host.length = min 65536 (j.desc.inLen - j.done) →
      Does (.tamperJobTurn host) s { s.dev with tmp := { x with
        active := r ++ [{ j with done := j.done + host.length, data := j.data ++ host }] } }) ∧
    (∀ j r host n a, x.active = j :: r → j.who ≠ .host → min 65536 (j.desc.inLen - j.done) = n → j.desc.src + j.done = a →
      (n = 0 ∨ s.dev.dramPoisoned a n = false → Does (.tamperJobTurn host) s { s.dev with tmp := { x with
        active := r ++ [{ j with done := j.done + n, data := j.data ++ (s.mem.dramBytes a n).map (·.toNat) }] } }) ∧
      (n ≠ 0 → s.dev.dramPoisoned a n = true → Does (.tamperJobTurn host) s
        ((s.dev.bump0 .tmpPoisoned).tmpEnd s.clk j .poisoned (tmpResult 0 0 j.done 0 0)))) ∧
    (∀ id j, x.active.find? (fun y => y.id == id) = some j →
      (∀ out nStored nRaw m d d1 d2, j.desc.dir = 0 → j.desc.inLen ≤ j.done → compressOut j.desc j.data = (out, nStored, nRaw) →
        tmpWrite s.mem s.dev j out = (m, d) → (if nStored = 0 then d else d.bumpN ⟨.tmpStoredBlock, 0, 0⟩ nStored) = d1 →
        (if nRaw = 0 then d1 else d1.bumpN ⟨.tmpRawBlock, 0, 0⟩ nRaw) = d2 → DoesMem (.tamperJobDone id) s m (d2.tmpEnd s.clk j .ok
          (tmpResult out.length 0 j.desc.inLen (tmpCheck j.desc.cls j.data) 0))) ∧
      (∀ m d, j.desc.dir ≠ 0 → tmpUnpackEnd s.clk s.mem s.dev j = (m, d) → DoesMem (.tamperJobDone id) s m d)) ∧
    (∀ j out, x.active = [j] → x.waitCtrl = [] → x.waitTile = [] → x.waitHost = [] → x.disabling = none → j.who = .host →
      j.desc.dir = 0 → j.done = j.desc.inLen → compressOut j.desc j.data = (out, 0, 0) → out ≠ [] →
      s.dev.waits = [{ kind := .tamperJob, key := j.id, src := .host o, opc := 0x0B01 }] →
      Does (.tamperJobDone j.id) s (({ s.dev.hostWr j.desc.dst out with
        tmp := { x with active := [] }, waits := [] }).complete s.clk o 0x0B01 .ok
          (tmpResult out.length 0 j.desc.inLen (tmpCheck j.desc.cls j.data) 0))) ∧
    (∀ j e, x.active = [j] → x.waitCtrl = [] → x.waitTile = [] → x.waitHost = [] → x.disabling = none → j.who = .host →
      j.desc.dir = 1 → tmpUnpack j.desc j.data = e → (e.short = false ∨ j.done = j.desc.inLen) → e.firstBad = false → e.out ≠ [] →
      s.dev.waits = [{ kind := .tamperJob, key := j.id, src := .host o, opc := 0x0B01 }] →
      Does (.tamperJobDone j.id) s (({ (match e.reason with
          | 0 => s.dev.hostWr j.desc.dst e.out
          | 4 => (s.dev.hostWr j.desc.dst e.out).bump0 .tmpPartial
          | _ => (s.dev.hostWr j.desc.dst e.out).bump0 .tmpCheckFail) with
        tmp := { x with active := [] }, waits := [] }).complete s.clk o 0x0B01
          (match e.reason with
          | 0 => .ok
          | 4 => .partialDone
          | _ => .checkFail)
          (tmpResult e.out.length e.reason e.consumed e.check e.failBlock))) ∧
    (∃ js : List RField, js.length = 2 * x.active.length ∧ Answers (.tamperStatus o) o 0x0B02 s .ok ([⟨1, b2n x.enabled⟩,
      ⟨1, x.active.length⟩, ⟨2, x.waitCtrl.length⟩, ⟨2, x.waitTile.length⟩, ⟨2, x.waitHost.length⟩] ++ js) s.dev) ∧
    (x.disabling = none →
      Answers (.tamperEnable o true) o 0x0B03 s .ok [] (({ s.dev with tmp := { x with enabled := true } }).ashPack) ∧
      (∀ d, ({ s.dev with tmp := { x with enabled := false, waitCtrl := [], waitTile := [], waitHost := [] } }).tmpAbortJobs s.clk false
          (x.waitCtrl ++ x.waitTile ++ x.waitHost) = d →
        (d.tmp.active = [] → Answers (.tamperEnable o false) o 0x0B03 s .ok [] d) ∧
        (d.tmp.active ≠ [] → Waits (.tamperEnable o false) o 0x0B03 s .tamperDisable 0
          { d with tmp := { d.tmp with disabling := some 160 } })) ∧
      (s.dev.sys.ash ≠ .captured →
        Answers (.tamperEnable o true) o 0x0B03 s .ok [] { s.dev with tmp := { x with enabled := true } }) ∧
      (x.active = [] → x.waitCtrl = [] → x.waitTile = [] → x.waitHost = [] →
        Answers (.tamperEnable o false) o 0x0B03 s .ok [] { s.dev with tmp := { x with enabled := false } }) ∧
      (x.active ≠ [] → x.waitCtrl = [] → x.waitTile = [] → x.waitHost = [] → Waits (.tamperEnable o false) o 0x0B03 s
        .tamperDisable 0 { s.dev with tmp := { x with enabled := false, disabling := some 160 } })) ∧
    (x.disabling = some 0 → ∃ d : Dev, Does .tamperDisableTimeout s d ∧ d.tmp = { x with active := [], disabling := none } ∧
      d.waiting .tamperDisable 0 = false)

/-- A request inside one block, of a tile's engine at TILE_A or TILE_B or of another requester, joins its port's queue, one outside the address space is denied; a channel performs its only request, and of several one a turn; a
request that reaches its target is late. A rank owes a refresh every N sub-ticks, postponed and counted while real-time requests wait,
and MR4 sets its rate; an urgent refresh goes first;
an idle rank powers down; the scrubber queues its reads. A waiting retirement trains the spare, the flip after the last block puts the
spare in the source's slot, a spare that fails is retired, an abort keeps both. The spare's test ends with its errors, and a spare that fails it is lost; the commands
of Table 16.4 are answered. Where it goes beyond the words of the rules it is the model's own reading (log entries 23, 46, 47). -/
def Obligations.DramServesRefreshesAndMigrates : Prop :=
  ∀ (s : State) (x : Dram), s.dev.dram = x → ∀ now, nowAbs s.clk = now →
    (∀ who port addr len (data : Option (List Byte)), reqOk who = true → reqPort who = port → 1 ≤ len → addr % 64 + len ≤ 64 → (∀ l, data = some l → l.length = len) →
      (s.dev.dramPlace addr = none → Does (.dramRequest who addr len data) s ((s.dev.bump0 .dmcAddrDenied).setDram
        { x with answer := x.answer.put (.ok, []) port (.notPermitted, List.replicate len 0) })) ∧
      (∀ r off, s.dev.dramPlace addr = some (r, off) →
        (64 ≤ (x.queue port (r / 2)).length → Does (.dramRequest who addr len data) s s.dev) ∧
        ((x.queue port (r / 2)).length < 64 →
          (∀ l, data = some l → Does (.dramRequest who addr len data) s (s.dev.enqueue s.clk port addr len (.write l) r off)) ∧
          (data = none → Does (.dramRequest who addr len data) s
            ((s.dev.orderCheck port r off).enqueue s.clk port addr len .read r off)))) ∧
      (∀ r off, s.dev.dramPlace addr = some (r, off) → (x.queue port (r / 2)).length < 64 → (x.port port).panicEn = false →
        (data = none → x.reqs.all (fun q => isRead q.kind) = true) →
        Does (.dramRequest who addr len data) s (s.dev.setDram { x with
          nextId := x.nextId + 1
          reqs := x.reqs ++ [{ id := x.nextId, port := port, addr := addr, len := len,
                               kind := (match data with | some l => .write l | none => .read), rank := r, off := off,
                               at_ := now, late := false, set := x.port port }] }))) ∧
    (∀ ch ecc m d, ch < 2 → channelTurn s.clk ch ecc s.mem s.dev = (m, d) → DoesMem (.dramTransaction ch ecc) s m d) ∧
    (∀ q ch, x.reqs = [q] → q.rank / 2 = ch → ch < 2 → (q.set.panicEn = true ∨ aged (now - q.at_) q.set.target = false) → x.mig = none →
      (∀ r, (s.dev.rank r).owed = 0) → (s.dev.rank q.rank).selfRef = false → Store.wf (.ok, []) x.answer = true →
      (q.kind = .read → x.poison.get false (q.addr / 64) = false → ∃ d : Dev, DoesMem (.dramTransaction ch 0) s s.mem d ∧
        d.dram.reqs = [] ∧ d.dram.answer.get (.ok, []) q.port = (.ok, s.mem.dramBytes q.addr q.len)) ∧
      (∀ bs, q.kind = .write bs → x.poison.get false (q.addr / 64) = false → ∃ d : Dev,
        DoesMem (.dramTransaction ch 0) s (s.mem.dramPut q.addr bs) d ∧
        d.dram.reqs = [] ∧ d.dram.answer.get (.ok, []) q.port = (.ok, []))) ∧
    (∀ ch, ch < 2 → x.reqs = [] → s.dev.refreshed (2 * ch) = true → 8 ≤ (s.dev.rank (2 * ch)).owed → ∀ ecc,
      Does (.dramTransaction ch ecc) s ((s.dev.issueRefresh (2 * ch)).bump1 .dmcRankRefreshUrgent (2 * ch))) ∧
    (∀ id, Does (.requestLate id) s (s.dev.markLate s.clk 1 (fun q => q.id == id))) ∧
    (∀ q, x.reqs = [q] → q.late = false → q.set.panicEn = false → aged (now + 1 - q.at_) q.set.target = true →
      Does (.requestLate q.id) s ((s.dev.bump ⟨.dmcPortLate, 0, q.port⟩).setDram { x with reqs := [{ q with late := true }] })) ∧
    (∀ r, r < 4 → s.dev.refreshed r = true → ∀ y, s.dev.rank r = y →
      (∀ n, refreshEvery x.allBank y.rate = n → y.accrued + n ≤ now → (7 ≤ y.owed ∨ s.dev.rtPending r = false) →
        Does (.refreshAccrue r) s (s.dev.setRank r { y with owed := y.owed + 1, accrued := y.accrued + n })) ∧
      (∀ n, refreshEvery x.allBank y.rate = n → y.accrued + n ≤ now → y.owed < 7 → s.dev.rtPending r = true →
        Does (.refreshAccrue r) s ((s.dev.setRank r { y with owed := y.owed + 1, accrued := y.accrued + n }).bump1
          .dmcRankRefreshPostponed r)) ∧
      (∀ rate der hot, s.clk.tick % 64 = 0 → x.mr4At ≠ s.clk.tick + 1 → ∀ d, (s.dev.setDram { x with mr4At := s.clk.tick + 1 }).setRank r
          { y with rate := if hot then 2 else min 2 rate, derate := der } = d →
        Does (.mr4Poll [(r, rate, der, hot)]) s (if hot then d.bump1 .dmcRankOvertemp r else d))) ∧
    (∀ r, x.serving r = true → 0 < x.pdIdle → (∀ q ∈ x.reqs, q.rank ≠ r) → (s.dev.rank r).selfRef = false →
      x.pdIdle * 3072 * 2000 ≤ (now + 1 - (s.dev.rank r).used) * 125000 * rateMts x.rate →
      Does (.powerDownEntry r) s (s.dev.setRank r { s.dev.rank r with down := true })) ∧
    (x.scrubEn = true → x.scrubAt ≠ s.clk.tick + 1 → Does .scrubQueue s ((s.dev.setDram { x with
      scrubAt := s.clk.tick + 1, scrubOwed := x.scrubOwed + max 1 x.scrubRate }).scrubMore s.clk)) ∧
    (∀ r off, x.scrubEn = true → x.scrubAt ≠ s.clk.tick + 1 → x.scrubOwed = 0 → x.scrubRate ≤ 1 → x.map ≠ [] →
      x.scrubPos * 64 < x.topAddr → s.dev.dramPlace (x.scrubPos * 64) = some (r, off) → x.queue 9 (r / 2) = [] →
      (x.port 9).panicEn = false → Does .scrubQueue s (s.dev.setDram { x with
        scrubAt := s.clk.tick + 1, scrubPos := x.scrubPos + 1, nextId := x.nextId + 1,
        reqs := x.reqs ++ [{ id := x.nextId, port := 9, addr := x.scrubPos * 64, len := 64, kind := .scrub, rank := r, off := off,
                             at_ := now, late := false, set := x.port 9 }] })) ∧
    (∀ r rest n, x.retire.filter (fun q => x.serving q) = r :: rest → x.spare = some n → x.mig = none →
      x.testing = false → Does .rankRetireStart s ((s.dev.setDram { x with
        retire := rest, mig := some { src := r, dst := n, training := true, done := 0, lock := none } }).modRank n
          (fun y => { y with selfRef := false }))) ∧
    (∀ g, x.mig = some g → g.src ≠ g.dst → Store.wf {} x.ranks = true → Store.wf {} s.dev.cal.items = true →
      (∀ (rd wr : List (BitVec 4)) (lr lw : List Nat), g.training = true →
        eyeCodes false (s.dev.calItem (rankKey g.dst)).rd rd = some lr → eyeCodes false (s.dev.calItem (rankKey g.dst)).wr wr = some lw →
        ∃ d : Dev, Does (.migSpareTrained true rd wr) s d ∧
        d.dram.mig = some { g with training := false } ∧ (d.calItem (rankKey g.dst)).rd = lr ∧
        (d.calItem (rankKey g.dst)).wr = lw ∧ d.dram.map = x.map) ∧
      (g.training = true → ∃ d : Dev, Does (.migSpareTrained false [] []) s d ∧ d.dram.mig = none ∧ d.dram.spare = none ∧
        (d.rank g.dst).state = .retired ∧ d.rank g.src = s.dev.rank g.src ∧ d.dram.map = x.map) ∧
      (g.training = false → x.blocks ≤ g.done → ∃ d : Dev, Does .migrationFlip s d ∧ d.dram.mig = none ∧ d.dram.spare = none ∧
        d.dram.map = x.map.map (fun r => if r = g.src then g.dst else r) ∧ (d.rank g.dst).state = .inService ∧
        (d.rank g.src).state = .retired)) ∧
    (∀ o : Origin, HostOk o s →
      (∀ trained errors offs n d, x.testing = true → x.spare = some n →
        (s.dev.setDram { x with testing := false }).modRank n (fun y => { y with selfRef := true, down := false, owed := 0 }) = d →
        ∀ e, (if !trained then (d.bump1 .dmcRankTrainFail n).loseSpare s.clk n 4
          else if errors = 0 then d else (d.bump1 .dmcRankBistError n).loseSpare s.clk n 3) = e →
        Does (.spareTestDone trained errors offs) s ((e.finish s.clk .dramSpareTest 0 .ok
          (⟨4, errors⟩ :: ((offs ++ List.replicate 16 0).take 16).map (fun a => ⟨4, a⟩))).judgeRetires s.clk)) ∧
      (∀ n, x.testing = true → x.spare = some n → x.retire = [] →
        s.dev.waits = [{ kind := .dramSpareTest, key := 0, src := .host o, opc := 0x0C05 }] →
        Does (.spareTestDone true 0 []) s (({ (s.dev.setDram { x with testing := false }).modRank n
          (fun y => { y with selfRef := true, down := false, owed := 0 }) with waits := [] }).complete s.clk o 0x0C05 .ok
            (List.replicate 17 ⟨4, 0⟩))) ∧
      (∃ fs : List RField, fs.length = 32 ∧ (x.mig = none → fs.take 3 = [⟨1, 0⟩, ⟨1, 0⟩, ⟨4, 0⟩]) ∧ Answers (.dramStatus o) o 0x0C01 s .ok
        ((List.range 4).map (fun r => ⟨1, rstateCode (s.dev.rank r).state⟩) ++
          (List.range 4).map (fun i => ⟨1, (x.map[i]?).getD 0xFF⟩) ++ [⟨1, x.map.length⟩] ++ fs) s.dev) ∧
      (∀ port target rt panic level, 100 ≤ target → target ≤ 100000 → 1 ≤ level → level ≤ 63 →
        (port ≤ 9 → Answers (.dramPortSet o port target rt panic level) o 0x0C02 s .ok []
          (s.dev.setDram { x with ports := setAt x.ports port ⟨target, rt, panic, level⟩ })) ∧
        (9 < port → Answers (.dramPortSet o port target rt panic level) o 0x0C02 s .unknownObject [] s.dev)) ∧
      (∀ r, r ≤ 3 → x.serving r = true → x.mig = none →
        (∀ n, x.spare = some n → x.retire.contains r = false → Waits (.dramRetire o r) o 0x0C03 s .dramRetire r
          (s.dev.setDram { x with retire := x.retire ++ [r] })) ∧
        (x.spare = none → Answers (.dramRetire o r) o 0x0C03 s .noResource [] s.dev)) ∧
      (x.mig = none → Answers (.dramMigrateAbort o) o 0x0C04 s .refusedBusy [] s.dev) ∧
      (x.mig.isSome = true → Answers (.dramMigrateAbort o) o 0x0C04 s .ok [] (s.dev.migAbort s.clk)) ∧
      (∀ g, x.mig = some g → x.retire = [] → s.dev.waits = [] → ∃ d : Dev, Answers (.dramMigrateAbort o) o 0x0C04 s .ok [] d ∧
        d.dram.mig = none ∧ d.dram.spare = x.spare ∧ d.dram.map = x.map) ∧
      (∀ r, r ≤ 3 → x.spare = some r → x.mig = none → x.testing = false → Waits (.dramSpareTest o r) o 0x0C05 s .dramSpareTest 0
        ((s.dev.setDram { x with testing := true }).modRank r (fun y => { y with selfRef := false, accrued := now }))) ∧
      (∀ en rate lim evt,
        (1 ≤ rate → rate ≤ 256 → Answers (.dramScrubSet o en rate lim evt) o 0x0C06 s .ok []
          (s.dev.setDram { x with scrubNew := some (en, rate, lim % 65536, evt) })) ∧
        (256 < rate → Answers (.dramScrubSet o en rate lim evt) o 0x0C06 s .badArg [] s.dev)) ∧
      (∃ fs : List RField, fs.length = 6 * x.log.length ∧ Answers (.dramErrorLog o) o 0x0C07 s .ok fs s.dev))

/-- TILE_EVACUATE with a spare starts an evacuation at the first tick divisible by EVAC_FRAME and 16 ticks away or more; at it the
spare's program memory is written and the tile held; once the tile is quiet the position maps to the spare with the data memory
copied, the spare's position is empty, and the vacated tile is tested. A tile that passes with rows to spare is cleared and becomes
SPARE in the first empty spare position, any other is RETIRED. TILE_SPARE_TEST, TILE_FILL, SERVICE_POLICY and SRAM_ROW_STATUS
are answered. Where it goes beyond the words of the rules it is the model's own reading (log entries 23, 42, 43). -/
def Obligations.SparesTakeOverAndAreTested : Prop :=
  ∀ (s : State) (x : Sys), s.dev.sys = x →
    (∀ e, x.evac = some e →
      (∀ d : Dev, e.held = false → e.at_ ≤ s.clk.tick →
        ((s.dev.bump1 .sysTEvac e.tile).bump1 .schTEvacHold e.tile).holdTile e.tile = d →
        DoesMem .evacBoundary s (s.mem.loadPm e.spare ((e.reload.map (·.code)).getD (x.copies.get [] e.tile)))
          ((d.setSys { d.sys with evac := some { e with held := true } }).settle s.clk none)) ∧
      (∀ p, e.held = true → s.dev.physOf e.tile = some p → s.dev.evacQuiet e.tile = true → ∃ d : Dev,
        DoesMem .evacComplete s (s.mem.copyDm p e.spare)
          (((d.settle s.clk none).finish s.clk .tileEvacuate e.tile .ok).evacNext s.clk) ∧
        d.sys = { x with evac := none, tests := x.tests ++ [(p, false)],
                         copies := (e.reload.map (fun i => x.copies.put [] e.tile i.code)).getD x.copies }) ∧
      (e.held = false → e.at_ ≤ s.clk.tick → e.reload = none → Store.wf {} s.dev.sch.tiles = true → ∃ d : Dev,
        DoesMem .evacBoundary s (s.mem.loadPm e.spare (x.copies.get [] e.tile)) (d.settle s.clk none) ∧
        d.sys = { x with evac := some { e with held := true } } ∧ (d.stl e.tile).frozen = true ∧ d.til = s.dev.til) ∧
      (∀ p, e.held = true → s.dev.physOf e.tile = some p → s.dev.evacQuiet e.tile = true → e.reload = none → p ≠ e.spare →
        e.pos ≠ e.tile → Store.wf {} s.dev.til.phys = true → Store.wf 0 s.dev.til.map = true → ∃ d : Dev,
        DoesMem .evacComplete s (s.mem.copyDm p e.spare)
          (((d.settle s.clk none).finish s.clk .tileEvacuate e.tile .ok).evacNext s.clk) ∧
        d.physOf e.tile = some e.spare ∧ d.physOf e.pos = none ∧ (d.phys e.spare).state = .active ∧ (d.phys p).state = .vacated ∧
        d.sys = { x with evac := none, tests := x.tests ++ [(p, false)] })) ∧
    (∀ p pass pm dm asked, x.tests.find? (fun y => y.1 == p) = some (p, asked) → s.dev.hif.paused = false →
      Sys2Proof.Machine.exec (.vacatedSelfTestDone p pass pm dm) s = .next { s with
        mem := (s.dev.testEnd s.clk s.mem p asked pass pm dm).1, dev := (s.dev.testEnd s.clk s.mem p asked pass pm dm).2 }) ∧
    (∀ p pm dm, x.tests.find? (fun y => y.1 == p) = some (p, false) → s.dev.hif.paused = false → Store.wf {} s.dev.til.phys = true →
      Store.wf 0 s.dev.til.map = true →
      (sparesSuffice (s.dev.phys p).pmSpare (repairRows pm (s.dev.phys p).pmHist) = true →
        sparesSuffice (s.dev.phys p).dmSpare (repairRows dm (s.dev.phys p).dmHist) = true → ∃ d : Dev,
        DoesMem (.vacatedSelfTestDone p true pm dm) s ((s.mem.clearDm p).loadPm p []) d ∧ (d.phys p).state = .spare ∧
        d.sys = { x with tests := x.tests.filter (fun y => y.1 != p) } ∧
        (s.dev.physOf 32 = none → d.physOf 32 = some p ∧ d.physOf 33 = s.dev.physOf 33) ∧
        (s.dev.physOf 32 ≠ none → s.dev.physOf 33 = none → d.physOf 33 = some p)) ∧
      ∃ d : Dev, Does (.vacatedSelfTestDone p false pm dm) s d ∧ (d.phys p).state = .retired ∧ d.til.map = s.dev.til.map ∧
        d.sys = { x with tests := x.tests.filter (fun y => y.1 != p) }) ∧
    (∀ o : Origin, HostOk o s →
      (∀ t, t ≤ 31 → s.dev.posActive t = true →
        (∀ p pos, s.dev.sparePick = some (p, pos) → x.evac = none → Waits (.tileEvacuate o t none) o 0x0D01 s .tileEvacuate t
          (s.dev.setSys { x with evac := some { tile := t, spare := p, pos := pos,
                                                at_ := (s.clk.tick + 16 + x.evacFrame - 1) / x.evacFrame * x.evacFrame } })) ∧
        (∀ p pos dig v, s.dev.sparePick = some (p, pos) → x.evac = none → s.dev.reloadCheck dig = .ok → s.dev.stagedOf dig = some v →
          Waits (.tileEvacuate o t (some dig)) o 0x0D01 s .tileEvacuate t (s.dev.setSys { x with evac := some {
            tile := t, spare := p, pos := pos, at_ := (s.clk.tick + 16 + x.evacFrame - 1) / x.evacFrame * x.evacFrame,
            reload := some v } })) ∧
        (∀ dig, s.dev.reloadCheck dig ≠ .ok →
          Answers (.tileEvacuate o t (some dig)) o 0x0D01 s (s.dev.reloadCheck dig) [] s.dev) ∧
        (s.dev.sparePick ≠ none → x.evac ≠ none → Answers (.tileEvacuate o t none) o 0x0D01 s .refusedBusy [] s.dev) ∧
        (s.dev.sparePick = none → Answers (.tileEvacuate o t none) o 0x0D01 s .noResource [] s.dev)) ∧
      Answers (.tileEvacuate o 32 none) o 0x0D01 s .badArg [] s.dev ∧ Answers (.tileEvacuate o 33 none) o 0x0D01 s .badArg [] s.dev ∧
      (∀ p, p ≤ 33 →
        (s.dev.spareAt 32 = some p → Waits (.tileSpareTest o p) o 0x0D02 s .tileSpareTest p
          (((s.dev.setMap 32 none).setSys { x with tests := x.tests ++ [(p, true)] }).tileMapEvt s.clk 32 none (some p) .spare)) ∧
        (s.dev.spareAt 32 ≠ some p → s.dev.spareAt 33 = some p → Waits (.tileSpareTest o p) o 0x0D02 s .tileSpareTest p
          (((s.dev.setMap 33 none).setSys { x with tests := x.tests ++ [(p, true)] }).tileMapEvt s.clk 33 none (some p) .spare)) ∧
        (s.dev.spareAt 32 ≠ some p → s.dev.spareAt 33 ≠ some p → Answers (.tileSpareTest o p) o 0x0D02 s .refusedBusy [] s.dev)) ∧
      (∀ t p pos, t ≤ 31 → s.dev.physOf t = none → s.dev.sparePick = some (p, pos) → Store.wf {} s.dev.til.phys = true →
        Store.wf 0 s.dev.til.map = true → ∃ d : Dev,
        DoesMem (.tileFill o t) s ((s.mem.clearDm p).loadPm p (x.copies.get [] t)) ((d.settle s.clk none).complete s.clk o 0x0D03 .ok []) ∧
        d.physOf t = some p ∧ d.physOf pos = none ∧ (d.phys p).state = .active) ∧
      (∀ t p pos, t ≤ 31 → s.dev.physOf t = none → s.dev.sparePick = some (p, pos) → ∃ d : Dev,
        DoesMem (.tileFill o t) s ((s.mem.clearDm p).loadPm p (x.copies.get [] t)) ((d.settle s.clk none).complete s.clk o 0x0D03 .ok [])) ∧
      (∀ t, t ≤ 31 → s.dev.sparePick = none → Answers (.tileFill o t) o 0x0D03 s .noResource [] s.dev) ∧
      (∀ row ue frame wdog qrow,
        ([20, 40, 80, 160].contains frame = true → 80 ≤ wdog → wdog ≤ 8000 → 1 ≤ qrow → qrow ≤ 15 →
          Answers (.servicePolicy o row ue frame wdog qrow) o 0x0D04 s .ok [] (s.dev.setSys { x with
            evacRow := row, evacUe := ue, evacFrame := frame, wdogTicks := wdog, qrowLimit := qrow })) ∧
        ([20, 40, 80, 160].contains frame = false → Answers (.servicePolicy o row ue frame wdog qrow) o 0x0D04 s .badArg [] s.dev)) ∧
      (∀ memory, 2 ≤ memory → Answers (.sramRowStatus o memory) o 0x0D0C s .badArg [] s.dev) ∧
      (∃ done : List RField, Answers (.sramRowStatus o 0) o 0x0D0C s .ok ((⟨2, x.qLeft.length⟩ :: x.qLeft.map (fun r => ⟨4, r⟩)) ++ done ++
        (List.range 32).map (fun b => ⟨1, 4 - x.qUsed.get 0 b⟩)) s.dev ∧ done.length = 1 + 2 * x.qDone.length) ∧
      (∃ done : List RField, Answers (.sramRowStatus o 1) o 0x0D0C s .ok ((⟨2, x.cCand.length⟩ :: x.cCand.map (fun r => ⟨4, r⟩)) ++ done ++
        (List.range 8).map (fun b => ⟨1, 4 - x.cUsed.get 0 b⟩)) s.dev ∧ done.length = 1 + 2 * x.cDone.length))

/-- IMAGE_VERIFY keeps an image that passes as a staging copy and counts one that fails; IMAGE_SLOT_WRITE invalidates the other slot until the
write ends; CTRL_FW_SWITCH and SYS_RESTART begin a restart. A fatal error of class 1 to 3 adds a record to the fatal log of 64, pulls
FATAL_N, starts a capture where none is kept, and leads to a control restart, or to a warm start where the media plane is implicated,
a control restart or a capture is in progress. The capture places its sections; a packed dump becomes READY, is offered and discarded.
Where it goes beyond the words of the rules it is the model's own reading (log entries 20, 23, 74, 75, 76, 78). -/
def Obligations.FirmwareChangesFatalErrorsAndDumps : Prop :=
  ∀ (s : State) (x : Sys), s.dev.sys = x →
    (∀ o : Origin, HostOk o s →
      (∀ addr len (v : FlashImg), s.dev.winOk false addr len = true →
        (s.dev.imageCheck v.x true = .ok → x.ash ≠ .packing → x.ash ≠ .ready → ∀ others,
          x.staged.filter (fun y => y.x.img.digest != v.x.img.digest) = others → others.length < 16 →
          (others.map (fun y => y.x.img.bytes)).foldl (· + ·) v.x.img.bytes ≤ 43 * 2 ^ 20 →
          Answers (.imageVerify o addr len v) o 0x0A13 s .ok [⟨48, v.x.img.digest⟩, ⟨1, v.x.img.typ⟩, ⟨4, v.x.img.svn⟩]
            (s.dev.setSys (if x.ash == .delivered then { x with staged := others ++ [v], ash := .empty, offer := none, env := [] }
              else { x with staged := others ++ [v] }))) ∧
        (v.x.format = false → Answers (.imageVerify o addr len v) o 0x0A13 s .badArg [] (s.dev.bump0 .klnImageReject)) ∧
        (v.x.format = true → v.x.img.typ = 1 → v.x.img.signer = 1 → v.x.bindOk = true → s.dev.kln.svn ≤ v.x.img.svn → v.x.img.svn ≤ 64 →
          v.x.sigOk = false → Answers (.imageVerify o addr len v) o 0x0A13 s .authFail [] (s.dev.bump0 .klnImageReject))) ∧
      (∀ slotB entries es, s.dev.slotEntries entries = some es → entriesOk es = true → imagesEnd es ≤ 31 * 2 ^ 20 →
        (slotB ≠ s.dev.kln.bootB → x.slotWr = none → x.pfwN = true →
          Waits (.imageSlotWrite o (b2n slotB) entries) o 0x0D05 s .imageWrite 0 (s.dev.setSys (if slotB
            then { x with slotWr := some { slotB := true, entries := es }, slotB := {} }
            else { x with slotWr := some { slotB := false, entries := es }, slotA := {} }))) ∧
        (slotB = s.dev.kln.bootB → Answers (.imageSlotWrite o (b2n slotB) entries) o 0x0D05 s .notPermitted [] s.dev) ∧
        (slotB ≠ s.dev.kln.bootB → x.slotWr ≠ none → Answers (.imageSlotWrite o (b2n slotB) entries) o 0x0D05 s .refusedBusy [] s.dev)) ∧
      (∀ w, x.slotWr = some w → Does (.imageSlotWriteDone true) s ((s.dev.setSys (if w.slotB
          then { x with slotWr := none, staged := [], slotB := { dirOk := true, entries := w.entries } }
          else { x with slotWr := none, staged := [], slotA := { dirOk := true, entries := w.entries } })).finish
            s.clk .imageWrite 0 .ok) ∧
        Does (.imageSlotWriteDone false) s (((s.dev.setSys { x with slotWr := none, staged := [] }).bump0 .sysImageWriteFail).finish
          s.clk .imageWrite 0 .checkFail)) ∧
      (∀ w, x.slotWr = some w →
        s.dev.waits = [{ kind := .imageWrite, key := 0, src := .host o, opc := 0x0D05 }] →
        Does (.imageSlotWriteDone true) s (({ s.dev.setSys (if w.slotB
          then { x with slotWr := none, staged := [], slotB := { dirOk := true, entries := w.entries } }
          else { x with slotWr := none, staged := [], slotA := { dirOk := true, entries := w.entries } }) with waits := [] }).complete
            s.clk o 0x0D05 .ok []) ∧
        Does (.imageSlotWriteDone false) s (({ (s.dev.setSys { x with slotWr := none, staged := [] }).bump0 .sysImageWriteFail with
          waits := [] }).complete s.clk o 0x0D05 .checkFail [])) ∧
      (∀ dig,
        (∀ v b c, s.dev.stagedOf dig = some v → v.x.img.typ = 2 → s.dev.bootChoice = some b → (s.dev.slotOf_ b).ctrl = some c →
          (c.x.img.digest = dig → Waits (.ctrlFwSwitch o dig) o 0x0D06 s .fwSwitch 0
            ((s.dev.setKln { s.dev.kln with ctrl := some v.x.img }).beginControl s.clk)) ∧
          (c.x.img.digest ≠ dig → Answers (.ctrlFwSwitch o dig) o 0x0D06 s .notPermitted [] s.dev)) ∧
        (∀ v, s.dev.stagedOf dig = some v → v.x.img.typ ≠ 2 → Answers (.ctrlFwSwitch o dig) o 0x0D06 s .badArg [] s.dev) ∧
        (s.dev.stagedOf dig = none → Answers (.ctrlFwSwitch o dig) o 0x0D06 s .unknownObject [] s.dev)) ∧
      Waits (.sysRestart o 0) o 0x0D07 s .sysRestart 0 (s.dev.beginControl s.clk) ∧
      Does (.sysRestart o 1) s (s.dev.askWarm 5) ∧
      (∀ kind, 2 ≤ kind → Answers (.sysRestart o kind) o 0x0D07 s .badArg [] s.dev) ∧
      (∃ d : Dev, Waits (.sysRestart o 0) o 0x0D07 s .sysRestart 0 d ∧ d.hif.paused = true ∧ d.htb.servoOn = false) ∧
      (x.inReset = none → x.ash ≠ .capturing → ∃ d : Dev, Does (.sysRestart o 1) s d ∧ d.sys.inReset = some (.warm, 5)) ∧
      Answers (.dumpStatus o) o 0x0D08 s .ok [⟨1, ashCode x.ash⟩, ⟨2, x.dumpId⟩, ⟨1, x.dumpCls⟩, ⟨4, x.rawLen⟩, ⟨4, x.envLen⟩,
        ⟨4, x.delivered⟩, ⟨1, x.log.length⟩] s.dev ∧
      (x.offer = none → (x.ash = .ready ∨ x.ash = .delivered) → Answers (.dumpOffer o) o 0x0D09 s .ok [] (s.dev.dumpOffer s.clk)) ∧
      ((x.ash = .empty ∨ x.offer ≠ none) → Answers (.dumpOffer o) o 0x0D09 s .refusedBusy [] s.dev) ∧
      (∀ id,
        (id = x.dumpId → (x.ash = .captured ∨ x.ash = .ready ∨ x.ash = .delivered) → Answers (.dumpDiscard o id) o 0x0D0A s .ok []
          ((s.dev.setSys { x with ash := .empty, offer := none, env := [] }).bump0 .sysAshDiscard)) ∧
        (id = x.dumpId → (x.ash = .capturing ∨ x.ash = .packing) → Answers (.dumpDiscard o id) o 0x0D0A s .refusedBusy [] s.dev) ∧
        (id ≠ x.dumpId → Answers (.dumpDiscard o id) o 0x0D0A s .unknownObject [] s.dev)) ∧
      (∃ fs : List RField, Answers (.fatalLogRead o) o 0x0D0B s .ok fs s.dev ∧ fs.length = 7 * x.log.length ∧
        ∀ r l, x.log = r :: l → fs.take 4 = [⟨8, r.stamp⟩, ⟨1, r.cls⟩, ⟨1, b2n r.warm⟩, ⟨2, r.dumpId⟩])) ∧
    (∀ mark row applying pc0 pc1, s.dev.ctrlRuns = true →
      (s.dev.hif.paused = false → x.wdogTicks ≤ x.wdog → Does (.watchdogExpiry mark applying pc0 pc1) s
        ((s.dev.setSys { x with wdog := 0 }).fatal s.clk 3 mark applying pc0 pc1)) ∧
      Does (.lockstepMismatch mark applying pc0 pc1) s (s.dev.fatal s.clk 1 mark applying pc0 pc1) ∧
      Does (.ctrlSramUe row mark applying pc0 pc1) s ((s.dev.setSys { x with
        cCand := if x.cCand.contains row || 32768 ≤ row then x.cCand else x.cCand ++ [row] }).fatal s.clk 2 mark applying pc0 pc1)) ∧
    (∀ (i : Instr) mark row pc0 pc1 cls, s.dev.ctrlRuns = true → x.inReset = none →
      ((i = .watchdogExpiry mark none pc0 pc1 ∧ cls = 3 ∧ s.dev.hif.paused = false ∧ x.wdogTicks ≤ x.wdog) ∨
        (i = .lockstepMismatch mark none pc0 pc1 ∧ cls = 1) ∨ (i = .ctrlSramUe row mark none pc0 pc1 ∧ cls = 2)) →
      ∀ warm fresh id, (s.dev.hif.paused || mark || x.ash == .capturing) = warm → (x.ash == .empty || x.ash == .delivered) = fresh →
        (if 65535 ≤ x.dumpId then 1 else x.dumpId + 1) = id → ∃ d : Dev,
        Does i s (if warm then d.askWarm (if s.dev.hif.paused then 6 else 3) else d.beginControl s.clk) ∧
        d.sys.fatal = true ∧ d.hif = s.dev.hif ∧
        d.sys.log = (x.log ++ ([⟨clockStamp s.clk, cls, warm, if fresh then id else 0, pc0, pc1⟩] : List FatalRec)).drop (x.log.length + 1 - 64) ∧
        (fresh = true → d.sys.ash = .capturing ∧ d.sys.dumpId = id ∧ d.sys.dumpCls = cls) ∧
        (fresh = false → d.sys.ash = x.ash ∧ d.sys.dumpId = x.dumpId) ∧
        (i = .ctrlSramUe row mark none pc0 pc1 → row < 32768 → row ∈ d.sys.cCand)) ∧
    (∀ secs all, x.ash = .capturing → ∃ m, ∃ d : Dev,
      DoesMem (.ashCaptureDone secs all) s m (match x.warmDue with
        | some c => (d.setSys { d.sys with warmDue := none }).askWarm c
        | none => if s.dev.hif.paused then d else d.ashPack) ∧
      d.sys = { x with ash := .captured, rawLen := (placeSecs secs 4096).2, complete := all && x.complete } ∧
      m.pm = s.mem.pm ∧ m.dm = s.mem.dm) ∧
    (∀ key, s.dev.kln.record.bind (·.dump) = some key → x.ash = .packing → x.contLen ≠ 0 →
      (∀ j ∈ s.dev.tmp.active, j.who ≠ .ctrl) → s.dev.tmp.waitCtrl = [] → ∃ m env, ∃ d : Dev, DoesMem .ashPackDone s m (d.dumpReady s.clk) ∧
      d.sys = { x with ash := .ready, env := env, envLen := env.length } ∧ m.pm = s.mem.pm ∧ m.dm = s.mem.dm)
end

