-- ==== Sys2Proof/Laws/State.lean ====
section
/-! SUPPORT. What each update of the device leaves as it was, field by field; and that `State`'s own updates do the same. -/
namespace Sys2Proof.Machine
open Sys2Proof

variable (d : Dev)

@[simp] theorem Dev.bumpN_waits (c : Ctr) (n : Nat) : (d.bumpN c n).waits = d.waits := rfl
@[simp] theorem Dev.bumpN_freeN (c : Ctr) (n : Nat) : (d.bumpN c n).freeN = d.freeN := rfl
@[simp] theorem Dev.bumpN_regs (c : Ctr) (n : Nat) : (d.bumpN c n).regs = d.regs := rfl
@[simp] theorem Dev.bumpN_hif (c : Ctr) (n : Nat) : (d.bumpN c n).hif = d.hif := rfl
@[simp] theorem Dev.bumpN_sch (c : Ctr) (n : Nat) : (d.bumpN c n).sch = d.sch := rfl
@[simp] theorem Dev.bumpN_hop (c : Ctr) (n : Nat) : (d.bumpN c n).hop = d.hop := rfl
@[simp] theorem Dev.bumpN_til (c : Ctr) (n : Nat) : (d.bumpN c n).til = d.til := rfl
@[simp] theorem Dev.bumpN_htb (c : Ctr) (n : Nat) : (d.bumpN c n).htb = d.htb := rfl
@[simp] theorem Dev.bumpN_oll (c : Ctr) (n : Nat) : (d.bumpN c n).oll = d.oll := rfl
@[simp] theorem Dev.bumpN_fce (c : Ctr) (n : Nat) : (d.bumpN c n).fce = d.fce := rfl
@[simp] theorem Dev.bumpN_cal (c : Ctr) (n : Nat) : (d.bumpN c n).cal = d.cal := rfl
@[simp] theorem Dev.bumpN_dram (c : Ctr) (n : Nat) : (d.bumpN c n).dram = d.dram := rfl
@[simp] theorem Dev.bumpN_eth (c : Ctr) (n : Nat) : (d.bumpN c n).eth = d.eth := rfl
@[simp] theorem Dev.bumpN_med (c : Ctr) (n : Nat) : (d.bumpN c n).med = d.med := rfl
@[simp] theorem Dev.bumpN_kln (c : Ctr) (n : Nat) : (d.bumpN c n).kln = d.kln := rfl
@[simp] theorem Dev.bumpN_tmp (c : Ctr) (n : Nat) : (d.bumpN c n).tmp = d.tmp := rfl
@[simp] theorem Dev.bumpN_sys (c : Ctr) (n : Nat) : (d.bumpN c n).sys = d.sys := rfl

@[simp] theorem Dev.bump_waits (c : Ctr) : (d.bump c).waits = d.waits := rfl
@[simp] theorem Dev.bump_freeN (c : Ctr) : (d.bump c).freeN = d.freeN := rfl
@[simp] theorem Dev.bump_regs (c : Ctr) : (d.bump c).regs = d.regs := rfl
@[simp] theorem Dev.bump_hif (c : Ctr) : (d.bump c).hif = d.hif := rfl
@[simp] theorem Dev.bump_sch (c : Ctr) : (d.bump c).sch = d.sch := rfl
@[simp] theorem Dev.bump_hop (c : Ctr) : (d.bump c).hop = d.hop := rfl
@[simp] theorem Dev.bump_til (c : Ctr) : (d.bump c).til = d.til := rfl
@[simp] theorem Dev.bump_htb (c : Ctr) : (d.bump c).htb = d.htb := rfl
@[simp] theorem Dev.bump_oll (c : Ctr) : (d.bump c).oll = d.oll := rfl
@[simp] theorem Dev.bump_fce (c : Ctr) : (d.bump c).fce = d.fce := rfl
@[simp] theorem Dev.bump_cal (c : Ctr) : (d.bump c).cal = d.cal := rfl
@[simp] theorem Dev.bump_dram (c : Ctr) : (d.bump c).dram = d.dram := rfl
@[simp] theorem Dev.bump_eth (c : Ctr) : (d.bump c).eth = d.eth := rfl
@[simp] theorem Dev.bump_med (c : Ctr) : (d.bump c).med = d.med := rfl
@[simp] theorem Dev.bump_kln (c : Ctr) : (d.bump c).kln = d.kln := rfl
@[simp] theorem Dev.bump_tmp (c : Ctr) : (d.bump c).tmp = d.tmp := rfl
@[simp] theorem Dev.bump_sys (c : Ctr) : (d.bump c).sys = d.sys := rfl

@[simp] theorem Dev.bump0_waits (e : CEv) : (d.bump0 e).waits = d.waits := rfl
@[simp] theorem Dev.bump0_freeN (e : CEv) : (d.bump0 e).freeN = d.freeN := rfl
@[simp] theorem Dev.bump0_regs (e : CEv) : (d.bump0 e).regs = d.regs := rfl
@[simp] theorem Dev.bump0_hif (e : CEv) : (d.bump0 e).hif = d.hif := rfl
@[simp] theorem Dev.bump0_sch (e : CEv) : (d.bump0 e).sch = d.sch := rfl
@[simp] theorem Dev.bump0_hop (e : CEv) : (d.bump0 e).hop = d.hop := rfl
@[simp] theorem Dev.bump0_til (e : CEv) : (d.bump0 e).til = d.til := rfl
@[simp] theorem Dev.bump0_htb (e : CEv) : (d.bump0 e).htb = d.htb := rfl
@[simp] theorem Dev.bump0_oll (e : CEv) : (d.bump0 e).oll = d.oll := rfl
@[simp] theorem Dev.bump0_fce (e : CEv) : (d.bump0 e).fce = d.fce := rfl
@[simp] theorem Dev.bump0_cal (e : CEv) : (d.bump0 e).cal = d.cal := rfl
@[simp] theorem Dev.bump0_dram (e : CEv) : (d.bump0 e).dram = d.dram := rfl
@[simp] theorem Dev.bump0_eth (e : CEv) : (d.bump0 e).eth = d.eth := rfl
@[simp] theorem Dev.bump0_med (e : CEv) : (d.bump0 e).med = d.med := rfl
@[simp] theorem Dev.bump0_kln (e : CEv) : (d.bump0 e).kln = d.kln := rfl
@[simp] theorem Dev.bump0_tmp (e : CEv) : (d.bump0 e).tmp = d.tmp := rfl
@[simp] theorem Dev.bump0_sys (e : CEv) : (d.bump0 e).sys = d.sys := rfl

@[simp] theorem Dev.bump1_waits (e : CEv) (i : Nat) : (d.bump1 e i).waits = d.waits := rfl
@[simp] theorem Dev.bump1_freeN (e : CEv) (i : Nat) : (d.bump1 e i).freeN = d.freeN := rfl
@[simp] theorem Dev.bump1_regs (e : CEv) (i : Nat) : (d.bump1 e i).regs = d.regs := rfl
@[simp] theorem Dev.bump1_hif (e : CEv) (i : Nat) : (d.bump1 e i).hif = d.hif := rfl
@[simp] theorem Dev.bump1_sch (e : CEv) (i : Nat) : (d.bump1 e i).sch = d.sch := rfl
@[simp] theorem Dev.bump1_hop (e : CEv) (i : Nat) : (d.bump1 e i).hop = d.hop := rfl
@[simp] theorem Dev.bump1_til (e : CEv) (i : Nat) : (d.bump1 e i).til = d.til := rfl
@[simp] theorem Dev.bump1_htb (e : CEv) (i : Nat) : (d.bump1 e i).htb = d.htb := rfl
@[simp] theorem Dev.bump1_oll (e : CEv) (i : Nat) : (d.bump1 e i).oll = d.oll := rfl
@[simp] theorem Dev.bump1_fce (e : CEv) (i : Nat) : (d.bump1 e i).fce = d.fce := rfl
@[simp] theorem Dev.bump1_cal (e : CEv) (i : Nat) : (d.bump1 e i).cal = d.cal := rfl
@[simp] theorem Dev.bump1_dram (e : CEv) (i : Nat) : (d.bump1 e i).dram = d.dram := rfl
@[simp] theorem Dev.bump1_eth (e : CEv) (i : Nat) : (d.bump1 e i).eth = d.eth := rfl
@[simp] theorem Dev.bump1_med (e : CEv) (i : Nat) : (d.bump1 e i).med = d.med := rfl
@[simp] theorem Dev.bump1_kln (e : CEv) (i : Nat) : (d.bump1 e i).kln = d.kln := rfl
@[simp] theorem Dev.bump1_tmp (e : CEv) (i : Nat) : (d.bump1 e i).tmp = d.tmp := rfl
@[simp] theorem Dev.bump1_sys (e : CEv) (i : Nat) : (d.bump1 e i).sys = d.sys := rfl

@[simp] theorem Dev.setRing_ctr (n : Nat) (r : Ring) : (d.setRing n r).ctr = d.ctr := rfl
@[simp] theorem Dev.setRing_waits (n : Nat) (r : Ring) : (d.setRing n r).waits = d.waits := rfl
@[simp] theorem Dev.setRing_freeN (n : Nat) (r : Ring) : (d.setRing n r).freeN = d.freeN := rfl
@[simp] theorem Dev.setRing_regs (n : Nat) (r : Ring) : (d.setRing n r).regs = d.regs := rfl
@[simp] theorem Dev.setRing_sch (n : Nat) (r : Ring) : (d.setRing n r).sch = d.sch := rfl
@[simp] theorem Dev.setRing_hop (n : Nat) (r : Ring) : (d.setRing n r).hop = d.hop := rfl
@[simp] theorem Dev.setRing_til (n : Nat) (r : Ring) : (d.setRing n r).til = d.til := rfl
@[simp] theorem Dev.setRing_htb (n : Nat) (r : Ring) : (d.setRing n r).htb = d.htb := rfl
@[simp] theorem Dev.setRing_oll (n : Nat) (r : Ring) : (d.setRing n r).oll = d.oll := rfl
@[simp] theorem Dev.setRing_fce (n : Nat) (r : Ring) : (d.setRing n r).fce = d.fce := rfl
@[simp] theorem Dev.setRing_cal (n : Nat) (r : Ring) : (d.setRing n r).cal = d.cal := rfl
@[simp] theorem Dev.setRing_dram (n : Nat) (r : Ring) : (d.setRing n r).dram = d.dram := rfl
@[simp] theorem Dev.setRing_eth (n : Nat) (r : Ring) : (d.setRing n r).eth = d.eth := rfl
@[simp] theorem Dev.setRing_med (n : Nat) (r : Ring) : (d.setRing n r).med = d.med := rfl
@[simp] theorem Dev.setRing_kln (n : Nat) (r : Ring) : (d.setRing n r).kln = d.kln := rfl
@[simp] theorem Dev.setRing_tmp (n : Nat) (r : Ring) : (d.setRing n r).tmp = d.tmp := rfl
@[simp] theorem Dev.setRing_sys (n : Nat) (r : Ring) : (d.setRing n r).sys = d.sys := rfl

@[simp] theorem Dev.modRing_ctr (n : Nat) (f : Ring → Ring) : (d.modRing n f).ctr = d.ctr := rfl
@[simp] theorem Dev.modRing_waits (n : Nat) (f : Ring → Ring) : (d.modRing n f).waits = d.waits := rfl
@[simp] theorem Dev.modRing_freeN (n : Nat) (f : Ring → Ring) : (d.modRing n f).freeN = d.freeN := rfl
@[simp] theorem Dev.modRing_regs (n : Nat) (f : Ring → Ring) : (d.modRing n f).regs = d.regs := rfl
@[simp] theorem Dev.modRing_sch (n : Nat) (f : Ring → Ring) : (d.modRing n f).sch = d.sch := rfl
@[simp] theorem Dev.modRing_hop (n : Nat) (f : Ring → Ring) : (d.modRing n f).hop = d.hop := rfl
@[simp] theorem Dev.modRing_til (n : Nat) (f : Ring → Ring) : (d.modRing n f).til = d.til := rfl
@[simp] theorem Dev.modRing_htb (n : Nat) (f : Ring → Ring) : (d.modRing n f).htb = d.htb := rfl
@[simp] theorem Dev.modRing_oll (n : Nat) (f : Ring → Ring) : (d.modRing n f).oll = d.oll := rfl
@[simp] theorem Dev.modRing_fce (n : Nat) (f : Ring → Ring) : (d.modRing n f).fce = d.fce := rfl
@[simp] theorem Dev.modRing_cal (n : Nat) (f : Ring → Ring) : (d.modRing n f).cal = d.cal := rfl
@[simp] theorem Dev.modRing_dram (n : Nat) (f : Ring → Ring) : (d.modRing n f).dram = d.dram := rfl
@[simp] theorem Dev.modRing_eth (n : Nat) (f : Ring → Ring) : (d.modRing n f).eth = d.eth := rfl
@[simp] theorem Dev.modRing_med (n : Nat) (f : Ring → Ring) : (d.modRing n f).med = d.med := rfl
@[simp] theorem Dev.modRing_kln (n : Nat) (f : Ring → Ring) : (d.modRing n f).kln = d.kln := rfl
@[simp] theorem Dev.modRing_tmp (n : Nat) (f : Ring → Ring) : (d.modRing n f).tmp = d.tmp := rfl
@[simp] theorem Dev.modRing_sys (n : Nat) (f : Ring → Ring) : (d.modRing n f).sys = d.sys := rfl

@[simp] theorem Dev.send_ctr (x : Sent) : (d.send x).ctr = d.ctr := rfl
@[simp] theorem Dev.send_waits (x : Sent) : (d.send x).waits = d.waits := rfl
@[simp] theorem Dev.send_freeN (x : Sent) : (d.send x).freeN = d.freeN := rfl
@[simp] theorem Dev.send_regs (x : Sent) : (d.send x).regs = d.regs := rfl
@[simp] theorem Dev.send_hif (x : Sent) : (d.send x).hif = { d.hif with sent := x :: d.hif.sent } := rfl
@[simp] theorem Dev.send_sch (x : Sent) : (d.send x).sch = d.sch := rfl
@[simp] theorem Dev.send_hop (x : Sent) : (d.send x).hop = d.hop := rfl
@[simp] theorem Dev.send_til (x : Sent) : (d.send x).til = d.til := rfl
@[simp] theorem Dev.send_htb (x : Sent) : (d.send x).htb = d.htb := rfl
@[simp] theorem Dev.send_oll (x : Sent) : (d.send x).oll = d.oll := rfl
@[simp] theorem Dev.send_fce (x : Sent) : (d.send x).fce = d.fce := rfl
@[simp] theorem Dev.send_cal (x : Sent) : (d.send x).cal = d.cal := rfl
@[simp] theorem Dev.send_dram (x : Sent) : (d.send x).dram = d.dram := rfl
@[simp] theorem Dev.send_eth (x : Sent) : (d.send x).eth = d.eth := rfl
@[simp] theorem Dev.send_med (x : Sent) : (d.send x).med = d.med := rfl
@[simp] theorem Dev.send_kln (x : Sent) : (d.send x).kln = d.kln := rfl
@[simp] theorem Dev.send_tmp (x : Sent) : (d.send x).tmp = d.tmp := rfl
@[simp] theorem Dev.send_sys (x : Sent) : (d.send x).sys = d.sys := rfl

@[simp] theorem Dev.setHif_ctr (x : Hif) : (d.setHif x).ctr = d.ctr := rfl
@[simp] theorem Dev.setHif_waits (x : Hif) : (d.setHif x).waits = d.waits := rfl
@[simp] theorem Dev.setHif_freeN (x : Hif) : (d.setHif x).freeN = d.freeN := rfl
@[simp] theorem Dev.setHif_regs (x : Hif) : (d.setHif x).regs = d.regs := rfl
@[simp] theorem Dev.setHif_hif (x : Hif) : (d.setHif x).hif = x := rfl
@[simp] theorem Dev.setHif_sch (x : Hif) : (d.setHif x).sch = d.sch := rfl
@[simp] theorem Dev.setHif_hop (x : Hif) : (d.setHif x).hop = d.hop := rfl
@[simp] theorem Dev.setHif_til (x : Hif) : (d.setHif x).til = d.til := rfl
@[simp] theorem Dev.setHif_htb (x : Hif) : (d.setHif x).htb = d.htb := rfl
@[simp] theorem Dev.setHif_oll (x : Hif) : (d.setHif x).oll = d.oll := rfl
@[simp] theorem Dev.setHif_fce (x : Hif) : (d.setHif x).fce = d.fce := rfl
@[simp] theorem Dev.setHif_cal (x : Hif) : (d.setHif x).cal = d.cal := rfl
@[simp] theorem Dev.setHif_dram (x : Hif) : (d.setHif x).dram = d.dram := rfl
@[simp] theorem Dev.setHif_eth (x : Hif) : (d.setHif x).eth = d.eth := rfl
@[simp] theorem Dev.setHif_med (x : Hif) : (d.setHif x).med = d.med := rfl
@[simp] theorem Dev.setHif_kln (x : Hif) : (d.setHif x).kln = d.kln := rfl
@[simp] theorem Dev.setHif_tmp (x : Hif) : (d.setHif x).tmp = d.tmp := rfl
@[simp] theorem Dev.setHif_sys (x : Hif) : (d.setHif x).sys = d.sys := rfl

@[simp] theorem Dev.await_ctr (w : Waiter) : (d.await w).ctr = d.ctr := rfl
@[simp] theorem Dev.await_waits (w : Waiter) : (d.await w).waits = d.waits ++ [w] := rfl
@[simp] theorem Dev.await_freeN (w : Waiter) : (d.await w).freeN = d.freeN := rfl
@[simp] theorem Dev.await_regs (w : Waiter) : (d.await w).regs = d.regs := rfl
@[simp] theorem Dev.await_hif (w : Waiter) : (d.await w).hif = d.hif := rfl
@[simp] theorem Dev.await_sch (w : Waiter) : (d.await w).sch = d.sch := rfl
@[simp] theorem Dev.await_hop (w : Waiter) : (d.await w).hop = d.hop := rfl
@[simp] theorem Dev.await_til (w : Waiter) : (d.await w).til = d.til := rfl
@[simp] theorem Dev.await_htb (w : Waiter) : (d.await w).htb = d.htb := rfl
@[simp] theorem Dev.await_oll (w : Waiter) : (d.await w).oll = d.oll := rfl
@[simp] theorem Dev.await_fce (w : Waiter) : (d.await w).fce = d.fce := rfl
@[simp] theorem Dev.await_cal (w : Waiter) : (d.await w).cal = d.cal := rfl
@[simp] theorem Dev.await_dram (w : Waiter) : (d.await w).dram = d.dram := rfl
@[simp] theorem Dev.await_eth (w : Waiter) : (d.await w).eth = d.eth := rfl
@[simp] theorem Dev.await_med (w : Waiter) : (d.await w).med = d.med := rfl
@[simp] theorem Dev.await_kln (w : Waiter) : (d.await w).kln = d.kln := rfl
@[simp] theorem Dev.await_tmp (w : Waiter) : (d.await w).tmp = d.tmp := rfl
@[simp] theorem Dev.await_sys (w : Waiter) : (d.await w).sys = d.sys := rfl

@[simp] theorem Dev.setHtb_ctr (x : Htb) : (d.setHtb x).ctr = d.ctr := rfl
@[simp] theorem Dev.setHtb_waits (x : Htb) : (d.setHtb x).waits = d.waits := rfl
@[simp] theorem Dev.setHtb_freeN (x : Htb) : (d.setHtb x).freeN = d.freeN := rfl
@[simp] theorem Dev.setHtb_regs (x : Htb) : (d.setHtb x).regs = d.regs := rfl
@[simp] theorem Dev.setHtb_hif (x : Htb) : (d.setHtb x).hif = d.hif := rfl
@[simp] theorem Dev.setHtb_sch (x : Htb) : (d.setHtb x).sch = d.sch := rfl
@[simp] theorem Dev.setHtb_hop (x : Htb) : (d.setHtb x).hop = d.hop := rfl
@[simp] theorem Dev.setHtb_til (x : Htb) : (d.setHtb x).til = d.til := rfl
@[simp] theorem Dev.setHtb_htb (x : Htb) : (d.setHtb x).htb = x := rfl
@[simp] theorem Dev.setHtb_oll (x : Htb) : (d.setHtb x).oll = d.oll := rfl
@[simp] theorem Dev.setHtb_fce (x : Htb) : (d.setHtb x).fce = d.fce := rfl
@[simp] theorem Dev.setHtb_cal (x : Htb) : (d.setHtb x).cal = d.cal := rfl
@[simp] theorem Dev.setHtb_dram (x : Htb) : (d.setHtb x).dram = d.dram := rfl
@[simp] theorem Dev.setHtb_eth (x : Htb) : (d.setHtb x).eth = d.eth := rfl
@[simp] theorem Dev.setHtb_med (x : Htb) : (d.setHtb x).med = d.med := rfl
@[simp] theorem Dev.setHtb_kln (x : Htb) : (d.setHtb x).kln = d.kln := rfl
@[simp] theorem Dev.setHtb_tmp (x : Htb) : (d.setHtb x).tmp = d.tmp := rfl
@[simp] theorem Dev.setHtb_sys (x : Htb) : (d.setHtb x).sys = d.sys := rfl

@[simp] theorem Dev.setAlarm_ctr (n : Nat) (a : Alarm) : (d.setAlarm n a).ctr = d.ctr := rfl
@[simp] theorem Dev.setAlarm_waits (n : Nat) (a : Alarm) : (d.setAlarm n a).waits = d.waits := rfl
@[simp] theorem Dev.setAlarm_freeN (n : Nat) (a : Alarm) : (d.setAlarm n a).freeN = d.freeN := rfl
@[simp] theorem Dev.setAlarm_regs (n : Nat) (a : Alarm) : (d.setAlarm n a).regs = d.regs := rfl
@[simp] theorem Dev.setAlarm_hif (n : Nat) (a : Alarm) : (d.setAlarm n a).hif = d.hif := rfl
@[simp] theorem Dev.setAlarm_sch (n : Nat) (a : Alarm) : (d.setAlarm n a).sch = d.sch := rfl
@[simp] theorem Dev.setAlarm_hop (n : Nat) (a : Alarm) : (d.setAlarm n a).hop = d.hop := rfl
@[simp] theorem Dev.setAlarm_til (n : Nat) (a : Alarm) : (d.setAlarm n a).til = d.til := rfl
@[simp] theorem Dev.setAlarm_oll (n : Nat) (a : Alarm) : (d.setAlarm n a).oll = d.oll := rfl
@[simp] theorem Dev.setAlarm_fce (n : Nat) (a : Alarm) : (d.setAlarm n a).fce = d.fce := rfl
@[simp] theorem Dev.setAlarm_cal (n : Nat) (a : Alarm) : (d.setAlarm n a).cal = d.cal := rfl
@[simp] theorem Dev.setAlarm_dram (n : Nat) (a : Alarm) : (d.setAlarm n a).dram = d.dram := rfl
@[simp] theorem Dev.setAlarm_eth (n : Nat) (a : Alarm) : (d.setAlarm n a).eth = d.eth := rfl
@[simp] theorem Dev.setAlarm_med (n : Nat) (a : Alarm) : (d.setAlarm n a).med = d.med := rfl
@[simp] theorem Dev.setAlarm_kln (n : Nat) (a : Alarm) : (d.setAlarm n a).kln = d.kln := rfl
@[simp] theorem Dev.setAlarm_tmp (n : Nat) (a : Alarm) : (d.setAlarm n a).tmp = d.tmp := rfl
@[simp] theorem Dev.setAlarm_sys (n : Nat) (a : Alarm) : (d.setAlarm n a).sys = d.sys := rfl

@[simp] theorem Dev.setSys_ctr (x : Sys) : (d.setSys x).ctr = d.ctr := rfl
@[simp] theorem Dev.setSys_waits (x : Sys) : (d.setSys x).waits = d.waits := rfl
@[simp] theorem Dev.setSys_freeN (x : Sys) : (d.setSys x).freeN = d.freeN := rfl
@[simp] theorem Dev.setSys_regs (x : Sys) : (d.setSys x).regs = d.regs := rfl
@[simp] theorem Dev.setSys_hif (x : Sys) : (d.setSys x).hif = d.hif := rfl
@[simp] theorem Dev.setSys_sch (x : Sys) : (d.setSys x).sch = d.sch := rfl
@[simp] theorem Dev.setSys_hop (x : Sys) : (d.setSys x).hop = d.hop := rfl
@[simp] theorem Dev.setSys_til (x : Sys) : (d.setSys x).til = d.til := rfl
@[simp] theorem Dev.setSys_htb (x : Sys) : (d.setSys x).htb = d.htb := rfl
@[simp] theorem Dev.setSys_oll (x : Sys) : (d.setSys x).oll = d.oll := rfl
@[simp] theorem Dev.setSys_fce (x : Sys) : (d.setSys x).fce = d.fce := rfl
@[simp] theorem Dev.setSys_cal (x : Sys) : (d.setSys x).cal = d.cal := rfl
@[simp] theorem Dev.setSys_dram (x : Sys) : (d.setSys x).dram = d.dram := rfl
@[simp] theorem Dev.setSys_eth (x : Sys) : (d.setSys x).eth = d.eth := rfl
@[simp] theorem Dev.setSys_med (x : Sys) : (d.setSys x).med = d.med := rfl
@[simp] theorem Dev.setSys_kln (x : Sys) : (d.setSys x).kln = d.kln := rfl
@[simp] theorem Dev.setSys_tmp (x : Sys) : (d.setSys x).tmp = d.tmp := rfl
@[simp] theorem Dev.setSys_sys (x : Sys) : (d.setSys x).sys = x := rfl

@[simp] theorem Dev.setStep_ctr (n : Nat) : (d.setStep n).ctr = d.ctr := rfl
@[simp] theorem Dev.setStep_waits (n : Nat) : (d.setStep n).waits = d.waits := rfl
@[simp] theorem Dev.setStep_freeN (n : Nat) : (d.setStep n).freeN = d.freeN := rfl
@[simp] theorem Dev.setStep_regs (n : Nat) : (d.setStep n).regs = d.regs := rfl
@[simp] theorem Dev.setStep_hif (n : Nat) : (d.setStep n).hif = d.hif := rfl
@[simp] theorem Dev.setStep_sch (n : Nat) : (d.setStep n).sch = d.sch := rfl
@[simp] theorem Dev.setStep_hop (n : Nat) : (d.setStep n).hop = d.hop := rfl
@[simp] theorem Dev.setStep_til (n : Nat) : (d.setStep n).til = d.til := rfl
@[simp] theorem Dev.setStep_htb (n : Nat) : (d.setStep n).htb = d.htb := rfl
@[simp] theorem Dev.setStep_oll (n : Nat) : (d.setStep n).oll = d.oll := rfl
@[simp] theorem Dev.setStep_fce (n : Nat) : (d.setStep n).fce = d.fce := rfl
@[simp] theorem Dev.setStep_cal (n : Nat) : (d.setStep n).cal = d.cal := rfl
@[simp] theorem Dev.setStep_dram (n : Nat) : (d.setStep n).dram = d.dram := rfl
@[simp] theorem Dev.setStep_eth (n : Nat) : (d.setStep n).eth = d.eth := rfl
@[simp] theorem Dev.setStep_med (n : Nat) : (d.setStep n).med = d.med := rfl
@[simp] theorem Dev.setStep_kln (n : Nat) : (d.setStep n).kln = d.kln := rfl
@[simp] theorem Dev.setStep_tmp (n : Nat) : (d.setStep n).tmp = d.tmp := rfl
@[simp] theorem Dev.setStep_sys (n : Nat) : (d.setStep n).sys = { d.sys with step := n } := rfl

@[simp] theorem Dev.setKln_ctr (x : Kln) : (d.setKln x).ctr = d.ctr := rfl
@[simp] theorem Dev.setKln_waits (x : Kln) : (d.setKln x).waits = d.waits := rfl
@[simp] theorem Dev.setKln_freeN (x : Kln) : (d.setKln x).freeN = d.freeN := rfl
@[simp] theorem Dev.setKln_regs (x : Kln) : (d.setKln x).regs = d.regs := rfl
@[simp] theorem Dev.setKln_hif (x : Kln) : (d.setKln x).hif = d.hif := rfl
@[simp] theorem Dev.setKln_sch (x : Kln) : (d.setKln x).sch = d.sch := rfl
@[simp] theorem Dev.setKln_hop (x : Kln) : (d.setKln x).hop = d.hop := rfl
@[simp] theorem Dev.setKln_til (x : Kln) : (d.setKln x).til = d.til := rfl
@[simp] theorem Dev.setKln_htb (x : Kln) : (d.setKln x).htb = d.htb := rfl
@[simp] theorem Dev.setKln_oll (x : Kln) : (d.setKln x).oll = d.oll := rfl
@[simp] theorem Dev.setKln_fce (x : Kln) : (d.setKln x).fce = d.fce := rfl
@[simp] theorem Dev.setKln_cal (x : Kln) : (d.setKln x).cal = d.cal := rfl
@[simp] theorem Dev.setKln_dram (x : Kln) : (d.setKln x).dram = d.dram := rfl
@[simp] theorem Dev.setKln_eth (x : Kln) : (d.setKln x).eth = d.eth := rfl
@[simp] theorem Dev.setKln_med (x : Kln) : (d.setKln x).med = d.med := rfl
@[simp] theorem Dev.setKln_kln (x : Kln) : (d.setKln x).kln = x := rfl
@[simp] theorem Dev.setKln_tmp (x : Kln) : (d.setKln x).tmp = d.tmp := rfl
@[simp] theorem Dev.setKln_sys (x : Kln) : (d.setKln x).sys = d.sys := rfl

@[simp] theorem Dev.setCtx_ctr (i : Nat) (c : KCtx) : (d.setCtx i c).ctr = d.ctr := rfl
@[simp] theorem Dev.setCtx_waits (i : Nat) (c : KCtx) : (d.setCtx i c).waits = d.waits := rfl
@[simp] theorem Dev.setCtx_freeN (i : Nat) (c : KCtx) : (d.setCtx i c).freeN = d.freeN := rfl
@[simp] theorem Dev.setCtx_regs (i : Nat) (c : KCtx) : (d.setCtx i c).regs = d.regs := rfl
@[simp] theorem Dev.setCtx_hif (i : Nat) (c : KCtx) : (d.setCtx i c).hif = d.hif := rfl
@[simp] theorem Dev.setCtx_sch (i : Nat) (c : KCtx) : (d.setCtx i c).sch = d.sch := rfl
@[simp] theorem Dev.setCtx_hop (i : Nat) (c : KCtx) : (d.setCtx i c).hop = d.hop := rfl
@[simp] theorem Dev.setCtx_til (i : Nat) (c : KCtx) : (d.setCtx i c).til = d.til := rfl
@[simp] theorem Dev.setCtx_htb (i : Nat) (c : KCtx) : (d.setCtx i c).htb = d.htb := rfl
@[simp] theorem Dev.setCtx_oll (i : Nat) (c : KCtx) : (d.setCtx i c).oll = d.oll := rfl
@[simp] theorem Dev.setCtx_fce (i : Nat) (c : KCtx) : (d.setCtx i c).fce = d.fce := rfl
@[simp] theorem Dev.setCtx_cal (i : Nat) (c : KCtx) : (d.setCtx i c).cal = d.cal := rfl
@[simp] theorem Dev.setCtx_dram (i : Nat) (c : KCtx) : (d.setCtx i c).dram = d.dram := rfl
@[simp] theorem Dev.setCtx_eth (i : Nat) (c : KCtx) : (d.setCtx i c).eth = d.eth := rfl
@[simp] theorem Dev.setCtx_med (i : Nat) (c : KCtx) : (d.setCtx i c).med = d.med := rfl
@[simp] theorem Dev.setCtx_tmp (i : Nat) (c : KCtx) : (d.setCtx i c).tmp = d.tmp := rfl
@[simp] theorem Dev.setCtx_sys (i : Nat) (c : KCtx) : (d.setCtx i c).sys = d.sys := rfl

@[simp] theorem Dev.modCtx_ctr (i : Nat) (f : KCtx → KCtx) : (d.modCtx i f).ctr = d.ctr := rfl
@[simp] theorem Dev.modCtx_waits (i : Nat) (f : KCtx → KCtx) : (d.modCtx i f).waits = d.waits := rfl
@[simp] theorem Dev.modCtx_freeN (i : Nat) (f : KCtx → KCtx) : (d.modCtx i f).freeN = d.freeN := rfl
@[simp] theorem Dev.modCtx_regs (i : Nat) (f : KCtx → KCtx) : (d.modCtx i f).regs = d.regs := rfl
@[simp] theorem Dev.modCtx_hif (i : Nat) (f : KCtx → KCtx) : (d.modCtx i f).hif = d.hif := rfl
@[simp] theorem Dev.modCtx_sch (i : Nat) (f : KCtx → KCtx) : (d.modCtx i f).sch = d.sch := rfl
@[simp] theorem Dev.modCtx_hop (i : Nat) (f : KCtx → KCtx) : (d.modCtx i f).hop = d.hop := rfl
@[simp] theorem Dev.modCtx_til (i : Nat) (f : KCtx → KCtx) : (d.modCtx i f).til = d.til := rfl
@[simp] theorem Dev.modCtx_htb (i : Nat) (f : KCtx → KCtx) : (d.modCtx i f).htb = d.htb := rfl
@[simp] theorem Dev.modCtx_oll (i : Nat) (f : KCtx → KCtx) : (d.modCtx i f).oll = d.oll := rfl
@[simp] theorem Dev.modCtx_fce (i : Nat) (f : KCtx → KCtx) : (d.modCtx i f).fce = d.fce := rfl
@[simp] theorem Dev.modCtx_cal (i : Nat) (f : KCtx → KCtx) : (d.modCtx i f).cal = d.cal := rfl
@[simp] theorem Dev.modCtx_dram (i : Nat) (f : KCtx → KCtx) : (d.modCtx i f).dram = d.dram := rfl
@[simp] theorem Dev.modCtx_eth (i : Nat) (f : KCtx → KCtx) : (d.modCtx i f).eth = d.eth := rfl
@[simp] theorem Dev.modCtx_med (i : Nat) (f : KCtx → KCtx) : (d.modCtx i f).med = d.med := rfl
@[simp] theorem Dev.modCtx_tmp (i : Nat) (f : KCtx → KCtx) : (d.modCtx i f).tmp = d.tmp := rfl
@[simp] theorem Dev.modCtx_sys (i : Nat) (f : KCtx → KCtx) : (d.modCtx i f).sys = d.sys := rfl

@[simp] theorem Dev.setSess_ctr (i : Nat) (x : Option KSess) : (d.setSess i x).ctr = d.ctr := rfl
@[simp] theorem Dev.setSess_waits (i : Nat) (x : Option KSess) : (d.setSess i x).waits = d.waits := rfl
@[simp] theorem Dev.setSess_freeN (i : Nat) (x : Option KSess) : (d.setSess i x).freeN = d.freeN := rfl
@[simp] theorem Dev.setSess_regs (i : Nat) (x : Option KSess) : (d.setSess i x).regs = d.regs := rfl
@[simp] theorem Dev.setSess_hif (i : Nat) (x : Option KSess) : (d.setSess i x).hif = d.hif := rfl
@[simp] theorem Dev.setSess_sch (i : Nat) (x : Option KSess) : (d.setSess i x).sch = d.sch := rfl
@[simp] theorem Dev.setSess_hop (i : Nat) (x : Option KSess) : (d.setSess i x).hop = d.hop := rfl
@[simp] theorem Dev.setSess_til (i : Nat) (x : Option KSess) : (d.setSess i x).til = d.til := rfl
@[simp] theorem Dev.setSess_htb (i : Nat) (x : Option KSess) : (d.setSess i x).htb = d.htb := rfl
@[simp] theorem Dev.setSess_oll (i : Nat) (x : Option KSess) : (d.setSess i x).oll = d.oll := rfl
@[simp] theorem Dev.setSess_fce (i : Nat) (x : Option KSess) : (d.setSess i x).fce = d.fce := rfl
@[simp] theorem Dev.setSess_cal (i : Nat) (x : Option KSess) : (d.setSess i x).cal = d.cal := rfl
@[simp] theorem Dev.setSess_dram (i : Nat) (x : Option KSess) : (d.setSess i x).dram = d.dram := rfl
@[simp] theorem Dev.setSess_eth (i : Nat) (x : Option KSess) : (d.setSess i x).eth = d.eth := rfl
@[simp] theorem Dev.setSess_med (i : Nat) (x : Option KSess) : (d.setSess i x).med = d.med := rfl
@[simp] theorem Dev.setSess_tmp (i : Nat) (x : Option KSess) : (d.setSess i x).tmp = d.tmp := rfl
@[simp] theorem Dev.setSess_sys (i : Nat) (x : Option KSess) : (d.setSess i x).sys = d.sys := rfl

@[simp] theorem Dev.setExp_ctr (i : Nat) (x : Option KExp) : (d.setExp i x).ctr = d.ctr := rfl
@[simp] theorem Dev.setExp_waits (i : Nat) (x : Option KExp) : (d.setExp i x).waits = d.waits := rfl
@[simp] theorem Dev.setExp_freeN (i : Nat) (x : Option KExp) : (d.setExp i x).freeN = d.freeN := rfl
@[simp] theorem Dev.setExp_regs (i : Nat) (x : Option KExp) : (d.setExp i x).regs = d.regs := rfl
@[simp] theorem Dev.setExp_hif (i : Nat) (x : Option KExp) : (d.setExp i x).hif = d.hif := rfl
@[simp] theorem Dev.setExp_sch (i : Nat) (x : Option KExp) : (d.setExp i x).sch = d.sch := rfl
@[simp] theorem Dev.setExp_hop (i : Nat) (x : Option KExp) : (d.setExp i x).hop = d.hop := rfl
@[simp] theorem Dev.setExp_til (i : Nat) (x : Option KExp) : (d.setExp i x).til = d.til := rfl
@[simp] theorem Dev.setExp_htb (i : Nat) (x : Option KExp) : (d.setExp i x).htb = d.htb := rfl
@[simp] theorem Dev.setExp_oll (i : Nat) (x : Option KExp) : (d.setExp i x).oll = d.oll := rfl
@[simp] theorem Dev.setExp_fce (i : Nat) (x : Option KExp) : (d.setExp i x).fce = d.fce := rfl
@[simp] theorem Dev.setExp_cal (i : Nat) (x : Option KExp) : (d.setExp i x).cal = d.cal := rfl
@[simp] theorem Dev.setExp_dram (i : Nat) (x : Option KExp) : (d.setExp i x).dram = d.dram := rfl
@[simp] theorem Dev.setExp_eth (i : Nat) (x : Option KExp) : (d.setExp i x).eth = d.eth := rfl
@[simp] theorem Dev.setExp_med (i : Nat) (x : Option KExp) : (d.setExp i x).med = d.med := rfl
@[simp] theorem Dev.setExp_tmp (i : Nat) (x : Option KExp) : (d.setExp i x).tmp = d.tmp := rfl
@[simp] theorem Dev.setExp_sys (i : Nat) (x : Option KExp) : (d.setExp i x).sys = d.sys := rfl

@[simp] theorem Dev.setDram_ctr (x : Dram) : (d.setDram x).ctr = d.ctr := rfl
@[simp] theorem Dev.setDram_waits (x : Dram) : (d.setDram x).waits = d.waits := rfl
@[simp] theorem Dev.setDram_freeN (x : Dram) : (d.setDram x).freeN = d.freeN := rfl
@[simp] theorem Dev.setDram_regs (x : Dram) : (d.setDram x).regs = d.regs := rfl
@[simp] theorem Dev.setDram_hif (x : Dram) : (d.setDram x).hif = d.hif := rfl
@[simp] theorem Dev.setDram_sch (x : Dram) : (d.setDram x).sch = d.sch := rfl
@[simp] theorem Dev.setDram_hop (x : Dram) : (d.setDram x).hop = d.hop := rfl
@[simp] theorem Dev.setDram_til (x : Dram) : (d.setDram x).til = d.til := rfl
@[simp] theorem Dev.setDram_htb (x : Dram) : (d.setDram x).htb = d.htb := rfl
@[simp] theorem Dev.setDram_oll (x : Dram) : (d.setDram x).oll = d.oll := rfl
@[simp] theorem Dev.setDram_fce (x : Dram) : (d.setDram x).fce = d.fce := rfl
@[simp] theorem Dev.setDram_cal (x : Dram) : (d.setDram x).cal = d.cal := rfl
@[simp] theorem Dev.setDram_dram (x : Dram) : (d.setDram x).dram = x := rfl
@[simp] theorem Dev.setDram_eth (x : Dram) : (d.setDram x).eth = d.eth := rfl
@[simp] theorem Dev.setDram_med (x : Dram) : (d.setDram x).med = d.med := rfl
@[simp] theorem Dev.setDram_kln (x : Dram) : (d.setDram x).kln = d.kln := rfl
@[simp] theorem Dev.setDram_tmp (x : Dram) : (d.setDram x).tmp = d.tmp := rfl
@[simp] theorem Dev.setDram_sys (x : Dram) : (d.setDram x).sys = d.sys := rfl

@[simp] theorem Dev.setRank_ctr (r : Nat) (x : Rank) : (d.setRank r x).ctr = d.ctr := rfl
@[simp] theorem Dev.setRank_waits (r : Nat) (x : Rank) : (d.setRank r x).waits = d.waits := rfl
@[simp] theorem Dev.setRank_freeN (r : Nat) (x : Rank) : (d.setRank r x).freeN = d.freeN := rfl
@[simp] theorem Dev.setRank_regs (r : Nat) (x : Rank) : (d.setRank r x).regs = d.regs := rfl
@[simp] theorem Dev.setRank_hif (r : Nat) (x : Rank) : (d.setRank r x).hif = d.hif := rfl
@[simp] theorem Dev.setRank_sch (r : Nat) (x : Rank) : (d.setRank r x).sch = d.sch := rfl
@[simp] theorem Dev.setRank_hop (r : Nat) (x : Rank) : (d.setRank r x).hop = d.hop := rfl
@[simp] theorem Dev.setRank_til (r : Nat) (x : Rank) : (d.setRank r x).til = d.til := rfl
@[simp] theorem Dev.setRank_htb (r : Nat) (x : Rank) : (d.setRank r x).htb = d.htb := rfl
@[simp] theorem Dev.setRank_oll (r : Nat) (x : Rank) : (d.setRank r x).oll = d.oll := rfl
@[simp] theorem Dev.setRank_fce (r : Nat) (x : Rank) : (d.setRank r x).fce = d.fce := rfl
@[simp] theorem Dev.setRank_cal (r : Nat) (x : Rank) : (d.setRank r x).cal = d.cal := rfl
@[simp] theorem Dev.setRank_eth (r : Nat) (x : Rank) : (d.setRank r x).eth = d.eth := rfl
@[simp] theorem Dev.setRank_med (r : Nat) (x : Rank) : (d.setRank r x).med = d.med := rfl
@[simp] theorem Dev.setRank_kln (r : Nat) (x : Rank) : (d.setRank r x).kln = d.kln := rfl
@[simp] theorem Dev.setRank_tmp (r : Nat) (x : Rank) : (d.setRank r x).tmp = d.tmp := rfl
@[simp] theorem Dev.setRank_sys (r : Nat) (x : Rank) : (d.setRank r x).sys = d.sys := rfl

@[simp] theorem Dev.modRank_ctr (r : Nat) (f : Rank → Rank) : (d.modRank r f).ctr = d.ctr := rfl
@[simp] theorem Dev.modRank_waits (r : Nat) (f : Rank → Rank) : (d.modRank r f).waits = d.waits := rfl
@[simp] theorem Dev.modRank_freeN (r : Nat) (f : Rank → Rank) : (d.modRank r f).freeN = d.freeN := rfl
@[simp] theorem Dev.modRank_regs (r : Nat) (f : Rank → Rank) : (d.modRank r f).regs = d.regs := rfl
@[simp] theorem Dev.modRank_hif (r : Nat) (f : Rank → Rank) : (d.modRank r f).hif = d.hif := rfl
@[simp] theorem Dev.modRank_sch (r : Nat) (f : Rank → Rank) : (d.modRank r f).sch = d.sch := rfl
@[simp] theorem Dev.modRank_hop (r : Nat) (f : Rank → Rank) : (d.modRank r f).hop = d.hop := rfl
@[simp] theorem Dev.modRank_til (r : Nat) (f : Rank → Rank) : (d.modRank r f).til = d.til := rfl
@[simp] theorem Dev.modRank_htb (r : Nat) (f : Rank → Rank) : (d.modRank r f).htb = d.htb := rfl
@[simp] theorem Dev.modRank_oll (r : Nat) (f : Rank → Rank) : (d.modRank r f).oll = d.oll := rfl
@[simp] theorem Dev.modRank_fce (r : Nat) (f : Rank → Rank) : (d.modRank r f).fce = d.fce := rfl
@[simp] theorem Dev.modRank_cal (r : Nat) (f : Rank → Rank) : (d.modRank r f).cal = d.cal := rfl
@[simp] theorem Dev.modRank_eth (r : Nat) (f : Rank → Rank) : (d.modRank r f).eth = d.eth := rfl
@[simp] theorem Dev.modRank_med (r : Nat) (f : Rank → Rank) : (d.modRank r f).med = d.med := rfl
@[simp] theorem Dev.modRank_kln (r : Nat) (f : Rank → Rank) : (d.modRank r f).kln = d.kln := rfl
@[simp] theorem Dev.modRank_tmp (r : Nat) (f : Rank → Rank) : (d.modRank r f).tmp = d.tmp := rfl
@[simp] theorem Dev.modRank_sys (r : Nat) (f : Rank → Rank) : (d.modRank r f).sys = d.sys := rfl

@[simp] theorem Dev.setPoison_ctr (a : Nat) (v : Bool) : (d.setPoison a v).ctr = d.ctr := rfl
@[simp] theorem Dev.setPoison_waits (a : Nat) (v : Bool) : (d.setPoison a v).waits = d.waits := rfl
@[simp] theorem Dev.setPoison_freeN (a : Nat) (v : Bool) : (d.setPoison a v).freeN = d.freeN := rfl
@[simp] theorem Dev.setPoison_regs (a : Nat) (v : Bool) : (d.setPoison a v).regs = d.regs := rfl
@[simp] theorem Dev.setPoison_hif (a : Nat) (v : Bool) : (d.setPoison a v).hif = d.hif := rfl
@[simp] theorem Dev.setPoison_sch (a : Nat) (v : Bool) : (d.setPoison a v).sch = d.sch := rfl
@[simp] theorem Dev.setPoison_hop (a : Nat) (v : Bool) : (d.setPoison a v).hop = d.hop := rfl
@[simp] theorem Dev.setPoison_til (a : Nat) (v : Bool) : (d.setPoison a v).til = d.til := rfl
@[simp] theorem Dev.setPoison_htb (a : Nat) (v : Bool) : (d.setPoison a v).htb = d.htb := rfl
@[simp] theorem Dev.setPoison_oll (a : Nat) (v : Bool) : (d.setPoison a v).oll = d.oll := rfl
@[simp] theorem Dev.setPoison_fce (a : Nat) (v : Bool) : (d.setPoison a v).fce = d.fce := rfl
@[simp] theorem Dev.setPoison_cal (a : Nat) (v : Bool) : (d.setPoison a v).cal = d.cal := rfl
@[simp] theorem Dev.setPoison_eth (a : Nat) (v : Bool) : (d.setPoison a v).eth = d.eth := rfl
@[simp] theorem Dev.setPoison_med (a : Nat) (v : Bool) : (d.setPoison a v).med = d.med := rfl
@[simp] theorem Dev.setPoison_kln (a : Nat) (v : Bool) : (d.setPoison a v).kln = d.kln := rfl
@[simp] theorem Dev.setPoison_tmp (a : Nat) (v : Bool) : (d.setPoison a v).tmp = d.tmp := rfl
@[simp] theorem Dev.setPoison_sys (a : Nat) (v : Bool) : (d.setPoison a v).sys = d.sys := rfl

@[simp] theorem Dev.setCal_ctr (x : Cal) : (d.setCal x).ctr = d.ctr := rfl
@[simp] theorem Dev.setCal_waits (x : Cal) : (d.setCal x).waits = d.waits := rfl
@[simp] theorem Dev.setCal_freeN (x : Cal) : (d.setCal x).freeN = d.freeN := rfl
@[simp] theorem Dev.setCal_regs (x : Cal) : (d.setCal x).regs = d.regs := rfl
@[simp] theorem Dev.setCal_hif (x : Cal) : (d.setCal x).hif = d.hif := rfl
@[simp] theorem Dev.setCal_sch (x : Cal) : (d.setCal x).sch = d.sch := rfl
@[simp] theorem Dev.setCal_hop (x : Cal) : (d.setCal x).hop = d.hop := rfl
@[simp] theorem Dev.setCal_til (x : Cal) : (d.setCal x).til = d.til := rfl
@[simp] theorem Dev.setCal_htb (x : Cal) : (d.setCal x).htb = d.htb := rfl
@[simp] theorem Dev.setCal_oll (x : Cal) : (d.setCal x).oll = d.oll := rfl
@[simp] theorem Dev.setCal_fce (x : Cal) : (d.setCal x).fce = d.fce := rfl
@[simp] theorem Dev.setCal_cal (x : Cal) : (d.setCal x).cal = x := rfl
@[simp] theorem Dev.setCal_dram (x : Cal) : (d.setCal x).dram = d.dram := rfl
@[simp] theorem Dev.setCal_eth (x : Cal) : (d.setCal x).eth = d.eth := rfl
@[simp] theorem Dev.setCal_med (x : Cal) : (d.setCal x).med = d.med := rfl
@[simp] theorem Dev.setCal_kln (x : Cal) : (d.setCal x).kln = d.kln := rfl
@[simp] theorem Dev.setCal_tmp (x : Cal) : (d.setCal x).tmp = d.tmp := rfl
@[simp] theorem Dev.setCal_sys (x : Cal) : (d.setCal x).sys = d.sys := rfl

@[simp] theorem Dev.setItem_ctr (n : Nat) (x : CalItem) : (d.setItem n x).ctr = d.ctr := rfl
@[simp] theorem Dev.setItem_waits (n : Nat) (x : CalItem) : (d.setItem n x).waits = d.waits := rfl
@[simp] theorem Dev.setItem_freeN (n : Nat) (x : CalItem) : (d.setItem n x).freeN = d.freeN := rfl
@[simp] theorem Dev.setItem_regs (n : Nat) (x : CalItem) : (d.setItem n x).regs = d.regs := rfl
@[simp] theorem Dev.setItem_hif (n : Nat) (x : CalItem) : (d.setItem n x).hif = d.hif := rfl
@[simp] theorem Dev.setItem_sch (n : Nat) (x : CalItem) : (d.setItem n x).sch = d.sch := rfl
@[simp] theorem Dev.setItem_hop (n : Nat) (x : CalItem) : (d.setItem n x).hop = d.hop := rfl
@[simp] theorem Dev.setItem_til (n : Nat) (x : CalItem) : (d.setItem n x).til = d.til := rfl
@[simp] theorem Dev.setItem_htb (n : Nat) (x : CalItem) : (d.setItem n x).htb = d.htb := rfl
@[simp] theorem Dev.setItem_oll (n : Nat) (x : CalItem) : (d.setItem n x).oll = d.oll := rfl
@[simp] theorem Dev.setItem_fce (n : Nat) (x : CalItem) : (d.setItem n x).fce = d.fce := rfl
@[simp] theorem Dev.setItem_dram (n : Nat) (x : CalItem) : (d.setItem n x).dram = d.dram := rfl
@[simp] theorem Dev.setItem_eth (n : Nat) (x : CalItem) : (d.setItem n x).eth = d.eth := rfl
@[simp] theorem Dev.setItem_med (n : Nat) (x : CalItem) : (d.setItem n x).med = d.med := rfl
@[simp] theorem Dev.setItem_kln (n : Nat) (x : CalItem) : (d.setItem n x).kln = d.kln := rfl
@[simp] theorem Dev.setItem_tmp (n : Nat) (x : CalItem) : (d.setItem n x).tmp = d.tmp := rfl
@[simp] theorem Dev.setItem_sys (n : Nat) (x : CalItem) : (d.setItem n x).sys = d.sys := rfl

@[simp] theorem Dev.modItem_ctr (n : Nat) (f : CalItem → CalItem) : (d.modItem n f).ctr = d.ctr := rfl
@[simp] theorem Dev.modItem_waits (n : Nat) (f : CalItem → CalItem) : (d.modItem n f).waits = d.waits := rfl
@[simp] theorem Dev.modItem_freeN (n : Nat) (f : CalItem → CalItem) : (d.modItem n f).freeN = d.freeN := rfl
@[simp] theorem Dev.modItem_regs (n : Nat) (f : CalItem → CalItem) : (d.modItem n f).regs = d.regs := rfl
@[simp] theorem Dev.modItem_hif (n : Nat) (f : CalItem → CalItem) : (d.modItem n f).hif = d.hif := rfl
@[simp] theorem Dev.modItem_sch (n : Nat) (f : CalItem → CalItem) : (d.modItem n f).sch = d.sch := rfl
@[simp] theorem Dev.modItem_hop (n : Nat) (f : CalItem → CalItem) : (d.modItem n f).hop = d.hop := rfl
@[simp] theorem Dev.modItem_til (n : Nat) (f : CalItem → CalItem) : (d.modItem n f).til = d.til := rfl
@[simp] theorem Dev.modItem_htb (n : Nat) (f : CalItem → CalItem) : (d.modItem n f).htb = d.htb := rfl
@[simp] theorem Dev.modItem_oll (n : Nat) (f : CalItem → CalItem) : (d.modItem n f).oll = d.oll := rfl
@[simp] theorem Dev.modItem_fce (n : Nat) (f : CalItem → CalItem) : (d.modItem n f).fce = d.fce := rfl
@[simp] theorem Dev.modItem_dram (n : Nat) (f : CalItem → CalItem) : (d.modItem n f).dram = d.dram := rfl
@[simp] theorem Dev.modItem_eth (n : Nat) (f : CalItem → CalItem) : (d.modItem n f).eth = d.eth := rfl
@[simp] theorem Dev.modItem_med (n : Nat) (f : CalItem → CalItem) : (d.modItem n f).med = d.med := rfl
@[simp] theorem Dev.modItem_kln (n : Nat) (f : CalItem → CalItem) : (d.modItem n f).kln = d.kln := rfl
@[simp] theorem Dev.modItem_tmp (n : Nat) (f : CalItem → CalItem) : (d.modItem n f).tmp = d.tmp := rfl
@[simp] theorem Dev.modItem_sys (n : Nat) (f : CalItem → CalItem) : (d.modItem n f).sys = d.sys := rfl

@[simp] theorem Dev.setEth_ctr (x : Eth) : (d.setEth x).ctr = d.ctr := rfl
@[simp] theorem Dev.setEth_waits (x : Eth) : (d.setEth x).waits = d.waits := rfl
@[simp] theorem Dev.setEth_freeN (x : Eth) : (d.setEth x).freeN = d.freeN := rfl
@[simp] theorem Dev.setEth_regs (x : Eth) : (d.setEth x).regs = d.regs := rfl
@[simp] theorem Dev.setEth_hif (x : Eth) : (d.setEth x).hif = d.hif := rfl
@[simp] theorem Dev.setEth_sch (x : Eth) : (d.setEth x).sch = d.sch := rfl
@[simp] theorem Dev.setEth_hop (x : Eth) : (d.setEth x).hop = d.hop := rfl
@[simp] theorem Dev.setEth_til (x : Eth) : (d.setEth x).til = d.til := rfl
@[simp] theorem Dev.setEth_htb (x : Eth) : (d.setEth x).htb = d.htb := rfl
@[simp] theorem Dev.setEth_oll (x : Eth) : (d.setEth x).oll = d.oll := rfl
@[simp] theorem Dev.setEth_fce (x : Eth) : (d.setEth x).fce = d.fce := rfl
@[simp] theorem Dev.setEth_cal (x : Eth) : (d.setEth x).cal = d.cal := rfl
@[simp] theorem Dev.setEth_dram (x : Eth) : (d.setEth x).dram = d.dram := rfl
@[simp] theorem Dev.setEth_eth (x : Eth) : (d.setEth x).eth = x := rfl
@[simp] theorem Dev.setEth_med (x : Eth) : (d.setEth x).med = d.med := rfl
@[simp] theorem Dev.setEth_kln (x : Eth) : (d.setEth x).kln = d.kln := rfl
@[simp] theorem Dev.setEth_tmp (x : Eth) : (d.setEth x).tmp = d.tmp := rfl
@[simp] theorem Dev.setEth_sys (x : Eth) : (d.setEth x).sys = d.sys := rfl

@[simp] theorem Dev.setPort_ctr (p : Nat) (x : EPort) : (d.setPort p x).ctr = d.ctr := rfl
@[simp] theorem Dev.setPort_waits (p : Nat) (x : EPort) : (d.setPort p x).waits = d.waits := rfl
@[simp] theorem Dev.setPort_freeN (p : Nat) (x : EPort) : (d.setPort p x).freeN = d.freeN := rfl
@[simp] theorem Dev.setPort_regs (p : Nat) (x : EPort) : (d.setPort p x).regs = d.regs := rfl
@[simp] theorem Dev.setPort_hif (p : Nat) (x : EPort) : (d.setPort p x).hif = d.hif := rfl
@[simp] theorem Dev.setPort_sch (p : Nat) (x : EPort) : (d.setPort p x).sch = d.sch := rfl
@[simp] theorem Dev.setPort_hop (p : Nat) (x : EPort) : (d.setPort p x).hop = d.hop := rfl
@[simp] theorem Dev.setPort_til (p : Nat) (x : EPort) : (d.setPort p x).til = d.til := rfl
@[simp] theorem Dev.setPort_htb (p : Nat) (x : EPort) : (d.setPort p x).htb = d.htb := rfl
@[simp] theorem Dev.setPort_oll (p : Nat) (x : EPort) : (d.setPort p x).oll = d.oll := rfl
@[simp] theorem Dev.setPort_fce (p : Nat) (x : EPort) : (d.setPort p x).fce = d.fce := rfl
@[simp] theorem Dev.setPort_cal (p : Nat) (x : EPort) : (d.setPort p x).cal = d.cal := rfl
@[simp] theorem Dev.setPort_dram (p : Nat) (x : EPort) : (d.setPort p x).dram = d.dram := rfl
@[simp] theorem Dev.setPort_med (p : Nat) (x : EPort) : (d.setPort p x).med = d.med := rfl
@[simp] theorem Dev.setPort_kln (p : Nat) (x : EPort) : (d.setPort p x).kln = d.kln := rfl
@[simp] theorem Dev.setPort_tmp (p : Nat) (x : EPort) : (d.setPort p x).tmp = d.tmp := rfl
@[simp] theorem Dev.setPort_sys (p : Nat) (x : EPort) : (d.setPort p x).sys = d.sys := rfl

@[simp] theorem Dev.modPort_ctr (p : Nat) (f : EPort → EPort) : (d.modPort p f).ctr = d.ctr := rfl
@[simp] theorem Dev.modPort_waits (p : Nat) (f : EPort → EPort) : (d.modPort p f).waits = d.waits := rfl
@[simp] theorem Dev.modPort_freeN (p : Nat) (f : EPort → EPort) : (d.modPort p f).freeN = d.freeN := rfl
@[simp] theorem Dev.modPort_regs (p : Nat) (f : EPort → EPort) : (d.modPort p f).regs = d.regs := rfl
@[simp] theorem Dev.modPort_hif (p : Nat) (f : EPort → EPort) : (d.modPort p f).hif = d.hif := rfl
@[simp] theorem Dev.modPort_sch (p : Nat) (f : EPort → EPort) : (d.modPort p f).sch = d.sch := rfl
@[simp] theorem Dev.modPort_hop (p : Nat) (f : EPort → EPort) : (d.modPort p f).hop = d.hop := rfl
@[simp] theorem Dev.modPort_til (p : Nat) (f : EPort → EPort) : (d.modPort p f).til = d.til := rfl
@[simp] theorem Dev.modPort_htb (p : Nat) (f : EPort → EPort) : (d.modPort p f).htb = d.htb := rfl
@[simp] theorem Dev.modPort_oll (p : Nat) (f : EPort → EPort) : (d.modPort p f).oll = d.oll := rfl
@[simp] theorem Dev.modPort_fce (p : Nat) (f : EPort → EPort) : (d.modPort p f).fce = d.fce := rfl
@[simp] theorem Dev.modPort_cal (p : Nat) (f : EPort → EPort) : (d.modPort p f).cal = d.cal := rfl
@[simp] theorem Dev.modPort_dram (p : Nat) (f : EPort → EPort) : (d.modPort p f).dram = d.dram := rfl
@[simp] theorem Dev.modPort_med (p : Nat) (f : EPort → EPort) : (d.modPort p f).med = d.med := rfl
@[simp] theorem Dev.modPort_kln (p : Nat) (f : EPort → EPort) : (d.modPort p f).kln = d.kln := rfl
@[simp] theorem Dev.modPort_tmp (p : Nat) (f : EPort → EPort) : (d.modPort p f).tmp = d.tmp := rfl
@[simp] theorem Dev.modPort_sys (p : Nat) (f : EPort → EPort) : (d.modPort p f).sys = d.sys := rfl

@[simp] theorem Dev.setTxq_ctr (p q : Nat) (x : EQueue) : (d.setTxq p q x).ctr = d.ctr := rfl
@[simp] theorem Dev.setTxq_waits (p q : Nat) (x : EQueue) : (d.setTxq p q x).waits = d.waits := rfl
@[simp] theorem Dev.setTxq_freeN (p q : Nat) (x : EQueue) : (d.setTxq p q x).freeN = d.freeN := rfl
@[simp] theorem Dev.setTxq_regs (p q : Nat) (x : EQueue) : (d.setTxq p q x).regs = d.regs := rfl
@[simp] theorem Dev.setTxq_hif (p q : Nat) (x : EQueue) : (d.setTxq p q x).hif = d.hif := rfl
@[simp] theorem Dev.setTxq_sch (p q : Nat) (x : EQueue) : (d.setTxq p q x).sch = d.sch := rfl
@[simp] theorem Dev.setTxq_hop (p q : Nat) (x : EQueue) : (d.setTxq p q x).hop = d.hop := rfl
@[simp] theorem Dev.setTxq_til (p q : Nat) (x : EQueue) : (d.setTxq p q x).til = d.til := rfl
@[simp] theorem Dev.setTxq_htb (p q : Nat) (x : EQueue) : (d.setTxq p q x).htb = d.htb := rfl
@[simp] theorem Dev.setTxq_oll (p q : Nat) (x : EQueue) : (d.setTxq p q x).oll = d.oll := rfl
@[simp] theorem Dev.setTxq_fce (p q : Nat) (x : EQueue) : (d.setTxq p q x).fce = d.fce := rfl
@[simp] theorem Dev.setTxq_cal (p q : Nat) (x : EQueue) : (d.setTxq p q x).cal = d.cal := rfl
@[simp] theorem Dev.setTxq_dram (p q : Nat) (x : EQueue) : (d.setTxq p q x).dram = d.dram := rfl
@[simp] theorem Dev.setTxq_med (p q : Nat) (x : EQueue) : (d.setTxq p q x).med = d.med := rfl
@[simp] theorem Dev.setTxq_kln (p q : Nat) (x : EQueue) : (d.setTxq p q x).kln = d.kln := rfl
@[simp] theorem Dev.setTxq_tmp (p q : Nat) (x : EQueue) : (d.setTxq p q x).tmp = d.tmp := rfl
@[simp] theorem Dev.setTxq_sys (p q : Nat) (x : EQueue) : (d.setTxq p q x).sys = d.sys := rfl

@[simp] theorem Dev.modTxq_ctr (p q : Nat) (f : EQueue → EQueue) : (d.modTxq p q f).ctr = d.ctr := rfl
@[simp] theorem Dev.modTxq_waits (p q : Nat) (f : EQueue → EQueue) : (d.modTxq p q f).waits = d.waits := rfl
@[simp] theorem Dev.modTxq_freeN (p q : Nat) (f : EQueue → EQueue) : (d.modTxq p q f).freeN = d.freeN := rfl
@[simp] theorem Dev.modTxq_regs (p q : Nat) (f : EQueue → EQueue) : (d.modTxq p q f).regs = d.regs := rfl
@[simp] theorem Dev.modTxq_hif (p q : Nat) (f : EQueue → EQueue) : (d.modTxq p q f).hif = d.hif := rfl
@[simp] theorem Dev.modTxq_sch (p q : Nat) (f : EQueue → EQueue) : (d.modTxq p q f).sch = d.sch := rfl
@[simp] theorem Dev.modTxq_hop (p q : Nat) (f : EQueue → EQueue) : (d.modTxq p q f).hop = d.hop := rfl
@[simp] theorem Dev.modTxq_til (p q : Nat) (f : EQueue → EQueue) : (d.modTxq p q f).til = d.til := rfl
@[simp] theorem Dev.modTxq_htb (p q : Nat) (f : EQueue → EQueue) : (d.modTxq p q f).htb = d.htb := rfl
@[simp] theorem Dev.modTxq_oll (p q : Nat) (f : EQueue → EQueue) : (d.modTxq p q f).oll = d.oll := rfl
@[simp] theorem Dev.modTxq_fce (p q : Nat) (f : EQueue → EQueue) : (d.modTxq p q f).fce = d.fce := rfl
@[simp] theorem Dev.modTxq_cal (p q : Nat) (f : EQueue → EQueue) : (d.modTxq p q f).cal = d.cal := rfl
@[simp] theorem Dev.modTxq_dram (p q : Nat) (f : EQueue → EQueue) : (d.modTxq p q f).dram = d.dram := rfl
@[simp] theorem Dev.modTxq_med (p q : Nat) (f : EQueue → EQueue) : (d.modTxq p q f).med = d.med := rfl
@[simp] theorem Dev.modTxq_kln (p q : Nat) (f : EQueue → EQueue) : (d.modTxq p q f).kln = d.kln := rfl
@[simp] theorem Dev.modTxq_tmp (p q : Nat) (f : EQueue → EQueue) : (d.modTxq p q f).tmp = d.tmp := rfl
@[simp] theorem Dev.modTxq_sys (p q : Nat) (f : EQueue → EQueue) : (d.modTxq p q f).sys = d.sys := rfl

@[simp] theorem Dev.setFlow_ctr (h : Nat) (x : Option Flow) : (d.setFlow h x).ctr = d.ctr := rfl
@[simp] theorem Dev.setFlow_waits (h : Nat) (x : Option Flow) : (d.setFlow h x).waits = d.waits := rfl
@[simp] theorem Dev.setFlow_freeN (h : Nat) (x : Option Flow) : (d.setFlow h x).freeN = d.freeN := rfl
@[simp] theorem Dev.setFlow_regs (h : Nat) (x : Option Flow) : (d.setFlow h x).regs = d.regs := rfl
@[simp] theorem Dev.setFlow_hif (h : Nat) (x : Option Flow) : (d.setFlow h x).hif = d.hif := rfl
@[simp] theorem Dev.setFlow_sch (h : Nat) (x : Option Flow) : (d.setFlow h x).sch = d.sch := rfl
@[simp] theorem Dev.setFlow_hop (h : Nat) (x : Option Flow) : (d.setFlow h x).hop = d.hop := rfl
@[simp] theorem Dev.setFlow_til (h : Nat) (x : Option Flow) : (d.setFlow h x).til = d.til := rfl
@[simp] theorem Dev.setFlow_htb (h : Nat) (x : Option Flow) : (d.setFlow h x).htb = d.htb := rfl
@[simp] theorem Dev.setFlow_oll (h : Nat) (x : Option Flow) : (d.setFlow h x).oll = d.oll := rfl
@[simp] theorem Dev.setFlow_fce (h : Nat) (x : Option Flow) : (d.setFlow h x).fce = d.fce := rfl
@[simp] theorem Dev.setFlow_cal (h : Nat) (x : Option Flow) : (d.setFlow h x).cal = d.cal := rfl
@[simp] theorem Dev.setFlow_dram (h : Nat) (x : Option Flow) : (d.setFlow h x).dram = d.dram := rfl
@[simp] theorem Dev.setFlow_med (h : Nat) (x : Option Flow) : (d.setFlow h x).med = d.med := rfl
@[simp] theorem Dev.setFlow_kln (h : Nat) (x : Option Flow) : (d.setFlow h x).kln = d.kln := rfl
@[simp] theorem Dev.setFlow_tmp (h : Nat) (x : Option Flow) : (d.setFlow h x).tmp = d.tmp := rfl
@[simp] theorem Dev.setFlow_sys (h : Nat) (x : Option Flow) : (d.setFlow h x).sys = d.sys := rfl

@[simp] theorem Dev.setPhys_ctr (p : Nat) (x : Phys) : (d.setPhys p x).ctr = d.ctr := rfl
@[simp] theorem Dev.setPhys_waits (p : Nat) (x : Phys) : (d.setPhys p x).waits = d.waits := rfl
@[simp] theorem Dev.setPhys_freeN (p : Nat) (x : Phys) : (d.setPhys p x).freeN = d.freeN := rfl
@[simp] theorem Dev.setPhys_regs (p : Nat) (x : Phys) : (d.setPhys p x).regs = d.regs := rfl
@[simp] theorem Dev.setPhys_hif (p : Nat) (x : Phys) : (d.setPhys p x).hif = d.hif := rfl
@[simp] theorem Dev.setPhys_sch (p : Nat) (x : Phys) : (d.setPhys p x).sch = d.sch := rfl
@[simp] theorem Dev.setPhys_hop (p : Nat) (x : Phys) : (d.setPhys p x).hop = d.hop := rfl
@[simp] theorem Dev.setPhys_htb (p : Nat) (x : Phys) : (d.setPhys p x).htb = d.htb := rfl
@[simp] theorem Dev.setPhys_oll (p : Nat) (x : Phys) : (d.setPhys p x).oll = d.oll := rfl
@[simp] theorem Dev.setPhys_fce (p : Nat) (x : Phys) : (d.setPhys p x).fce = d.fce := rfl
@[simp] theorem Dev.setPhys_cal (p : Nat) (x : Phys) : (d.setPhys p x).cal = d.cal := rfl
@[simp] theorem Dev.setPhys_dram (p : Nat) (x : Phys) : (d.setPhys p x).dram = d.dram := rfl
@[simp] theorem Dev.setPhys_eth (p : Nat) (x : Phys) : (d.setPhys p x).eth = d.eth := rfl
@[simp] theorem Dev.setPhys_med (p : Nat) (x : Phys) : (d.setPhys p x).med = d.med := rfl
@[simp] theorem Dev.setPhys_kln (p : Nat) (x : Phys) : (d.setPhys p x).kln = d.kln := rfl
@[simp] theorem Dev.setPhys_tmp (p : Nat) (x : Phys) : (d.setPhys p x).tmp = d.tmp := rfl
@[simp] theorem Dev.setPhys_sys (p : Nat) (x : Phys) : (d.setPhys p x).sys = d.sys := rfl

@[simp] theorem Dev.modPhys_ctr (p : Nat) (f : Phys → Phys) : (d.modPhys p f).ctr = d.ctr := rfl
@[simp] theorem Dev.modPhys_waits (p : Nat) (f : Phys → Phys) : (d.modPhys p f).waits = d.waits := rfl
@[simp] theorem Dev.modPhys_freeN (p : Nat) (f : Phys → Phys) : (d.modPhys p f).freeN = d.freeN := rfl
@[simp] theorem Dev.modPhys_regs (p : Nat) (f : Phys → Phys) : (d.modPhys p f).regs = d.regs := rfl
@[simp] theorem Dev.modPhys_hif (p : Nat) (f : Phys → Phys) : (d.modPhys p f).hif = d.hif := rfl
@[simp] theorem Dev.modPhys_sch (p : Nat) (f : Phys → Phys) : (d.modPhys p f).sch = d.sch := rfl
@[simp] theorem Dev.modPhys_hop (p : Nat) (f : Phys → Phys) : (d.modPhys p f).hop = d.hop := rfl
@[simp] theorem Dev.modPhys_htb (p : Nat) (f : Phys → Phys) : (d.modPhys p f).htb = d.htb := rfl
@[simp] theorem Dev.modPhys_oll (p : Nat) (f : Phys → Phys) : (d.modPhys p f).oll = d.oll := rfl
@[simp] theorem Dev.modPhys_fce (p : Nat) (f : Phys → Phys) : (d.modPhys p f).fce = d.fce := rfl
@[simp] theorem Dev.modPhys_cal (p : Nat) (f : Phys → Phys) : (d.modPhys p f).cal = d.cal := rfl
@[simp] theorem Dev.modPhys_dram (p : Nat) (f : Phys → Phys) : (d.modPhys p f).dram = d.dram := rfl
@[simp] theorem Dev.modPhys_eth (p : Nat) (f : Phys → Phys) : (d.modPhys p f).eth = d.eth := rfl
@[simp] theorem Dev.modPhys_med (p : Nat) (f : Phys → Phys) : (d.modPhys p f).med = d.med := rfl
@[simp] theorem Dev.modPhys_kln (p : Nat) (f : Phys → Phys) : (d.modPhys p f).kln = d.kln := rfl
@[simp] theorem Dev.modPhys_tmp (p : Nat) (f : Phys → Phys) : (d.modPhys p f).tmp = d.tmp := rfl
@[simp] theorem Dev.modPhys_sys (p : Nat) (f : Phys → Phys) : (d.modPhys p f).sys = d.sys := rfl

@[simp] theorem Dev.setTile_ctr (t : Nat) (r : Tile) : (d.setTile t r).ctr = d.ctr := rfl
@[simp] theorem Dev.setTile_waits (t : Nat) (r : Tile) : (d.setTile t r).waits = d.waits := rfl
@[simp] theorem Dev.setTile_freeN (t : Nat) (r : Tile) : (d.setTile t r).freeN = d.freeN := rfl
@[simp] theorem Dev.setTile_regs (t : Nat) (r : Tile) : (d.setTile t r).regs = d.regs := rfl
@[simp] theorem Dev.setTile_hif (t : Nat) (r : Tile) : (d.setTile t r).hif = d.hif := rfl
@[simp] theorem Dev.setTile_sch (t : Nat) (r : Tile) : (d.setTile t r).sch = d.sch := rfl
@[simp] theorem Dev.setTile_hop (t : Nat) (r : Tile) : (d.setTile t r).hop = d.hop := rfl
@[simp] theorem Dev.setTile_htb (t : Nat) (r : Tile) : (d.setTile t r).htb = d.htb := rfl
@[simp] theorem Dev.setTile_oll (t : Nat) (r : Tile) : (d.setTile t r).oll = d.oll := rfl
@[simp] theorem Dev.setTile_fce (t : Nat) (r : Tile) : (d.setTile t r).fce = d.fce := rfl
@[simp] theorem Dev.setTile_cal (t : Nat) (r : Tile) : (d.setTile t r).cal = d.cal := rfl
@[simp] theorem Dev.setTile_dram (t : Nat) (r : Tile) : (d.setTile t r).dram = d.dram := rfl
@[simp] theorem Dev.setTile_eth (t : Nat) (r : Tile) : (d.setTile t r).eth = d.eth := rfl
@[simp] theorem Dev.setTile_med (t : Nat) (r : Tile) : (d.setTile t r).med = d.med := rfl
@[simp] theorem Dev.setTile_kln (t : Nat) (r : Tile) : (d.setTile t r).kln = d.kln := rfl
@[simp] theorem Dev.setTile_tmp (t : Nat) (r : Tile) : (d.setTile t r).tmp = d.tmp := rfl
@[simp] theorem Dev.setTile_sys (t : Nat) (r : Tile) : (d.setTile t r).sys = d.sys := rfl

@[simp] theorem Dev.modTile_ctr (t : Nat) (f : Tile → Tile) : (d.modTile t f).ctr = d.ctr := rfl
@[simp] theorem Dev.modTile_waits (t : Nat) (f : Tile → Tile) : (d.modTile t f).waits = d.waits := rfl
@[simp] theorem Dev.modTile_freeN (t : Nat) (f : Tile → Tile) : (d.modTile t f).freeN = d.freeN := rfl
@[simp] theorem Dev.modTile_regs (t : Nat) (f : Tile → Tile) : (d.modTile t f).regs = d.regs := rfl
@[simp] theorem Dev.modTile_hif (t : Nat) (f : Tile → Tile) : (d.modTile t f).hif = d.hif := rfl
@[simp] theorem Dev.modTile_sch (t : Nat) (f : Tile → Tile) : (d.modTile t f).sch = d.sch := rfl
@[simp] theorem Dev.modTile_hop (t : Nat) (f : Tile → Tile) : (d.modTile t f).hop = d.hop := rfl
@[simp] theorem Dev.modTile_htb (t : Nat) (f : Tile → Tile) : (d.modTile t f).htb = d.htb := rfl
@[simp] theorem Dev.modTile_oll (t : Nat) (f : Tile → Tile) : (d.modTile t f).oll = d.oll := rfl
@[simp] theorem Dev.modTile_fce (t : Nat) (f : Tile → Tile) : (d.modTile t f).fce = d.fce := rfl
@[simp] theorem Dev.modTile_cal (t : Nat) (f : Tile → Tile) : (d.modTile t f).cal = d.cal := rfl
@[simp] theorem Dev.modTile_dram (t : Nat) (f : Tile → Tile) : (d.modTile t f).dram = d.dram := rfl
@[simp] theorem Dev.modTile_eth (t : Nat) (f : Tile → Tile) : (d.modTile t f).eth = d.eth := rfl
@[simp] theorem Dev.modTile_med (t : Nat) (f : Tile → Tile) : (d.modTile t f).med = d.med := rfl
@[simp] theorem Dev.modTile_kln (t : Nat) (f : Tile → Tile) : (d.modTile t f).kln = d.kln := rfl
@[simp] theorem Dev.modTile_tmp (t : Nat) (f : Tile → Tile) : (d.modTile t f).tmp = d.tmp := rfl
@[simp] theorem Dev.modTile_sys (t : Nat) (f : Tile → Tile) : (d.modTile t f).sys = d.sys := rfl

@[simp] theorem Dev.setMap_ctr (pos : Nat) (p : Option Nat) : (d.setMap pos p).ctr = d.ctr := rfl
@[simp] theorem Dev.setMap_waits (pos : Nat) (p : Option Nat) : (d.setMap pos p).waits = d.waits := rfl
@[simp] theorem Dev.setMap_freeN (pos : Nat) (p : Option Nat) : (d.setMap pos p).freeN = d.freeN := rfl
@[simp] theorem Dev.setMap_regs (pos : Nat) (p : Option Nat) : (d.setMap pos p).regs = d.regs := rfl
@[simp] theorem Dev.setMap_hif (pos : Nat) (p : Option Nat) : (d.setMap pos p).hif = d.hif := rfl
@[simp] theorem Dev.setMap_sch (pos : Nat) (p : Option Nat) : (d.setMap pos p).sch = d.sch := rfl
@[simp] theorem Dev.setMap_hop (pos : Nat) (p : Option Nat) : (d.setMap pos p).hop = d.hop := rfl
@[simp] theorem Dev.setMap_htb (pos : Nat) (p : Option Nat) : (d.setMap pos p).htb = d.htb := rfl
@[simp] theorem Dev.setMap_oll (pos : Nat) (p : Option Nat) : (d.setMap pos p).oll = d.oll := rfl
@[simp] theorem Dev.setMap_fce (pos : Nat) (p : Option Nat) : (d.setMap pos p).fce = d.fce := rfl
@[simp] theorem Dev.setMap_cal (pos : Nat) (p : Option Nat) : (d.setMap pos p).cal = d.cal := rfl
@[simp] theorem Dev.setMap_dram (pos : Nat) (p : Option Nat) : (d.setMap pos p).dram = d.dram := rfl
@[simp] theorem Dev.setMap_eth (pos : Nat) (p : Option Nat) : (d.setMap pos p).eth = d.eth := rfl
@[simp] theorem Dev.setMap_med (pos : Nat) (p : Option Nat) : (d.setMap pos p).med = d.med := rfl
@[simp] theorem Dev.setMap_kln (pos : Nat) (p : Option Nat) : (d.setMap pos p).kln = d.kln := rfl
@[simp] theorem Dev.setMap_tmp (pos : Nat) (p : Option Nat) : (d.setMap pos p).tmp = d.tmp := rfl
@[simp] theorem Dev.setMap_sys (pos : Nat) (p : Option Nat) : (d.setMap pos p).sys = d.sys := rfl

@[simp] theorem Dev.setChan_ctr (t c : Nat) (x : Chan) : (d.setChan t c x).ctr = d.ctr := rfl
@[simp] theorem Dev.setChan_waits (t c : Nat) (x : Chan) : (d.setChan t c x).waits = d.waits := rfl
@[simp] theorem Dev.setChan_freeN (t c : Nat) (x : Chan) : (d.setChan t c x).freeN = d.freeN := rfl
@[simp] theorem Dev.setChan_regs (t c : Nat) (x : Chan) : (d.setChan t c x).regs = d.regs := rfl
@[simp] theorem Dev.setChan_hif (t c : Nat) (x : Chan) : (d.setChan t c x).hif = d.hif := rfl
@[simp] theorem Dev.setChan_sch (t c : Nat) (x : Chan) : (d.setChan t c x).sch = d.sch := rfl
@[simp] theorem Dev.setChan_hop (t c : Nat) (x : Chan) : (d.setChan t c x).hop = d.hop := rfl
@[simp] theorem Dev.setChan_htb (t c : Nat) (x : Chan) : (d.setChan t c x).htb = d.htb := rfl
@[simp] theorem Dev.setChan_oll (t c : Nat) (x : Chan) : (d.setChan t c x).oll = d.oll := rfl
@[simp] theorem Dev.setChan_fce (t c : Nat) (x : Chan) : (d.setChan t c x).fce = d.fce := rfl
@[simp] theorem Dev.setChan_cal (t c : Nat) (x : Chan) : (d.setChan t c x).cal = d.cal := rfl
@[simp] theorem Dev.setChan_dram (t c : Nat) (x : Chan) : (d.setChan t c x).dram = d.dram := rfl
@[simp] theorem Dev.setChan_eth (t c : Nat) (x : Chan) : (d.setChan t c x).eth = d.eth := rfl
@[simp] theorem Dev.setChan_med (t c : Nat) (x : Chan) : (d.setChan t c x).med = d.med := rfl
@[simp] theorem Dev.setChan_kln (t c : Nat) (x : Chan) : (d.setChan t c x).kln = d.kln := rfl
@[simp] theorem Dev.setChan_tmp (t c : Nat) (x : Chan) : (d.setChan t c x).tmp = d.tmp := rfl
@[simp] theorem Dev.setChan_sys (t c : Nat) (x : Chan) : (d.setChan t c x).sys = d.sys := rfl

@[simp] theorem Dev.setLane_ctr (q : Nat) (x : Lane) : (d.setLane q x).ctr = d.ctr := rfl
@[simp] theorem Dev.setLane_waits (q : Nat) (x : Lane) : (d.setLane q x).waits = d.waits := rfl
@[simp] theorem Dev.setLane_freeN (q : Nat) (x : Lane) : (d.setLane q x).freeN = d.freeN := rfl
@[simp] theorem Dev.setLane_regs (q : Nat) (x : Lane) : (d.setLane q x).regs = d.regs := rfl
@[simp] theorem Dev.setLane_hif (q : Nat) (x : Lane) : (d.setLane q x).hif = d.hif := rfl
@[simp] theorem Dev.setLane_sch (q : Nat) (x : Lane) : (d.setLane q x).sch = d.sch := rfl
@[simp] theorem Dev.setLane_hop (q : Nat) (x : Lane) : (d.setLane q x).hop = d.hop := rfl
@[simp] theorem Dev.setLane_til (q : Nat) (x : Lane) : (d.setLane q x).til = d.til := rfl
@[simp] theorem Dev.setLane_htb (q : Nat) (x : Lane) : (d.setLane q x).htb = d.htb := rfl
@[simp] theorem Dev.setLane_fce (q : Nat) (x : Lane) : (d.setLane q x).fce = d.fce := rfl
@[simp] theorem Dev.setLane_cal (q : Nat) (x : Lane) : (d.setLane q x).cal = d.cal := rfl
@[simp] theorem Dev.setLane_dram (q : Nat) (x : Lane) : (d.setLane q x).dram = d.dram := rfl
@[simp] theorem Dev.setLane_eth (q : Nat) (x : Lane) : (d.setLane q x).eth = d.eth := rfl
@[simp] theorem Dev.setLane_med (q : Nat) (x : Lane) : (d.setLane q x).med = d.med := rfl
@[simp] theorem Dev.setLane_kln (q : Nat) (x : Lane) : (d.setLane q x).kln = d.kln := rfl
@[simp] theorem Dev.setLane_tmp (q : Nat) (x : Lane) : (d.setLane q x).tmp = d.tmp := rfl
@[simp] theorem Dev.setLane_sys (q : Nat) (x : Lane) : (d.setLane q x).sys = d.sys := rfl

@[simp] theorem Dev.modLane_ctr (q : Nat) (f : Lane → Lane) : (d.modLane q f).ctr = d.ctr := rfl
@[simp] theorem Dev.modLane_waits (q : Nat) (f : Lane → Lane) : (d.modLane q f).waits = d.waits := rfl
@[simp] theorem Dev.modLane_freeN (q : Nat) (f : Lane → Lane) : (d.modLane q f).freeN = d.freeN := rfl
@[simp] theorem Dev.modLane_regs (q : Nat) (f : Lane → Lane) : (d.modLane q f).regs = d.regs := rfl
@[simp] theorem Dev.modLane_hif (q : Nat) (f : Lane → Lane) : (d.modLane q f).hif = d.hif := rfl
@[simp] theorem Dev.modLane_sch (q : Nat) (f : Lane → Lane) : (d.modLane q f).sch = d.sch := rfl
@[simp] theorem Dev.modLane_hop (q : Nat) (f : Lane → Lane) : (d.modLane q f).hop = d.hop := rfl
@[simp] theorem Dev.modLane_til (q : Nat) (f : Lane → Lane) : (d.modLane q f).til = d.til := rfl
@[simp] theorem Dev.modLane_htb (q : Nat) (f : Lane → Lane) : (d.modLane q f).htb = d.htb := rfl
@[simp] theorem Dev.modLane_fce (q : Nat) (f : Lane → Lane) : (d.modLane q f).fce = d.fce := rfl
@[simp] theorem Dev.modLane_cal (q : Nat) (f : Lane → Lane) : (d.modLane q f).cal = d.cal := rfl
@[simp] theorem Dev.modLane_dram (q : Nat) (f : Lane → Lane) : (d.modLane q f).dram = d.dram := rfl
@[simp] theorem Dev.modLane_eth (q : Nat) (f : Lane → Lane) : (d.modLane q f).eth = d.eth := rfl
@[simp] theorem Dev.modLane_med (q : Nat) (f : Lane → Lane) : (d.modLane q f).med = d.med := rfl
@[simp] theorem Dev.modLane_kln (q : Nat) (f : Lane → Lane) : (d.modLane q f).kln = d.kln := rfl
@[simp] theorem Dev.modLane_tmp (q : Nat) (f : Lane → Lane) : (d.modLane q f).tmp = d.tmp := rfl
@[simp] theorem Dev.modLane_sys (q : Nat) (f : Lane → Lane) : (d.modLane q f).sys = d.sys := rfl

@[simp] theorem Dev.setLine_ctr (n : Nat) (x : Line) : (d.setLine n x).ctr = d.ctr := rfl
@[simp] theorem Dev.setLine_waits (n : Nat) (x : Line) : (d.setLine n x).waits = d.waits := rfl
@[simp] theorem Dev.setLine_freeN (n : Nat) (x : Line) : (d.setLine n x).freeN = d.freeN := rfl
@[simp] theorem Dev.setLine_regs (n : Nat) (x : Line) : (d.setLine n x).regs = d.regs := rfl
@[simp] theorem Dev.setLine_hif (n : Nat) (x : Line) : (d.setLine n x).hif = d.hif := rfl
@[simp] theorem Dev.setLine_sch (n : Nat) (x : Line) : (d.setLine n x).sch = d.sch := rfl
@[simp] theorem Dev.setLine_hop (n : Nat) (x : Line) : (d.setLine n x).hop = d.hop := rfl
@[simp] theorem Dev.setLine_til (n : Nat) (x : Line) : (d.setLine n x).til = d.til := rfl
@[simp] theorem Dev.setLine_htb (n : Nat) (x : Line) : (d.setLine n x).htb = d.htb := rfl
@[simp] theorem Dev.setLine_fce (n : Nat) (x : Line) : (d.setLine n x).fce = d.fce := rfl
@[simp] theorem Dev.setLine_cal (n : Nat) (x : Line) : (d.setLine n x).cal = d.cal := rfl
@[simp] theorem Dev.setLine_dram (n : Nat) (x : Line) : (d.setLine n x).dram = d.dram := rfl
@[simp] theorem Dev.setLine_eth (n : Nat) (x : Line) : (d.setLine n x).eth = d.eth := rfl
@[simp] theorem Dev.setLine_med (n : Nat) (x : Line) : (d.setLine n x).med = d.med := rfl
@[simp] theorem Dev.setLine_kln (n : Nat) (x : Line) : (d.setLine n x).kln = d.kln := rfl
@[simp] theorem Dev.setLine_tmp (n : Nat) (x : Line) : (d.setLine n x).tmp = d.tmp := rfl
@[simp] theorem Dev.setLine_sys (n : Nat) (x : Line) : (d.setLine n x).sys = d.sys := rfl

@[simp] theorem Dev.modLine_ctr (n : Nat) (f : Line → Line) : (d.modLine n f).ctr = d.ctr := rfl
@[simp] theorem Dev.modLine_waits (n : Nat) (f : Line → Line) : (d.modLine n f).waits = d.waits := rfl
@[simp] theorem Dev.modLine_freeN (n : Nat) (f : Line → Line) : (d.modLine n f).freeN = d.freeN := rfl
@[simp] theorem Dev.modLine_regs (n : Nat) (f : Line → Line) : (d.modLine n f).regs = d.regs := rfl
@[simp] theorem Dev.modLine_hif (n : Nat) (f : Line → Line) : (d.modLine n f).hif = d.hif := rfl
@[simp] theorem Dev.modLine_sch (n : Nat) (f : Line → Line) : (d.modLine n f).sch = d.sch := rfl
@[simp] theorem Dev.modLine_hop (n : Nat) (f : Line → Line) : (d.modLine n f).hop = d.hop := rfl
@[simp] theorem Dev.modLine_til (n : Nat) (f : Line → Line) : (d.modLine n f).til = d.til := rfl
@[simp] theorem Dev.modLine_htb (n : Nat) (f : Line → Line) : (d.modLine n f).htb = d.htb := rfl
@[simp] theorem Dev.modLine_fce (n : Nat) (f : Line → Line) : (d.modLine n f).fce = d.fce := rfl
@[simp] theorem Dev.modLine_cal (n : Nat) (f : Line → Line) : (d.modLine n f).cal = d.cal := rfl
@[simp] theorem Dev.modLine_dram (n : Nat) (f : Line → Line) : (d.modLine n f).dram = d.dram := rfl
@[simp] theorem Dev.modLine_eth (n : Nat) (f : Line → Line) : (d.modLine n f).eth = d.eth := rfl
@[simp] theorem Dev.modLine_med (n : Nat) (f : Line → Line) : (d.modLine n f).med = d.med := rfl
@[simp] theorem Dev.modLine_kln (n : Nat) (f : Line → Line) : (d.modLine n f).kln = d.kln := rfl
@[simp] theorem Dev.modLine_tmp (n : Nat) (f : Line → Line) : (d.modLine n f).tmp = d.tmp := rfl
@[simp] theorem Dev.modLine_sys (n : Nat) (f : Line → Line) : (d.modLine n f).sys = d.sys := rfl

@[simp] theorem Dev.setFst_ctr (i : Nat) (x : FStream) : (d.setFst i x).ctr = d.ctr := rfl
@[simp] theorem Dev.setFst_waits (i : Nat) (x : FStream) : (d.setFst i x).waits = d.waits := rfl
@[simp] theorem Dev.setFst_freeN (i : Nat) (x : FStream) : (d.setFst i x).freeN = d.freeN := rfl
@[simp] theorem Dev.setFst_regs (i : Nat) (x : FStream) : (d.setFst i x).regs = d.regs := rfl
@[simp] theorem Dev.setFst_hif (i : Nat) (x : FStream) : (d.setFst i x).hif = d.hif := rfl
@[simp] theorem Dev.setFst_sch (i : Nat) (x : FStream) : (d.setFst i x).sch = d.sch := rfl
@[simp] theorem Dev.setFst_hop (i : Nat) (x : FStream) : (d.setFst i x).hop = d.hop := rfl
@[simp] theorem Dev.setFst_til (i : Nat) (x : FStream) : (d.setFst i x).til = d.til := rfl
@[simp] theorem Dev.setFst_htb (i : Nat) (x : FStream) : (d.setFst i x).htb = d.htb := rfl
@[simp] theorem Dev.setFst_oll (i : Nat) (x : FStream) : (d.setFst i x).oll = d.oll := rfl
@[simp] theorem Dev.setFst_cal (i : Nat) (x : FStream) : (d.setFst i x).cal = d.cal := rfl
@[simp] theorem Dev.setFst_dram (i : Nat) (x : FStream) : (d.setFst i x).dram = d.dram := rfl
@[simp] theorem Dev.setFst_eth (i : Nat) (x : FStream) : (d.setFst i x).eth = d.eth := rfl
@[simp] theorem Dev.setFst_med (i : Nat) (x : FStream) : (d.setFst i x).med = d.med := rfl
@[simp] theorem Dev.setFst_kln (i : Nat) (x : FStream) : (d.setFst i x).kln = d.kln := rfl
@[simp] theorem Dev.setFst_tmp (i : Nat) (x : FStream) : (d.setFst i x).tmp = d.tmp := rfl
@[simp] theorem Dev.setFst_sys (i : Nat) (x : FStream) : (d.setFst i x).sys = d.sys := rfl

@[simp] theorem Dev.modFst_ctr (i : Nat) (f : FStream → FStream) : (d.modFst i f).ctr = d.ctr := rfl
@[simp] theorem Dev.modFst_waits (i : Nat) (f : FStream → FStream) : (d.modFst i f).waits = d.waits := rfl
@[simp] theorem Dev.modFst_freeN (i : Nat) (f : FStream → FStream) : (d.modFst i f).freeN = d.freeN := rfl
@[simp] theorem Dev.modFst_regs (i : Nat) (f : FStream → FStream) : (d.modFst i f).regs = d.regs := rfl
@[simp] theorem Dev.modFst_hif (i : Nat) (f : FStream → FStream) : (d.modFst i f).hif = d.hif := rfl
@[simp] theorem Dev.modFst_sch (i : Nat) (f : FStream → FStream) : (d.modFst i f).sch = d.sch := rfl
@[simp] theorem Dev.modFst_hop (i : Nat) (f : FStream → FStream) : (d.modFst i f).hop = d.hop := rfl
@[simp] theorem Dev.modFst_til (i : Nat) (f : FStream → FStream) : (d.modFst i f).til = d.til := rfl
@[simp] theorem Dev.modFst_htb (i : Nat) (f : FStream → FStream) : (d.modFst i f).htb = d.htb := rfl
@[simp] theorem Dev.modFst_oll (i : Nat) (f : FStream → FStream) : (d.modFst i f).oll = d.oll := rfl
@[simp] theorem Dev.modFst_cal (i : Nat) (f : FStream → FStream) : (d.modFst i f).cal = d.cal := rfl
@[simp] theorem Dev.modFst_dram (i : Nat) (f : FStream → FStream) : (d.modFst i f).dram = d.dram := rfl
@[simp] theorem Dev.modFst_eth (i : Nat) (f : FStream → FStream) : (d.modFst i f).eth = d.eth := rfl
@[simp] theorem Dev.modFst_med (i : Nat) (f : FStream → FStream) : (d.modFst i f).med = d.med := rfl
@[simp] theorem Dev.modFst_kln (i : Nat) (f : FStream → FStream) : (d.modFst i f).kln = d.kln := rfl
@[simp] theorem Dev.modFst_tmp (i : Nat) (f : FStream → FStream) : (d.modFst i f).tmp = d.tmp := rfl
@[simp] theorem Dev.modFst_sys (i : Nat) (f : FStream → FStream) : (d.modFst i f).sys = d.sys := rfl

@[simp] theorem Dev.setHopper_ctr (h : Nat) (x : Hopper) : (d.setHopper h x).ctr = d.ctr := rfl
@[simp] theorem Dev.setHopper_waits (h : Nat) (x : Hopper) : (d.setHopper h x).waits = d.waits := rfl
@[simp] theorem Dev.setHopper_freeN (h : Nat) (x : Hopper) : (d.setHopper h x).freeN = d.freeN := rfl
@[simp] theorem Dev.setHopper_regs (h : Nat) (x : Hopper) : (d.setHopper h x).regs = d.regs := rfl
@[simp] theorem Dev.setHopper_hif (h : Nat) (x : Hopper) : (d.setHopper h x).hif = d.hif := rfl
@[simp] theorem Dev.setHopper_sch (h : Nat) (x : Hopper) : (d.setHopper h x).sch = d.sch := rfl
@[simp] theorem Dev.setHopper_til (h : Nat) (x : Hopper) : (d.setHopper h x).til = d.til := rfl
@[simp] theorem Dev.setHopper_htb (h : Nat) (x : Hopper) : (d.setHopper h x).htb = d.htb := rfl
@[simp] theorem Dev.setHopper_oll (h : Nat) (x : Hopper) : (d.setHopper h x).oll = d.oll := rfl
@[simp] theorem Dev.setHopper_fce (h : Nat) (x : Hopper) : (d.setHopper h x).fce = d.fce := rfl
@[simp] theorem Dev.setHopper_cal (h : Nat) (x : Hopper) : (d.setHopper h x).cal = d.cal := rfl
@[simp] theorem Dev.setHopper_dram (h : Nat) (x : Hopper) : (d.setHopper h x).dram = d.dram := rfl
@[simp] theorem Dev.setHopper_eth (h : Nat) (x : Hopper) : (d.setHopper h x).eth = d.eth := rfl
@[simp] theorem Dev.setHopper_med (h : Nat) (x : Hopper) : (d.setHopper h x).med = d.med := rfl
@[simp] theorem Dev.setHopper_kln (h : Nat) (x : Hopper) : (d.setHopper h x).kln = d.kln := rfl
@[simp] theorem Dev.setHopper_tmp (h : Nat) (x : Hopper) : (d.setHopper h x).tmp = d.tmp := rfl
@[simp] theorem Dev.setHopper_sys (h : Nat) (x : Hopper) : (d.setHopper h x).sys = d.sys := rfl

@[simp] theorem Dev.modHopper_ctr (h : Nat) (f : Hopper → Hopper) : (d.modHopper h f).ctr = d.ctr := rfl
@[simp] theorem Dev.modHopper_waits (h : Nat) (f : Hopper → Hopper) : (d.modHopper h f).waits = d.waits := rfl
@[simp] theorem Dev.modHopper_freeN (h : Nat) (f : Hopper → Hopper) : (d.modHopper h f).freeN = d.freeN := rfl
@[simp] theorem Dev.modHopper_regs (h : Nat) (f : Hopper → Hopper) : (d.modHopper h f).regs = d.regs := rfl
@[simp] theorem Dev.modHopper_hif (h : Nat) (f : Hopper → Hopper) : (d.modHopper h f).hif = d.hif := rfl
@[simp] theorem Dev.modHopper_sch (h : Nat) (f : Hopper → Hopper) : (d.modHopper h f).sch = d.sch := rfl
@[simp] theorem Dev.modHopper_til (h : Nat) (f : Hopper → Hopper) : (d.modHopper h f).til = d.til := rfl
@[simp] theorem Dev.modHopper_htb (h : Nat) (f : Hopper → Hopper) : (d.modHopper h f).htb = d.htb := rfl
@[simp] theorem Dev.modHopper_oll (h : Nat) (f : Hopper → Hopper) : (d.modHopper h f).oll = d.oll := rfl
@[simp] theorem Dev.modHopper_fce (h : Nat) (f : Hopper → Hopper) : (d.modHopper h f).fce = d.fce := rfl
@[simp] theorem Dev.modHopper_cal (h : Nat) (f : Hopper → Hopper) : (d.modHopper h f).cal = d.cal := rfl
@[simp] theorem Dev.modHopper_dram (h : Nat) (f : Hopper → Hopper) : (d.modHopper h f).dram = d.dram := rfl
@[simp] theorem Dev.modHopper_eth (h : Nat) (f : Hopper → Hopper) : (d.modHopper h f).eth = d.eth := rfl
@[simp] theorem Dev.modHopper_med (h : Nat) (f : Hopper → Hopper) : (d.modHopper h f).med = d.med := rfl
@[simp] theorem Dev.modHopper_kln (h : Nat) (f : Hopper → Hopper) : (d.modHopper h f).kln = d.kln := rfl
@[simp] theorem Dev.modHopper_tmp (h : Nat) (f : Hopper → Hopper) : (d.modHopper h f).tmp = d.tmp := rfl
@[simp] theorem Dev.modHopper_sys (h : Nat) (f : Hopper → Hopper) : (d.modHopper h f).sys = d.sys := rfl

@[simp] theorem Dev.setPutBuf_ctr (t : Nat) (x : PutBuf) : (d.setPutBuf t x).ctr = d.ctr := rfl
@[simp] theorem Dev.setPutBuf_waits (t : Nat) (x : PutBuf) : (d.setPutBuf t x).waits = d.waits := rfl
@[simp] theorem Dev.setPutBuf_freeN (t : Nat) (x : PutBuf) : (d.setPutBuf t x).freeN = d.freeN := rfl
@[simp] theorem Dev.setPutBuf_regs (t : Nat) (x : PutBuf) : (d.setPutBuf t x).regs = d.regs := rfl
@[simp] theorem Dev.setPutBuf_hif (t : Nat) (x : PutBuf) : (d.setPutBuf t x).hif = d.hif := rfl
@[simp] theorem Dev.setPutBuf_sch (t : Nat) (x : PutBuf) : (d.setPutBuf t x).sch = d.sch := rfl
@[simp] theorem Dev.setPutBuf_til (t : Nat) (x : PutBuf) : (d.setPutBuf t x).til = d.til := rfl
@[simp] theorem Dev.setPutBuf_htb (t : Nat) (x : PutBuf) : (d.setPutBuf t x).htb = d.htb := rfl
@[simp] theorem Dev.setPutBuf_oll (t : Nat) (x : PutBuf) : (d.setPutBuf t x).oll = d.oll := rfl
@[simp] theorem Dev.setPutBuf_fce (t : Nat) (x : PutBuf) : (d.setPutBuf t x).fce = d.fce := rfl
@[simp] theorem Dev.setPutBuf_cal (t : Nat) (x : PutBuf) : (d.setPutBuf t x).cal = d.cal := rfl
@[simp] theorem Dev.setPutBuf_dram (t : Nat) (x : PutBuf) : (d.setPutBuf t x).dram = d.dram := rfl
@[simp] theorem Dev.setPutBuf_eth (t : Nat) (x : PutBuf) : (d.setPutBuf t x).eth = d.eth := rfl
@[simp] theorem Dev.setPutBuf_med (t : Nat) (x : PutBuf) : (d.setPutBuf t x).med = d.med := rfl
@[simp] theorem Dev.setPutBuf_kln (t : Nat) (x : PutBuf) : (d.setPutBuf t x).kln = d.kln := rfl
@[simp] theorem Dev.setPutBuf_tmp (t : Nat) (x : PutBuf) : (d.setPutBuf t x).tmp = d.tmp := rfl
@[simp] theorem Dev.setPutBuf_sys (t : Nat) (x : PutBuf) : (d.setPutBuf t x).sys = d.sys := rfl

@[simp] theorem Dev.setQword_ctr (i : Nat) (v : Word) : (d.setQword i v).ctr = d.ctr := rfl
@[simp] theorem Dev.setQword_waits (i : Nat) (v : Word) : (d.setQword i v).waits = d.waits := rfl
@[simp] theorem Dev.setQword_freeN (i : Nat) (v : Word) : (d.setQword i v).freeN = d.freeN := rfl
@[simp] theorem Dev.setQword_regs (i : Nat) (v : Word) : (d.setQword i v).regs = d.regs := rfl
@[simp] theorem Dev.setQword_hif (i : Nat) (v : Word) : (d.setQword i v).hif = d.hif := rfl
@[simp] theorem Dev.setQword_sch (i : Nat) (v : Word) : (d.setQword i v).sch = d.sch := rfl
@[simp] theorem Dev.setQword_til (i : Nat) (v : Word) : (d.setQword i v).til = d.til := rfl
@[simp] theorem Dev.setQword_htb (i : Nat) (v : Word) : (d.setQword i v).htb = d.htb := rfl
@[simp] theorem Dev.setQword_oll (i : Nat) (v : Word) : (d.setQword i v).oll = d.oll := rfl
@[simp] theorem Dev.setQword_fce (i : Nat) (v : Word) : (d.setQword i v).fce = d.fce := rfl
@[simp] theorem Dev.setQword_cal (i : Nat) (v : Word) : (d.setQword i v).cal = d.cal := rfl
@[simp] theorem Dev.setQword_dram (i : Nat) (v : Word) : (d.setQword i v).dram = d.dram := rfl
@[simp] theorem Dev.setQword_eth (i : Nat) (v : Word) : (d.setQword i v).eth = d.eth := rfl
@[simp] theorem Dev.setQword_med (i : Nat) (v : Word) : (d.setQword i v).med = d.med := rfl
@[simp] theorem Dev.setQword_kln (i : Nat) (v : Word) : (d.setQword i v).kln = d.kln := rfl
@[simp] theorem Dev.setQword_tmp (i : Nat) (v : Word) : (d.setQword i v).tmp = d.tmp := rfl
@[simp] theorem Dev.setQword_sys (i : Nat) (v : Word) : (d.setQword i v).sys = d.sys := rfl

@[simp] theorem Dev.setLineCh_ctr (n : Nat) (c : Option LineCh) : (d.setLineCh n c).ctr = d.ctr := rfl
@[simp] theorem Dev.setLineCh_waits (n : Nat) (c : Option LineCh) : (d.setLineCh n c).waits = d.waits := rfl
@[simp] theorem Dev.setLineCh_freeN (n : Nat) (c : Option LineCh) : (d.setLineCh n c).freeN = d.freeN := rfl
@[simp] theorem Dev.setLineCh_regs (n : Nat) (c : Option LineCh) : (d.setLineCh n c).regs = d.regs := rfl
@[simp] theorem Dev.setLineCh_hif (n : Nat) (c : Option LineCh) : (d.setLineCh n c).hif = d.hif := rfl
@[simp] theorem Dev.setLineCh_sch (n : Nat) (c : Option LineCh) : (d.setLineCh n c).sch = d.sch := rfl
@[simp] theorem Dev.setLineCh_hop (n : Nat) (c : Option LineCh) : (d.setLineCh n c).hop = d.hop := rfl
@[simp] theorem Dev.setLineCh_til (n : Nat) (c : Option LineCh) : (d.setLineCh n c).til = d.til := rfl
@[simp] theorem Dev.setLineCh_htb (n : Nat) (c : Option LineCh) : (d.setLineCh n c).htb = d.htb := rfl
@[simp] theorem Dev.setLineCh_oll (n : Nat) (c : Option LineCh) : (d.setLineCh n c).oll = d.oll := rfl
@[simp] theorem Dev.setLineCh_fce (n : Nat) (c : Option LineCh) : (d.setLineCh n c).fce = d.fce := rfl
@[simp] theorem Dev.setLineCh_cal (n : Nat) (c : Option LineCh) : (d.setLineCh n c).cal = d.cal := rfl
@[simp] theorem Dev.setLineCh_dram (n : Nat) (c : Option LineCh) : (d.setLineCh n c).dram = d.dram := rfl
@[simp] theorem Dev.setLineCh_eth (n : Nat) (c : Option LineCh) : (d.setLineCh n c).eth = d.eth := rfl
@[simp] theorem Dev.setLineCh_kln (n : Nat) (c : Option LineCh) : (d.setLineCh n c).kln = d.kln := rfl
@[simp] theorem Dev.setLineCh_tmp (n : Nat) (c : Option LineCh) : (d.setLineCh n c).tmp = d.tmp := rfl
@[simp] theorem Dev.setLineCh_sys (n : Nat) (c : Option LineCh) : (d.setLineCh n c).sys = d.sys := rfl

@[simp] theorem Dev.modLineCh_ctr (n : Nat) (f : LineCh → LineCh) : (d.modLineCh n f).ctr = d.ctr := rfl
@[simp] theorem Dev.modLineCh_waits (n : Nat) (f : LineCh → LineCh) : (d.modLineCh n f).waits = d.waits := rfl
@[simp] theorem Dev.modLineCh_freeN (n : Nat) (f : LineCh → LineCh) : (d.modLineCh n f).freeN = d.freeN := rfl
@[simp] theorem Dev.modLineCh_regs (n : Nat) (f : LineCh → LineCh) : (d.modLineCh n f).regs = d.regs := rfl
@[simp] theorem Dev.modLineCh_hif (n : Nat) (f : LineCh → LineCh) : (d.modLineCh n f).hif = d.hif := rfl
@[simp] theorem Dev.modLineCh_sch (n : Nat) (f : LineCh → LineCh) : (d.modLineCh n f).sch = d.sch := rfl
@[simp] theorem Dev.modLineCh_hop (n : Nat) (f : LineCh → LineCh) : (d.modLineCh n f).hop = d.hop := rfl
@[simp] theorem Dev.modLineCh_til (n : Nat) (f : LineCh → LineCh) : (d.modLineCh n f).til = d.til := rfl
@[simp] theorem Dev.modLineCh_htb (n : Nat) (f : LineCh → LineCh) : (d.modLineCh n f).htb = d.htb := rfl
@[simp] theorem Dev.modLineCh_oll (n : Nat) (f : LineCh → LineCh) : (d.modLineCh n f).oll = d.oll := rfl
@[simp] theorem Dev.modLineCh_fce (n : Nat) (f : LineCh → LineCh) : (d.modLineCh n f).fce = d.fce := rfl
@[simp] theorem Dev.modLineCh_cal (n : Nat) (f : LineCh → LineCh) : (d.modLineCh n f).cal = d.cal := rfl
@[simp] theorem Dev.modLineCh_dram (n : Nat) (f : LineCh → LineCh) : (d.modLineCh n f).dram = d.dram := rfl
@[simp] theorem Dev.modLineCh_eth (n : Nat) (f : LineCh → LineCh) : (d.modLineCh n f).eth = d.eth := rfl
@[simp] theorem Dev.modLineCh_kln (n : Nat) (f : LineCh → LineCh) : (d.modLineCh n f).kln = d.kln := rfl
@[simp] theorem Dev.modLineCh_tmp (n : Nat) (f : LineCh → LineCh) : (d.modLineCh n f).tmp = d.tmp := rfl
@[simp] theorem Dev.modLineCh_sys (n : Nat) (f : LineCh → LineCh) : (d.modLineCh n f).sys = d.sys := rfl

@[simp] theorem Dev.setPkt_ctr (c : Nat) (x : Option PktCh) : (d.setPkt c x).ctr = d.ctr := rfl
@[simp] theorem Dev.setPkt_waits (c : Nat) (x : Option PktCh) : (d.setPkt c x).waits = d.waits := rfl
@[simp] theorem Dev.setPkt_freeN (c : Nat) (x : Option PktCh) : (d.setPkt c x).freeN = d.freeN := rfl
@[simp] theorem Dev.setPkt_regs (c : Nat) (x : Option PktCh) : (d.setPkt c x).regs = d.regs := rfl
@[simp] theorem Dev.setPkt_hif (c : Nat) (x : Option PktCh) : (d.setPkt c x).hif = d.hif := rfl
@[simp] theorem Dev.setPkt_sch (c : Nat) (x : Option PktCh) : (d.setPkt c x).sch = d.sch := rfl
@[simp] theorem Dev.setPkt_hop (c : Nat) (x : Option PktCh) : (d.setPkt c x).hop = d.hop := rfl
@[simp] theorem Dev.setPkt_til (c : Nat) (x : Option PktCh) : (d.setPkt c x).til = d.til := rfl
@[simp] theorem Dev.setPkt_htb (c : Nat) (x : Option PktCh) : (d.setPkt c x).htb = d.htb := rfl
@[simp] theorem Dev.setPkt_oll (c : Nat) (x : Option PktCh) : (d.setPkt c x).oll = d.oll := rfl
@[simp] theorem Dev.setPkt_fce (c : Nat) (x : Option PktCh) : (d.setPkt c x).fce = d.fce := rfl
@[simp] theorem Dev.setPkt_cal (c : Nat) (x : Option PktCh) : (d.setPkt c x).cal = d.cal := rfl
@[simp] theorem Dev.setPkt_dram (c : Nat) (x : Option PktCh) : (d.setPkt c x).dram = d.dram := rfl
@[simp] theorem Dev.setPkt_eth (c : Nat) (x : Option PktCh) : (d.setPkt c x).eth = d.eth := rfl
@[simp] theorem Dev.setPkt_kln (c : Nat) (x : Option PktCh) : (d.setPkt c x).kln = d.kln := rfl
@[simp] theorem Dev.setPkt_tmp (c : Nat) (x : Option PktCh) : (d.setPkt c x).tmp = d.tmp := rfl
@[simp] theorem Dev.setPkt_sys (c : Nat) (x : Option PktCh) : (d.setPkt c x).sys = d.sys := rfl

@[simp] theorem Dev.modPkt_ctr (c : Nat) (f : PktCh → PktCh) : (d.modPkt c f).ctr = d.ctr := rfl
@[simp] theorem Dev.modPkt_waits (c : Nat) (f : PktCh → PktCh) : (d.modPkt c f).waits = d.waits := rfl
@[simp] theorem Dev.modPkt_freeN (c : Nat) (f : PktCh → PktCh) : (d.modPkt c f).freeN = d.freeN := rfl
@[simp] theorem Dev.modPkt_regs (c : Nat) (f : PktCh → PktCh) : (d.modPkt c f).regs = d.regs := rfl
@[simp] theorem Dev.modPkt_hif (c : Nat) (f : PktCh → PktCh) : (d.modPkt c f).hif = d.hif := rfl
@[simp] theorem Dev.modPkt_sch (c : Nat) (f : PktCh → PktCh) : (d.modPkt c f).sch = d.sch := rfl
@[simp] theorem Dev.modPkt_hop (c : Nat) (f : PktCh → PktCh) : (d.modPkt c f).hop = d.hop := rfl
@[simp] theorem Dev.modPkt_til (c : Nat) (f : PktCh → PktCh) : (d.modPkt c f).til = d.til := rfl
@[simp] theorem Dev.modPkt_htb (c : Nat) (f : PktCh → PktCh) : (d.modPkt c f).htb = d.htb := rfl
@[simp] theorem Dev.modPkt_oll (c : Nat) (f : PktCh → PktCh) : (d.modPkt c f).oll = d.oll := rfl
@[simp] theorem Dev.modPkt_fce (c : Nat) (f : PktCh → PktCh) : (d.modPkt c f).fce = d.fce := rfl
@[simp] theorem Dev.modPkt_cal (c : Nat) (f : PktCh → PktCh) : (d.modPkt c f).cal = d.cal := rfl
@[simp] theorem Dev.modPkt_dram (c : Nat) (f : PktCh → PktCh) : (d.modPkt c f).dram = d.dram := rfl
@[simp] theorem Dev.modPkt_eth (c : Nat) (f : PktCh → PktCh) : (d.modPkt c f).eth = d.eth := rfl
@[simp] theorem Dev.modPkt_kln (c : Nat) (f : PktCh → PktCh) : (d.modPkt c f).kln = d.kln := rfl
@[simp] theorem Dev.modPkt_tmp (c : Nat) (f : PktCh → PktCh) : (d.modPkt c f).tmp = d.tmp := rfl
@[simp] theorem Dev.modPkt_sys (c : Nat) (f : PktCh → PktCh) : (d.modPkt c f).sys = d.sys := rfl

@[simp] theorem Dev.setBridge_ctr (b : Nat) (x : Option Bridge) : (d.setBridge b x).ctr = d.ctr := rfl
@[simp] theorem Dev.setBridge_waits (b : Nat) (x : Option Bridge) : (d.setBridge b x).waits = d.waits := rfl
@[simp] theorem Dev.setBridge_freeN (b : Nat) (x : Option Bridge) : (d.setBridge b x).freeN = d.freeN := rfl
@[simp] theorem Dev.setBridge_regs (b : Nat) (x : Option Bridge) : (d.setBridge b x).regs = d.regs := rfl
@[simp] theorem Dev.setBridge_hif (b : Nat) (x : Option Bridge) : (d.setBridge b x).hif = d.hif := rfl
@[simp] theorem Dev.setBridge_sch (b : Nat) (x : Option Bridge) : (d.setBridge b x).sch = d.sch := rfl
@[simp] theorem Dev.setBridge_hop (b : Nat) (x : Option Bridge) : (d.setBridge b x).hop = d.hop := rfl
@[simp] theorem Dev.setBridge_til (b : Nat) (x : Option Bridge) : (d.setBridge b x).til = d.til := rfl
@[simp] theorem Dev.setBridge_htb (b : Nat) (x : Option Bridge) : (d.setBridge b x).htb = d.htb := rfl
@[simp] theorem Dev.setBridge_oll (b : Nat) (x : Option Bridge) : (d.setBridge b x).oll = d.oll := rfl
@[simp] theorem Dev.setBridge_fce (b : Nat) (x : Option Bridge) : (d.setBridge b x).fce = d.fce := rfl
@[simp] theorem Dev.setBridge_cal (b : Nat) (x : Option Bridge) : (d.setBridge b x).cal = d.cal := rfl
@[simp] theorem Dev.setBridge_dram (b : Nat) (x : Option Bridge) : (d.setBridge b x).dram = d.dram := rfl
@[simp] theorem Dev.setBridge_eth (b : Nat) (x : Option Bridge) : (d.setBridge b x).eth = d.eth := rfl
@[simp] theorem Dev.setBridge_kln (b : Nat) (x : Option Bridge) : (d.setBridge b x).kln = d.kln := rfl
@[simp] theorem Dev.setBridge_tmp (b : Nat) (x : Option Bridge) : (d.setBridge b x).tmp = d.tmp := rfl
@[simp] theorem Dev.setBridge_sys (b : Nat) (x : Option Bridge) : (d.setBridge b x).sys = d.sys := rfl

@[simp] theorem Dev.modBridge_ctr (b : Nat) (f : Bridge → Bridge) : (d.modBridge b f).ctr = d.ctr := rfl
@[simp] theorem Dev.modBridge_waits (b : Nat) (f : Bridge → Bridge) : (d.modBridge b f).waits = d.waits := rfl
@[simp] theorem Dev.modBridge_freeN (b : Nat) (f : Bridge → Bridge) : (d.modBridge b f).freeN = d.freeN := rfl
@[simp] theorem Dev.modBridge_regs (b : Nat) (f : Bridge → Bridge) : (d.modBridge b f).regs = d.regs := rfl
@[simp] theorem Dev.modBridge_hif (b : Nat) (f : Bridge → Bridge) : (d.modBridge b f).hif = d.hif := rfl
@[simp] theorem Dev.modBridge_sch (b : Nat) (f : Bridge → Bridge) : (d.modBridge b f).sch = d.sch := rfl
@[simp] theorem Dev.modBridge_hop (b : Nat) (f : Bridge → Bridge) : (d.modBridge b f).hop = d.hop := rfl
@[simp] theorem Dev.modBridge_til (b : Nat) (f : Bridge → Bridge) : (d.modBridge b f).til = d.til := rfl
@[simp] theorem Dev.modBridge_htb (b : Nat) (f : Bridge → Bridge) : (d.modBridge b f).htb = d.htb := rfl
@[simp] theorem Dev.modBridge_oll (b : Nat) (f : Bridge → Bridge) : (d.modBridge b f).oll = d.oll := rfl
@[simp] theorem Dev.modBridge_fce (b : Nat) (f : Bridge → Bridge) : (d.modBridge b f).fce = d.fce := rfl
@[simp] theorem Dev.modBridge_cal (b : Nat) (f : Bridge → Bridge) : (d.modBridge b f).cal = d.cal := rfl
@[simp] theorem Dev.modBridge_dram (b : Nat) (f : Bridge → Bridge) : (d.modBridge b f).dram = d.dram := rfl
@[simp] theorem Dev.modBridge_eth (b : Nat) (f : Bridge → Bridge) : (d.modBridge b f).eth = d.eth := rfl
@[simp] theorem Dev.modBridge_kln (b : Nat) (f : Bridge → Bridge) : (d.modBridge b f).kln = d.kln := rfl
@[simp] theorem Dev.modBridge_tmp (b : Nat) (f : Bridge → Bridge) : (d.modBridge b f).tmp = d.tmp := rfl
@[simp] theorem Dev.modBridge_sys (b : Nat) (f : Bridge → Bridge) : (d.modBridge b f).sys = d.sys := rfl

@[simp] theorem Dev.setThr_ctr (n : Nat) (t : Thread) : (d.setThr n t).ctr = d.ctr := rfl
@[simp] theorem Dev.setThr_waits (n : Nat) (t : Thread) : (d.setThr n t).waits = d.waits := rfl
@[simp] theorem Dev.setThr_freeN (n : Nat) (t : Thread) : (d.setThr n t).freeN = d.freeN := rfl
@[simp] theorem Dev.setThr_regs (n : Nat) (t : Thread) : (d.setThr n t).regs = d.regs := rfl
@[simp] theorem Dev.setThr_hif (n : Nat) (t : Thread) : (d.setThr n t).hif = d.hif := rfl
@[simp] theorem Dev.setThr_hop (n : Nat) (t : Thread) : (d.setThr n t).hop = d.hop := rfl
@[simp] theorem Dev.setThr_til (n : Nat) (t : Thread) : (d.setThr n t).til = d.til := rfl
@[simp] theorem Dev.setThr_htb (n : Nat) (t : Thread) : (d.setThr n t).htb = d.htb := rfl
@[simp] theorem Dev.setThr_oll (n : Nat) (t : Thread) : (d.setThr n t).oll = d.oll := rfl
@[simp] theorem Dev.setThr_fce (n : Nat) (t : Thread) : (d.setThr n t).fce = d.fce := rfl
@[simp] theorem Dev.setThr_cal (n : Nat) (t : Thread) : (d.setThr n t).cal = d.cal := rfl
@[simp] theorem Dev.setThr_dram (n : Nat) (t : Thread) : (d.setThr n t).dram = d.dram := rfl
@[simp] theorem Dev.setThr_eth (n : Nat) (t : Thread) : (d.setThr n t).eth = d.eth := rfl
@[simp] theorem Dev.setThr_med (n : Nat) (t : Thread) : (d.setThr n t).med = d.med := rfl
@[simp] theorem Dev.setThr_kln (n : Nat) (t : Thread) : (d.setThr n t).kln = d.kln := rfl
@[simp] theorem Dev.setThr_tmp (n : Nat) (t : Thread) : (d.setThr n t).tmp = d.tmp := rfl
@[simp] theorem Dev.setThr_sys (n : Nat) (t : Thread) : (d.setThr n t).sys = d.sys := rfl

@[simp] theorem Dev.modThr_ctr (n : Nat) (f : Thread → Thread) : (d.modThr n f).ctr = d.ctr := rfl
@[simp] theorem Dev.modThr_waits (n : Nat) (f : Thread → Thread) : (d.modThr n f).waits = d.waits := rfl
@[simp] theorem Dev.modThr_freeN (n : Nat) (f : Thread → Thread) : (d.modThr n f).freeN = d.freeN := rfl
@[simp] theorem Dev.modThr_regs (n : Nat) (f : Thread → Thread) : (d.modThr n f).regs = d.regs := rfl
@[simp] theorem Dev.modThr_hif (n : Nat) (f : Thread → Thread) : (d.modThr n f).hif = d.hif := rfl
@[simp] theorem Dev.modThr_hop (n : Nat) (f : Thread → Thread) : (d.modThr n f).hop = d.hop := rfl
@[simp] theorem Dev.modThr_til (n : Nat) (f : Thread → Thread) : (d.modThr n f).til = d.til := rfl
@[simp] theorem Dev.modThr_htb (n : Nat) (f : Thread → Thread) : (d.modThr n f).htb = d.htb := rfl
@[simp] theorem Dev.modThr_oll (n : Nat) (f : Thread → Thread) : (d.modThr n f).oll = d.oll := rfl
@[simp] theorem Dev.modThr_fce (n : Nat) (f : Thread → Thread) : (d.modThr n f).fce = d.fce := rfl
@[simp] theorem Dev.modThr_cal (n : Nat) (f : Thread → Thread) : (d.modThr n f).cal = d.cal := rfl
@[simp] theorem Dev.modThr_dram (n : Nat) (f : Thread → Thread) : (d.modThr n f).dram = d.dram := rfl
@[simp] theorem Dev.modThr_eth (n : Nat) (f : Thread → Thread) : (d.modThr n f).eth = d.eth := rfl
@[simp] theorem Dev.modThr_med (n : Nat) (f : Thread → Thread) : (d.modThr n f).med = d.med := rfl
@[simp] theorem Dev.modThr_kln (n : Nat) (f : Thread → Thread) : (d.modThr n f).kln = d.kln := rfl
@[simp] theorem Dev.modThr_tmp (n : Nat) (f : Thread → Thread) : (d.modThr n f).tmp = d.tmp := rfl
@[simp] theorem Dev.modThr_sys (n : Nat) (f : Thread → Thread) : (d.modThr n f).sys = d.sys := rfl

@[simp] theorem Dev.setGrp_ctr (g : Nat) (x : Group) : (d.setGrp g x).ctr = d.ctr := rfl
@[simp] theorem Dev.setGrp_waits (g : Nat) (x : Group) : (d.setGrp g x).waits = d.waits := rfl
@[simp] theorem Dev.setGrp_freeN (g : Nat) (x : Group) : (d.setGrp g x).freeN = d.freeN := rfl
@[simp] theorem Dev.setGrp_regs (g : Nat) (x : Group) : (d.setGrp g x).regs = d.regs := rfl
@[simp] theorem Dev.setGrp_hif (g : Nat) (x : Group) : (d.setGrp g x).hif = d.hif := rfl
@[simp] theorem Dev.setGrp_hop (g : Nat) (x : Group) : (d.setGrp g x).hop = d.hop := rfl
@[simp] theorem Dev.setGrp_til (g : Nat) (x : Group) : (d.setGrp g x).til = d.til := rfl
@[simp] theorem Dev.setGrp_htb (g : Nat) (x : Group) : (d.setGrp g x).htb = d.htb := rfl
@[simp] theorem Dev.setGrp_oll (g : Nat) (x : Group) : (d.setGrp g x).oll = d.oll := rfl
@[simp] theorem Dev.setGrp_fce (g : Nat) (x : Group) : (d.setGrp g x).fce = d.fce := rfl
@[simp] theorem Dev.setGrp_cal (g : Nat) (x : Group) : (d.setGrp g x).cal = d.cal := rfl
@[simp] theorem Dev.setGrp_dram (g : Nat) (x : Group) : (d.setGrp g x).dram = d.dram := rfl
@[simp] theorem Dev.setGrp_eth (g : Nat) (x : Group) : (d.setGrp g x).eth = d.eth := rfl
@[simp] theorem Dev.setGrp_med (g : Nat) (x : Group) : (d.setGrp g x).med = d.med := rfl
@[simp] theorem Dev.setGrp_kln (g : Nat) (x : Group) : (d.setGrp g x).kln = d.kln := rfl
@[simp] theorem Dev.setGrp_tmp (g : Nat) (x : Group) : (d.setGrp g x).tmp = d.tmp := rfl
@[simp] theorem Dev.setGrp_sys (g : Nat) (x : Group) : (d.setGrp g x).sys = d.sys := rfl

@[simp] theorem Dev.setStl_ctr (t : Nat) (x : STile) : (d.setStl t x).ctr = d.ctr := rfl
@[simp] theorem Dev.setStl_waits (t : Nat) (x : STile) : (d.setStl t x).waits = d.waits := rfl
@[simp] theorem Dev.setStl_freeN (t : Nat) (x : STile) : (d.setStl t x).freeN = d.freeN := rfl
@[simp] theorem Dev.setStl_regs (t : Nat) (x : STile) : (d.setStl t x).regs = d.regs := rfl
@[simp] theorem Dev.setStl_hif (t : Nat) (x : STile) : (d.setStl t x).hif = d.hif := rfl
@[simp] theorem Dev.setStl_hop (t : Nat) (x : STile) : (d.setStl t x).hop = d.hop := rfl
@[simp] theorem Dev.setStl_til (t : Nat) (x : STile) : (d.setStl t x).til = d.til := rfl
@[simp] theorem Dev.setStl_htb (t : Nat) (x : STile) : (d.setStl t x).htb = d.htb := rfl
@[simp] theorem Dev.setStl_oll (t : Nat) (x : STile) : (d.setStl t x).oll = d.oll := rfl
@[simp] theorem Dev.setStl_fce (t : Nat) (x : STile) : (d.setStl t x).fce = d.fce := rfl
@[simp] theorem Dev.setStl_cal (t : Nat) (x : STile) : (d.setStl t x).cal = d.cal := rfl
@[simp] theorem Dev.setStl_dram (t : Nat) (x : STile) : (d.setStl t x).dram = d.dram := rfl
@[simp] theorem Dev.setStl_eth (t : Nat) (x : STile) : (d.setStl t x).eth = d.eth := rfl
@[simp] theorem Dev.setStl_med (t : Nat) (x : STile) : (d.setStl t x).med = d.med := rfl
@[simp] theorem Dev.setStl_kln (t : Nat) (x : STile) : (d.setStl t x).kln = d.kln := rfl
@[simp] theorem Dev.setStl_tmp (t : Nat) (x : STile) : (d.setStl t x).tmp = d.tmp := rfl
@[simp] theorem Dev.setStl_sys (t : Nat) (x : STile) : (d.setStl t x).sys = d.sys := rfl

@[simp] theorem Dev.modStl_ctr (t : Nat) (f : STile → STile) : (d.modStl t f).ctr = d.ctr := rfl
@[simp] theorem Dev.modStl_waits (t : Nat) (f : STile → STile) : (d.modStl t f).waits = d.waits := rfl
@[simp] theorem Dev.modStl_freeN (t : Nat) (f : STile → STile) : (d.modStl t f).freeN = d.freeN := rfl
@[simp] theorem Dev.modStl_regs (t : Nat) (f : STile → STile) : (d.modStl t f).regs = d.regs := rfl
@[simp] theorem Dev.modStl_hif (t : Nat) (f : STile → STile) : (d.modStl t f).hif = d.hif := rfl
@[simp] theorem Dev.modStl_hop (t : Nat) (f : STile → STile) : (d.modStl t f).hop = d.hop := rfl
@[simp] theorem Dev.modStl_til (t : Nat) (f : STile → STile) : (d.modStl t f).til = d.til := rfl
@[simp] theorem Dev.modStl_htb (t : Nat) (f : STile → STile) : (d.modStl t f).htb = d.htb := rfl
@[simp] theorem Dev.modStl_oll (t : Nat) (f : STile → STile) : (d.modStl t f).oll = d.oll := rfl
@[simp] theorem Dev.modStl_fce (t : Nat) (f : STile → STile) : (d.modStl t f).fce = d.fce := rfl
@[simp] theorem Dev.modStl_cal (t : Nat) (f : STile → STile) : (d.modStl t f).cal = d.cal := rfl
@[simp] theorem Dev.modStl_dram (t : Nat) (f : STile → STile) : (d.modStl t f).dram = d.dram := rfl
@[simp] theorem Dev.modStl_eth (t : Nat) (f : STile → STile) : (d.modStl t f).eth = d.eth := rfl
@[simp] theorem Dev.modStl_med (t : Nat) (f : STile → STile) : (d.modStl t f).med = d.med := rfl
@[simp] theorem Dev.modStl_kln (t : Nat) (f : STile → STile) : (d.modStl t f).kln = d.kln := rfl
@[simp] theorem Dev.modStl_tmp (t : Nat) (f : STile → STile) : (d.modStl t f).tmp = d.tmp := rfl
@[simp] theorem Dev.modStl_sys (t : Nat) (f : STile → STile) : (d.modStl t f).sys = d.sys := rfl

@[simp] theorem Dev.setFifo_ctr (g l : Nat) (q : List Nat) : (d.setFifo g l q).ctr = d.ctr := rfl
@[simp] theorem Dev.setFifo_waits (g l : Nat) (q : List Nat) : (d.setFifo g l q).waits = d.waits := rfl
@[simp] theorem Dev.setFifo_freeN (g l : Nat) (q : List Nat) : (d.setFifo g l q).freeN = d.freeN := rfl
@[simp] theorem Dev.setFifo_regs (g l : Nat) (q : List Nat) : (d.setFifo g l q).regs = d.regs := rfl
@[simp] theorem Dev.setFifo_hif (g l : Nat) (q : List Nat) : (d.setFifo g l q).hif = d.hif := rfl
@[simp] theorem Dev.setFifo_hop (g l : Nat) (q : List Nat) : (d.setFifo g l q).hop = d.hop := rfl
@[simp] theorem Dev.setFifo_til (g l : Nat) (q : List Nat) : (d.setFifo g l q).til = d.til := rfl
@[simp] theorem Dev.setFifo_htb (g l : Nat) (q : List Nat) : (d.setFifo g l q).htb = d.htb := rfl
@[simp] theorem Dev.setFifo_oll (g l : Nat) (q : List Nat) : (d.setFifo g l q).oll = d.oll := rfl
@[simp] theorem Dev.setFifo_fce (g l : Nat) (q : List Nat) : (d.setFifo g l q).fce = d.fce := rfl
@[simp] theorem Dev.setFifo_cal (g l : Nat) (q : List Nat) : (d.setFifo g l q).cal = d.cal := rfl
@[simp] theorem Dev.setFifo_dram (g l : Nat) (q : List Nat) : (d.setFifo g l q).dram = d.dram := rfl
@[simp] theorem Dev.setFifo_eth (g l : Nat) (q : List Nat) : (d.setFifo g l q).eth = d.eth := rfl
@[simp] theorem Dev.setFifo_med (g l : Nat) (q : List Nat) : (d.setFifo g l q).med = d.med := rfl
@[simp] theorem Dev.setFifo_kln (g l : Nat) (q : List Nat) : (d.setFifo g l q).kln = d.kln := rfl
@[simp] theorem Dev.setFifo_tmp (g l : Nat) (q : List Nat) : (d.setFifo g l q).tmp = d.tmp := rfl
@[simp] theorem Dev.setFifo_sys (g l : Nat) (q : List Nat) : (d.setFifo g l q).sys = d.sys := rfl

@[simp] theorem Dev.setTmp_ctr (x : Tmp) : (d.setTmp x).ctr = d.ctr := rfl
@[simp] theorem Dev.setTmp_waits (x : Tmp) : (d.setTmp x).waits = d.waits := rfl
@[simp] theorem Dev.setTmp_freeN (x : Tmp) : (d.setTmp x).freeN = d.freeN := rfl
@[simp] theorem Dev.setTmp_regs (x : Tmp) : (d.setTmp x).regs = d.regs := rfl
@[simp] theorem Dev.setTmp_hif (x : Tmp) : (d.setTmp x).hif = d.hif := rfl
@[simp] theorem Dev.setTmp_sch (x : Tmp) : (d.setTmp x).sch = d.sch := rfl
@[simp] theorem Dev.setTmp_hop (x : Tmp) : (d.setTmp x).hop = d.hop := rfl
@[simp] theorem Dev.setTmp_til (x : Tmp) : (d.setTmp x).til = d.til := rfl
@[simp] theorem Dev.setTmp_htb (x : Tmp) : (d.setTmp x).htb = d.htb := rfl
@[simp] theorem Dev.setTmp_oll (x : Tmp) : (d.setTmp x).oll = d.oll := rfl
@[simp] theorem Dev.setTmp_fce (x : Tmp) : (d.setTmp x).fce = d.fce := rfl
@[simp] theorem Dev.setTmp_cal (x : Tmp) : (d.setTmp x).cal = d.cal := rfl
@[simp] theorem Dev.setTmp_dram (x : Tmp) : (d.setTmp x).dram = d.dram := rfl
@[simp] theorem Dev.setTmp_eth (x : Tmp) : (d.setTmp x).eth = d.eth := rfl
@[simp] theorem Dev.setTmp_med (x : Tmp) : (d.setTmp x).med = d.med := rfl
@[simp] theorem Dev.setTmp_kln (x : Tmp) : (d.setTmp x).kln = d.kln := rfl
@[simp] theorem Dev.setTmp_tmp (x : Tmp) : (d.setTmp x).tmp = x := rfl
@[simp] theorem Dev.setTmp_sys (x : Tmp) : (d.setTmp x).sys = d.sys := rfl

end Sys2Proof.Machine
end

