-- ==== Sys2Proof/Laws/Answer.lean ====
section
/-! SUPPORT. Completions, events and interrupts change the host interface and the counters alone. -/
namespace Sys2Proof.Machine
open Sys2Proof

/-- `d'` differs from `d` in the host interface and the counters only. -/
def OnlyHif (d d' : Dev) : Prop := d' = { d with hif := d'.hif, ctr := d'.ctr }

theorem OnlyHif.refl (d : Dev) : OnlyHif d d := rfl
theorem OnlyHif.of {d : Dev} (h : Hif) (c : Store Nat) : OnlyHif d { d with hif := h, ctr := c } := rfl
theorem OnlyHif.trans {a b c : Dev} (h : OnlyHif a b) (g : OnlyHif b c) : OnlyHif a c := by
  unfold OnlyHif at *; rw [g, h]
theorem OnlyHif.bumpN (d : Dev) (c : Ctr) (n : Nat) : OnlyHif d (d.bumpN c n) := rfl
theorem OnlyHif.setRing (d : Dev) (n : Nat) (r : Ring) : OnlyHif d (d.setRing n r) := rfl
theorem OnlyHif.send (d : Dev) (x : Sent) : OnlyHif d (d.send x) := rfl

theorem OnlyHif.foldl {α : Type} {f : Dev → α → Dev} (h : ∀ d x, OnlyHif d (f d x)) (l : List α) (d : Dev) :
    OnlyHif d (l.foldl f d) := by
  induction l generalizing d with
  | nil => exact .refl d
  | cons x r ih => exact (h d x).trans (ih _)

theorem OnlyHif.shadowFor (d : Dev) (sel : Nat → Ring → Bool) : OnlyHif d (d.shadowFor sel) := by
  refine .foldl (fun d x => ?_) _ d
  split
  · exact (OnlyHif.send d _).trans (.setRing _ _ _)
  · exact .refl d

theorem OnlyHif.clearPend (d : Dev) (v : Nat) : OnlyHif d (d.clearPend v) := by
  refine .foldl (fun d x => ?_) _ d
  split
  · exact .setRing _ _ _
  · exact .refl d

theorem OnlyHif.requestVec (k : Clock) (d : Dev) (v : Nat) : OnlyHif d (d.requestVec k v) := by
  unfold Dev.requestVec
  split
  · rfl
  · refine .trans (b := d.shadowFor (fun _ r => r.vector == v)) (.shadowFor d _) ?_
    dsimp only
    refine .trans ?_ (.clearPend _ _)
    split <;> rfl

theorem OnlyHif.wrote (k : Clock) (d : Dev) (n : Nat) : OnlyHif d (d.wrote k n) := by
  unfold Dev.wrote
  dsimp only
  split
  · split
    · exact .trans (.setRing _ _ _) (.requestVec _ _ _)
    · exact .setRing _ _ _
  · exact .refl d

theorem OnlyHif.drainPba (k : Clock) (d : Dev) : OnlyHif d (d.drainPba k) := by
  refine .foldl (fun d x => ?_) _ d
  split
  · exact .trans (b := { d with hif := _ }) rfl (.requestVec _ _ _)
  · exact .refl d

theorem OnlyHif.writeCpl (k : Clock) (d : Dev) (q : Nat) (e : Cpl) : OnlyHif d (d.writeCpl k q e) := by
  unfold Dev.writeCpl
  dsimp only
  refine .trans ?_ (.wrote _ _ _)
  split
  · exact (OnlyHif.send d _).trans (.setRing _ _ _)
  · exact ((OnlyHif.send d _).trans (.setRing _ _ _)).trans (.bumpN _ _ _)

theorem OnlyHif.flushCplN (n : Nat) (k : Clock) (d : Dev) (q : Nat) : OnlyHif d (Dev.flushCplN n k d q) := by
  induction n generalizing d with
  | zero => exact .refl d
  | succ n ih =>
    unfold Dev.flushCplN
    split
    · exact .refl d
    · split
      · exact ((OnlyHif.setRing _ _ _).trans (.writeCpl _ _ _ _)).trans (ih _)
      · exact .refl d

theorem OnlyHif.hostWr (d : Dev) (a : Nat) (bs : List Nat) : OnlyHif d (d.hostWr a bs) := by
  unfold Dev.hostWr
  split <;> rfl

theorem OnlyHif.completeWith (k : Clock) (d : Dev) (o : Origin) (opc : Nat) (st : Status) (wr : List Nat) (res : Nat) :
    OnlyHif d (d.completeWith k o opc st wr res) := by
  unfold Dev.completeWith
  split
  · exact .refl d
  · dsimp only
    refine .trans ?_ (.flushCplN _ _ _ _)
    refine .trans ?_ (.setRing _ _ _)
    split
    · exact (OnlyHif.hostWr d _ _).trans rfl
    · rfl

theorem OnlyHif.complete (k : Clock) (d : Dev) (o : Origin) (opc : Nat) (st : Status) (res : List RField) (cut : Bool) :
    OnlyHif d (d.complete k o opc st res cut) := .completeWith _ _ _ _ _ _ _

theorem OnlyHif.writeEvt (k : Clock) (d : Dev) (n : Nat) (h : HeldEvt) : OnlyHif d (d.writeEvt k n h) :=
  ((OnlyHif.send d _).trans (.setRing _ _ _)).trans (.wrote _ _ _)

theorem OnlyHif.flushEvtN (m : Nat) (k : Clock) (d : Dev) (n : Nat) : OnlyHif d (Dev.flushEvtN m k d n) := by
  induction m generalizing d with
  | zero => exact .refl d
  | succ m ih =>
    unfold Dev.flushEvtN
    split
    · exact .refl d
    · split
      · exact ((OnlyHif.setRing _ _ _).trans (.writeEvt _ _ _ _)).trans (ih _)
      · exact .refl d

theorem OnlyHif.storeEvt (d : Dev) (n : Nat) (h : HeldEvt) : OnlyHif d (d.storeEvt n h) := by
  unfold Dev.storeEvt
  dsimp only
  split
  · exact (OnlyHif.bumpN d _ _).trans (.setRing _ _ _)
  · exact .setRing _ _ _

theorem OnlyHif.postEvt (k : Clock) (d : Dev) (n : Nat) (h : HeldEvt) : OnlyHif d (d.postEvt k n h) := by
  unfold Dev.postEvt
  split
  · exact (OnlyHif.storeEvt d _ _).trans (.flushEvtN _ _ _ _)
  · dsimp only
    have g : ∀ x : Dev, OnlyHif x (if x.ringIs x.hif.defEvt 5 then (x.storeEvt x.hif.defEvt h).flushEvt k x.hif.defEvt
        else x.bump0 .hifEvtDiscard) := fun x => by
      split
      · exact (OnlyHif.storeEvt _ _ _).trans (.flushEvtN _ _ _ _)
      · exact .bumpN _ _ _
    split
    · exact g d
    · exact (OnlyHif.bumpN d _ _).trans (g _)

theorem OnlyHif.raiseOn (k : Clock) (d : Dev) (n : Nat) (e : Evt) : OnlyHif d (d.raiseOn k n e) := by
  unfold Dev.raiseOn
  split
  · exact .refl d
  · split
    · unfold Dev.holdForRestart
      dsimp only
      repeat' split
      all_goals rfl
    · exact .postEvt _ _ _ _

theorem OnlyHif.event (k : Clock) (d : Dev) (typ detail arg : Nat) (more : List Nat) :
    OnlyHif d (d.event k typ detail arg more) := .raiseOn _ _ _ _

section
variable (d : Dev)

@[simp] theorem Dev.complete_waits (k : Clock) (o : Origin) (opc : Nat) (st : Status) (res : List RField) (cut : Bool) : (d.complete k o opc st res cut).waits = d.waits :=
  (congrArg Dev.waits (OnlyHif.complete k d o opc st res cut)).trans rfl
@[simp] theorem Dev.complete_freeN (k : Clock) (o : Origin) (opc : Nat) (st : Status) (res : List RField) (cut : Bool) : (d.complete k o opc st res cut).freeN = d.freeN :=
  (congrArg Dev.freeN (OnlyHif.complete k d o opc st res cut)).trans rfl
@[simp] theorem Dev.complete_regs (k : Clock) (o : Origin) (opc : Nat) (st : Status) (res : List RField) (cut : Bool) : (d.complete k o opc st res cut).regs = d.regs :=
  (congrArg Dev.regs (OnlyHif.complete k d o opc st res cut)).trans rfl
@[simp] theorem Dev.complete_sch (k : Clock) (o : Origin) (opc : Nat) (st : Status) (res : List RField) (cut : Bool) : (d.complete k o opc st res cut).sch = d.sch :=
  (congrArg Dev.sch (OnlyHif.complete k d o opc st res cut)).trans rfl
@[simp] theorem Dev.complete_hop (k : Clock) (o : Origin) (opc : Nat) (st : Status) (res : List RField) (cut : Bool) : (d.complete k o opc st res cut).hop = d.hop :=
  (congrArg Dev.hop (OnlyHif.complete k d o opc st res cut)).trans rfl
@[simp] theorem Dev.complete_til (k : Clock) (o : Origin) (opc : Nat) (st : Status) (res : List RField) (cut : Bool) : (d.complete k o opc st res cut).til = d.til :=
  (congrArg Dev.til (OnlyHif.complete k d o opc st res cut)).trans rfl
@[simp] theorem Dev.complete_htb (k : Clock) (o : Origin) (opc : Nat) (st : Status) (res : List RField) (cut : Bool) : (d.complete k o opc st res cut).htb = d.htb :=
  (congrArg Dev.htb (OnlyHif.complete k d o opc st res cut)).trans rfl
@[simp] theorem Dev.complete_oll (k : Clock) (o : Origin) (opc : Nat) (st : Status) (res : List RField) (cut : Bool) : (d.complete k o opc st res cut).oll = d.oll :=
  (congrArg Dev.oll (OnlyHif.complete k d o opc st res cut)).trans rfl
@[simp] theorem Dev.complete_fce (k : Clock) (o : Origin) (opc : Nat) (st : Status) (res : List RField) (cut : Bool) : (d.complete k o opc st res cut).fce = d.fce :=
  (congrArg Dev.fce (OnlyHif.complete k d o opc st res cut)).trans rfl
@[simp] theorem Dev.complete_cal (k : Clock) (o : Origin) (opc : Nat) (st : Status) (res : List RField) (cut : Bool) : (d.complete k o opc st res cut).cal = d.cal :=
  (congrArg Dev.cal (OnlyHif.complete k d o opc st res cut)).trans rfl
@[simp] theorem Dev.complete_dram (k : Clock) (o : Origin) (opc : Nat) (st : Status) (res : List RField) (cut : Bool) : (d.complete k o opc st res cut).dram = d.dram :=
  (congrArg Dev.dram (OnlyHif.complete k d o opc st res cut)).trans rfl
@[simp] theorem Dev.complete_eth (k : Clock) (o : Origin) (opc : Nat) (st : Status) (res : List RField) (cut : Bool) : (d.complete k o opc st res cut).eth = d.eth :=
  (congrArg Dev.eth (OnlyHif.complete k d o opc st res cut)).trans rfl
@[simp] theorem Dev.complete_med (k : Clock) (o : Origin) (opc : Nat) (st : Status) (res : List RField) (cut : Bool) : (d.complete k o opc st res cut).med = d.med :=
  (congrArg Dev.med (OnlyHif.complete k d o opc st res cut)).trans rfl
@[simp] theorem Dev.complete_kln (k : Clock) (o : Origin) (opc : Nat) (st : Status) (res : List RField) (cut : Bool) : (d.complete k o opc st res cut).kln = d.kln :=
  (congrArg Dev.kln (OnlyHif.complete k d o opc st res cut)).trans rfl
@[simp] theorem Dev.complete_tmp (k : Clock) (o : Origin) (opc : Nat) (st : Status) (res : List RField) (cut : Bool) : (d.complete k o opc st res cut).tmp = d.tmp :=
  (congrArg Dev.tmp (OnlyHif.complete k d o opc st res cut)).trans rfl
@[simp] theorem Dev.complete_sys (k : Clock) (o : Origin) (opc : Nat) (st : Status) (res : List RField) (cut : Bool) : (d.complete k o opc st res cut).sys = d.sys :=
  (congrArg Dev.sys (OnlyHif.complete k d o opc st res cut)).trans rfl
@[simp] theorem Dev.event_waits (k : Clock) (typ detail arg : Nat) (more : List Nat) : (d.event k typ detail arg more).waits = d.waits :=
  (congrArg Dev.waits (OnlyHif.event k d typ detail arg more)).trans rfl
@[simp] theorem Dev.event_freeN (k : Clock) (typ detail arg : Nat) (more : List Nat) : (d.event k typ detail arg more).freeN = d.freeN :=
  (congrArg Dev.freeN (OnlyHif.event k d typ detail arg more)).trans rfl
@[simp] theorem Dev.event_regs (k : Clock) (typ detail arg : Nat) (more : List Nat) : (d.event k typ detail arg more).regs = d.regs :=
  (congrArg Dev.regs (OnlyHif.event k d typ detail arg more)).trans rfl
@[simp] theorem Dev.event_sch (k : Clock) (typ detail arg : Nat) (more : List Nat) : (d.event k typ detail arg more).sch = d.sch :=
  (congrArg Dev.sch (OnlyHif.event k d typ detail arg more)).trans rfl
@[simp] theorem Dev.event_hop (k : Clock) (typ detail arg : Nat) (more : List Nat) : (d.event k typ detail arg more).hop = d.hop :=
  (congrArg Dev.hop (OnlyHif.event k d typ detail arg more)).trans rfl
@[simp] theorem Dev.event_til (k : Clock) (typ detail arg : Nat) (more : List Nat) : (d.event k typ detail arg more).til = d.til :=
  (congrArg Dev.til (OnlyHif.event k d typ detail arg more)).trans rfl
@[simp] theorem Dev.event_htb (k : Clock) (typ detail arg : Nat) (more : List Nat) : (d.event k typ detail arg more).htb = d.htb :=
  (congrArg Dev.htb (OnlyHif.event k d typ detail arg more)).trans rfl
@[simp] theorem Dev.event_oll (k : Clock) (typ detail arg : Nat) (more : List Nat) : (d.event k typ detail arg more).oll = d.oll :=
  (congrArg Dev.oll (OnlyHif.event k d typ detail arg more)).trans rfl
@[simp] theorem Dev.event_fce (k : Clock) (typ detail arg : Nat) (more : List Nat) : (d.event k typ detail arg more).fce = d.fce :=
  (congrArg Dev.fce (OnlyHif.event k d typ detail arg more)).trans rfl
@[simp] theorem Dev.event_cal (k : Clock) (typ detail arg : Nat) (more : List Nat) : (d.event k typ detail arg more).cal = d.cal :=
  (congrArg Dev.cal (OnlyHif.event k d typ detail arg more)).trans rfl
@[simp] theorem Dev.event_dram (k : Clock) (typ detail arg : Nat) (more : List Nat) : (d.event k typ detail arg more).dram = d.dram :=
  (congrArg Dev.dram (OnlyHif.event k d typ detail arg more)).trans rfl
@[simp] theorem Dev.event_eth (k : Clock) (typ detail arg : Nat) (more : List Nat) : (d.event k typ detail arg more).eth = d.eth :=
  (congrArg Dev.eth (OnlyHif.event k d typ detail arg more)).trans rfl
@[simp] theorem Dev.event_med (k : Clock) (typ detail arg : Nat) (more : List Nat) : (d.event k typ detail arg more).med = d.med :=
  (congrArg Dev.med (OnlyHif.event k d typ detail arg more)).trans rfl
@[simp] theorem Dev.event_kln (k : Clock) (typ detail arg : Nat) (more : List Nat) : (d.event k typ detail arg more).kln = d.kln :=
  (congrArg Dev.kln (OnlyHif.event k d typ detail arg more)).trans rfl
@[simp] theorem Dev.event_tmp (k : Clock) (typ detail arg : Nat) (more : List Nat) : (d.event k typ detail arg more).tmp = d.tmp :=
  (congrArg Dev.tmp (OnlyHif.event k d typ detail arg more)).trans rfl
@[simp] theorem Dev.event_sys (k : Clock) (typ detail arg : Nat) (more : List Nat) : (d.event k typ detail arg more).sys = d.sys :=
  (congrArg Dev.sys (OnlyHif.event k d typ detail arg more)).trans rfl
end

end Sys2Proof.Machine
end

