-- ==== Sys2Proof/Laws/Host.lean ====
section
/-! SUPPORT. What the wrappers of the commands do, said once: they go on, keep the queue, and answer a host command with what
its meaning replies (R14, R19, R386). -/
namespace Sys2Proof
open Sys2Proof.Machine

/-! ### The wrappers answer a next state and keep the queue -/

theorem onDev_next (f : Clock → Dev → Dev) (s : State) : onDev f s = .next { s with dev := f s.clk s.dev } := rfl

theorem onMem_next (f : Clock → Mems → Dev → Mems × Dev) (s : State) :
    onMem f s = .next { s with mem := (f s.clk s.mem s.dev).1, dev := (f s.clk s.mem s.dev).2 } := rfl

theorem hostCmd_next (o : Origin) (opc : Nat) (f : Clock → Dev → Reply × Dev) (s : State) :
    ∃ d, hostCmd o opc f s = .next { s with dev := d } := by
  unfold hostCmd
  split
  · exact ⟨s.dev, rfl⟩
  · split <;> exact ⟨_, rfl⟩

theorem hostRead_next (o : Origin) (opc : Nat) (f : Clock → Dev → Status × List RField × Dev) (s : State) :
    ∃ d, hostRead o opc f s = .next { s with dev := d } := by
  unfold hostRead
  split
  · exact ⟨s.dev, rfl⟩
  · split <;> exact ⟨_, rfl⟩

theorem hostMem_next (o : Origin) (opc : Nat) (f : Clock → Mems → Dev → Reply × Mems × Dev) (s : State) :
    ∃ m d, hostMem o opc f s = .next { s with mem := m, dev := d } := by
  unfold hostMem
  split
  · exact ⟨s.mem, s.dev, rfl⟩
  · split
    · exact ⟨s.mem, _, rfl⟩
    · exact ⟨_, _, rfl⟩

/-! ### What a host command answers -/

/-- `m` is the command's meaning applied to the state; the two `rfl`s unfold the dispatch and the meaning. -/
theorem does_of_onDev {i : Instr} {s : State} {d : Dev} (m : Out) {f : Clock → Dev → Dev} (g : exec i s = m)
    (h : m = onDev f s) (e : f s.clk s.dev = d) : Does i s d := by
  subst e; exact g.trans h

theorem doesMem_of_onMem {i : Instr} {s : State} {m : Mems} {d : Dev} (x : Out) {f : Clock → Mems → Dev → Mems × Dev}
    (g : exec i s = x) (h : x = onMem f s) (e : f s.clk s.mem s.dev = (m, d)) : DoesMem i s m d := by
  unfold DoesMem; rw [g, h, onMem_next, e]

theorem does_of_onMem {i : Instr} {s : State} {d : Dev} (x : Out) {f : Clock → Mems → Dev → Mems × Dev}
    (g : exec i s = x) (h : x = onMem f s) (e : f s.clk s.mem s.dev = (s.mem, d)) : Does i s d := by
  unfold Does; rw [g, h, onMem_next, e]

/-- A host command whose meaning replies now answers with that status and result. -/
theorem answers_of_hostCmd {i : Instr} {o : Origin} {opc : Nat} {s : State} {st : Status} {res : List RField} {d : Dev}
    (f : Clock → Dev → Reply × Dev) (ho : HostOk o s) (h : exec i s = hostCmd o opc f s)
    (e : f s.clk s.dev = (.now st res, d)) : Answers i o opc s st res d := by
  obtain ⟨h1, h2⟩ := ho
  unfold Answers Does
  rw [h]
  simp only [hostCmd, h1, h2, Bool.false_eq_true, if_false, onDev_next, e]
  rfl

/-- A host command whose meaning says so waits. -/
theorem waits_of_hostCmd {i : Instr} {o : Origin} {opc : Nat} {s : State} {kind : WKind} {key : Nat} {d : Dev}
    (f : Clock → Dev → Reply × Dev) (ho : HostOk o s) (h : exec i s = hostCmd o opc f s)
    (e : f s.clk s.dev = (.later kind key, d)) : Waits i o opc s kind key d := by
  obtain ⟨h1, h2⟩ := ho
  unfold Waits Does
  rw [h]
  simp only [hostCmd, h1, h2, Bool.false_eq_true, if_false, onDev_next, e]
  rfl

/-- A host command without a reply of its own leaves the device its meaning gives. -/
theorem does_of_hostCmd_held {i : Instr} {o : Origin} {opc : Nat} {s : State} {d : Dev}
    (f : Clock → Dev → Reply × Dev) (ho : HostOk o s) (h : exec i s = hostCmd o opc f s)
    (e : f s.clk s.dev = (.held, d)) : Does i s d := by
  obtain ⟨h1, h2⟩ := ho
  unfold Does
  rw [h]
  simp only [hostCmd, h1, h2, Bool.false_eq_true, if_false, onDev_next, e]
  rfl

theorem reads_of_hostRead {i : Instr} {o : Origin} {opc : Nat} {s : State} {st : Status} {res : List RField} {d : Dev}
    (f : Clock → Dev → Status × List RField × Dev) (ho : HostOk o s) (h : exec i s = hostRead o opc f s)
    (e : f s.clk s.dev = (st, res, d)) : Reads i o opc s st res d := by
  obtain ⟨h1, h2⟩ := ho
  unfold Reads Does
  rw [h]
  simp only [hostRead, h1, h2, Bool.false_eq_true, if_false, onDev_next, e]

/-- A host command that reaches the memories, replying now. -/
theorem doesMem_of_hostMem {i : Instr} {o : Origin} {opc : Nat} {s : State} {st : Status} {res : List RField} {m : Mems} {d : Dev}
    (f : Clock → Mems → Dev → Reply × Mems × Dev) (ho : HostOk o s) (h : exec i s = hostMem o opc f s)
    (e : f s.clk s.mem s.dev = (.now st res, m, d)) : DoesMem i s m (d.complete s.clk o opc st res) := by
  obtain ⟨h1, h2⟩ := ho
  unfold DoesMem
  rw [h]
  simp only [hostMem, h1, h2, Bool.false_eq_true, if_false, onMem_next, e]
  rfl

/-- While the control cores restart a host command has no effect (R19). -/
theorem hostCmd_paused {o : Origin} {opc : Nat} {s : State} (f : Clock → Dev → Reply × Dev) (h : s.dev.hif.paused = true) :
    hostCmd o opc f s = .next s := by
  unfold hostCmd; rw [if_pos h]

end Sys2Proof
end

