-- ==== Sys2Proof/Laws/Store.lean ====
section
/-! SUPPORT. The laws of the sparse store: reads after writes, and that every operation keeps the canonical form. -/
namespace Sys2Proof

variable {α : Type} [DecidableEq α]

theorem Store.wfFrom_mono {d : α} {st : Store α} {lo lo' : Nat} (h : lo' ≤ lo)
    (w : Store.wfFrom d lo st = true) : Store.wfFrom d lo' st = true := by
  cases st with
  | nil => rfl
  | cons p r =>
    obtain ⟨a, v⟩ := p
    simp only [Store.wfFrom, Bool.and_eq_true, decide_eq_true_eq] at w ⊢
    exact ⟨⟨by omega, w.1.2⟩, w.2⟩

theorem Store.get_lt {d : α} {st : Store α} {lo k : Nat} (w : Store.wfFrom d lo st = true)
    (h : k < lo) : Store.get d st k = d := by
  cases st with
  | nil => rfl
  | cons p r =>
    obtain ⟨a, v⟩ := p
    simp only [Store.wfFrom, Bool.and_eq_true, decide_eq_true_eq] at w
    simp only [Store.get]
    rw [if_neg (by omega), if_pos (by omega)]

theorem Store.wfFrom_put {d : α} {st : Store α} {lo k : Nat} {v : α}
    (w : Store.wfFrom d lo st = true) (h : lo ≤ k) : Store.wfFrom d lo (Store.put d st k v) = true := by
  induction st generalizing lo with
  | nil =>
    by_cases hv : v = d <;> simp [Store.put, Store.wfFrom, hv, h]
  | cons p r ih =>
    obtain ⟨a, x⟩ := p
    have w0 := w
    simp only [Store.wfFrom, Bool.and_eq_true, decide_eq_true_eq] at w
    simp only [Store.put]
    split
    · subst_vars
      split
      · exact Store.wfFrom_mono (by omega) w.2
      · rename_i hv; simp [Store.wfFrom, h, hv, w.2]
    · split
      · split
        · exact w0
        · rename_i hv
          simp only [Store.wfFrom, Bool.and_eq_true, decide_eq_true_eq]
          exact ⟨⟨h, hv⟩, ⟨by omega, w.1.2⟩, w.2⟩
      · simp only [Store.wfFrom, Bool.and_eq_true, decide_eq_true_eq]
        exact ⟨w.1, ih w.2 (by omega)⟩

/-- A write keeps the canonical form. -/
theorem Store.wf_put {d : α} {st : Store α} {k : Nat} {v : α} (w : Store.wf d st = true) :
    Store.wf d (Store.put d st k v) = true := Store.wfFrom_put w (Nat.zero_le k)

theorem Store.get_put_self_from {d : α} {st : Store α} {lo k : Nat} {v : α}
    (w : Store.wfFrom d lo st = true) : Store.get d (Store.put d st k v) k = v := by
  induction st generalizing lo with
  | nil => by_cases hv : v = d <;> simp [Store.put, Store.get, hv]
  | cons p r ih =>
    obtain ⟨a, x⟩ := p
    simp only [Store.wfFrom, Bool.and_eq_true, decide_eq_true_eq] at w
    simp only [Store.put]
    split
    · subst_vars
      split
      · subst_vars; exact Store.get_lt w.2 (by omega)
      · simp [Store.get]
    · split
      · split
        · subst_vars; simp only [Store.get]; rw [if_neg (by assumption), if_pos (by assumption)]
        · simp [Store.get]
      · simp only [Store.get]; rw [if_neg (by assumption), if_neg (by assumption)]; exact ih w.2

/-- A read after a write to the same key gives the value written. -/
theorem Store.get_put_self {d : α} {st : Store α} {k : Nat} {v : α} (w : Store.wf d st = true) :
    Store.get d (Store.put d st k v) k = v := Store.get_put_self_from w

theorem Store.get_put_ne_from {d : α} {st : Store α} {lo k j : Nat} {v : α}
    (w : Store.wfFrom d lo st = true) (h : j ≠ k) :
    Store.get d (Store.put d st k v) j = Store.get d st j := by
  induction st generalizing lo with
  | nil => by_cases hv : v = d <;> simp [Store.put, Store.get, hv, h]
  | cons p r ih =>
    obtain ⟨a, x⟩ := p
    simp only [Store.wfFrom, Bool.and_eq_true, decide_eq_true_eq] at w
    simp only [Store.put]
    split
    · subst_vars
      split
      · simp only [Store.get, if_neg h]
        split
        · exact Store.get_lt w.2 (by omega)
        · rfl
      · simp only [Store.get, if_neg h]
    · split
      · split
        · rfl
        · simp only [Store.get, if_neg h]
          by_cases hj : j < k
          · rw [if_pos hj, if_neg (by omega), if_pos (by omega)]
          · rw [if_neg hj]
      · simp only [Store.get]; rw [ih w.2]

/-- A write leaves every other key alone. -/
theorem Store.get_put_ne {d : α} {st : Store α} {k j : Nat} {v : α} (w : Store.wf d st = true)
    (h : j ≠ k) : Store.get d (Store.put d st k v) j = Store.get d st j := Store.get_put_ne_from w h

theorem Store.wfFrom_clear {d : α} {st : Store α} {l lo hi : Nat} (w : Store.wfFrom d l st = true) :
    Store.wfFrom d l (Store.clear st lo hi) = true := by
  induction st generalizing l with
  | nil => rfl
  | cons p r ih =>
    obtain ⟨a, x⟩ := p
    simp only [Store.wfFrom, Bool.and_eq_true, decide_eq_true_eq] at w
    simp only [Store.clear, List.filter]
    split
    · simp only [Store.wfFrom, Bool.and_eq_true, decide_eq_true_eq]
      exact ⟨w.1, ih w.2⟩
    · exact Store.wfFrom_mono (by omega) (ih w.2)

/-- Clearing a range keeps the canonical form. -/
theorem Store.wf_clear {d : α} {st : Store α} {lo hi : Nat} (w : Store.wf d st = true) :
    Store.wf d (Store.clear st lo hi) = true := Store.wfFrom_clear w

theorem Store.wf_nil {d : α} : Store.wf d ([] : Store α) = true := rfl

end Sys2Proof
end

