-- ==== Sys2Proof/Laws/Mems.lean ====
section
/-! SUPPORT. Every operation on the memories keeps their canonical form, and reset's memories have it. -/
namespace Sys2Proof
open Sys2Proof.Machine

theorem wf_writeBytes {st : Store Byte} {i : Nat} {bs : List Byte} (w : Store.wf 0 st = true) :
    Store.wf 0 (writeBytes st i bs) = true := by
  induction bs generalizing st i with
  | nil => exact w
  | cons b r ih => exact ih (Store.wf_put w)

theorem wf_writeBundles {st : Store Quad} {i : Nat} {bs : List Quad} (w : Store.wf 0 st = true) :
    Store.wf 0 (writeBundles st i bs) = true := by
  induction bs generalizing st i with
  | nil => exact w
  | cons b r ih => exact ih (Store.wf_put w)

theorem wf_foldl_put {l : List (Nat × Byte)} {st : Store Byte} (g : Nat × Byte → Nat) (w : Store.wf 0 st = true) :
    Store.wf 0 (l.foldl (fun (st : Store Byte) x => st.put 0 (g x) x.2) st) = true := by
  induction l generalizing st with
  | nil => exact w
  | cons b r ih => exact ih (Store.wf_put w)

theorem reset_mems_wf : State.reset.mem.wf := ⟨rfl, rfl, rfl⟩

variable {m : Mems} (w : m.wf)
include w

theorem wf_dmWrite {p a n v : Nat} : (m.dmWrite p a n v).wf := ⟨wf_writeBytes w.1, w.2⟩
theorem wf_dmPut {p a : Nat} {bs : List Byte} : (m.dmPut p a bs).wf := ⟨wf_writeBytes w.1, w.2⟩
theorem wf_dramPut {a : Nat} {bs : List Byte} : (m.dramPut a bs).wf := ⟨w.1, w.2.1, wf_writeBytes w.2.2⟩
theorem wf_clearDm {p : Nat} : (m.clearDm p).wf := ⟨Store.wf_clear w.1, w.2⟩
theorem wf_loadPm {p : Nat} {img : List Quad} : (m.loadPm p img).wf := ⟨w.1, wf_writeBundles (Store.wf_clear w.2.1), w.2.2⟩
theorem wf_copyDm {p q : Nat} : (m.copyDm p q).wf := ⟨wf_foldl_put _ (Store.wf_clear w.1), w.2⟩

end Sys2Proof
end

