-- ==== Sys2Proof/Laws/Tile.lean ====
section
/-! SUPPORT. What an operation of a bundle does, said once: it joins the bundle being gathered, and closes it where it is the
last (R180). -/
namespace Sys2Proof
open Sys2Proof.Machine

theorem requestDue_of_opened {d : Dev} {t : Nat} {b : Bundle} (h : (d.tile t).opened = some b) :
    d.requestDue t = false := by
  simp [Dev.requestDue, h]

/-- An operation that makes the open bundle `b` into `f ctx b`. -/
theorem tileOp_gathers {sl : Slot} {s : State} {p : Nat} {b : Bundle} (f : OpCtx → Bundle → Bundle)
    (g : Gathering sl s p b) :
    let b' := f { r := s.dev.tile sl.tile, m := s.mem, p := p, ue := s.dev.phys p } b
    onMem (tileOp sl f) s = .next (if sl.fin then
      { withBundle sl s b' with
        mem := (closeBundle s.clk sl.tile p s.mem (withBundle sl s b').dev).1
        dev := (closeBundle s.clk sl.tile p s.mem (withBundle sl s b').dev).2 }
      else withBundle sl s b') := by
  obtain ⟨h1, h2, h3⟩ := g
  simp only [onMem, tileOp, h1, h2, requestDue_of_opened h3, h3, Bool.not_false, Bool.and_self, if_true,
    Option.isNone_some, Bool.false_and, Bool.false_eq_true, if_false, Option.getD_some]
  split <;> rfl

end Sys2Proof
end

