-- ==== Sys2Proof/WellFormed.lean ====
section
/-! DEFINITION. Which commands can occur: the numbers that an event or an operation carries name an object there is, and a
host command's origin fits its descriptor (Table 14.6). What a host command's own arguments may be is judged by the device,
which answers a bad one (R27, R28), so no argument is checked here. -/
namespace Sys2Proof
open Sys2Proof.Machine

/-- Lanes are 0 to 31 and lines 0 to 255 (R59). -/
def laneOk (q : Nat) : Bool := decide (q < 32)
def lineOk (n : Nat) : Bool := decide (n < 256)
/-- The Ethernet ports E0 and E1 (chapter 12). -/
def portOk (p : Nat) : Bool := decide (p < 2)
/-- Tile positions 0 to 31, and physical tiles 0 to 33 (chapter 6). -/
def tileOk (t : Nat) : Bool := decide (t < 32)
def physOk (p : Nat) : Bool := decide (p < 34)
/-- Hoppers 0 to 1023 (chapter 9). -/
def hopOk (h : Nat) : Bool := decide (h < 1024)
/-- Ranks 0 to 3 (R423). -/
def rankOk (r : Nat) : Bool := decide (r < 4)
/-- A sub-tick of a tick (R32). -/
def subOk (n : Nat) : Bool := decide (n < 3072)
/-- The four frame lengths, in ticks (R37). -/
def frameOk (len : Nat) : Bool := len == 20 || len == 40 || len == 80 || len == 160
def bytesOk (l : List Nat) : Bool := l.all (fun b => decide (b < 256))

/-- A flag set: its place in the Barista's order, the thread and the flag (R209). -/
def flagOk (x : Nat × Nat × Nat) : Bool := decide (x.2.1 < 8192) && decide (x.2.2 < 32)

/-- A producer of Table 9.1. -/
def prodOk : Prod → Bool
  | .lane q => laneOk q
  | .eth p => portOk p
  | .dma t c => tileOk t && decide (c < 4)
  | .put t => tileOk t
  | .filter => true
  | .barista => true
  | .control => true

/-- The origin of a host command: its ring, TAG and result buffer fit their fields. -/
def Origin.wf (o : Origin) : Bool :=
  decide (o.ring < 256) && decide (o.tag < 2 ^ 16) && decide (o.resAddr < 2 ^ 64) && decide (o.resLen ≤ 16777216)

/-- A physical tile's engine, or a requester of the ports 2 to 7 (Table 16.2). -/
def Requester.wf : Requester → Bool
  | .tile p => decide (p < 34)
  | .port i => decide (2 ≤ i) && decide (i < 8)

/-- The place of an operation of a program: its tile position, and its bundle word's ECC outcome. -/
def Machine.Slot.wf (x : Slot) : Bool := tileOk x.tile && decide (x.pmEcc ≤ 2)

def Instr.wf : Instr → Bool
  | .powerOn => true
  | .rstNAssert => true
  | .internalResetEnd _ => true
  | .supplyFault => true
  | .controlRestart _ _ => true
  | .controlRestartDone => true
  | .pfwAssert _ => true
  | .pfwRelease => true
  | .perstAssert => true
  | .pcieHotReset => true
  | .pcieConfigWrite _ _ _ _ _ => true
  | .tick _ _ _ _ _ _ => true
  | .frameBoundary len => frameOk len
  | .windowClose len => frameOk len
  | .refRecover _ => true
  | .ppsInEdge _ => true
  | .ptpEventRx port typ _ => portOk port && decide (typ < 16)
  | .esmcRx port _ => portOk port
  | .servoUpdate _ _ _ _ _ _ => true
  | .sourceLossTimeout => true
  | .holdoverLimit => true
  | .timeStep => true
  | .alarmFire at_ => subOk at_
  | .hearthStatus o => o.wf
  | .setTimeOfDay o _ => o.wf
  | .sourceEnable o _ => o.wf
  | .forceHoldover o _ => o.wf
  | .alarmArm o _ _ _ _ _ _ _ => o.wf
  | .alarmDisarm o _ => o.wf
  | .alarmRead o _ => o.wf
  | .stepPolicy o _ _ _ => o.wf
  | .downstreamFrameTx q => laneOk q
  | .latchPoint => true
  | .laneCmdPacket q _ => laneOk q
  | .upstreamFrame q comma codes _ _ => laneOk q && (comma :: codes).all (fun c => decide (c < 1024)) && decide (codes.length = 383)
  | .telemetryPacket q => laneOk q
  | .turnaroundMiss q => laneOk q
  | .losAssert q => laneOk q
  | .losRelease q => laneOk q
  | .trainTimeout q => laneOk q
  | .holdoffEnd q => laneOk q
  | .trainingWaveStart => true
  | .relockTimeout q => laneOk q
  | .lineCmdTimeout n => lineOk n
  | .stateAckTimeout n => lineOk n
  | .mailboxTimeout q => laneOk q
  | .laneDisableEnd q => laneOk q
  | .loopbackEnd q => laneOk q
  | .retrainBegin q => laneOk q
  | .laneEnable o _ _ => o.wf
  | .laneStatus o _ => o.wf
  | .laneRetrain o _ _ _ => o.wf
  | .laneLoopback o _ _ => o.wf
  | .lineActivate o _ _ => o.wf
  | .lineSetState o _ _ _ _ _ => o.wf
  | .lineCommand o _ _ _ => o.wf
  | .lineActionWrite o _ _ _ => o.wf
  | .reflexWrite o _ _ _ => o.wf
  | .mailboxSend o _ _ _ => o.wf
  | .laneExpect o _ _ _ _ _ => o.wf
  | .lineRead o _ => o.wf
  | .streamSlot n => decide (n < 512)
  | .filterBoundaryApply => true
  | .fceCmdPacket _ => true
  | .filterStreamConfig o _ _ _ _ _ _ _ => o.wf
  | .filterCoefWrite o _ _ _ _ => o.wf
  | .filterCoefRead o _ _ _ _ => o.wf
  | .filterBankSelect o _ _ => o.wf
  | .filterStart o _ _ => o.wf
  | .filterStop o _ => o.wf
  | .filterStopSwapStart o _ _ _ => o.wf
  | .filterRamp o _ _ _ _ => o.wf
  | .filterDetectorSet o _ _ _ => o.wf
  | .filterActionWrite o _ _ _ => o.wf
  | .filterProtoWrite o _ _ _ _ _ => o.wf
  | .filterStatus o _ => o.wf
  | .sensorConvert _ => true
  | .sensorUpdate => true
  | .laneScanStart q => laneOk q
  | .laneScanEnd q errs errsT => laneOk q && ((errs.length == 64 && errsT.length == 32) || (errs.length == 2048 && errsT.isEmpty))
  | .laneCalApplyStep q => laneOk q
  | .rankRecalMeasure r _ => rankOk r
  | .rankRecalApplyStep r => rankOk r
  | .recordInterval => true
  | .calRecordWriteDone => true
  | .calStatus o _ _ _ => o.wf
  | .calRun o _ _ _ => o.wf
  | .calPin o _ _ _ _ => o.wf
  | .calSet o _ _ _ _ => o.wf
  | .calSave o => o.wf
  | .calRecordRead o _ => o.wf
  | .dataMemoryClearDone p => physOk p
  | .dmaDescStart t c => tileOk t && decide (c.chan < 4)
  | .dmaDescComplete t c _ _ _ _ => tileOk t && decide (c < 4)
  | .tileStatus o _ => o.wf
  | .tileMapRead o => o.wf
  | .tileRowStatus o _ _ => o.wf
  | .mnop sl _ => sl.wf
  | .mac1 sl _ => sl.wf
  | .qcoef sl _ => sl.wf
  | .qsamp sl _ => sl.wf
  | .dot4 sl _ => sl.wf
  | .cmplx sl _ => sl.wf
  | .cmplxc sl _ => sl.wf
  | .widess sl _ => sl.wf
  | .wideus sl _ => sl.wf
  | .widesu sl _ => sl.wf
  | .accadd sl _ => sl.wf
  | .accneg sl _ => sl.wf
  | .accshi sl _ => sl.wf
  | .accshx sl _ => sl.wf
  | .accld sl _ => sl.wf
  | .accldh sl _ => sl.wf
  | .ext16 sl _ => sl.wf
  | .ext32 sl _ => sl.wf
  | .extg sl _ => sl.wf
  | .expa sl _ => sl.wf
  | .exph sl _ => sl.wf
  | .norm sl _ => sl.wf
  | .expmaxa sl _ => sl.wf
  | .expmaxh sl _ => sl.wf
  | .accz sl _ => sl.wf
  | .dnop sl _ => sl.wf
  | .ldhL sl _ ecc => sl.wf && decide (ecc ≤ 2)
  | .ldhH sl _ ecc => sl.wf && decide (ecc ≤ 2)
  | .ldhs sl _ ecc => sl.wf && decide (ecc ≤ 2)
  | .ldw sl _ ecc => sl.wf && decide (ecc ≤ 2)
  | .ldd sl _ ecc => sl.wf && decide (ecc ≤ 2)
  | .sthL sl _ _ => sl.wf
  | .sthH sl _ _ => sl.wf
  | .stw sl _ => sl.wf
  | .std sl _ => sl.wf
  | .lda sl _ ecc => sl.wf && decide (ecc ≤ 2)
  | .sta sl _ => sl.wf
  | .lea sl _ => sl.wf
  | .nop sl _ => sl.wf
  | .add sl _ => sl.wf
  | .sub sl _ => sl.wf
  | .and sl _ => sl.wf
  | .or sl _ => sl.wf
  | .xor sl _ => sl.wf
  | .shl sl _ => sl.wf
  | .shr sl _ => sl.wf
  | .shru sl _ => sl.wf
  | .cmp sl _ => sl.wf
  | .addi sl _ => sl.wf
  | .movi sl _ => sl.wf
  | .cmpi sl _ => sl.wf
  | .shli sl _ => sl.wf
  | .shri sl _ => sl.wf
  | .shrui sl _ => sl.wf
  | .movr sl _ => sl.wf
  | .padd sl _ => sl.wf
  | .movc sl _ => sl.wf
  | .bcc sl _ => sl.wf
  | .brx sl _ => sl.wf
  | .rep sl _ => sl.wf
  | .endrep sl _ => sl.wf
  | .resume sl _ => sl.wf
  | .idle sl _ => sl.wf
  | .signal sl _ => sl.wf
  | .wait sl _ => sl.wf
  | .yield sl _ => sl.wf
  | .texit sl _ => sl.wf
  | .flagtake sl _ => sl.wf
  | .time sl _ => sl.wf
  | .almarm sl _ => sl.wf
  | .almdis sl _ => sl.wf
  | .hput sl _ => sl.wf
  | .hcommit sl _ => sl.wf
  | .habort sl _ => sl.wf
  | .hget sl _ ecc => sl.wf && decide (ecc ≤ 2)
  | .hnext sl _ => sl.wf
  | .hmark sl _ => sl.wf
  | .hrewind sl _ => sl.wf
  | .hrelease sl _ => sl.wf
  | .dmapost sl _ => sl.wf
  | .dmaabort sl _ => sl.wf
  | .dmaq sl _ => sl.wf
  | .lmovi sl _ => sl.wf
  | .lmova sl _ => sl.wf
  | .lmovn sl _ => sl.wf
  | .lbcc sl _ => sl.wf
  | .lcall sl _ => sl.wf
  | .repi sl _ => sl.wf
  | .signali sl _ => sl.wf
  | .entry t => tileOk t
  | .flagSet sets => sets.all flagOk
  | .schCmdPacket _ _ => true
  | .groupConfig o _ _ _ _ => o.wf
  | .groupStatus o _ => o.wf
  | .threadConfig o _ _ _ _ _ => o.wf
  | .threadStart o _ _ _ _ _ => o.wf
  | .threadSignal o _ _ => o.wf
  | .threadCancel o _ _ => o.wf
  | .threadRead o _ => o.wf
  | .schedTileStatus o _ => o.wf
  | .burstStart h p prio _ => hopOk h && prodOk p && decide (prio < 8)
  | .burstEnd h _ _ _ => hopOk h
  | .hopperDestroyEnd h => hopOk h
  | .hopperCreate o _ _ _ _ => o.wf
  | .hopperDestroy o _ _ => o.wf
  | .hopperFlush o _ => o.wf
  | .hopperSwap o _ => o.wf
  | .hopperMode o _ _ => o.wf
  | .hopperStatus o _ => o.wf
  | .lineFrameProcess n _ => lineOk n
  | .onHookTimeout n => lineOk n
  | .lineChannelDestroyEnd n => lineOk n
  | .lineChannelCreate o _ _ => o.wf
  | .lineChannelDestroy o _ => o.wf
  | .lineChannelModify o _ _ => o.wf
  | .lineChannelStatus o _ => o.wf
  | .lineRing o _ _ _ _ _ => o.wf
  | .lineRingStop o _ => o.wf
  | .lineCadenceSet o _ _ => o.wf
  | .lineFeed o _ _ => o.wf
  | .linePolarity o _ _ => o.wf
  | .lineMeter o _ _ _ _ _ _ => o.wf
  | .lineCidSend o _ _ => o.wf
  | .lineTonePlay o _ _ _ _ _ _ => o.wf
  | .lineToneStop o _ => o.wf
  | .lineHybChar o _ => o.wf
  | .lineCptSet o _ _ => o.wf
  | .lineEqSet o _ _ _ _ => o.wf
  | .rtpReceive hop _ _ => hopOk hop
  | .pktFrameProcess _ _ => true
  | .rtcpReport _ voip => bytesOk voip && decide (voip.length = 28)
  | .rtcpReceive hop => hopOk hop
  | .mediaTimeout _ => true
  | .bridgeMix _ _ => true
  | .pktChannelDestroyEnd _ => true
  | .bridgeDestroyEnd _ => true
  | .pktChannelCreate o _ _ => o.wf
  | .pktChannelDestroy o _ => o.wf
  | .pktChannelModify o _ _ => o.wf
  | .pktChannelStatus o _ => o.wf
  | .pktModeSet o _ _ => o.wf
  | .pktEventSend o _ _ _ _ => o.wf
  | .bridgeCreate o _ _ => o.wf
  | .bridgeDestroy o _ => o.wf
  | .bridgeLegAdd o _ _ => o.wf
  | .bridgeLegRemove o _ _ _ => o.wf
  | .bridgeLegModify o _ _ _ _ _ => o.wf
  | .bridgeStatus o _ => o.wf
  | .frameReceive port bs _ _ _ => portOk port && bytesOk bs
  | .pauseFrameRx port quanta => portOk port && decide (quanta < 2 ^ 16)
  | .pfcFrameRx port enables times => portOk port && decide (enables < 256) && decide (times.length = 8) && times.all (fun t => decide (t < 2 ^ 16))
  | .pauseExpiry port queue => portOk port && decide (queue < 8)
  | .txSelect port => portOk port
  | .linkDown port => portOk port
  | .linkUp port => portOk port
  | .protectSwitch => true
  | .protectRevert => true
  | .portDisableDone port => portOk port
  | .flowDeleteDone h => decide (h < 32768)
  | .portStatus o _ => o.wf
  | .portEnable o _ _ => o.wf
  | .portProtectSwitch o _ => o.wf
  | .queueCeilingSet o _ _ _ _ => o.wf
  | .destWrite o _ _ => o.wf
  | .destClear o _ => o.wf
  | .destRead o _ => o.wf
  | .flowAdd o _ => o.wf
  | .flowDelete o _ => o.wf
  | .flowModify o _ _ => o.wf
  | .flowRead o _ => o.wf
  | .flowLookup o _ => o.wf
  | .flowTableStatus o => o.wf
  | .kilnStatus o => o.wf
  | .identityRead o _ _ _ _ => o.wf
  | .challenge o => o.wf
  | .challengeExpiry => true
  | .ownerStatement o _ _ _ _ _ _ => o.wf
  | .attest o _ _ _ => o.wf
  | .ctxAlloc o => o.wf
  | .ctxFree o _ => o.wf
  | .ctxLink o _ _ => o.wf
  | .ctxResetRx o _ => o.wf
  | .ctxStatus o _ => o.wf
  | .sealedImport o _ _ _ => o.wf
  | .importKeyInfo o _ _ => o.wf
  | .certInfo o => o.wf
  | .certRenew o => o.wf
  | .dtlsOpen o _ _ _ _ _ _ _ => o.wf
  | .dtlsFeed o _ _ _ _ _ _ => o.wf
  | .dtlsPoll o _ _ _ => o.wf
  | .dtlsClose o _ _ _ _ => o.wf
  | .dtlsRetransmitDue j => decide (j < 512)
  | .dtlsSessionTimeout n => decide (n < 512)
  | .dtlsLingerEnd n => decide (n < 512)
  | .imageVerify o _ _ _ => o.wf
  | .rollbackAdvance o _ _ _ _ => o.wf
  | .debugUnlock o _ _ _ => o.wf
  | .debugLock o => o.wf
  | .debugTicksExpiry => true
  | .kilnJobConfig o _ _ _ => o.wf
  | .random => true
  | .exportOpen => true
  | .exportWrite => true
  | .exportClose => true
  | .tamperTrip sensor bad => decide (sensor < 4) && decide (bad ≤ 2)
  | .entropyTestFail => true
  | .entropyRetestDone _ => true
  | .bar0Write a _ _ => decide (a < 2 ^ 24)
  | .sealedBar0Access _ => true
  | .sysSetupLock _ => true
  | .doorbellFetch at_ _ => subOk at_
  | .msixModerationExpiry n => decide (n < 256)
  | .counterSnapshot o _ _ => o.wf
  | .ringCreate o _ _ _ _ _ _ _ _ _ _ _ => o.wf
  | .ringDestroy o _ => o.wf
  | .ringStatus o _ => o.wf
  | .sysInfo o => o.wf
  | .echo o _ => o.wf
  | .tamperJob o _ => o.wf
  | .tamperJobPacket => true
  | .tamperJobTurn host => bytesOk host && decide (host.length ≤ 65536)
  | .tamperJobDone _ => true
  | .tamperStatus o => o.wf
  | .tamperEnable o _ => o.wf
  | .tamperDisableTimeout => true
  | .dramRequest who addr len _ => who.wf && decide (1 ≤ len) && decide (addr % 64 + len ≤ 64)
  | .dramTransaction ch _ => decide (ch < 2)
  | .requestLate _ => true
  | .refreshAccrue r => rankOk r
  | .mr4Poll reports => reports.all (fun p => rankOk p.1 && decide (p.2.1 ≤ 2))
  | .powerDownEntry r => rankOk r
  | .scrubQueue => true
  | .rankRetireStart => true
  | .migSpareTrained _ _ _ => true
  | .migrationFlip => true
  | .spareTestDone _ _ _ => true
  | .dramStatus o => o.wf
  | .dramPortSet o _ _ _ _ _ => o.wf
  | .dramRetire o _ => o.wf
  | .dramMigrateAbort o => o.wf
  | .dramSpareTest o _ => o.wf
  | .dramScrubSet o _ _ _ _ => o.wf
  | .dramErrorLog o => o.wf
  | .evacBoundary => true
  | .evacComplete => true
  | .vacatedSelfTestDone p pass pm dm => physOk p && (pass || !(pm.isEmpty && dm.isEmpty))
  | .tileEvacuate o _ _ => o.wf
  | .tileSpareTest o _ => o.wf
  | .tileFill o _ => o.wf
  | .servicePolicy o _ _ _ _ _ => o.wf
  | .imageSlotWrite o _ _ => o.wf
  | .ctrlFwSwitch o _ => o.wf
  | .sysRestart o _ => o.wf
  | .dumpStatus o => o.wf
  | .dumpOffer o => o.wf
  | .dumpDiscard o _ => o.wf
  | .fatalLogRead o => o.wf
  | .sramRowStatus o _ => o.wf
  | .watchdogExpiry _ _ _ _ => true
  | .lockstepMismatch _ _ _ _ => true
  | .ctrlSramUe _ _ _ _ _ => true
  | .ashCaptureDone _ _ => true
  | .ashPackDone => true
  | .avsStep _ => true
  | .announceReceiptTimeout port => portOk port
  | .commaFound q => laneOk q
  | .perstDeassert => true
  | .startStepEnd n _ => decide (1 ≤ n) && decide (n ≤ 11)
  | .imageSlotWriteDone _ => true
  | .kilnIntegrityFault => true
  | .tamperNPulseEnd => true
  | .vddAonLoss => true

end Sys2Proof
end

