-- ==== Sys2Proof/Tests/Slice0.lean ====
section
/-! SUPPORT. Tests: ill-formed commands that Instr.wf refuses, small steps with results worked out from the spec, and, for every
statement with hypotheses, a concrete state and operands that meet them, clause by clause. -/
namespace Sys2Proof.Tests
open Sys2Proof Sys2Proof.Machine

/-! ### Small states -/

def o0 : Origin := { ring := 0, tag := 7 }

/-- A state over a device: memories empty, no command waiting. -/
def st (d : Dev) (tick sub : Nat := 0) : State :=
  { clk := { tick := tick, sub := sub, fine := 0 }, dev := d, mem := Mems.reset, pending := [] }

def dHif (x : Hif) : Dev := { Dev.reset with hif := x }
def dSch (x : Sch) : Dev := { Dev.reset with sch := x }
def dHop (x : Hop) : Dev := { Dev.reset with hop := x }
def dTil (x : Til) : Dev := { Dev.reset with til := x }
def dHtb (x : Htb) : Dev := { Dev.reset with htb := x }
def dOll (x : Oll) : Dev := { Dev.reset with oll := x }
def dFce (x : Fce) : Dev := { Dev.reset with fce := x }
def dCal (x : Cal) : Dev := { Dev.reset with cal := x }
def dDram (x : Dram) : Dev := { Dev.reset with dram := x }
def dEth (x : Eth) : Dev := { Dev.reset with eth := x }
def dMed (x : Med) : Dev := { Dev.reset with med := x }
def dKln (x : Kln) : Dev := { Dev.reset with kln := x }
def dTmp (x : Tmp) : Dev := { Dev.reset with tmp := x }
def dSys (x : Sys) : Dev := { Dev.reset with sys := x }

/-- A device whose Hopper 5 is set up and holds one readable packet of the words `ws`. -/
def hop5 (d : Dev) (ws : List Word) : Dev :=
  ({ d with hop := { d.hop with hops := [(5, { setUp := true, seq := [{ start := 0, n := ws.length, prio := 4 }] })] } }).writeWords
    (({ setUp := true } : Hopper).bankAt 1 + 1) ws

/-! ### Witnesses: machine and starts -/

theorem witness_IdleStepMovesSubTick : (∃ s : State, s.pending = [] ∧ s.clk.sub = 3070) ∧ ∃ s : State, s.pending = [] ∧ s.clk.sub = 3071 :=
  ⟨⟨st Dev.reset 0 3070, by decide⟩, ⟨st Dev.reset 0 3071, by decide⟩⟩

theorem witness_StepKeepsInvariant : ∃ s t : State, Inv s ∧ step s = .next t ∧ t.clk.sub = 1 :=
  ⟨State.reset, _, ⟨by unfold ClockOk; decide, by decide⟩, rfl, rfl⟩

theorem witness_TimeMovesForwardOnly : ∃ (i : Instr) (s t : State), exec i s = .next t ∧
    (∀ a b f0 f1 sv ce, i ≠ .tick a b f0 f1 sv ce) ∧ i ≠ .timeStep ∧ i ≠ .powerOn ∧ (∀ e, i ≠ .internalResetEnd e) :=
  ⟨.latchPoint, st Dev.reset 5 1152, _, rfl, by simp, by simp, by simp, by simp⟩

theorem witness_PowerAndResetsChooseStart :
    (∃ s : State, s.dev.sys.powered = true ∧ s.dev.sys.rstN = true ∧ s.dev.sys.inReset = none) ∧
    (∃ s : State, s.dev.sys.inReset = some (.warm, 2) ∧ s.dev.sys.emberOk = false) ∧
    (∃ s : State, s.dev.sys.inReset = some (.warm, 2) ∧ s.dev.sys.emberOk = true ∧ s.dev.sys.supplyFault = true) ∧
    (∃ s : State, s.dev.sys.inReset = some (.warm, 2) ∧ s.dev.sys.emberOk = true ∧ s.dev.sys.supplyFault = false ∧
      s.dev.sys.step4 = false) ∧
    (∃ s : State, s.dev.sys.inReset = some (.warm, 2) ∧ s.dev.sys.emberOk = true ∧ s.dev.sys.supplyFault = false ∧
      s.dev.sys.step4 = true ∧ s.dev.sys.failed = 2) ∧
    (∃ s : State, s.dev.sys.inReset = some (.warm, 2) ∧ s.dev.sys.emberOk = true ∧ s.dev.sys.supplyFault = false ∧
      s.dev.sys.step4 = true ∧ s.dev.sys.failed = 1) ∧
    (∃ s : State, s.dev.hif.linkUp = true ∧ s.dev.hif.perst = false ∧ s.dev.sys.step = 4 ∧ s.dev.hif.rings = [] ∧
      s.dev.sys.offer = none ∧ s.dev.hif.pba = 0) :=
  ⟨⟨st (dSys { Sys.reset with powered := true, rstN := true }), by decide⟩,
   ⟨st (dSys { Sys.reset with inReset := some (.warm, 2) }), by decide⟩,
   ⟨st (dSys { Sys.reset with inReset := some (.warm, 2), emberOk := true, supplyFault := true }), by decide⟩,
   ⟨st (dSys { Sys.reset with inReset := some (.warm, 2), emberOk := true }), by decide⟩,
   ⟨st (dSys { Sys.reset with inReset := some (.warm, 2), emberOk := true, step4 := true, failed := 2 }), by decide⟩,
   ⟨st (dSys { Sys.reset with inReset := some (.warm, 2), emberOk := true, step4 := true, failed := 1 }), by decide⟩,
   ⟨st { Dev.reset with hif := { Hif.reset with linkUp := true, perst := false }, sys := { Sys.reset with step := 4 } }, by decide⟩⟩

theorem witness_PowerAndResetsChooseStart_config :
    (∃ s : State, s.dev.cfgAnswers = true) ∧
    ∃ s : State, s.dev.hif.linkUp = true ∧ s.dev.hif.perst = false ∧ 4 ≤ s.dev.sys.step ∧ s.dev.hif.rings = [] ∧
      s.dev.sys.offer = none ∧ s.dev.hif.pba = 0 ∧ s.dev.hif.heldWr = [] :=
  ⟨⟨st { Dev.reset with hif := { Hif.reset with linkUp := true, perst := false }, sys := { Sys.reset with step := 4 } }, by decide⟩,
   ⟨st { Dev.reset with hif := { Hif.reset with linkUp := true, perst := false }, sys := { Sys.reset with step := 4 } }, by decide⟩⟩

/-- A powered device out of reset whose last step of the start is `n`. -/
def dStep (n : Nat) : Dev := dSys { Sys.reset with powered := true, step := n }

theorem witness_StartStepsEndInOrder_steps :
    (∃ s : State, s.dev.sys.powered = true ∧ s.dev.sys.inReset = none ∧ s.dev.kln.boot ≠ 3 ∧ s.dev.sys.testMode = true) ∧
    (∃ s : State, s.dev.sys.powered = true ∧ s.dev.sys.inReset = none ∧ s.dev.kln.boot ≠ 3 ∧ s.dev.sys.testMode = false ∧
      s.dev.sys.step = 1) ∧
    (∃ s : State, s.dev.sys.powered = true ∧ s.dev.kln.boot ≠ 3 ∧ s.dev.sys.testMode = false ∧ s.dev.sys.step = 2) ∧
    (∃ (s : State) (m : Mems) (d : Dev), s.dev.sys.powered = true ∧ s.dev.kln.boot ≠ 3 ∧ s.dev.sys.testMode = false ∧
      s.dev.sys.step = 3 ∧ startUnits s.clk {} s.mem s.dev = (true, m, d)) ∧
    (∃ (s : State) (d : Dev), s.dev.sys.powered = true ∧ s.dev.kln.boot ≠ 3 ∧ s.dev.sys.testMode = false ∧ s.dev.sys.step = 5 ∧
      s.dev.startImages = (true, d)) ∧
    ∃ s : State, s.dev.sys.powered = true ∧ s.dev.kln.boot ≠ 3 ∧ s.dev.sys.testMode = false ∧ 6 ≤ s.dev.sys.step ∧
      s.dev.laterDone 10 = true :=
  ⟨⟨st (dSys { Sys.reset with powered := true, testMode := true }), by decide⟩, ⟨st (dStep 1), by decide⟩, ⟨st (dStep 2), by decide⟩,
   ⟨st (dSys { Sys.reset with powered := true, step := 3, kind := 1 }), _, _, by decide, by decide, by decide, by decide, rfl⟩,
   ⟨st (dStep 5), _, by decide, by decide, by decide, by decide, rfl⟩,
   ⟨st { dStep 9 with hif := { Hif.reset with locked := true } }, by decide⟩⟩

theorem witness_StartStepsEndInOrder :
    (∃ s : State, s.dev.sys.powered = true ∧ s.dev.sys.inReset = none ∧ s.dev.kln.boot ≠ 3 ∧ s.dev.sys.step = 0) ∧
    (∃ s : State, s.dev.sys.powered = true ∧ s.dev.sys.inReset = none ∧ s.dev.kln.boot ≠ 3 ∧ s.dev.sys.step = 4) ∧
    (∃ s : State, s.dev.sys.powered = true ∧ s.dev.sys.inReset = none ∧ s.dev.kln.boot ≠ 3 ∧ s.dev.sys.step = 6 ∧
      s.dev.htb.state = .coarse) ∧
    (∃ s : State, s.dev.sys.powered = true ∧ s.dev.sys.inReset = none ∧ s.dev.kln.boot ≠ 3 ∧ s.dev.sys.step = 10 ∧
      s.dev.htb.state = .locked) :=
  ⟨⟨st (dSys { Sys.reset with powered := true }), by decide⟩,
   ⟨st (dSys { Sys.reset with powered := true, step := 4 }), by decide⟩,
   ⟨st { Dev.reset with sys := { Sys.reset with powered := true, step := 6 }, htb := { Htb.reset with state := .coarse } }, by decide⟩,
   ⟨st { Dev.reset with sys := { Sys.reset with powered := true, step := 10 }, htb := { Htb.reset with state := .locked } }, by decide⟩⟩

theorem witness_ControlRestartAndPins_general :
    (∃ (s : State) (d : Dev), s.dev.sys.inReset = none ∧ s.dev.hif.paused = true ∧ s.dev.sys.checked = false ∧
      s.dev.sys.ash ≠ .capturing ∧ s.dev.ctrlRepair = d ∧ s.dev.sys.cCand ≠ []) ∧
    (∃ s : State, s.dev.sys.inReset = none ∧ s.dev.hif.paused = true ∧ s.dev.sys.checked = true ∧ s.dev.hif.lineEvts = [] ∧
      s.dev.hif.klnEvts = [] ∧ s.dev.hif.restartEvts = [] ∧ s.dev.waits = [] ∧ s.dev.hif.rings = [] ∧ s.dev.hif.pba = 0 ∧
      s.dev.sys.offer = none ∧ s.dev.sys.ash = .empty ∧ s.dev.sys.evac = none ∧ s.dev.sys.evacQ = [] ∧ s.dev.hif.heldWr = [] ∧
      s.dev.hif.bme = true ∧ s.dev.hif.d3hot = false) ∧
    (∃ (s : State) (d : Dev), s.dev.sys.pfwN = true ∧
      ({ s.dev with sys := { s.dev.sys with pfwN := false } }).bump0 .sysPfwAssert = d ∧ s.dev.sys.slotWr = none ∧
      s.dev.cal.writing = none) ∧
    ∃ (s : State) (c : Nat), s.dev.sys.avs = some c ∧ c = 1 ∧ s.dev.sys.powered = true ∧ s.dev.sys.step = 3 ∧ s.dev.kln.boot ≠ 3 ∧
      s.dev.hif.paused = false ∧ s.clk.sub = 0 ∧ 8000 ≤ s.dev.sys.avsTicks :=
  ⟨⟨st { Dev.reset with hif := { Hif.reset with paused := true }, sys := { Sys.reset with cCand := [3] } }, _, by decide, by decide,
      by decide, by decide, rfl, by decide⟩,
   ⟨st { Dev.reset with hif := { Hif.reset with paused := true, bme := true }, sys := { Sys.reset with checked := true } }, by decide⟩,
   ⟨st Dev.reset, _, by decide, rfl, by decide, by decide⟩,
   ⟨st (dSys { Sys.reset with avs := some 1, powered := true, step := 3, avsTicks := 8000 }), 1, by decide⟩⟩

theorem witness_ControlRestartAndPins :
    (∃ s : State, s.dev.sys.inReset = none ∧ s.dev.hif.paused = true ∧ s.dev.sys.checked = false ∧ s.dev.sys.ash ≠ .capturing ∧
      s.dev.sys.cCand = []) ∧
    (∃ s : State, s.dev.sys.inReset = none ∧ s.dev.hif.paused = true ∧ s.dev.sys.checked = true ∧ s.dev.hif.lineEvts = [] ∧
      s.dev.hif.klnEvts = [] ∧ s.dev.hif.restartEvts = [] ∧ s.dev.waits = [] ∧ s.dev.hif.rings = [] ∧ s.dev.hif.pba = 0 ∧
      s.dev.sys.offer = none ∧ s.dev.sys.ash = .empty ∧ s.dev.sys.evac = none ∧ s.dev.sys.evacQ = [] ∧ s.dev.hif.bme = true ∧
      s.dev.hif.d3hot = false) ∧
    (∃ s : State, s.dev.sys.inReset = none ∧ s.dev.sys.pfwN = true ∧ s.dev.cal.writing = none ∧ s.dev.sys.slotWr = none) ∧
    (∃ s : State, s.dev.sys.inReset = none ∧ s.dev.sys.avs = some 19 ∧ s.dev.sys.powered = true ∧ s.dev.sys.step = 3 ∧
      s.dev.kln.boot ≠ 3 ∧ s.dev.hif.paused = false ∧ s.clk.sub = 0 ∧ s.dev.sys.avsTicks = 8000) :=
  ⟨⟨st (dHif { Hif.reset with paused := true }), by decide⟩,
   ⟨st { Dev.reset with hif := { Hif.reset with paused := true, bme := true }, sys := { Sys.reset with checked := true } }, by decide⟩,
   ⟨st Dev.reset, by decide⟩,
   ⟨st (dSys { Sys.reset with avs := some 19, powered := true, step := 3, avsTicks := 8000 }), by decide⟩⟩

/-! ### Witnesses: the Hearth -/

theorem witness_HearthCommandsAnswer : ∃ (s : State) (slot : Nat), HostOk o0 s ∧ s.dev.htb.residue = 0 ∧ slot = 255 ∧
    slot < s.dev.htb.hostSlots ∧ (1 ≤ 65535 ∧ 1 ≤ 200) :=
  ⟨st Dev.reset, 255, ⟨rfl, rfl⟩, by decide⟩

theorem witness_SetTimeOfDayStepsAndSlews :
    (∃ (s : State) (x : Nat), HostOk o0 s ∧ x % 4096 ≤ 3071 ∧ s.dev.htb.state = .holdover ∧ s.dev.htb.timeSrc = 0) ∧
    ∃ (s : State) (x : Nat), HostOk o0 s ∧ x % 4096 ≤ 3071 ∧ s.dev.htb.state = .locked :=
  ⟨⟨st (dHtb { Htb.reset with state := .holdover }), 4096 * 160 + 3071, ⟨rfl, rfl⟩, by decide⟩,
   ⟨st (dHtb { Htb.reset with state := .locked }), 3071, ⟨rfl, rfl⟩, by decide⟩⟩

theorem witness_HoldoverIsForcedAndEntered :
    (∃ s : State, HostOk o0 s ∧ s.dev.htb.state = .locked) ∧
    (∃ s : State, s.dev.htb.srcLoss = s.dev.htb.noSrc ∧ s.dev.htb.state = .coarse) ∧
    (∃ s : State, s.dev.htb.state = .holdover ∧ s.dev.htb.holdLim = 1 ∧ s.dev.htb.holdLim * 480000 = s.dev.htb.ticksIn) ∧
    ∃ s : State, s.dev.htb.servoOn = true :=
  ⟨⟨st (dHtb { Htb.reset with state := .locked }), ⟨rfl, rfl⟩, by decide⟩,
   ⟨st (dHtb { Htb.reset with state := .coarse, noSrc := 24000 }), by decide⟩,
   ⟨st (dHtb { Htb.reset with state := .holdover, holdLim := 1, ticksIn := 480000 }), by decide⟩, ⟨st Dev.reset, by decide⟩⟩

theorem witness_AlarmSlotsArmAndDisarm_due :
    (∃ (s : State) (slot : Nat), HostOk o0 s ∧ slot < s.dev.htb.hostSlots ∧ slot ∉ s.dev.issuesNow s.clk ∧ s.clk.sub = 3071) ∧
    (∃ (s : State) (slot : Nat), HostOk o0 s ∧ slot < s.dev.htb.hostSlots ∧ slot ∈ s.dev.issuesNow s.clk ∧
      s.dev.bndDone s.clk = true) ∧
    (∃ (s : State) (slot : Nat), HostOk o0 s ∧ slot < s.dev.htb.hostSlots ∧ slot ∈ s.dev.issuesNow s.clk ∧
      s.dev.bndDone s.clk = false) ∧
    (∃ (s : State) (n : Nat), s.clk.sub ≤ n ∧ n = 0 ∧ lastBnd s.clk.tick = s.dev.htb.bnd ∧ lastBnd s.clk.tick = 8) ∧
    ∃ (s : State) (n : Nat), s.clk.sub ≤ n ∧ n = 3071 ∧ 0 < n :=
  ⟨⟨st Dev.reset 0 3071, 7, ⟨rfl, rfl⟩, by decide +kernel⟩,
   ⟨st (dHtb { Htb.reset with alarms := [(7, { armed := true, target := 4097, due := 4097 })] }) 1 1, 7, ⟨rfl, rfl⟩, by decide +kernel⟩,
   ⟨st (dHtb { Htb.reset with bnd := 0, alarms := [(7, { armed := true, target := 160 * 4096, due := 160 * 4096 })] }) 160 0, 7, ⟨rfl, rfl⟩,
     by decide +kernel⟩,
   ⟨st (dHtb { Htb.reset with bnd := 8 }) 160 0, 0, by decide +kernel⟩, ⟨st Dev.reset 0 3071, 3071, by decide +kernel⟩⟩

theorem witness_AlarmSlotsArmAndDisarm :
    (∃ (s : State) (slot target typ targets : Nat), HostOk o0 s ∧ slot = 255 ∧ typ = 1 ∧ s.dev.hopUp targets = true ∧
      alarmTargetsOk typ targets = true ∧ target % 4096 = 3071 ∧ slot < s.dev.htb.hostSlots ∧ (s.dev.alarm slot).armed = false ∧
      clockStamp s.clk = target) ∧
    (∃ (s : State) (slot target : Nat), HostOk o0 s ∧ slot = 0 ∧ alarmTargetsOk 0 0 = true ∧ target % 4096 ≤ 3071 ∧
      slot < s.dev.htb.hostSlots ∧ (s.dev.alarm slot).armed = false ∧ target + 1 = clockStamp s.clk) ∧
    (∃ (s : State) (slot : Nat), HostOk o0 s ∧ slot < s.dev.htb.hostSlots ∧ (s.dev.alarm slot).armed = true ∧
      (s.dev.alarm slot).due ≠ clockStamp s.clk) ∧
    (∃ (s : State) (slot : Nat), HostOk o0 s ∧ slot = 1023 ∧ s.dev.htb.hostSlots ≤ slot) ∧
    ∃ (s : State) (n : Nat), s.clk.sub ≤ n ∧ n = 3071 ∧ s.dev.htb.alarms = [] ∧ s.dev.htb.issueAt ≠ s.clk.tick * 4096 + n + 1 :=
  ⟨⟨st (hop5 Dev.reset [1]) 9 3071, 255, 9 * 4096 + 3071, 1, 5, ⟨rfl, rfl⟩, by decide⟩,
   ⟨st Dev.reset 9 8, 0, 9 * 4096 + 7, ⟨rfl, rfl⟩, by decide⟩,
   ⟨st (dHtb { Htb.reset with alarms := [(2, { armed := true, due := 5 })] }), 2, ⟨rfl, rfl⟩, by decide⟩,
   ⟨st Dev.reset, 1023, ⟨rfl, rfl⟩, by decide⟩, ⟨st Dev.reset, 3071, by decide⟩⟩

def dueAlarm (typ targets : Nat) : Alarm :=
  { armed := true, target := 3071, due := 3071, period := 8, typ := typ, targets := targets }

theorem witness_AlarmFiresItsAction : ∃ (s : State) (n : Nat) (a : Alarm), s.clk.sub ≤ n ∧ n = 3071 ∧
    (0 < n ∨ lastBnd s.clk.tick ≤ s.dev.htb.bnd) ∧ s.dev.htb.alarms = [(7, a)] ∧
    a.armed = true ∧ a.typ = 3 ∧ a.due = s.clk.tick * 4096 + n ∧ a.target = a.due ∧ a.period < 2 ^ 32 ∧
    s.dev.htb.issueAt ≠ s.clk.tick * 4096 + n + 1 :=
  ⟨st (dHtb { Htb.reset with alarms := [(7, dueAlarm 3 9)] }), 3071, dueAlarm 3 9, by decide⟩

theorem witness_AlarmLineActionsNeedAnActiveLine :
    (∃ (s : State) (n line entry : Nat) (a : Alarm), s.clk.sub ≤ n ∧ n < 3072 ∧ (0 < n ∨ lastBnd s.clk.tick ≤ s.dev.htb.bnd) ∧
      s.dev.htb.alarms = [(7, a)] ∧ a.armed = true ∧
      a.typ = 2 ∧ a.due = s.clk.tick * 4096 + n ∧ a.target = a.due ∧ a.period < 2 ^ 32 ∧
      s.dev.htb.issueAt ≠ s.clk.tick * 4096 + n + 1 ∧ bitsOf a.targets 0 8 = line ∧ bitsOf a.targets 8 3 = entry ∧ line = 255 ∧
      entry = 7 ∧ (s.dev.line line).active = false) ∧
    ∃ (s : State) (n line entry : Nat) (a : Alarm), s.clk.sub ≤ n ∧ n < 3072 ∧ (0 < n ∨ lastBnd s.clk.tick ≤ s.dev.htb.bnd) ∧
      s.dev.htb.alarms = [(7, a)] ∧ a.armed = true ∧
      a.typ = 2 ∧ a.due = s.clk.tick * 4096 + n ∧ a.target = a.due ∧ a.period < 2 ^ 32 ∧
      s.dev.htb.issueAt ≠ s.clk.tick * 4096 + n + 1 ∧ bitsOf a.targets 0 8 = line ∧ bitsOf a.targets 8 3 = entry ∧
      (s.dev.line line).active = true ∧ (s.dev.lane (line / 8)).train = .live ∧ ((s.dev.line line).actions.get {} entry).kind = 0 :=
  ⟨⟨st (dHtb { Htb.reset with alarms := [(7, dueAlarm 2 2047)] }), 3071, 255, 7, dueAlarm 2 2047, by decide⟩,
   ⟨st { Dev.reset with
      htb := { Htb.reset with alarms := [(7, dueAlarm 2 2047)] }
      oll := { Oll.reset with lines := [(255, { active := true })], lanes := [(31, { train := .live })] } },
    3071, 255, 7, dueAlarm 2 2047, by decide⟩⟩

theorem witness_HearthInputsMoveSources :
    (∃ s : State, s.dev.htb.refB.lost = true ∧ s.dev.htb.refB.good = 8000 ∧ s.dev.htb.refA.lost = true ∧ s.dev.htb.refA.good = 8000) ∧
    (∃ s : State, s.dev.htb.timeSrc = 3 ∧ ((100000 : Int) - s.dev.htb.ppsInComp).natAbs = 100000) ∧
    (∃ s : State, s.dev.htb.timeSrc = 3 ∧ s.dev.htb.state = .locked ∧ ((-100001 : Int) - s.dev.htb.ppsInComp).natAbs = 100001 ∧
      s.dev.htb.ppsRej = 6) ∧
    (∃ s : State, s.dev.hif.paused = false ∧ s.dev.htb.servoOn = true ∧ s.dev.htb.state = .freeRun ∧ s.dev.htb.forced = false ∧
      s.dev.htb.enables.getLsbD 0 = true ∧ s.dev.htb.ptpOff = false) :=
  ⟨⟨st (dHtb { Htb.reset with refA := { lost := true, good := 8000 }, refB := { lost := true, good := 8000 } }), by decide⟩,
   ⟨st (dHtb { Htb.reset with timeSrc := 3 }), by decide⟩,
   ⟨st (dHtb { Htb.reset with timeSrc := 3, state := .locked, ppsRej := 6 }), by decide⟩,
   ⟨st (dHtb { Htb.reset with enables := 1 }), by decide⟩⟩

theorem witness_HearthInputsMoveSources_general :
    (∃ s : State, s.dev.htb.timeSrc = 3 ∧ s.dev.htb.servoOn = true ∧ s.dev.htb.forced = false ∧ s.dev.htb.stepTod = false) ∧
    (∃ s : State, s.dev.htb.timeSrc = 3 ∧ s.dev.htb.state = .locked ∧ 100000 < ((-100001 : Int) - s.dev.htb.ppsInComp).natAbs ∧
      s.dev.htb.ppsRej = 7) ∧
    ∃ (s : State) (d : Dev), s.dev.htb.servoOn = true ∧ ({ s.dev with htb := { s.dev.htb with
        port0 := { s.dev.htb.port0 with slave := true, dataset := s.dev.htb.port0.dataset }
        port1 := { s.dev.htb.port1 with slave := false, dataset := s.dev.htb.port1.dataset } } }).selectTime = d :=
  ⟨⟨st (dHtb { Htb.reset with timeSrc := 3 }), by decide⟩,
   ⟨st (dHtb { Htb.reset with timeSrc := 3, state := .locked, ppsRej := 7 }), by decide⟩, ⟨st Dev.reset, _, by decide, rfl⟩⟩

theorem witness_TickBoundariesAreDelivered_general :
    (∃ s : State, s.dev.counts = true) ∧
    (∃ s : State, s.clk.tick % 20 = 0 ∧ s.dev.bndTurn s.clk 5 = true) ∧
    (∃ s : State, s.clk.tick % 160 = 40 ∧ s.dev.bndTurn s.clk 4 = true) ∧
    ∃ s : State, s.dev.htb.step = some (-160) ∧ stepDue s.clk s.dev = true ∧ s.dev.counts = true :=
  ⟨⟨st (dStep 2), by decide⟩, ⟨st (dHtb { Htb.reset with bnd := 1 }) 20, by decide⟩, ⟨st (dHtb { Htb.reset with bnd := 3 }) 200, by decide⟩,
   ⟨st { dStep 2 with htb := { Htb.reset with bnd := 0, step := some (-160) } } 160, by decide⟩⟩

theorem witness_TickBoundariesAreDelivered :
    (∃ s : State, s.dev.sys.powered = true ∧ s.dev.sys.inReset = none ∧ s.dev.sys.step = 2) ∧
    (∃ s : State, s.clk.tick % 20 = 0 ∧ s.clk.tick % 160 = 0 ∧ s.clk.sub = 0 ∧ s.dev.htb.bnd < 5 ∧ s.dev.htb.step = none) ∧
    (∃ s : State, s.clk.tick % 160 = 40 ∧ s.clk.sub = 0 ∧ s.dev.htb.bnd < 4 ∧ s.dev.htb.step = none) ∧
    (∃ s : State, s.dev.htb.step = some 160 ∧ s.clk.tick % 160 ≠ 0) ∧
    ∃ s : State, s.dev.htb.step = some (-160) ∧ s.clk.tick % 160 = 0 ∧ s.clk.sub = 0 ∧ s.dev.htb.bnd = 0 ∧
      s.dev.sys.powered = true ∧ s.dev.sys.inReset = none ∧ 2 ≤ s.dev.sys.step ∧ (s.clk.tick : Int) + -160 = 0 :=
  ⟨⟨st (dSys { Sys.reset with powered := true, step := 2 }), by decide⟩,
   ⟨st (dHtb { Htb.reset with bnd := 4 }) 320, by decide⟩, ⟨st (dHtb { Htb.reset with bnd := 3 }) 200, by decide⟩,
   ⟨st (dHtb { Htb.reset with step := some 160 }) 161, by decide⟩,
   ⟨st { Dev.reset with
      htb := { Htb.reset with step := some (-160), bnd := 0 }, sys := { Sys.reset with powered := true, step := 2 } } 160, by decide⟩⟩

/-! ### Witnesses: lanes and lines -/

/-- A device with lane 31 as given. -/
def lane31 (x : Lane) : Dev := dOll { Oll.reset with lanes := [(31, x)] }

theorem witness_LaneFramesAreCheckedAndSent :
    (∃ s : State, Store.wf {} s.dev.oll.lanes = true ∧ (s.dev.lane 31).sends = true ∧ (s.dev.lane 31).loop = none ∧
      (s.dev.lane 31).train = .live ∧ (s.dev.lane 31).f = (s.dev.lane 31).fGoal) ∧
    (∃ s : State, s.clk.sub = 1152 ∧ s.dev.oll.lines = [] ∧ s.dev.oll.lanes = []) ∧
    (∃ s : State, Store.wf {} s.dev.oll.lanes = true ∧ (s.dev.lane 31).loop ≠ none) ∧
    (∃ s : State, Store.wf {} s.dev.oll.lanes = true ∧ (s.dev.lane 31).loop = none ∧ (s.dev.lane 31).los = true) ∧
    (∃ s : State, Store.wf {} s.dev.oll.lanes = true ∧ (s.dev.lane 31).train = .live ∧ (s.dev.lane 31).scanFrom = none ∧
      (s.dev.lane 31).misses = 6) ∧
    ∃ s : State, Store.wf {} s.dev.oll.lanes = true ∧ (s.dev.lane 31).en = true ∧ (s.dev.lane 31).telemLog2 = 3 ∧
      s.clk.tick % 2 ^ 3 = 0 ∧ ∀ n, (s.dev.line n).active = false :=
  ⟨⟨st (lane31 { en := true, los := false, train := .live, f := 3, fGoal := 3 }), by decide⟩, ⟨st Dev.reset 0 1152, by decide⟩,
   ⟨st (lane31 { loop := some 8 }), by decide⟩, ⟨st Dev.reset, by decide⟩,
   ⟨st (lane31 { train := .live, misses := 6 }), by decide⟩,
   ⟨st (lane31 { en := true, telemLog2 := 3 }) 16, by decide, by decide, by decide, by decide, fun _ => rfl⟩⟩

/-- An upstream frame of zeros, numbered 0, with its CRC. -/
def zeroFrame : List Nat := 0xBC :: List.replicate 379 0 ++ bytesLE 4 (crc32 (List.replicate 376 0))

set_option maxRecDepth 100000 in
theorem witness_LaneFramesAreCheckedAndSent_frames :
    (∃ (s : State) (comma : Nat) (codes bs : List Nat), Store.wf {} s.dev.oll.lanes = true ∧ (s.dev.lane 31).loop = none ∧
      (s.dev.lane 31).hears s.clk.tick = true ∧ (s.dev.lane 31).train = .live ∧ 4000 ≤ (s.dev.lane 31).rt + 4000 ∧
      (s.dev.lane 31).rt ≤ 4000 + 4000 ∧ (s.dev.lane 31).reads (comma :: codes) = (some bs, true) ∧
      leAt bs 1 3 = (s.dev.lane 31).expectNum s.clk.tick) ∧
    (∃ (s : State) (comma : Nat) (codes bs : List Nat), (s.dev.lane 31).hears s.clk.tick = true ∧ (s.dev.lane 31).train = .live ∧
      (s.dev.lane 31).reads (comma :: codes) = (some bs, true) ∧ leAt bs 1 3 ≠ (s.dev.lane 31).expectNum s.clk.tick) ∧
    (∃ (x : Lane) (comma : Nat) (codes bs : List Nat), x.hears 0 = true ∧ x.train = .live ∧ x.reads (comma :: codes) = (some bs, false)) ∧
    ∃ (x : Lane) (comma : Nat) (codes : List Nat), x.hears 0 = true ∧ x.train = .live ∧ x.reads (comma :: codes) = (none, false) :=
  ⟨⟨st (lane31 { train := .live, los := false, rt := 8000 }), comma false, (encFrame false zeroFrame).1.drop 1, zeroFrame, by decide +kernel⟩,
   ⟨st (lane31 { train := .live, los := false }) 1, comma false, (encFrame false zeroFrame).1.drop 1, zeroFrame, by decide +kernel⟩,
   ⟨{ train := .live, los := false }, comma false, (encFrame false (0xBC :: List.replicate 383 0)).1.drop 1, 0xBC :: List.replicate 383 0,
     by decide +kernel⟩,
   ⟨{ train := .live, los := false }, 1023, (encFrame false zeroFrame).1.drop 1, by decide +kernel⟩⟩

theorem witness_LaneFramesAreCheckedAndSent_lane :
    (∃ s : State, (s.dev.lane 31).sends = true ∧ (s.dev.lane 31).loop = none ∧ (s.dev.lane 31).train ≠ .live) ∧
    (∃ s : State, s.clk.sub = 1152 ∧ (s.dev.line 255).active = true) ∧
    (∃ s : State, (s.dev.lane 31).loop = none ∧ (s.dev.lane 31).hears s.clk.tick = true ∧ (s.dev.lane 31).train = .live ∧
      (s.dev.lane 31).rt + 4000 < 4001) ∧
    (∃ s : State, (s.dev.lane 31).hears s.clk.tick = true ∧ (s.dev.lane 31).train = .frameLock) ∧
    (∃ s : State, (s.dev.lane 31).hears s.clk.tick = true ∧ (s.dev.lane 31).train = .delayMeasure) ∧
    (∃ s : State, (s.dev.lane 31).train = .live ∧ (s.dev.lane 31).scanned (s.clk.tick + 1) = false) ∧
    ∃ s : State, (s.dev.lane 31).train = .frameLock ∧ (s.dev.lane 31).good = 3 :=
  ⟨⟨st (lane31 { en := true, los := false, train := .frameLock }), by decide⟩,
   ⟨st (dOll { Oll.reset with lines := [(255, { active := true })] }) 0 1152, by decide⟩,
   ⟨st (lane31 { train := .live, los := false }), by decide⟩, ⟨st (lane31 { train := .frameLock, los := false }), by decide⟩,
   ⟨st (lane31 { train := .delayMeasure, los := false }), by decide⟩, ⟨st (lane31 { train := .live }), by decide⟩,
   ⟨st (lane31 { train := .frameLock, good := 3 }), by decide⟩⟩

set_option maxRecDepth 100000 in
theorem witness_LaneFramesAreCheckedAndSent_training :
    (∃ (x : Lane) (comma : Nat) (codes bs : List Nat), x.hears 0 = true ∧ x.train = .frameLock ∧ x.loop = none ∧
      x.reads (comma :: codes) = (some bs, true)) ∧
    (∃ (x : Lane) (comma : Nat) (codes bs : List Nat), x.hears 0 = true ∧ x.train = .frameLock ∧
      x.reads (comma :: codes) = (some bs, false)) ∧
    (∃ (x : Lane) (comma : Nat) (codes : List Nat), x.hears 0 = true ∧ x.train = .capability ∧
      x.reads (comma :: codes) = (none, false)) ∧
    (∃ (x : Lane) (comma : Nat) (codes bs : List Nat), x.hears 0 = true ∧ x.train = .delayMeasure ∧
      x.reads (comma :: codes) = (some bs, true) ∧ leAt bs 1 3 = x.expectNum 0) ∧
    ∃ (x : Lane) (comma : Nat) (codes bs : List Nat), x.hears 1 = true ∧ x.train = .delayMeasure ∧
      x.reads (comma :: codes) = (some bs, true) ∧ leAt bs 1 3 ≠ x.expectNum 1 :=
  ⟨⟨{ train := .frameLock, los := false }, comma false, (encFrame false zeroFrame).1.drop 1, zeroFrame, by decide +kernel⟩,
   ⟨{ train := .frameLock, los := false }, comma false, (encFrame false (0xBC :: List.replicate 383 0)).1.drop 1,
     0xBC :: List.replicate 383 0, by decide +kernel⟩,
   ⟨{ train := .capability, los := false }, 1023, (encFrame false zeroFrame).1.drop 1, by decide +kernel⟩,
   ⟨{ train := .delayMeasure, los := false }, comma false, (encFrame false zeroFrame).1.drop 1, zeroFrame, by decide +kernel⟩,
   ⟨{ train := .delayMeasure, los := false }, comma false, (encFrame false zeroFrame).1.drop 1, zeroFrame, by decide +kernel⟩⟩

theorem witness_LaneFramesAreCheckedAndSent_deaf :
    (∃ s : State, (s.dev.lane 31).loop = none ∧ (s.dev.lane 31).hears s.clk.tick = false) ∧
    ∃ s : State, (s.dev.lane 31).en = true ∧ 0 < (s.dev.lane 31).telemLog2 ∧
      s.clk.tick % 2 ^ (s.dev.lane 31).telemLog2 = 0 ∧ (s.dev.line 255).active = true :=
  ⟨⟨st Dev.reset, by decide⟩,
   ⟨st (dOll { Oll.reset with lanes := [(31, { en := true, telemLog2 := 15 })], lines := [(255, { active := true })] }) 32768,
     by decide⟩⟩

/-- IEEE 802.3 Clause 36: D17.7 at negative disparity takes the alternate sub-block, 100011 0111; D10.2 and D21.5 are balanced;
K28.5 turns the disparity. -/
theorem test_code_groups : encData false 0xF1 = 0b1000110111 ∧ encData true 0x4A = 0b0101010101 ∧
    encData false 0xB5 = 0b1010101010 ∧ groupDisp false (comma false) = true ∧ decData false (comma false) = none := by decide

theorem witness_LaneSignalAndTraining_live :
    (∃ s : State, Store.wf {} s.dev.oll.lanes = true ∧ (s.dev.lane 31).train = .live) ∧
    (∃ s : State, Store.wf {} s.dev.oll.lanes = true ∧ (s.dev.lane 31).train = .frameLock ∧ (s.dev.lane 31).fromLive = true) ∧
    (∃ s : State, Store.wf {} s.dev.oll.lanes = true ∧ (s.dev.lane 31).los = true) ∧
    ∃ s : State, Store.wf {} s.dev.oll.lanes = true ∧ (s.dev.lane 31).los = false :=
  ⟨⟨st (lane31 { train := .live }), by decide⟩, ⟨st (lane31 { train := .frameLock, fromLive := true }), by decide⟩,
   ⟨st Dev.reset, by decide⟩, ⟨st (lane31 { los := false }), by decide⟩⟩

theorem witness_LaneSignalAndTraining_training :
    (∃ s : State, Store.wf {} s.dev.oll.lanes = true ∧ (s.dev.lane 31).train = .capability ∧ (s.dev.lane 31).fromLive = false) ∧
    (∃ s : State, Store.wf {} s.dev.oll.lanes = true ∧ (s.dev.lane 31).train = .bitLock ∧ (s.dev.lane 31).fromLive = false ∧
      (s.dev.lane 31).inTicks < 64) ∧
    ∃ s : State, s.dev.oll.wave = some 0 ∧ ∀ p ∈ waveLanes 0, (s.dev.lane p).en = false ∨ (s.dev.lane p).waveDone = true :=
  ⟨⟨st (lane31 { train := .capability }), by decide⟩, ⟨st (lane31 { train := .bitLock, inTicks := 63 }), by decide⟩,
   ⟨st (dOll { Oll.reset with wave := some 0 }), rfl, fun _ _ => .inl rfl⟩⟩

theorem witness_LaneSignalAndTraining :
    (∃ s : State, Store.wf {} s.dev.oll.lanes = true ∧ (s.dev.lane 31).train = .dark) ∧
    (∃ s : State, Store.wf {} s.dev.oll.lanes = true ∧ (s.dev.lane 31).train = .bitLock ∧ (s.dev.lane 31).fromLive = false ∧
      (s.dev.lane 31).startScan = false ∧ (s.dev.lane 31).inTicks = 64) ∧
    (∃ s : State, Store.wf {} s.dev.oll.lanes = true ∧ (s.dev.lane 31).train = .activate ∧ (s.dev.lane 31).fromLive = false ∧
      (s.dev.lane 31).inTicks = 511) ∧
    (∃ s : State, Store.wf {} s.dev.oll.lanes = true ∧ (s.dev.lane 31).train = .frameLock ∧ (s.dev.lane 31).fromLive = true ∧
      (s.dev.lane 31).inTicks = 32) ∧
    (∃ s : State, Store.wf {} s.dev.oll.lanes = true ∧ (s.dev.lane 31).holdoff = 1) ∧
    ∃ s : State, s.dev.oll.wave = some 2 ∧ s.dev.oll.waveTicks = 480 :=
  ⟨⟨st Dev.reset, by decide⟩, ⟨st (lane31 { train := .bitLock, inTicks := 64 }), by decide⟩,
   ⟨st (lane31 { train := .activate, inTicks := 511 }), by decide⟩,
   ⟨st (lane31 { train := .frameLock, fromLive := true, inTicks := 32 }), by decide⟩,
   ⟨st (lane31 { holdoff := 1 }), by decide⟩, ⟨st (dOll { Oll.reset with wave := some 2, waveTicks := 480 }), by decide⟩⟩

theorem witness_TrainingStateChangeIsReported :
    (∃ d : Dev, (d.lane 31).train ≠ .live ∧ Train.capability ≠ .live ∧ (d.lane 31).fails = 3) ∧
    ∃ d : Dev, (d.lane 31).train ≠ .live ∧ ¬ (3 ≤ (d.lane 31).fails ∨ (2 : Nat) = 4 ∨ (2 : Nat) = 6 ∨ (2 : Nat) = 7) :=
  ⟨⟨lane31 { train := .delayMeasure, fails := 3 }, by decide⟩, ⟨lane31 { train := .frameLock, fails := 2 }, by decide⟩⟩

theorem witness_LaneTimeoutsAnswerWhoAsked :
    (∃ (s : State) (fl : LFlight), (s.dev.line 255).flight = some fl ∧ fl.sent = 16) ∧
    (∃ s : State, (s.dev.line 255).acks = [(1, 16, .host o0)]) ∧
    (∃ s : State, (s.dev.lane 31).mbx.reqs = []) ∧
    (∃ (s : State) (r : MbxReq), (s.dev.lane 31).mbx.reqs = [r] ∧ answerTicks r.msg.typ = r.age ∧ r.msg.who = .host o0) ∧
    (∃ s : State, (s.dev.lane 31).loop = some 0) ∧
    (∃ s : State, (s.dev.lane 31).retrain = some (true, some 3, true)) ∧
    (∃ s : State, Store.wf {} s.dev.oll.lanes = true ∧ s.dev.lane 31 = { disabling := some 0 } ∧ s.dev.oll.lines = [] ∧
      s.dev.waits = [] ∧ s.dev.oll.enWaits = [(2 ^ 31, .host o0)]) ∧
    (∃ s : State, (s.dev.hopper (s.dev.lane 31).cmdHop).seq = []) ∧
    ∃ (s : State) (p : Pkt) (w0 : Word) (ws : List Word) (d : Dev),
      s.dev.hopTake s.clk (s.dev.lane 31).cmdHop = (some (p, w0 :: ws), d) ∧ bitsOf w0.toNat 0 16 = 0x030C ∧
        bitsOf w0.toNat 16 8 = 255 ∧ bitsOf w0.toNat 24 8 = 0 :=
  ⟨⟨st (dOll { Oll.reset with lines := [(255, { flight := some { cmd := { opc := 1, args := [], src := .host o0 }, cseq := 1, sent := 16 } })] }),
      { cmd := { opc := 1, args := [], src := .host o0 }, cseq := 1, sent := 16 }, by decide⟩,
   ⟨st (dOll { Oll.reset with lines := [(255, { acks := [(1, 16, .host o0)] })] }), by decide⟩, ⟨st Dev.reset, by decide⟩,
   ⟨st (lane31 { mbx := { reqs := [{ msg := { typ := 0x2000, tag := 1, data := [], who := .host o0 }, age := answerTicks 0x2000 }] } }),
      { msg := { typ := 0x2000, tag := 1, data := [], who := .host o0 }, age := answerTicks 0x2000 }, by decide⟩,
   ⟨st (lane31 { loop := some 0 }), by decide⟩, ⟨st (lane31 { retrain := some (true, some 3, true) }), by decide⟩,
   ⟨st (dOll { Oll.reset with lanes := [(31, { disabling := some 0 })], enWaits := [(2 ^ 31, .host o0)] }), by decide⟩,
   ⟨st Dev.reset, by decide⟩,
   ⟨st (hop5 (lane31 { cmdHop := 5 }) [0x00FF030C]), _, _, _, _, rfl, by decide, by decide, by decide⟩⟩

theorem witness_LaneTimeoutsAnswerWhoAsked_general :
    (∃ s : State, (s.dev.line 255).acks.filter (fun a => decide (16 ≤ a.2.1)) = [(1, 16, .host o0)] ∧ (s.dev.line 255).acks.length = 2) ∧
    (∃ (s : State) (r : MbxReq), (s.dev.lane 31).mbx.reqs.filter (fun r => decide (answerTicks r.msg.typ ≤ r.age)) = [r] ∧
      (s.dev.lane 31).mbx.reqs.length = 2) ∧
    (∃ s : State, (s.dev.lane 31).retrain = some (false, some 40, false)) ∧
    (∃ s : State, (s.dev.lane 31).retrain = some (false, none, false) ∧ (s.dev.lane 31).train.mailOn = false) ∧
    (∃ s : State, (s.dev.lane 31).disabling = some 0) ∧
    ∃ (s : State) (p : Pkt) (w0 : Word) (ws : List Word) (d : Dev),
      s.dev.hopTake s.clk (s.dev.lane 31).cmdHop = (some (p, w0 :: ws), d) :=
  ⟨⟨st (dOll { Oll.reset with lines := [(255, { acks := [(1, 16, .host o0), (2, 15, .host o0)] })] }), by decide⟩,
   ⟨st (lane31 { mbx := { reqs := [{ msg := { typ := 0x2000, tag := 1, data := [], who := .host o0 }, age := answerTicks 0x2000 },
        { msg := { typ := 0x2000, tag := 2, data := [], who := .host o0 }, age := 0 }] } }),
      { msg := { typ := 0x2000, tag := 1, data := [], who := .host o0 }, age := answerTicks 0x2000 }, by decide⟩,
   ⟨st (lane31 { retrain := some (false, some 40, false) }), by decide⟩, ⟨st (lane31 { retrain := some (false, none, false) }), by decide⟩,
   ⟨st (lane31 { disabling := some 0 }), by decide⟩,
   ⟨st (hop5 (lane31 { cmdHop := 5 }) [0x00FF030C]), _, _, _, _, rfl⟩⟩

theorem witness_LaneTimeoutsAnswerWhoAsked_packet :
    (∃ s : State, (s.dev.lane 31).disabling = some 0 ∧ (s.dev.lane 31).train = .live) ∧
    ∃ (s : State) (p : Pkt) (w0 : Word) (ws : List Word) (d : Dev),
      s.dev.hopTake s.clk (s.dev.lane 31).cmdHop = (some (p, w0 :: ws), d) ∧
        bitsOf w0.toNat 0 16 = laneCmdOpc (.activate 255 true) ∧ bitsOf w0.toNat 16 8 = laneCmdLine (.activate 255 true) ∧
        bitsOf w0.toNat 24 8 = 0 ∧ (d.lane (255 / 8)).disabling = none :=
  ⟨⟨st (lane31 { disabling := some 0, train := .live }), by decide⟩,
   ⟨st (hop5 (lane31 { cmdHop := 5 }) [0x00FF0305]), _, _, _, _, rfl, by decide, by decide, by decide, by decide⟩⟩

theorem witness_LaneCommandsAnswer :
    (∃ (s : State) (q : Nat), HostOk o0 s ∧ q = 32 ∧ 31 < q) ∧
    (∃ s : State, HostOk o0 s ∧ (s.dev.lane 0).disabling = none ∧ (s.dev.lane 0).en = false) ∧
    (∃ s : State, HostOk o0 s ∧ (∀ p, (s.dev.lane p).disabling = none) ∧ (s.dev.lane 0).en = true) ∧
    (∃ s : State, HostOk o0 s ∧ (s.dev.lane 31).en = true ∧ (s.dev.lane 31).retrain = none ∧ (s.dev.lane 31).train = .live ∧
      (s.dev.lane 31).mbx.host.length < 4 ∧ (s.dev.lane 31).disabling = none) ∧
    ∃ s : State, HostOk o0 s ∧ s.dev.activeMask 31 = 0 ∧ (s.dev.lane 31).loop = none ∧ (s.dev.lane 31).disabling = none ∧
      (s.dev.lane 31).train = .dark :=
  ⟨⟨st Dev.reset, 32, ⟨rfl, rfl⟩, by decide⟩, ⟨st Dev.reset, ⟨rfl, rfl⟩, by decide⟩,
   ⟨st (dOll { Oll.reset with lanes := [(0, { en := true })] }), ⟨rfl, rfl⟩, fun p => by cases p <;> rfl, by decide⟩,
   ⟨st (lane31 { en := true, train := .live }), ⟨rfl, rfl⟩, by decide⟩, ⟨st Dev.reset, ⟨rfl, rfl⟩, by decide⟩⟩

theorem witness_LaneCommandsAnswer_general :
    (∃ (s : State) (mask : Nat), HostOk o0 s ∧ (List.range 32).filter (fun p => mask.testBit p) = [31]) ∧
    (∃ s : State, HostOk o0 s ∧ ∀ p ∈ [0, 31], (s.dev.lane p).en = false ∧ (s.dev.lane p).disabling = none) ∧
    (∃ s : State, HostOk o0 s ∧ [0, 31].filter (fun p => (s.dev.lane p).en) = [31] ∧
      [0, 31].filter (fun p => (s.dev.lane p).disabling.isSome) = [0]) ∧
    (∃ s : State, HostOk o0 s ∧ (s.dev.lane 31).en = true ∧ (s.dev.lane 31).retrain = some (false, some 39, false)) ∧
    (∃ s : State, HostOk o0 s ∧ (s.dev.lane 31).en = true ∧ (s.dev.lane 31).retrain = none ∧
      (s.dev.lane 31).train.mailOn = false) ∧
    (∃ s : State, HostOk o0 s ∧ s.dev.activeMask 31 = 0 ∧ (s.dev.lane 31).loop = none ∧ (s.dev.lane 31).disabling = none ∧
      (s.dev.lane 31).train ≠ .dark) ∧
    hostMailTyp 0x3FFF = true :=
  ⟨⟨st Dev.reset, 2 ^ 31, ⟨rfl, rfl⟩, by decide +kernel⟩, ⟨st Dev.reset, ⟨rfl, rfl⟩, by decide⟩,
   ⟨st (dOll { Oll.reset with lanes := [(0, { disabling := some 3 }), (31, { en := true })] }), ⟨rfl, rfl⟩, by decide⟩,
   ⟨st (lane31 { en := true, retrain := some (false, some 39, false) }), ⟨rfl, rfl⟩, by decide⟩,
   ⟨st (lane31 { en := true }), ⟨rfl, rfl⟩, by decide⟩, ⟨st (lane31 { train := .live }), ⟨rfl, rfl⟩, by decide⟩, by decide⟩

theorem witness_LineCommandsAnswer_actions :
    (∃ a : LAction, a.kind = 3 ∧ a.feed = 7 ∧ a.ring = 7 ∧ a.feedP = 7 ∧ a.mask = 7 ∧ lineOpcodeOk a.opc = true ∧ a.args.length = 14) ∧
    (∃ s : State, HostOk o0 s ∧ (s.dev.lane (0 / 8)).disabling = none ∧ (s.dev.line 0).active = false ∧
      (s.dev.lane (0 / 8)).train = .live) ∧
    ∃ s : State, HostOk o0 s ∧ (s.dev.lane (0 / 8)).disabling = none ∧ (s.dev.line 0).active = false ∧ (s.dev.line 0).full = false ∧
      (s.dev.lane (0 / 8)).train ≠ .live :=
  ⟨⟨{ kind := 3, feed := 7, ring := 7, feedP := 7, mask := 7, opc := 1, args := List.replicate 14 255 }, by decide⟩,
   ⟨st (dOll { Oll.reset with lanes := [(0, { train := .live })] }), ⟨rfl, rfl⟩, by decide⟩, ⟨st Dev.reset, ⟨rfl, rfl⟩, by decide⟩⟩

theorem witness_LineCommandsAnswer :
    (∃ s : State, HostOk o0 s ∧ (s.dev.lane (255 / 8)).disabling = none ∧ (s.dev.line 255).active = true ∧
      lineOpcodeOk 1 = true ∧ (s.dev.line 255).full = false) ∧
    (∃ s : State, HostOk o0 s ∧ (s.dev.lane (0 / 8)).disabling = none ∧ (s.dev.line 0).active = false) ∧
    ∃ x : Reflex, x.edge = 3 ∧ x.bit = 5 ∧ x.condMode = 15 ∧ x.action = 7 :=
  ⟨⟨st (dOll { Oll.reset with lines := [(255, { active := true })] }), ⟨rfl, rfl⟩, by decide⟩, ⟨st Dev.reset, ⟨rfl, rfl⟩, by decide⟩,
   ⟨{ edge := 3, bit := 5, condMode := 15, action := 7 }, by decide⟩⟩

/-! ### Witnesses: the filter engine and calibration -/

theorem witness_FilterSettingsAreWritten :
    (∃ s : State, HostOk o0 s ∧ (s.dev.fst 511).state = .stopped ∧ (s.dev.fst 511).held = none ∧ ratesOk (tapHz 2) 8000 = true ∧
      coefWordsOk (isRx 511) 95 [0] = true) ∧
    (∃ s : State, HostOk o0 s ∧ (s.dev.fst 255).state = .stopped ∧ (s.dev.fst 255).held = none ∧ ratesOk (tapHz 2) 8000 = true ∧
      160 % 160 = 0) ∧
    (∃ s : State, HostOk o0 s ∧ (s.dev.fst 256).state = .running) ∧
    (∃ x : Det, x.typ = 3 ∧ x.stage = 10 ∧ x.win = 15 ∧ x.attack = 15 ∧ x.release = 15 ∧ x.hi = 8388608 ∧ x.lo = x.hi ∧
      x.thread = 8191 ∧ x.up = 32 ∧ x.down = 32) ∧
    ∃ (s : State) (cs : List (BitVec 24)), HostOk o0 s ∧ 256 + 1 = 257 ∧ cs.length = 1 * 16 ∧ s.dev.protoBusy 3 = false ∧
      (s.dev.proto 3).t = 16 :=
  ⟨⟨st Dev.reset, ⟨rfl, rfl⟩, by decide⟩, ⟨st Dev.reset, ⟨rfl, rfl⟩, by decide⟩,
   ⟨st (dFce { Fce.reset with streams := [(256, { state := .running })] }), ⟨rfl, rfl⟩, by decide⟩,
   ⟨{ typ := 3, stage := 10, win := 15, attack := 15, release := 15, hi := 8388608, lo := 8388608, thread := 8191 }, by decide⟩,
   ⟨st Dev.reset, List.replicate 16 0, ⟨rfl, rfl⟩, by decide⟩⟩

theorem witness_FilterSettingsAreWritten_sets :
    (∃ (s : State) (cs : List (BitVec 24)), HostOk o0 s ∧ 256 + 1 = 257 ∧ cs.length = 1 * 8 ∧ s.dev.protoBusy 3 = false ∧
      (s.dev.proto 3).t ≠ 8) ∧
    ∃ a : FAction, a.kind = 4 ∧ a.ticks = 256 ∧ a.gm = 32768 ∧ a.ga = 32768 :=
  ⟨⟨st Dev.reset, List.replicate 8 0, ⟨rfl, rfl⟩, by decide⟩, ⟨{ kind := 4, ticks := 256, gm := 32768, ga := 32768 }, by decide⟩⟩

/-- A request that waits for the boundary, of stream 511. -/
def req511 (kind : FKind) : FReq := { stream := 511, kind := kind, who := none }

theorem witness_FilterRequestsWaitForTheBoundary_general :
    (∃ s : State, HostOk o0 s ∧ (s.dev.fst 256).state = .running ∧ s.dev.reqWaits 256 = true) ∧
    (∃ s : State, HostOk o0 s ∧ (s.dev.fst 256).state = .stopped ∧ (s.dev.fst 256).held ≠ none) ∧
    (∃ s : State, s.clk.sub = 0 ∧ s.dev.fce.cmds.length = 2) ∧
    (∃ (s : State) (p : Pkt) (w0 : Word) (ws : List Word) (d : Dev), s.dev.fce.cmdEn = true ∧
      s.dev.hopTake s.clk s.dev.fce.cmdHop = (some (p, w0 :: ws), d) ∧ w0.toNat % 65536 = fceOpc (.stop 511)) ∧
    ∃ s : State, s.dev.fce.cmdEn = false :=
  ⟨⟨st (dFce { Fce.reset with streams := [(256, { state := .running })], cmds := [{ stream := 256, kind := .stop, who := none }] }),
      ⟨rfl, rfl⟩, by decide⟩,
   ⟨st (dFce { Fce.reset with streams := [(256, { held := some (req511 .stop) })] }), ⟨rfl, rfl⟩, by decide⟩,
   ⟨st (dFce { Fce.reset with cmds := [req511 .stop, req511 (.start false)] }), by decide⟩,
   ⟨st (hop5 (dFce { Fce.reset with cmdHop := 5, cmdEn := true }) [0x00000406, 511]), _, _, _, _, rfl, rfl, by decide⟩,
   ⟨st Dev.reset, by decide⟩⟩

theorem witness_FilterRequestsWaitForTheBoundary :
    (∃ s : State, HostOk o0 s ∧ (s.dev.fst 256).state = .running) ∧
    (∃ s : State, HostOk o0 s ∧ (s.dev.fst 256).state = .stopped ∧ (s.dev.fst 256).held = none ∧ s.dev.reqWaits 256 = false) ∧
    (∃ s : State, HostOk o0 s ∧ (s.dev.fst 256).state = .running ∧ (s.dev.fst 256).ramp.isSome = true ∧ s.dev.reqWaits 256 = false) ∧
    (∃ s : State, HostOk o0 s ∧ (s.dev.fst 256).state = .stopPending) ∧
    (∃ s : State, s.clk.sub = 0 ∧ s.dev.fce.cmds = [req511 (.start true)] ∧ s.dev.fce.acts = [] ∧
      (∀ j, (s.dev.fst j).held = none ∧ (s.dev.fst j).pend = none ∧ (s.dev.fst j).rampOver = false) ∧
      (s.dev.fst 511).state = .stopped) ∧
    (∀ kind, ∃ s : State, s.clk.sub = 0 ∧ s.dev.fce.cmds = [req511 kind] ∧ s.dev.fce.acts = [] ∧
      (∀ j, (s.dev.fst j).held = none ∧ (s.dev.fst j).pend = none ∧ (s.dev.fst j).rampOver = false) ∧
      (s.dev.fst 511).state = .running ∧ (s.dev.fst 511).ramp = none) ∧
    ∃ (s : State) (p : Pkt) (w0 : Word) (ws : List Word) (d : Dev), s.dev.fce.cmdEn = true ∧
      s.dev.hopTake s.clk s.dev.fce.cmdHop = (some (p, w0 :: ws), d) ∧ w0.toNat % 65536 = 0x0405 :=
  ⟨⟨st (dFce { Fce.reset with streams := [(256, { state := .running })] }), ⟨rfl, rfl⟩, by decide⟩,
   ⟨st Dev.reset, ⟨rfl, rfl⟩, by decide⟩,
   ⟨st (dFce { Fce.reset with streams := [(256, { state := .running, ramp := some ⟨0, 0, 1, 1, 8, 3⟩ })] }), ⟨rfl, rfl⟩, by decide⟩,
   ⟨st (dFce { Fce.reset with streams := [(256, { state := .stopPending })] }), ⟨rfl, rfl⟩, by decide⟩,
   ⟨st (dFce { Fce.reset with cmds := [req511 (.start true)] }), rfl, rfl, rfl, fun _ => ⟨rfl, rfl, rfl⟩, rfl⟩,
   fun kind => ⟨st (dFce { Fce.reset with cmds := [req511 kind], streams := [(511, { state := .running })] }), rfl, rfl, rfl,
     fun j => by
       simp only [Dev.fst, dFce, st, Store.get]; repeat' split
       all_goals exact ⟨rfl, rfl, rfl⟩, rfl, rfl⟩,
   ⟨st (hop5 (dFce { Fce.reset with cmdHop := 5, cmdEn := true }) [0x00000405, 511]), _, _, _, _, rfl, rfl, by decide⟩⟩

theorem witness_StreamSlotsFallInTheirSubTicks :
    (∃ s : State, slotSub 510 < s.clk.sub) ∧
    (∃ s : State, s.clk.sub = slotSub 255 ∧ (s.dev.fst 255).served = s.clk.tick + 1) ∧
    ∃ s : State, s.clk.sub = slotSub 255 ∧ (s.dev.fst 255).served ≠ s.clk.tick + 1 ∧ (s.dev.fst 256).served ≠ s.clk.tick + 1 ∧
      Store.wf {} s.dev.fce.streams = true ∧ (s.dev.fst 255).state = .stopped ∧ (s.dev.fst 255).held = none ∧
      (s.dev.fst 256).state = .stopped ∧ (s.dev.fst 256).held = none :=
  ⟨⟨st Dev.reset 0 3067, by decide⟩,
   ⟨st (dFce { Fce.reset with streams := [(255, { served := 1 })] }) 0 1536, by decide⟩, ⟨st Dev.reset 0 1536, by decide⟩⟩

/-- A device with one calibration item. -/
def calItem (n : Nat) (x : CalItem) : Dev := dCal { Cal.reset with items := [(n, x)] }

theorem witness_SensorsAndScansFollowTheirTicks :
    (∃ (s : State) (vals : List Int), vals.length = 8 ∧ s.clk.tick % 64 = 0 ∧ s.dev.cal.convAt ≠ s.clk.tick + 1 ∧
      Store.wf {} s.dev.cal.sensors = true ∧ s.dev.cal.updAt ≠ s.clk.tick + 1 ∧ s.dev.cal.sensors = [] ∧ s.dev.cal.items = []) ∧
    (∃ s : State, s.clk.tick % 8 = 0 ∧ s.clk.sub = 0 ∧ s.dev.laneCalBusy = false ∧ s.dev.nextLane = some 31) ∧
    (∃ (s : State) (errs errsT : List Nat), errs.length = 64 ∧ errsT.length = 32 ∧ (s.dev.lane 31).train = .live ∧
      (s.dev.calItem 31).phase = .measuring ∧ s.clk.tick = 4 ∧ (s.dev.lane 31).scanFrom = some (s.clk.tick - 4) ∧
      (s.dev.calItem 31).pinned = true) ∧
    (∃ (s : State) (errs errsT : List Nat), errs.length = 64 ∧ errsT.length = 32 ∧ (s.dev.lane 31).train = .live ∧
      (s.dev.calItem 31).phase = .measuring ∧ s.clk.tick = 4 ∧ (s.dev.lane 31).scanFrom = some (s.clk.tick - 4) ∧
      (s.dev.calItem 31).pinned = false ∧ (s.dev.calItem 31).discard = false) ∧
    ∃ s : State, (s.dev.calItem 31).phase = .applying ∧ (s.dev.calItem 31).stepped ≠ s.clk.tick + 1 ∧
      (s.dev.calItem 31).delay = 63 ∧ (s.dev.calItem 31).goalD = 0 ∧ (s.dev.calItem 31).thresh < (s.dev.calItem 31).goalT ∧ s.dev.readingBad 31 = false :=
  ⟨⟨st Dev.reset 64, [0, 0, 0, 0, 0, 0, 0, 0], by decide⟩,
   ⟨st { Dev.reset with
      cal := { Cal.reset with items := [(31, { phase := .queued })], laneQ := [31] }
      oll := { Oll.reset with lanes := [(31, { en := true, train := .live })] } } 8, by decide⟩,
   ⟨st { Dev.reset with
      cal := { Cal.reset with items := [(31, { phase := .measuring, pinned := true })] }
      oll := { Oll.reset with lanes := [(31, { train := .live, scanFrom := some 0 })] } } 4,
    List.replicate 64 0, List.replicate 32 0, by decide⟩,
   ⟨st { Dev.reset with
      cal := { Cal.reset with items := [(31, { phase := .measuring })] }
      oll := { Oll.reset with lanes := [(31, { train := .live, scanFrom := some 0 })] } } 4, List.replicate 64 0, List.replicate 32 0, by decide⟩,
   ⟨st (calItem 31 { phase := .applying, delay := 63, goalD := 0, thresh := 3, goalT := 4 }), by decide⟩⟩

theorem witness_SensorsAndScansFollowTheirTicks_start :
    (∃ (s : State) (errs errsT : List Nat), (s.dev.lane 31).train = .bitLock ∧ (s.dev.lane 31).startScan = true ∧
      errs.length = (if s.dev.cal.hadRec then 64 else 2048) ∧ errsT.length = (if s.dev.cal.hadRec then 32 else 0) ∧ (if s.dev.cal.hadRec then 4 else 32) ≤ (s.dev.lane 31).inTicks) ∧
    (∃ s : State, (s.dev.calItem 31).phase = .applying ∧ s.dev.readingBad 31 = true ∧ (s.dev.calItem 31).setting = false) ∧
    ∃ s : State, s.dev.rankTurn = some 3 ∧ s.dev.cal.measAt ≠ clockStamp s.clk + 1 ∧
      (s.dev.calItem (rankKey 3)).phase = .queued ∧ Store.wf {} s.dev.cal.items = true :=
  ⟨⟨st { Dev.reset with
      cal := { Cal.reset with hadRec := true }
      oll := { Oll.reset with lanes := [(31, { train := .bitLock, startScan := true, inTicks := 4 })] } },
    List.replicate 64 0, List.replicate 32 0, by decide⟩,
   ⟨st (dCal { Cal.reset with items := [(31, { phase := .applying })],
                              sensors := [(3, { conv := List.replicate 16 601, temp := 601 })] }), by decide⟩,
   ⟨st (dCal { Cal.reset with items := [(35, { phase := .queued })], rankQ := [35] }) 1, by decide⟩⟩

theorem witness_RankRecalibrationAndRecords_points :
    (∃ s : State, s.dev.rankTurn = some 3 ∧ s.dev.cal.measAt ≠ clockStamp s.clk + 1 ∧ (s.dev.calItem (rankKey 3)).phase = .queued ∧
      Store.wf {} s.dev.cal.items = true) ∧
    (∃ s : State, s.dev.rankTurn = some 3 ∧ s.dev.cal.measAt ≠ clockStamp s.clk + 1 ∧ (s.dev.calItem (rankKey 3)).phase = .measuring ∧
      (s.dev.calItem (rankKey 3)).points.length = 63 ∧ Store.wf {} s.dev.cal.items = true) ∧
    ∃ s : State, (s.dev.calItem (rankKey 3)).phase = .applying ∧ (s.dev.calItem (rankKey 3)).stepped ≠ s.clk.tick + 1 ∧
      (s.dev.calItem (rankKey 3)).setting = true ∧
      List.zipWith stepCode (s.dev.calItem (rankKey 3)).rd (s.dev.calItem (rankKey 3)).goalRd = (s.dev.calItem (rankKey 3)).goalRd :=
  ⟨⟨st { Dev.reset with
      cal := { Cal.reset with items := [(35, { phase := .queued })], rankQ := [35] }
      dram := { Dram.reset with ranks := [(3, { state := .inService })] } } 1, by decide⟩,
   ⟨st { Dev.reset with
      cal := { Cal.reset with items := [(35, { phase := .measuring, points := List.replicate 63 0 })] }
      dram := { Dram.reset with ranks := [(3, { state := .inService })] } } 1, by decide⟩,
   ⟨st (calItem 35 { phase := .applying, setting := true, goalRd := [1, 0, 0, 0] }), by decide⟩⟩

theorem witness_RankRecalibrationAndRecords :
    (∃ s : State, s.dev.rankTurn = some 3 ∧ s.dev.cal.measAt ≠ clockStamp s.clk + 1 ∧
      (s.dev.calItem (rankKey 3)).phase = .measuring ∧ (s.dev.calItem (rankKey 3)).points.length = 62 ∧
      Store.wf {} s.dev.cal.items = true) ∧
    (∃ s : State, (s.dev.calItem (rankKey 3)).phase = .applying ∧ (s.dev.calItem (rankKey 3)).stepped ≠ s.clk.tick + 1 ∧
      s.dev.readingBad (rankKey 3) = false ∧
      List.zipWith stepCode (s.dev.calItem (rankKey 3)).rd (s.dev.calItem (rankKey 3)).goalRd ≠ (s.dev.calItem (rankKey 3)).goalRd) ∧
    (∃ s : State, s.clk.tick % (max 1 s.dev.cal.interval * 28800000) = 0 ∧ s.dev.cal.dirty = true ∧ s.dev.cal.writing = none ∧
      s.dev.hif.paused = false ∧ s.dev.sys.pfwN = true) ∧
    ∃ s : State, s.dev.cal.writing = some (true, {}) :=
  ⟨⟨st { Dev.reset with
      cal := { Cal.reset with items := [(35, { phase := .measuring, points := List.replicate 62 0 })] }
      dram := { Dram.reset with ranks := [(3, { state := .inService })] } } 1, by decide⟩,
   ⟨st (calItem 35 { phase := .applying, goalRd := [2, 0, 0, 0] }), by decide⟩,
   ⟨st (dCal { Cal.reset with dirty := true, interval := 1 }) 28800000, by decide⟩,
   ⟨st (dCal { Cal.reset with writing := some (true, {}) }), by decide⟩⟩

theorem witness_CalibrationCommandsAnswer_general :
    (∃ s : State, HostOk o0 s ∧ (s.dev.calItem 31).pinned = false ∧ (s.dev.calItem 31).phase = .measuring) ∧
    (∃ s : State, HostOk o0 s ∧ (s.dev.calItem (rankKey 3)).pinned = false ∧ (s.dev.rank 3).state = .inService ∧
      (s.dev.calItem (rankKey 3)).phase = .idle) ∧
    (∃ s : State, HostOk o0 s ∧ (s.dev.calItem (rankKey 3)).pinned = false ∧ (s.dev.rank 3).state ≠ .inService) ∧
    (∃ s : State, HostOk o0 s ∧ (s.dev.calItem (rankKey 3)).pinned = true) ∧
    (∃ s : State, HostOk o0 s ∧ (s.dev.calItem 31).phase = .applying ∧ (s.dev.calItem 31).setting = false ∧
      s.dev.calState 31 ≠ .measuring ∧ (s.dev.calItem 31).delay ≠ 63) ∧
    (∃ s : State, HostOk o0 s ∧ (s.dev.calItem 31).phase = .applying ∧ (s.dev.calItem 31).setting = true) ∧
    ∃ (s : State) (d : Dev), HostOk o0 s ∧ s.dev.calState 31 ≠ .measuring ∧
      (if (s.dev.calItem 31).phase = .idle then s.dev else s.dev.calEnd s.clk 31 .aborted) = d ∧
      (d.calItem 31).delay = 0 ∧ (d.calItem 31).thresh = 31 :=
  ⟨⟨st (calItem 31 { phase := .measuring }), ⟨rfl, rfl⟩, by decide⟩,
   ⟨st (dDram { Dram.reset with ranks := [(3, { state := .inService })] }), ⟨rfl, rfl⟩, by decide⟩,
   ⟨st Dev.reset, ⟨rfl, rfl⟩, by decide⟩, ⟨st (calItem 35 { pinned := true }), ⟨rfl, rfl⟩, by decide⟩,
   ⟨st (calItem 31 { phase := .applying }), ⟨rfl, rfl⟩, by decide⟩,
   ⟨st (calItem 31 { phase := .applying, setting := true }), ⟨rfl, rfl⟩, by decide⟩,
   ⟨st (calItem 31 { delay := 0, thresh := 31 }), _, ⟨rfl, rfl⟩, by decide, rfl, by decide⟩⟩

theorem witness_CalibrationCommandsAnswer :
    (∃ s : State, HostOk o0 s ∧ (s.dev.calItem 31).pinned = false ∧ (s.dev.calItem 31).phase = .idle ∧ (s.dev.calItem 31).delay ≠ 63 ∧
      s.dev.startScans 31 = false ∧ s.dev.cal.writing = none ∧ s.dev.sys.pfwN = true) ∧
    (∃ s : State, HostOk o0 s ∧ (s.dev.calItem 31).pinned = true ∧ (s.dev.cal.sensors.get {} 3).valid = true) ∧
    (∃ s : State, HostOk o0 s ∧ (s.dev.calItem 31).pinned = true ∧ (s.dev.cal.sensors.get {} 3).valid = false) ∧
    ∃ s : State, HostOk o0 s ∧ s.dev.cal.writing = none ∧ s.dev.sys.pfwN = false :=
  ⟨⟨st Dev.reset, ⟨rfl, rfl⟩, by decide⟩,
   ⟨st (dCal { Cal.reset with items := [(31, { pinned := true })], sensors := [(3, { valid := true })] }), ⟨rfl, rfl⟩, by decide⟩,
   ⟨st (calItem 31 { pinned := true }), ⟨rfl, rfl⟩, by decide⟩,
   ⟨st (dSys { Sys.reset with pfwN := false }), ⟨rfl, rfl⟩, by decide⟩⟩

/-! ### Witnesses: tiles -/

/-- Position 31, held by physical tile 33, issues with an empty bundle open; its registers are those of `r`. -/
def tSt (r : Tile) : State :=
  st (dTil { Til.reset with map := [(31, 34)], tiles := [(31, { r with run := .issuing, opened := some {} })] })

def sl31 : Slot := { tile := 31, fin := false }

theorem tSt_gathering (r : Tile) : Gathering sl31 (tSt r) 33 {} := ⟨rfl, rfl, rfl⟩

theorem witness_TileOperationsJoinOnlyAnIssuingTile :
    (∃ s : State, slotOf (.add sl31 0) = some sl31 ∧ s.dev.physOf sl31.tile = none) ∧
    (∃ s : State, slotOf (.nop sl31 0) = some sl31 ∧ s.dev.physOf sl31.tile = some 33 ∧ s.dev.issuing sl31.tile = false) ∧
    (∃ s : State, slotOf (.nop sl31 0) = some sl31 ∧ s.dev.requestDue sl31.tile = true) ∧
    ∃ (s : State) (p : Nat) (b : Bundle), slotOf (.nop sl31 0) = some sl31 ∧ s.dev.physOf sl31.tile = some p ∧
      s.dev.issuing sl31.tile = true ∧ s.dev.requestDue sl31.tile = false ∧ (s.dev.tile sl31.tile).opened = none ∧
      s.dev.undefinedAt s.mem sl31.tile p = false ∧ Gathering sl31 { s with dev := s.dev.fetch s.clk sl31.tile p sl31.pmEcc } p b :=
  ⟨⟨st Dev.reset, by decide⟩, ⟨st (dTil { Til.reset with map := [(31, 34)] }), by decide⟩,
   ⟨st (dSch { Sch.reset with tiles := [(31, { req := some .preempt })] } |> fun d =>
      { d with til := { Til.reset with tiles := [(31, { eblk := false })] } }), by decide⟩,
   ⟨st (dTil { Til.reset with map := [(31, 34)], tiles := [(31, { run := .issuing })] }), 33, _, by decide, by decide, by decide,
      by decide, by decide, by decide, rfl, rfl, rfl⟩⟩

theorem witness_TileOperationsJoinOnlyAnIssuingTile_undefined :
    ∃ (s : State) (b : Bundle) (d : Dev), slotOf (.nop sl31 0) = some sl31 ∧ s.dev.physOf sl31.tile = some 33 ∧
      s.dev.issuing sl31.tile = true ∧ s.dev.requestDue sl31.tile = false ∧ (s.dev.tile sl31.tile).opened = none ∧
      s.dev.undefinedAt s.mem sl31.tile 33 = true ∧ d = s.dev.fetch s.clk sl31.tile 33 sl31.pmEcc ∧
      (d.tile sl31.tile).opened = some b ∧ b.faults = [] ∧ b.formed = true ∧ Store.wf {} d.til.tiles = true :=
  ⟨{ st (dTil { Til.reset with map := [(31, 34)], tiles := [(31, { run := .issuing })] }) with
      mem := { Mems.reset with pm := [(pmKey 33 0, BitVec.allOnes 64)] } }, {}, _, by decide, by decide, by decide, by decide,
    by decide, by decide, rfl, by decide⟩

theorem witness_MacProductsJoinTheirBundle : Gathering sl31 (tSt {}) 33 {} ∧
    (macZero 0x17FF8 3 = true ∧ macMode 0x17FF8 = 2) ∧
    (macZero 0x11FE0 3 = true ∧ macMode 0x11FE0 ≤ 2 ∧ macAcc 0x11FE0 = 0 ∧ rbEven 0x11FE0 = true) ∧
    (macZero 0x11CF8 3 = true ∧ macMode 0x11CF8 ≤ 2 ∧ macAcc 0x11CF8 = 0 ∧ raEven 0x11CF8 = true) ∧
    (macZero 0x17CE0 3 = true ∧ macMode 0x17CE0 ≤ 2 ∧ raEven 0x17CE0 = true ∧ rbEven 0x17CE0 = true) ∧
    (macZero 0x15EF0 3 = true ∧ macMode 0x15EF0 ≤ 2 ∧ macAcc 0x15EF0 = 2 ∧ macHa 0x15EF0 = false ∧ macHb 0x15EF0 = false) ∧
    (macZero 0x15CF8 3 = true ∧ macMode 0x15CF8 ≤ 2 ∧ macAcc 0x15CF8 % 2 = 0 ∧ raEven 0x15CF8 = true) ∧
    (macMode 0x160C0 ≤ 2 ∧ macZero 0x160C0 6 = true ∧ macRa 0x160C0 = 0 ∧ macHa 0x160C0 = false) :=
  ⟨tSt_gathering {}, by decide⟩

theorem witness_AccumulatorOperationsJoinTheirBundle : Gathering sl31 (tSt {}) 33 {} ∧
    (macMode 0x6000 = 0 ∧ macZero 0x6000 13 = true) ∧
    (macMode 0x60FC = 0 ∧ macZero 0x60FC 2 = true ∧ macRa 0x60FC = 0 ∧ macHa 0x60FC = false) ∧
    (macMode 0x7E00 = 0 ∧ macZero 0x7E00 9 = true) ∧ (macMode 0x7F00 = 0 ∧ macZero 0x7F00 8 = true) ∧
    (macMode 0x1EF8 = 0 ∧ macZero 0x1EF8 3 = true ∧ macAcc 0x1EF8 = 0 ∧ macHa 0x1EF8 = false) :=
  ⟨tSt_gathering {}, by decide⟩

theorem witness_MemoryOperationsJoinTheirBundle :
    (∃ r : Tile, Gathering sl31 (tSt r) 33 {} ∧ memForm 0xEE00 = true ∧ memRd 0xEE00 % 2 = 0 ∧
      accessFault (r.addrOf 0xEE00 8) 8 = 0 ∧ ((tSt r).dev.phys 33).ueIn (r.addrOf 0xEE00 8).toNat 8 = false) ∧
    (∃ r : Tile, Gathering sl31 (tSt r) 33 {} ∧ memForm 0x3E7F = true ∧ memRd 0x3E7F < 4 ∧ accessFault (r.addrOf 0x3E7F 8) 8 = 0 ∧
      accessFault (r.addrOf 0x3E7F 2) 2 = 0 ∧ accessFault (r.addrOf 0x3E7F 4) 4 = 0) ∧
    ∃ r : Tile, Gathering sl31 (tSt r) 33 {} ∧ memForm 0xEE00 = true ∧ accessFault (r.addrOf 0xEE00 4) 4 ≠ 0 :=
  ⟨⟨{ p := [(7, 0x7FFF8)] }, tSt_gathering _, by decide⟩, ⟨{ p := [(7, 0x80000)] }, tSt_gathering _, by decide⟩,
   ⟨{ p := [(7, 0x80000)] }, tSt_gathering _, by decide⟩⟩

theorem witness_AluOperationsJoinTheirBundle : Gathering sl31 (tSt {}) 33 {} ∧ cfZero 0x3FFC 2 = true ∧
    (cfZero 0x03FC 2 = true ∧ cfXd 0x03FC = 0) ∧ cfZero 0x3FFE 1 = true ∧
    (cfZero 0x3BC0 6 = true ∧ bitOf (0x3BC0 : BitVec 14).toNat 10 = false) :=
  ⟨tSt_gathering {}, by decide⟩

theorem witness_MovesAndRedirectsJoinTheirBundle : Gathering sl31 (tSt {}) 33 {} ∧
    (cfZero 0x0FE4 2 = true ∧ bitsOf (0x0FE4 : BitVec 14).toNat 8 6 = 15 ∧ bitsOf (0x0FE4 : BitVec 14).toNat 2 6 = 57) ∧
    (cfZero 0x39E4 2 = true ∧ bitsOf (0x39E4 : BitVec 14).toNat 8 6 = 57 ∧ bitsOf (0x39E4 : BitVec 14).toNat 2 6 = 57) ∧
    (((tSt {}).dev.tile 31).slots = 0 ∧ cfXd 0x3000 = 12 ∧ cfZero 0x3000 6 = true) ∧
    (lfTop 0xC00003FFF = 12 ∧ bitsOf (0xC00003FFF : BitVec 36).toNat 14 18 = 0 ∧ condHolds ((tSt {}).dev.tile 31).sr 12 = true) ∧
    (lfTop 0xB00003FFF = 11 ∧ bitsOf (0xB00003FFF : BitVec 36).toNat 14 18 = 0 ∧ condHolds ((tSt {}).dev.tile 31).sr 11 = false) ∧
    bitsOf (0x2FFF : BitVec 14).toNat 12 2 ≠ 3 ∧
    (bitsOf (0x8FFFF0FFF : BitVec 36).toNat 34 2 ≠ 3 ∧ bitsOf (0x8FFFF0FFF : BitVec 36).toNat 32 2 = 0 ∧
      bitsOf (0x8FFFF0FFF : BitVec 36).toNat 12 4 = 0) ∧
    (bitsOf (0x2000 : BitVec 14).toNat 12 2 ≠ 3 ∧ cfZero 0x2000 12 = true) ∧
    (cfZero 0x39A0 3 = true ∧ bitsOf (0x39A0 : BitVec 14).toNat 8 6 = 57 ∧ bitsOf (0x39A0 : BitVec 14).toNat 4 4 = 10 ∧
      bitOf (0x39A0 : BitVec 14).toNat 3 = false ∧ ((tSt {}).dev.tile 31).eblk = true) ∧
    (cfZero 0x3988 3 = true ∧ bitsOf (0x3988 : BitVec 14).toNat 8 6 ≤ 57 ∧ bitsOf (0x3988 : BitVec 14).toNat 4 4 = 8 ∧
      bitOf (0x3988 : BitVec 14).toNat 3 = true) :=
  ⟨tSt_gathering {}, by decide⟩

theorem witness_TurnsAndKernelOperationsRedirect :
    (Gathering sl31 (tSt { nxtth := some 3 }) 33 {} ∧ ((tSt { nxtth := some 3 }).dev.tile 31).slots = 0 ∧ cfZero 0x3E00 9 = true ∧
      ((tSt { nxtth := some 3 }).dev.tile 31).eblk = true ∧ ((tSt { nxtth := some 3 }).dev.tile 31).nxtth ≠ none) ∧
    (Gathering sl31 (tSt { slots := 1 }) 33 {} ∧ ((tSt { slots := 1 }).dev.tile 31).slots ≠ 0) ∧
    (Gathering sl31 (tSt { eblk := false }) 33 {} ∧ ((tSt { eblk := false }).dev.tile 31).eblk = false) :=
  ⟨⟨tSt_gathering _, by decide⟩, ⟨tSt_gathering _, by decide⟩, tSt_gathering _, by decide⟩

theorem witness_UnitOperationsJoinTheirBundle : Gathering sl31 (tSt {}) 33 {} ∧ cfZero 0x3FE0 5 = true ∧
    (bitsOf (0x1FFF001F : BitVec 36).toNat 5 11 = 0 ∧ bitsOf (0x1FFF001F : BitVec 36).toNat 29 7 = 0) ∧ cfZero 0x3FC0 6 = true ∧
    (cfZero 0x3BC0 6 = true ∧ cfXd 0x3BC0 % 2 = 0) ∧ cfZero 0x3FF8 3 = true ∧ cfZero 0x3F80 7 = true ∧
    (cfZero 0x3800 10 = true ∧ cfXd 0x3800 % 2 = 0) ∧ cfZero 0x3F00 8 = true :=
  ⟨tSt_gathering {}, by decide⟩

/-- A device whose tile 31 has `b` open. -/
def openTile (b : Bundle) (r : Tile := {}) : Dev :=
  dTil { Til.reset with map := [(31, 34)], tiles := [(31, { r with run := .issuing, opened := some b })] }

def full (ws : List PendW) : Bundle := { macN := 1, memN := 1, ctlN := 1, writes := ws }

theorem witness_BundlesActWholeOrFault :
    (∃ (d : Dev) (b : Bundle), (d.tile 31).opened = some b ∧ Store.wf {} d.til.tiles = true ∧
      pickFault (b.faults ++ (if b.formed then [] else [(4, 0)])) = some (2, 9) ∧ (3, 5) ∈ b.faults ∧ (1 ≤ 3 ∧ 3 ≤ 4)) ∧
    (∃ (d : Dev) (b : Bundle), (d.tile 31).opened = some b ∧ Store.wf {} d.til.tiles = true ∧ b.formed = false ∧ b.faults = []) ∧
    (∃ (d : Dev) (b : Bundle), (d.tile 31).opened = some b ∧ Store.wf {} d.til.tiles = true ∧ (d.tile 31).eblk = true) ∧
    (∃ (d : Dev) (b : Bundle), (d.tile 31).opened = some b ∧ Store.wf {} d.til.tiles = true ∧ b.formed = true ∧ b.faults = [] ∧
      b.unit = none ∧ b.ces = [] ∧ b.ues = [] ∧ b.stores = [] ∧ b.fws = [] ∧ b.flow = none ∧ (d.tile 31).slots = 0 ∧
      (d.tile 31).run = .issuing ∧ (d.tile 31).pend = [] ∧ b.writes = [⟨1, .x 15 7⟩]) ∧
    (∃ (d : Dev) (b : Bundle), (d.tile 31).opened = some b ∧ Store.wf {} d.til.tiles = true ∧ b.formed = true ∧ b.faults = [] ∧
      b.unit = none ∧ b.ces = [] ∧ b.ues = [] ∧ b.stores = [] ∧ b.fws = [] ∧ b.flow = none ∧ (d.tile 31).slots = 0 ∧
      (d.tile 31).run = .issuing ∧ (d.tile 31).pend = [] ∧ b.writes = [⟨2, .x 15 7⟩]) ∧
    ∃ (d : Dev) (b : Bundle), (d.tile 31).opened = some b ∧ Store.wf {} d.til.tiles = true ∧ b.formed = true ∧ b.faults = [] ∧
      b.unit = none ∧ b.ces = [] ∧ b.ues = [] ∧ b.stores = [{ addr := 0x7FFF8, size := 8, val := 1 }] :=
  ⟨⟨openTile { (full []) with faults := [(3, 5), (2, 9)] }, { (full []) with faults := [(3, 5), (2, 9)] }, by decide⟩,
   ⟨openTile { macN := 2 }, { macN := 2 }, by decide⟩, ⟨openTile (full []), full [], by decide⟩,
   ⟨openTile (full [⟨1, .x 15 7⟩]), full [⟨1, .x 15 7⟩], by decide⟩, ⟨openTile (full [⟨2, .x 15 7⟩]), full [⟨2, .x 15 7⟩], by decide⟩,
   ⟨openTile { (full []) with stores := [{ addr := 0x7FFF8, size := 8, val := 1 }] },
    { (full []) with stores := [{ addr := 0x7FFF8, size := 8, val := 1 }] }, by decide⟩⟩

/-- A device whose position 31 is held by physical tile 33, with its tile's registers. -/
def mapped (r : Tile) (cleared : Bool) : Dev :=
  dTil { Til.reset with map := [(31, 34)], phys := [(33, { state := .active, cleared := cleared })], tiles := [(31, r)] }

def desc0 (kind : Nat) : Desc :=
  { kind := kind, notify := false, prio := 0, flag := 0, thread := 0, loc := 0, remote := 0, len := 0, rows := 0, lstride := 0,
    rstride := 0, bad := false }

theorem witness_EntriesClearsAndDmaOfATile :
    (∃ s : State, s.dev.physOf 31 = some 33 ∧ s.dev.posActive 31 = true ∧ (s.dev.phys 33).cleared = true ∧
      (s.dev.tile 31).run = .gated ∧ (s.dev.stl 31).bound = none) ∧
    (∃ s : State, s.dev.physOf 31 = some 33 ∧ s.dev.posActive 31 = true ∧ (s.dev.phys 33).cleared = true ∧
      (s.dev.tile 31).run = .gated ∧ (s.dev.stl 31).bound = some 8191) ∧
    (∃ s : State, s.dev.physOf 31 = some 33 ∧ s.dev.posActive 31 = true ∧ (s.dev.phys 33).cleared = true ∧
      (s.dev.tile 31).run = .ended .yield) ∧
    (∃ s : State, s.dev.physOf 31 = some 33 ∧ (s.dev.phys 33).cleared = false ∧ s.mem.wf) ∧
    (∃ s : State, s.dev.physOf 31 = some 33 ∧ s.dev.sys.evac = none ∧ (s.dev.chan 31 3).queue = []) ∧
    (∃ s : State, s.dev.physOf 31 = some 33 ∧ s.dev.sys.evac = none ∧ (s.dev.chan 31 3).queue = [0x7FFE0] ∧ (s.dev.chan 31 3).run = none ∧
      (s.dev.phys 33).badWords [] 0x7FFE0 8 = [] ∧ (s.mem.desc 33 0x7FFE0).invalid = true) ∧
    (∃ s : State, s.dev.physOf 31 = some 33 ∧ s.dev.sys.evac = none ∧ (s.dev.chan 31 3).queue = [0x7FFE0] ∧ (s.dev.chan 31 3).run = none ∧
      (s.dev.phys 33).badWords [] 0x7FFE0 8 = [] ∧ (s.mem.desc 33 0x7FFE0).invalid = false ∧ (s.mem.desc 33 0x7FFE0).kind = 7) ∧
    (∃ (s : State) (run : DmaRun), s.dev.physOf 31 = some 33 ∧ s.dev.sys.evac = none ∧ (s.dev.chan 31 3).run = some run ∧
      run.st = .ok ∧ run.desc.kind = 7 ∧ run.moved = 0 ∧ 2 * 64 ≤ run.desc.len ∧ 2 * 64 < run.desc.rows * run.desc.len ∧
      Store.wf {} s.dev.til.tiles = true ∧ (∀ u, (s.dev.tile u).opened = none)) ∧
    ∃ (s : State) (run : DmaRun), s.dev.physOf 31 = some 33 ∧ s.dev.sys.evac = none ∧ (s.dev.chan 31 3).run = some run ∧
      run.st = .badArg ∧ (s.dev.chan 31 3).cut = 0 ∧ run.desc.kind = 7 ∧ run.desc.notify = false :=
  ⟨⟨st (mapped {} true), by decide⟩,
   ⟨st { (mapped {} true) with sch := { Sch.reset with tiles := [(31, { bound := some 8191 })] } }, by decide⟩,
   ⟨st (mapped { run := .ended .yield } true), by decide⟩, ⟨st (mapped {} false), by decide⟩,
   ⟨st (mapped {} true), by decide⟩, ⟨st (mapped { chans := [(3, { queue := [0x7FFE0] })] } true), by decide⟩,
   ⟨{ st (mapped { chans := [(3, { queue := [0x7FFE0] })] } true) with
      mem := Mems.reset.dmPut 33 0x7FFE0 (natBytes 4 7 ++ natBytes 12 0 ++ natBytes 4 0x00100008) }, by decide⟩,
   ⟨st (mapped { chans := [(3, { run := some { addr := 0x7FFE0, desc := { desc0 7 with len := 128, rows := 65535 }, st := .ok } })] } true),
    { addr := 0x7FFE0, desc := { desc0 7 with len := 128, rows := 65535 }, st := .ok }, by decide, by decide, by decide, by decide,
    by decide, by decide, by decide, by decide, by decide, fun u => by
      by_cases h : u = 31
      · subst h; decide
      · simp [mapped, dTil, st, Dev.tile, Store.get, h]⟩,
   ⟨st (mapped { chans := [(3, { run := some { addr := 0x7FFE0, desc := desc0 7, st := .badArg } })] } true),
    { addr := 0x7FFE0, desc := desc0 7, st := .badArg }, by decide⟩⟩

theorem witness_EntriesClearsAndDmaOfATile_general :
    (∃ (s : State) (m : Mems) (d : Dev), s.dev.physOf 31 = some 33 ∧ s.dev.sys.evac = none ∧
      dmaComplete s.clk 31 33 3 64 none [] [] s.mem s.dev = (m, d) ∧ (s.dev.chan 31 3).run.isSome = true) :=
  ⟨st (mapped { chans := [(3, { run := some { addr := 0x7FFE0, desc := desc0 1, st := .badArg } })] } true), _, _, rfl, rfl, rfl, rfl⟩

/-! ### Witnesses: the Barista and the Hoppers -/

theorem witness_BaristaCommandsAnswer :
    (∃ s : State, HostOk o0 s ∧ Store.wf {} s.dev.sch.groups = true ∧ (0x80000000 : BitVec 34).toNat % 2 ^ 32 ≠ 0) ∧
    (∃ (s : State) (ctx : Word), HostOk o0 s ∧ ctx.toNat % 8 = 0 ∧ ctx.toNat < 2 ^ 25 ∧ ctxPos ctx ≤ 31 ∧ (s.dev.thr 8191).off = true) ∧
    ∃ s : State, HostOk o0 s ∧ (s.dev.thr 8191).off = false :=
  ⟨⟨st Dev.reset, ⟨rfl, rfl⟩, by decide⟩, ⟨st Dev.reset, 0xF80000, ⟨rfl, rfl⟩, by decide⟩,
   ⟨st (dSch { Sch.reset with threads := [(8191, { state := .waiting })] }), ⟨rfl, rfl⟩, by decide⟩⟩

theorem witness_FlagsStartsAndCancelsMoveThreads_packets :
    (∃ (s : State) (r : Reply) (d : Dev), HostOk o0 s ∧ s.dev.cmdThreadCancel s.clk 8191 [(1, 7, 31)] = (r, d)) ∧
    (∃ (s : State) (d : Dev), s.dev.sch.cmdEn = true ∧ s.dev.hopTake s.clk s.dev.sch.cmdHop = (none, d)) ∧
    ∃ (s : State) (p : Pkt) (w0 : Word) (ws : List Word) (d d' : Dev) (r : Reply), s.dev.sch.cmdEn = true ∧
      s.dev.hopTake s.clk s.dev.sch.cmdHop = (some (p, w0 :: ws), d) ∧ w0.toNat % 65536 = schOpc (.groupStatus 63) ∧
      d.schRun s.clk (.groupStatus 63) = (r, d') :=
  ⟨⟨st Dev.reset, _, _, ⟨rfl, rfl⟩, rfl⟩, ⟨st (dSch { Sch.reset with cmdHop := 5, cmdEn := true }), _, rfl, rfl⟩,
   ⟨st (hop5 (dSch { Sch.reset with cmdHop := 5, cmdEn := true }) [0x00000621, 63]), _, _, _, _, _, _, rfl, rfl, by decide, rfl⟩⟩

theorem witness_FlagsStartsAndCancelsMoveThreads :
    (∃ s : State, HostOk o0 s ∧ Store.wf {} s.dev.sch.threads = true ∧ Store.wf {} s.dev.sch.tiles = true ∧
      Store.wf [] s.dev.sch.fifos = true ∧ (s.dev.thr 8191).off = true ∧ (s.dev.thr 8191).state ≠ .running ∧
      QueuedAtMost s.dev 8191 ∧ 8191 ∉ s.dev.fifo (s.dev.thr 8191).group (s.dev.thr 8191).level ∧ (s.dev.thr 8191).level = 3) ∧
    (∃ s : State, HostOk o0 s ∧ Store.wf {} s.dev.sch.threads = true ∧ Store.wf {} s.dev.sch.tiles = true ∧
      Store.wf [] s.dev.sch.fifos = true ∧ (s.dev.thr 8191).state = .running ∧ (s.dev.thr 8191).tile = some 31) ∧
    ∃ (s : State) (p : Pkt) (w0 : Word) (ws : List Word) (d : Dev), HostOk o0 s ∧ s.dev.sch.cmdEn = true ∧
      s.dev.hopTake s.clk s.dev.sch.cmdHop = (some (p, w0 :: ws), d) ∧ w0.toNat % 65536 = 0x0626 :=
  ⟨⟨st (dSch { Sch.reset with threads := [(8191, { level := 3 })] }), ⟨rfl, rfl⟩, by decide, by decide, by decide, by decide, by decide,
     fun _ _ _ h => absurd h (by simp [Dev.fifo, dSch, st, Sch.reset, Store.get]), by decide, by decide⟩,
   ⟨st (dSch { Sch.reset with threads := [(8191, { state := .running, tile := some 31 })] }), ⟨rfl, rfl⟩, by decide⟩,
   ⟨st (hop5 (dSch { Sch.reset with cmdHop := 5, cmdEn := true }) [0x00000626, 8191]), _, _, _, _, ⟨rfl, rfl⟩, rfl, rfl, by decide⟩⟩

/-- A device whose Hopper 1,023 is as given. -/
def hop1023 (x : Hopper) : Dev := dHop { Hop.reset with hops := [(1023, x)] }
def bst (after : Bool) : Burst := { prod := .filter, start := 0, prio := 4, words := [1, 2], swapAfter := after }

theorem witness_HopperSwapIsForced :
    (∃ s : State, HostOk o0 s ∧ s.dev.hopUp 1023 = true ∧ Store.wf {} s.dev.hop.hops = true ∧ Store.wf 0 s.dev.ctr = true ∧
      (s.dev.hopper 1023).burst = none ∧ (s.dev.hopper 1023).fill = [] ∧ (s.dev.hopper 1023).swapFlagEn = false) ∧
    (∃ s : State, HostOk o0 s ∧ s.dev.hopUp 1023 = true ∧ Store.wf {} s.dev.hop.hops = true ∧ Store.wf 0 s.dev.ctr = true ∧
      (s.dev.hopper 1023).burst = none ∧ (s.dev.hopper 1023).swapFlagEn = true) ∧
    (∃ s : State, s.dev.hopUp 1023 = true ∧ Store.wf {} s.dev.hop.hops = true ∧ Store.wf 0 s.dev.ctr = true ∧
      (s.dev.hopper 1023).burst = some (bst true) ∧ (∀ p, (bst true).prod ≠ .eth p) ∧ (bst true).swapAfter = true ∧
      (bst true).voided = false ∧ (s.dev.hopper 1023).noticeEn = false ∧ (s.dev.hopper 1023).swapFlagEn = false ∧
      (s.dev.hopper 1023).queue = []) ∧
    ∃ (s : State) (al : Alarm), s.dev.hopUp 1023 = true ∧ Store.wf {} s.dev.hop.hops = true ∧ Store.wf 0 s.dev.ctr = true ∧
      s.clk.sub ≤ 3071 ∧ s.dev.htb.alarms = [(7, al)] ∧ al.armed = true ∧ al.typ = 1 ∧ al.targets = 1023 ∧
      al.due = s.clk.tick * 4096 + 3071 ∧ al.target = al.due ∧ al.period = 0 ∧ s.dev.htb.issueAt ≠ s.clk.tick * 4096 + 3071 + 1 ∧
      s.dev.bndDone { s.clk with sub := 3071 } = true ∧ (s.dev.hopper 1023).burst = none :=
  ⟨⟨st (hop1023 { setUp := true, seq := [{ start := 0, n := 1, prio := 4 }] }), ⟨rfl, rfl⟩, by decide⟩,
   ⟨st (hop1023 { setUp := true, swapFlagEn := true }), ⟨rfl, rfl⟩, by decide⟩,
   ⟨st (hop1023 { setUp := true, w := 3, burst := some (bst true) }), by decide, by decide, by decide, by decide,
      fun _ => by simp [bst], by decide⟩,
   ⟨st { (hop1023 { setUp := true }) with htb := { Htb.reset with alarms := [(7, { dueAlarm 1 1023 with period := 0 })] } },
    { dueAlarm 1 1023 with period := 0 }, by decide⟩⟩

theorem witness_HoppersTakeWholePackets :
    (∃ (s : State) (words : List Word), Store.wf {} s.dev.hop.hops = true ∧ Store.wf 0 s.dev.ctr = true ∧
      Store.wf 0 s.dev.hop.qsram = true ∧ Store.wf {} s.dev.hop.puts = true ∧ HostOk o0 s ∧ (s.dev.hopper 1023).setUp = true ∧
      (s.dev.hopper 1023).closing = none ∧ (s.dev.hopper 1023).burst = none ∧
      (s.dev.hopper 1023).w + words.length + 1 = (s.dev.hopper 1023).size ∧ (s.dev.hopper 1023).queue = [] ∧
      (s.dev.hopper 1023).due = false) ∧
    (∃ words : List Word, (({ setUp := true } : Hopper)).size < words.length + 1) ∧
    (∃ (s : State) (w : Waiting) (words : List Word), (s.dev.hopper 1023).setUp = true ∧ (s.dev.hopper 1023).closing = none ∧
      (s.dev.hopper 1023).burst.isSome = true ∧ words.length + 1 = (s.dev.hopper 1023).size ∧ (s.dev.hopper 1023).queue = [w] ∧
      w.at_ = s.clk ∧ (Prod.put 32).place < w.prod.place) ∧
    (∃ s : State, (s.dev.hopper 1023).burst.isSome = true ∧ ∀ w ∈ (s.dev.hopper 1023).queue, w.at_ ≠ s.clk) ∧
    (∃ s : State, Store.wf {} s.dev.hop.hops = true ∧ (s.dev.hopper 1023).setUp = true ∧ (s.dev.hopper 1023).closing = none ∧
      (s.dev.hopper 1023).burst = some (bst false) ∧ (∀ p, (bst false).prod ≠ .eth p) ∧ (bst false).voided = false ∧
      (bst false).swapAfter = false ∧ (s.dev.hopper 1023).noticeEn = false ∧ (s.dev.hopper 1023).queue = [] ∧
      (s.dev.hopper 1023).due = false ∧ (s.dev.hopper 1023).sched = true) ∧
    (∃ s : State, Store.wf {} s.dev.hop.hops = true ∧ (s.dev.hopper 1023).setUp = true ∧ (s.dev.hopper 1023).burst = some (bst false) ∧
      (s.dev.hopper 1023).noticeEn = false ∧ (s.dev.hopper 1023).queue = [] ∧ (s.dev.hopper 1023).due = false ∧
      (s.dev.hopper 1023).sched = false ∧ (s.dev.hopper 1023).rel = (s.dev.hopper 1023).seq.length ∧
      (s.dev.hopper 1023).swapFlagEn = false) ∧
    (∃ (s : State) (m : HopMode), HostOk o0 s ∧ m.bad = false ∧ m.sched = true ∧ (s.dev.hopper 1023).setUp = false ∧
      s.dev.regionOk 1023 6144 18 = true) ∧
    ∃ s : State, (s.dev.hopper 1023).setUp = true ∧ (s.dev.hopper 1023).closing = some 0 ∧ (s.dev.hopper 1023).burst = none ∧
      NoOpenPut s.dev 1023 ∧ s.dev.waits = [{ kind := .hopperDestroy, key := 1023, src := .host o0, opc := 0x0702 }] :=
  ⟨⟨st (hop1023 { setUp := true, w := 253 }), [1, 2], by decide, by decide, by decide, by decide, ⟨rfl, rfl⟩, by decide⟩,
   ⟨List.replicate 256 0, by rw [List.length_replicate]; decide⟩,
   ⟨st (hop1023 { setUp := true, w := 3, burst := some (bst false), queue := [⟨(st Dev.reset).clk, .put 33, 0, [1]⟩] }),
    ⟨(st Dev.reset).clk, .put 33, 0, [1]⟩, List.replicate 255 0, by decide, by decide, by decide,
    by rw [List.length_replicate]; decide, rfl, rfl, by decide⟩,
   ⟨st (hop1023 { setUp := true, w := 3, burst := some (bst false) }), by decide⟩,
   ⟨st (hop1023 { setUp := true, sched := true, w := 3, burst := some (bst false) }), by decide, by decide, by decide, by decide,
      fun _ => by simp [bst], by decide⟩,
   ⟨st (hop1023 { setUp := true, w := 3, burst := some (bst false) }), by decide⟩,
   ⟨st Dev.reset, { sched := true, frame := 3, noticeEn := true, noticeFlag := 31, swapFlagEn := true, swapFlag := 31, thread := 8191 },
      ⟨rfl, rfl⟩, by decide⟩,
   ⟨st { (hop1023 { setUp := true, closing := some 0 }) with
      waits := [{ kind := .hopperDestroy, key := 1023, src := .host o0, opc := 0x0702 }] }, by decide, by decide, by decide,
      fun _ h => by simp_all [Dev.putBuf, hop1023, dHop, st, Hop.reset, Store.get], by decide⟩⟩

theorem witness_HoppersTakeWholePackets_more :
    (∃ (s : State) (words : List Word), (s.dev.hopper 1023).setUp = true ∧ (s.dev.hopper 1023).closing = none ∧
      (s.dev.hopper 1023).burst = none ∧ words.length + 1 ≤ (s.dev.hopper 1023).size ∧
      (s.dev.hopper 1023).size < (s.dev.hopper 1023).w + words.length + 1 ∧ (s.dev.hopper 1023).swapFlagEn = false) ∧
    (∃ s : State, (s.dev.hopper 1023).setUp = true ∧ (s.dev.hopper 1023).closing.isSome = true) ∧
    (∃ (s : State) (m : HopMode), HostOk o0 s ∧ m.bad = false ∧ m.sched = false ∧ (s.dev.hopper 1023).setUp = true ∧
      (s.dev.hopper 1023).due = true) ∧
    (∃ s : State, HostOk o0 s ∧ (s.dev.hopper 1023).setUp = true ∧ (s.dev.hopper 1023).closing = none ∧
      (s.dev.hopper 1023).burst.isSome = true ∧ (s.dev.hopper 1023).queue.length = 1) ∧
    ∃ s : State, (s.dev.hopper 1023).setUp = true ∧ (s.dev.hopper 1023).closing.isSome = true ∧ (s.dev.hopper 1023).empty = true ∧
      (s.dev.hopper 1023).closing ≠ some 0 :=
  ⟨⟨st (hop1023 { setUp := true, w := 254 }), [1, 2], by decide⟩, ⟨st (hop1023 { setUp := true, closing := some 160 }), by decide⟩,
   ⟨st (hop1023 { setUp := true, due := true }),
      { sched := false, frame := 0, noticeEn := false, noticeFlag := 0, swapFlagEn := false, swapFlag := 0, thread := 0 }, ⟨rfl, rfl⟩,
      by decide⟩,
   ⟨st (hop1023 { setUp := true, w := 3, burst := some (bst false), queue := [⟨(st Dev.reset).clk, .put 33, 0, [1]⟩] }), ⟨rfl, rfl⟩,
      by decide⟩,
   ⟨st (hop1023 { setUp := true, closing := some 160 }), by decide⟩⟩

/-! ### Witnesses: line channels -/

/-- Line 255 is active on lane 31 in LIVE and has the channel `c`; its partner offers metering. -/
def chan255 (c : LineCh) : Dev :=
  { Dev.reset with
    med := { Med.reset with lines := [(255, some c)] }
    oll := { Oll.reset with lines := [(255, { active := true })], lanes := [(31, { train := .live, cap := some { features := 1 } })] } }

theorem chan255_up (c : LineCh) (tick : Nat) (h : c.destroying = none) : LineUp (st (chan255 c) tick) 255 c :=
  ⟨rfl, h, rfl, by decide, rfl, rfl⟩

/-- An idle channel that holds alarm slot 1,023. -/
def idleCh : LineCh := { slot := some 1023 }

def cidMsg (mode : Nat) : CidMsg :=
  { mode := mode, mod := 1, level := -40, delay := some 0, guard := 16000, pr := true, typ := 255, body := [1] }

theorem witness_LineChannelsStartTheirWork_general :
    (∃ (s : State) (c : LineCh) (m : CidMsg), HostOk o0 s ∧ ClockOk s ∧ LineUp s 255 c ∧ c.offHook = false ∧ c.ring = none ∧
      s.dev.cadence 0 ≠ [] ∧ s.dev.slotFor c = some 1023 ∧ c.cidArm = some m ∧ c.cid = none ∧ m.fits (s.dev.cadence 0) = true) ∧
    (∃ (s : State) (c : LineCh) (m : CidMsg), HostOk o0 s ∧ LineUp s 255 c ∧ c.offHook = false ∧ c.cidOn s.clk.tick = false ∧
      c.tone = none ∧ c.paging = none ∧ m = cidMsg 2 ∧ m.mode ≤ 2 ∧ c.cid = none) ∧
    (∃ (s : State) (c : LineCh) (r : CidRun), LineUp s 255 c ∧ c.cid = some r ∧ s.clk.tick < r.dataAt ∧ c.tone = none ∧
      c.paging = none ∧ s.dev.slotFor c = some 1023) ∧
    ([(50, -60), (14000, -3)] : List (Nat × Int)).length = 2 ∧
    ∃ (s : State) (c : LineCh), LineUp s 255 c ∧ c.swaps = [] ∧ 1 ≤ 3 ∧ (3 : Nat).testBit 0 = true ∧ (3 : Nat).testBit 1 = true :=
  ⟨⟨st (chan255 { idleCh with cidArm := some { cidMsg 0 with guard := 400 } }) 79, { idleCh with cidArm := some { cidMsg 0 with guard := 400 } },
      { cidMsg 0 with guard := 400 }, ⟨rfl, rfl⟩, by unfold ClockOk; decide, chan255_up _ _ rfl, by decide⟩,
   ⟨st (chan255 idleCh) 79, idleCh, cidMsg 2, ⟨rfl, rfl⟩, chan255_up _ _ rfl, by decide⟩,
   ⟨st (chan255 { idleCh with cid := some { msg := cidMsg 1, burst := none, tas := none, dataAt := 80, dataEnd := 90 } }) 79,
    { idleCh with cid := some { msg := cidMsg 1, burst := none, tas := none, dataAt := 80, dataEnd := 90 } }, _, chan255_up _ _ rfl, rfl,
      by decide, rfl, rfl, rfl⟩,
   rfl, ⟨st (chan255 idleCh), idleCh, chan255_up _ _ rfl, by decide⟩⟩

theorem witness_LineChannelsStartTheirWork :
    (∃ (s : State) (c : LineCh), HostOk o0 s ∧ ClockOk s ∧ LineUp s 255 c ∧ c.cid = none ∧ c.cidArm = none ∧ c.tone = none ∧
      c.paging = none ∧ c.offHook = false ∧ c.ring = none ∧ s.dev.cadence 0 ≠ [] ∧ mediaFrame c.set.frame = true ∧
      s.dev.slotFor c = some 1023 ∧ s.dev.htb.hostSlots ≤ 1023 ∧ Store.wf ({} : Alarm) s.dev.htb.alarms = true ∧ c.swaps = []) ∧
    (∃ (s : State) (c : LineCh) (m : CidMsg), HostOk o0 s ∧ ClockOk s ∧ LineUp s 255 c ∧ c.cid = none ∧ c.cidArm = none ∧
      c.tone = none ∧ c.paging = none ∧ c.offHook = false ∧ m.mod ≤ 1 ∧ m.level = -40 ∧ 400 ≤ m.guard ∧ m.guard = 16000 ∧
      m.body ≠ [] ∧ m.body.length ≤ 253 ∧ m.typ = 255 ∧ m.mode = 0) ∧
    (∃ (c : LineCh) (m : CidMsg), c = idleCh ∧ m.mod = 1 ∧ -40 ≤ m.level ∧ m.level ≤ -6 ∧ m.mode = 1) ∧
    (∃ (f : Nat) (lv : Int) (cad : List (Nat × Nat)), f = 14000 ∧ lv = -3 ∧ cad ≠ [] ∧ cad.length = 4 ∧
      (∀ p ∈ cad, 8 ≤ p.1 ∧ 8 ≤ p.2) ∧ (∀ r, some 256 = some r → 1 ≤ r ∧ r ≤ 256)) ∧
    (∃ (s : State) (c : LineCh), HostOk o0 s ∧ ClockOk s ∧ LineUp s 255 c ∧ c.cid = none ∧ c.cidArm = none ∧ c.tone = none ∧
      c.paging = none ∧ c.offHook = true ∧ c.charac = false) ∧
    ∃ (s : State) (c : LineCh), HostOk o0 s ∧ ClockOk s ∧ LineUp s 255 c ∧ c.cid = none ∧ c.cidArm = none ∧ c.tone = none ∧
      c.paging = none ∧ c.swaps = [] ∧ (s.dev.fst 255).state = .running ∧ (s.dev.fst 255).ramp = none ∧
      (List.replicate 20 (0 : Word)).length = 20 :=
  ⟨⟨st (chan255 idleCh) 79, idleCh, ⟨rfl, rfl⟩, by unfold ClockOk; decide, chan255_up _ _ rfl, by decide⟩,
   ⟨st (chan255 idleCh) 79, idleCh, cidMsg 0, ⟨rfl, rfl⟩, by unfold ClockOk; decide, chan255_up _ _ rfl, by decide⟩,
   ⟨idleCh, cidMsg 1, by decide⟩, ⟨14000, -3, [(8, 8), (8, 8), (8, 8), (8, 8)], rfl, rfl, by decide, rfl, by decide, fun _ h => by cases h; decide⟩,
   ⟨st (chan255 { idleCh with offHook := true }), { idleCh with offHook := true }, ⟨rfl, rfl⟩, by unfold ClockOk; decide,
      chan255_up _ _ rfl, by decide⟩,
   ⟨st { (chan255 idleCh) with fce := { Fce.reset with streams := [(255, { state := .running })] } }, idleCh, ⟨rfl, rfl⟩,
      by unfold ClockOk; decide, ⟨rfl, rfl, rfl, by decide, rfl, rfl⟩, by decide⟩⟩

/-- A tone whose fade-out ends at tick 9. -/
def tone9 : ToneRun := { tones := [(50, -60)], cad := [(8, 8)], count := 1, mix := true, ramp := 256, start := 1, stop := some 17, fade := some 9 }

def ringing : Ringing := { cadIx := 0, cad := [(8000, 32000)], profile := 0, cycles := 0, cid := false, first := 80, next := 80 }

theorem witness_LineChannelCommandsAnswer_general :
    (∃ (s : State) (c : LineCh), HostOk o0 s ∧ LineUp s 255 c ∧ c.paging = none ∧ s.dev.peerBad c.set.thread (.line 255) (.pkt 5) = false ∧
      s.dev.peerGone (.pkt 5) = false ∧ s.dev.peerEnds (.pkt 5) = false) ∧
    (∃ (s : State) (c : LineCh), HostOk o0 s ∧ LineUp s 255 c ∧ s.dev.feature 255 1 = true ∧ s.dev.feature 255 2 = true ∧ c.ring = none ∧
      c.cid = none) ∧
    (∃ (s : State) (c : LineCh), HostOk o0 s ∧ LineUp s 255 c ∧ c.ring.isSome = true ∧ c.tone.isSome = true) ∧
    (∃ (s : State) (c : LineCh) (t : ToneRun), HostOk o0 s ∧ LineUp s 255 c ∧ c.tone = some t ∧ t.fade = some 9) ∧
    (∃ (s : State) (c : LineCh), HostOk o0 s ∧ LineUp s 255 c ∧ c.tone = none ∧ c.ring = none) ∧
    (∀ p ∈ ([(400, 65535), (65535, 400)] : List (Nat × Nat)), 400 ≤ p.1 ∧ p.1 ≤ 65535 ∧ 400 ≤ p.2 ∧ p.2 ≤ 65535) :=
  ⟨⟨st { (chan255 idleCh) with med := { Med.reset with lines := [(255, some idleCh)], pkts := [(5, some {})] } }, idleCh, ⟨rfl, rfl⟩,
      ⟨rfl, rfl, rfl, by decide, rfl, rfl⟩, by decide⟩,
   ⟨st { (chan255 idleCh) with
      oll := { Oll.reset with lines := [(255, { active := true })], lanes := [(31, { train := .live, cap := some { features := 6 } })] } },
    idleCh, ⟨rfl, rfl⟩, ⟨rfl, rfl, rfl, by decide, rfl, rfl⟩, by decide⟩,
   ⟨st (chan255 { idleCh with ring := some ringing, tone := some tone9 }), { idleCh with ring := some ringing, tone := some tone9 },
      ⟨rfl, rfl⟩, chan255_up _ _ rfl, by decide⟩,
   ⟨st (chan255 { idleCh with tone := some tone9 }), { idleCh with tone := some tone9 }, tone9, ⟨rfl, rfl⟩, chan255_up _ _ rfl, rfl, rfl⟩,
   ⟨st (chan255 idleCh), idleCh, ⟨rfl, rfl⟩, chan255_up _ _ rfl, rfl, rfl⟩, by decide⟩

theorem witness_LineChannelCommandsAnswer :
    (∃ (s : State) (c : LineCh) (m : LineMod), HostOk o0 s ∧ LineUp s 255 c ∧ m.bad = false ∧ m.peer = .none ∧ c.ring = none ∧
      c.cid = none ∧ s.dev.feature 255 0 = true ∧ s.dev.lineUp 255 = true ∧ (s.dev.line 255).full = false ∧
      ∀ p ∈ s.dev.lineChs, ∀ r, p.2.ring = some r → r.cadIx ≠ 7) ∧
    (∃ (s : State) (c : LineCh), HostOk o0 s ∧ LineUp s 255 c ∧ c.ring = some ringing ∧ c.cid = none ∧ c.tone = none ∧
      c.paging = none ∧ c.onAt = none ∧ c.ears.cur = none) ∧
    (∃ (s : State) (c : LineCh) (t : ToneRun), HostOk o0 s ∧ LineUp s 255 c ∧ c.tone = some t ∧ t.fade = none) ∧
    ∃ x : CptDef, x.freqs ≠ [] ∧ x.freqs.length = 2 ∧ x.cad ≠ [] ∧ x.cad.length ≤ 4 ∧ 1 ≤ x.tol ∧ x.tol = 25 :=
  ⟨⟨st (chan255 { idleCh with ring := none }), { idleCh with ring := none }, {}, ⟨rfl, rfl⟩, chan255_up _ _ rfl, by decide, by decide,
      by decide, by decide, by decide, by decide, by decide, fun p h r e => by
        simp [chan255, st, Dev.lineChs, Store.entries, idleCh] at h; subst h; simp at e⟩,
   ⟨st (chan255 { idleCh with ring := some ringing }), { idleCh with ring := some ringing }, ⟨rfl, rfl⟩, chan255_up _ _ rfl, by decide⟩,
   ⟨st (chan255 { idleCh with tone := some { tones := [(50, -60)], cad := [(8, 8)], count := 1, mix := true, ramp := 256, start := 1, stop := some 17 } }),
    { idleCh with tone := some { tones := [(50, -60)], cad := [(8, 8)], count := 1, mix := true, ramp := 256, start := 1, stop := some 17 } },
    _, ⟨rfl, rfl⟩, chan255_up _ _ rfl, rfl, rfl⟩,
   ⟨{ freqs := [350, 440], cad := [(400, 400)], tol := 25 }, by decide⟩⟩

def hookRec (old new : Nat) : HookRec := { tick := 9, old := old, new := new, edges := 1, gap := 0 }

theorem witness_LineChannelsLiveAndReport_general :
    (∃ (s : State) (set : LineSet), HostOk o0 s ∧ s.dev.lineCh 255 = none ∧ set.m.bad = false ∧
      s.dev.peerBad set.thread (.line 255) set.m.peer = false ∧ s.dev.peerGone set.m.peer = false ∧ s.dev.peerEnds set.m.peer = false ∧
      s.dev.chanFrame set.thread = some set.frame ∧ s.dev.bridgeFrame set.thread = none ∧
      s.dev.rxShared set.rxHop set.thread = false ∧ mediaFrame set.frame = true ∧ mediaRate set.rate = true ∧ set.m.peer = .pkt 5 ∧
      (s.dev.fst 255).open = true ∧ (s.dev.fst 511).open = true) ∧
    (∃ (s : State) (c : LineCh) (d : Dev), s.dev.lineCh 255 = some c ∧ c.frameAt = some 80 ∧
      ((s.dev.setLineCh 255 (some { c with recs := [] })).lineHooks s.clk 255 c.recs).ringTurn s.clk 255 = d ∧ c.recs = []) ∧
    ∃ (s : State) (c : LineCh) (a : Nat), s.dev.lineCh 255 = some c ∧ c.onAt = some a ∧ a + c.set.m.flashMax ≤ s.clk.tick ∧ a = 0 :=
  ⟨⟨st { Dev.reset with med := { Med.reset with pkts := [(5, some {})] } }, { rxHop := 1023, m := { peer := .pkt 5 } }, ⟨rfl, rfl⟩, by decide⟩,
   ⟨st (chan255 { idleCh with frameAt := some 80 }) 81, { idleCh with frameAt := some 80 }, _, rfl, rfl, rfl, rfl⟩,
   ⟨st (chan255 { idleCh with onAt := some 0 }) 5000, { idleCh with onAt := some 0 }, 0, by decide⟩⟩

theorem witness_LineChannelsLiveAndReport :
    (∃ (s : State) (set : LineSet), HostOk o0 s ∧ Store.wf none s.dev.med.lines = true ∧ Store.wf {} s.dev.oll.lines = true ∧
      Store.wf {} s.dev.sch.threads = true ∧ s.dev.lineCh 255 = none ∧ set.m.bad = false ∧ set.m.peer = .none ∧ set.thread = 8191 ∧
      set.group = 63 ∧ set.level = 3 ∧ mediaFrame set.frame = true ∧ mediaRate set.rate = true ∧ set.rxHop = 1023 ∧
      set.mainHop ≤ 1023 ∧ set.altHop ≤ 1023 ∧ set.evtRing = 255 ∧ s.dev.chanFrame set.thread = none ∧
      s.dev.bridgeFrame set.thread = none ∧ s.dev.rxShared set.rxHop set.thread = false ∧ (s.dev.thr set.thread).off = true ∧
      (s.dev.fst 255).open = true ∧ (s.dev.fst 511).open = true) ∧
    (∃ (s : State) (c : LineCh) (r : HookRec), s.dev.lineCh 255 = some c ∧ c.recs = [r] ∧ r.old.testBit 0 = false ∧
      r.new.testBit 0 = true ∧ r.old.testBit 2 = r.new.testBit 2 ∧ bitsOf r.old 3 3 = bitsOf r.new 3 3 ∧ c.onAt = none ∧
      c.offHook = false ∧ c.ring = none ∧ c.cid = none ∧ c.tone = none ∧ c.hyb = none ∧ c.page = none ∧ c.set.m.hybMode = 0 ∧
      c.set.m.peer = .none ∧ c.evq = [] ∧ c.ears.cur = none) ∧
    (∃ (s : State) (c : LineCh), s.dev.lineCh 255 = some c ∧ c.frameAt = some 80 ∧ mediaRate c.set.rate = true) ∧
    (∃ (s : State) (c : LineCh) (a : Nat), s.dev.lineCh 255 = some c ∧ c.onAt = some a ∧ a + c.set.m.flashMax = s.clk.tick ∧
      c.paging = none ∧ c.evq = [] ∧ c.ears.cur = none) ∧
    (∃ (s : State) (c : LineCh), HostOk o0 s ∧ s.dev.lineCh 255 = some c ∧ c.destroying = none) ∧
    (∃ (s : State) (c : LineCh) (t : Nat), s.dev.lineCh 255 = some c ∧ c.destroying = some t ∧ t = s.clk.tick ∧
      s.clk.tick % c.set.frame = 0 ∧ (s.dev.thr c.set.thread).off = true) ∧
    ∃ (s : State) (c : LineCh) (t : Nat), s.dev.lineCh 255 = some c ∧ c.destroying = some t ∧ t = s.clk.tick ∧
      s.clk.tick % c.set.frame = 0 ∧ s.dev.idleThread c.set.thread = true ∧ (s.dev.thr c.set.thread).off = false :=
  ⟨⟨st Dev.reset, { thread := 8191, group := 63, level := 3, rxHop := 1023, evtRing := 255 }, ⟨rfl, rfl⟩, by decide⟩,
   ⟨st (chan255 { idleCh with set := { m := { hybMode := 0 } }, recs := [hookRec 0 1] }) 10,
    { idleCh with set := { m := { hybMode := 0 } }, recs := [hookRec 0 1] }, hookRec 0 1, by decide⟩,
   ⟨st (chan255 { idleCh with frameAt := some 80 }) 81, { idleCh with frameAt := some 80 }, by decide⟩,
   ⟨st (chan255 { idleCh with onAt := some 200 }) 5000, { idleCh with onAt := some 200 }, 200, by decide⟩,
   ⟨st (chan255 idleCh), idleCh, ⟨rfl, rfl⟩, by decide⟩,
   ⟨st (chan255 { idleCh with destroying := some 160 }) 160, { idleCh with destroying := some 160 }, 160, by decide⟩,
   ⟨st { (chan255 { idleCh with destroying := some 160 }) with sch := { Sch.reset with threads := [(0, { state := .waiting })] } } 160,
      { idleCh with destroying := some 160 }, 160, by decide⟩⟩

/-! ### Witnesses: packet channels and bridges -/

/-- Packet channel 4,095 is `x`, and Hopper 5 holds a record with TAG 4,095 of the packet `bytes`, in words. -/
def pkt4095 (x : PktCh) (n : Nat) (words : List Word) : Dev :=
  hop5 { (dMed { Med.reset with pkts := [(4095, some x)] }) with til := { Til.reset with winHi := 65536 } }
    ([0x00000FFF, 0, 0, BitVec.ofNat 32 n, 0, 0, 0, 0] ++ words)

/-- A channel latched on SSRC 9 with an anchor. -/
def latched : PktCh := { ssrc := some 9, anchor := some (0, 0xA0) }

/-- An RTP packet of SSRC 9, payload type 0, sequence number 1, timestamp 0xA0 with one byte of audio. -/
def rtpWords : List Word := [0x01000080, 0xA0000000, 0x09000000, 0x000000FF]

theorem witness_PacketChannelsCarryMedia_modes :
    (∃ (s : State) (p : Pkt) (ws : List Word) (d : Dev) (x : PktCh), s.dev.hopReady 5 = true ∧ s.dev.hopTake s.clk 5 = (some (p, ws), d) ∧
      (rxRecOf ws).l4bad = false ∧ d.pkt (rxRecOf ws).tag = some x ∧ x.mode = 2 ∧ (rxRecOf ws).bytes.length ≤ 1400) ∧
    (∃ (s : State) (p : Pkt) (ws : List Word) (d : Dev) (x : PktCh), s.dev.hopReady 5 = true ∧ s.dev.hopTake s.clk 5 = (some (p, ws), d) ∧
      (rxRecOf ws).l4bad = false ∧ d.pkt (rxRecOf ws).tag = some x ∧ x.mode = 1) ∧
    (∃ (s : State) (p : Pkt) (ws : List Word) (d : Dev) (x : PktCh), s.dev.hopReady 5 = true ∧ s.dev.hopTake s.clk 5 = (some (p, ws), d) ∧
      (rxRecOf ws).l4bad = false ∧ d.pkt (rxRecOf ws).tag = some x ∧
      rtcpParts (rxRecOf ws).bytes.length (rxRecOf ws).bytes = none) ∧
    ∃ (s : State) (p : Pkt) (ws : List Word) (d : Dev) (x : PktCh) (rc : Nat) (first : List Nat) (rest : List (Nat × Nat × List Nat)),
      s.dev.hopReady 5 = true ∧ s.dev.hopTake s.clk 5 = (some (p, ws), d) ∧ (rxRecOf ws).l4bad = false ∧
      d.pkt (rxRecOf ws).tag = some x ∧
      rtcpParts (rxRecOf ws).bytes.length (rxRecOf ws).bytes = some ((200, rc, first) :: rest) :=
  ⟨⟨st (pkt4095 { latched with mode := 2 } 13 rtpWords), _, _, _, { latched with mode := 2 }, by decide, rfl, by decide⟩,
   ⟨st (pkt4095 { latched with mode := 1 } 13 rtpWords), _, _, _, { latched with mode := 1 }, by decide, rfl, by decide⟩,
   ⟨st (pkt4095 latched 13 rtpWords), _, _, _, latched, by decide, rfl, by decide⟩,
   ⟨st (pkt4095 latched 28 [0x0600C880, 0x09000000, 0, 0, 0, 0, 0]), _, _, _, latched, _, _, _, by decide, rfl, by decide, by decide, rfl⟩⟩

theorem witness_PacketChannelsCarryMedia :
    (∃ (s : State) (p : Pkt) (ws : List Word) (d : Dev) (x : PktCh) (r : RxRec), Store.wf none s.dev.med.pkts = true ∧
      s.dev.hopReady 5 = true ∧ s.dev.hopTake s.clk 5 = (some (p, ws), d) ∧ rxRecOf ws = r ∧ r.l4bad = false ∧
      d.pkt r.tag = some x ∧ x.mode = 0 ∧ x.set.codec ≤ 2 ∧ x.set.rxPt ≠ x.set.evtPt ∧ x.set.rxSsrc = 0 ∧
      r.bytes.getD 0 0 = 0x80 ∧ r.bytes.getD 1 0 % 128 = x.set.rxPt ∧ r.bytes.length = 13 ∧
      x.ssrc = some (beAt r.bytes 8 4) ∧ x.anchor = some (0, 0xA0) ∧ x.reanchor = false ∧
      x.acc.contains (beAt r.bytes 2 2, beAt r.bytes 4 4) = false ∧ (x.formed : Int) ≤ x.playAt 0 0xA0 (beAt r.bytes 4 4) ∧
      x.playAt 0 0xA0 (beAt r.bytes 4 4) ≤ (s.clk.tick : Int) + x.set.jbMax + 8000) ∧
    (∃ (s : State) (p : Pkt) (ws : List Word) (d : Dev), s.dev.hopReady 5 = true ∧ s.dev.hopTake s.clk 5 = (some (p, ws), d) ∧
      (rxRecOf ws).l4bad = false ∧ d.pkt (rxRecOf ws).tag = none) ∧
    (∃ (s : State) (p : Pkt) (ws : List Word) (d : Dev) (x : PktCh), s.dev.hopReady 5 = true ∧
      s.dev.hopTake s.clk 5 = (some (p, ws), d) ∧ (rxRecOf ws).l4bad = false ∧ d.pkt (rxRecOf ws).tag = some x ∧
      (rxRecOf ws).bytes = [0x80, 201, 0, 1, 0, 0, 0, 9]) ∧
    (∃ (s : State) (x : PktCh), s.dev.pkt 4095 = some x ∧ x.frameAt = some 80 ∧ x.mode = 0 ∧ x.evtOut = none ∧
      s.dev.legsOf true 4095 = [] ∧ s.dev.hopReady x.set.rxHop = false) ∧
    (∃ (s : State) (x : PktCh), s.dev.pkt 4095 = some x ∧ x.rtcpAt = some 160 ∧ 160 ≤ s.clk.tick / x.set.frame * x.set.frame ∧
      s.clk.tick / x.set.frame * x.set.frame < 160 + x.set.frame ∧
      s.clk.tick < s.clk.tick / x.set.frame * x.set.frame + x.set.frame / 4 ∧
      x.set.rtcp ≠ 0) ∧
    ∃ (s : State) (x : PktCh), s.dev.pkt 4095 = some x ∧ x.mediaOn = true ∧ x.set.mediaTo ≠ 0 ∧
      x.rxTick + x.set.mediaTo = s.clk.tick :=
  ⟨⟨st (pkt4095 latched 13 rtpWords), _, _, _, latched, _, by decide, by decide, rfl, rfl, by decide⟩,
   ⟨st (hop5 Dev.reset (0x00000001 :: List.replicate 8 0)), _, _, _, by decide, rfl, by decide⟩,
   ⟨st (pkt4095 latched 8 [0x0100C980, 0x09000000]), _, _, _, latched, by decide, rfl, by decide⟩,
   ⟨st (pkt4095 { latched with frameAt := some 80 } 0 []), { latched with frameAt := some 80 }, by decide⟩,
   ⟨st (pkt4095 { latched with rtcpAt := some 160 } 0 []) 179, { latched with rtcpAt := some 160 }, by decide⟩,
   ⟨st (pkt4095 { latched with mediaOn := true } 0 []) 80000, { latched with mediaOn := true }, by decide⟩⟩

/-- Settings of a packet channel on thread 8,191 that no check refuses. -/
def goodPkt : PktSet := { thread := 8191, group := 63, level := 3, rxHop := 1023, dest := 8191, cname := [65] }

/-- Hopper 1,023 feeds thread 8,191; one alarm slot is tile code's. -/
def mediaDev (x : Med) : Dev :=
  { (hop1023 { setUp := true, thread := 8191 }) with
    med := x, til := { Til.reset with winHi := 65536 }, htb := { Htb.reset with hostSlots := 1023 } }

def bridge511 (x : Bridge) : Dev := mediaDev { Med.reset with pkts := [(4095, some { set := goodPkt })], bridges := [(511, some x)] }

def leg (pkt : Bool) : Leg := { pkt := pkt, chan := 4095, role := 0, gain := -240, hop := 1023 }

/-- A channel on thread 8,191 paired with line 255's, which stands on that thread too. -/
def pair4095 (x : PktCh) (bridges : Store (Option Bridge)) : Dev :=
  mediaDev { Med.reset with
    lines := [(255, some { set := { thread := 8191 } })], pkts := [(4095, some x)], bridges := bridges }

theorem witness_PacketChannelAndBridgeCommands_peers :
    (∃ (s : State) (set : PktSet), HostOk o0 s ∧ set.bad = false ∧ s.dev.pkt 4095 = none ∧ s.dev.jbRoom = true ∧
      s.dev.chanFrame set.thread = some set.frame ∧ s.dev.bridgeFrame set.thread = none ∧ s.dev.rxHopBad set.rxHop set.thread = false ∧
      s.dev.peerBad set.thread (.pkt 4095) set.peer = false ∧ s.dev.peerGone set.peer = false ∧ s.dev.peerEnds set.peer = false ∧
      set.peer = .line 255) ∧
    (∃ (s : State) (x : PktCh) (n : PktSet), HostOk o0 s ∧ s.dev.pkt 4095 = some x ∧ x.destroying = none ∧ n.thread = x.set.thread ∧
      n.group = x.set.group ∧ n.level = x.set.level ∧ n.frame = x.set.frame ∧ n.bad = false ∧
      s.dev.rxHopBad n.rxHop n.thread = false ∧ s.dev.peerBad x.set.thread (.pkt 4095) n.peer = false ∧ s.dev.peerGone n.peer = false ∧
      s.dev.peerEnds n.peer = false ∧ n.peer = .line 255) ∧
    (∃ (s : State) (set : BridgeSet), HostOk o0 s ∧ set.bad = false ∧ s.dev.bridge 511 = none ∧ s.dev.chanFrame set.thread = none ∧
      s.dev.bridgeFrame set.thread = some set.frame ∧ s.dev.rxHopBad set.inHop set.thread = false) ∧
    (∃ (s : State) (x : Bridge), HostOk o0 s ∧ s.dev.bridge 511 = some x ∧ x.destroying = none ∧
      x.allLegs.any (fun l => l.is false 255) = true) ∧
    (∃ (s : State) (x : Bridge) (l : Leg) (p : Nat × Nat × Peer), HostOk o0 s ∧ s.dev.bridge 511 = some x ∧ x.destroying = none ∧
      l.role = 1 ∧ gainOk l.gain = true ∧ l.hop ≤ 1023 ∧ s.dev.legChan l.pkt l.chan = some p ∧ p.1 = x.set.frame ∧
      s.dev.rxHopBad l.hop p.2.1 = false ∧ x.allLegs.length < 64 ∧ s.dev.legBound x l p.2.2 = false ∧ s.dev.legEnds l = false ∧
      p.2.2 = .pkt 4095) ∧
    ∃ (s : State) (x : Bridge), s.dev.bridge 511 = some x ∧ x.frameAt = some 80 ∧ x.mixDue 80 s.clk.tick = true ∧
      s.clk.tick = 81 ∧ x.legs = [leg true] :=
  ⟨⟨st (mediaDev { Med.reset with lines := [(255, some { set := { thread := 8191 } })] }), { goodPkt with peer := .line 255 }, ⟨rfl, rfl⟩,
      by decide⟩,
   ⟨st (pair4095 { set := goodPkt } []), { set := goodPkt }, { goodPkt with peer := .line 255 }, ⟨rfl, rfl⟩, by decide⟩,
   ⟨st (mediaDev { Med.reset with bridges := [(5, some { set := { thread := 8191 } })] }),
      { thread := 8191, group := 63, level := 3, mixMax := 8, inHop := 1023, pageRamp := 256, evtRing := 255 }, ⟨rfl, rfl⟩, by decide⟩,
   ⟨st (bridge511 { legs := [{ leg false with chan := 255 }] }), { legs := [{ leg false with chan := 255 }] }, ⟨rfl, rfl⟩, by decide⟩,
   ⟨st (mediaDev { Med.reset with
        lines := [(255, some { set := { thread := 8191, m := { peer := .pkt 4095 } } })], bridges := [(511, some { set := { paging := true } })] }),
      { set := { paging := true } }, { leg false with chan := 255, role := 1 }, _, ⟨rfl, rfl⟩, rfl, rfl, rfl, by decide, by decide, rfl,
      by decide⟩,
   ⟨st (bridge511 { legs := [leg true], frameAt := some 80, present := [(true, 4095)] }) 81,
      { legs := [leg true], frameAt := some 80, present := [(true, 4095)] }, by decide⟩⟩

theorem witness_PacketChannelAndBridgeCommands :
    (∃ (s : State) (set : PktSet), HostOk o0 s ∧ Store.wf none s.dev.med.pkts = true ∧ Store.wf none s.dev.med.bridges = true ∧
      Store.wf {} s.dev.sch.threads = true ∧ set.bad = false ∧ set.peer = .none ∧ s.dev.pkt 4095 = none ∧ s.dev.jbRoom = true ∧
      s.dev.chanFrame set.thread = none ∧ s.dev.bridgeFrame set.thread = none ∧ s.dev.rxHopBad set.rxHop set.thread = false ∧
      (s.dev.thr set.thread).off = true) ∧
    (∃ (s : State) (x : PktCh), HostOk o0 s ∧ s.dev.pkt 4095 = some x ∧ x.destroying = none ∧ x.set.bad = false ∧
      s.dev.rxHopBad x.set.rxHop x.set.thread = false ∧ x.set.peer = .none ∧ s.dev.t38Count 4095 < 64 ∧ x.set.evtPt ≠ 0 ∧
      x.evtOut = none ∧ x.mode = 0) ∧
    (∃ (s : State) (x : PktCh), HostOk o0 s ∧ s.dev.pkt 4095 = some x ∧ x.destroying = none ∧ x.set.evtPt ≠ 0 ∧ x.evtOut = none ∧ x.mode ≠ 0) ∧
    (∃ (s : State) (x : PktCh), s.dev.pkt 4095 = some x ∧ x.destroying = some 160 ∧ 160 = s.clk.tick ∧
      s.clk.tick % x.set.frame = 0) ∧
    (∃ (s : State) (set : BridgeSet), HostOk o0 s ∧ set.bad = false ∧ s.dev.bridge 511 = none ∧ s.dev.chanFrame set.thread = none ∧
      s.dev.bridgeFrame set.thread = none ∧ s.dev.rxHopBad set.inHop set.thread = false ∧ (s.dev.thr set.thread).off = true ∧
      s.dev.freeAlarm = some 1023 ∧ Store.wf ({} : Alarm) s.dev.htb.alarms = true) ∧
    (∃ (s : State) (x : Bridge) (l : Leg), HostOk o0 s ∧ s.dev.bridge 511 = some x ∧ x.destroying = none ∧ l.role ≤ 2 ∧
      gainOk l.gain = true ∧ l.hop = 1023 ∧ s.dev.legChan l.pkt l.chan = some (x.set.frame, 8191, .none) ∧
      s.dev.rxHopBad l.hop 8191 = false ∧ x.allLegs.length < 64 ∧ s.dev.legBound x l .none = false ∧
      s.dev.legEnds l = false ∧ x.legs.all (fun l => l.pkt) = true) ∧
    (∃ (s : State) (x : Bridge), HostOk o0 s ∧ s.dev.bridge 511 = some x ∧ x.destroying = none ∧
      x.allLegs.any (fun l => l.is true 4095) = true ∧ gainOk 120 = true) ∧
    (∃ (s : State) (x : Bridge), s.dev.bridge 511 = some x ∧ x.destroying = some 160 ∧ 160 = s.clk.tick ∧
      s.clk.tick % x.set.frame = 0) ∧
    ∃ (s : State) (x : Bridge), s.dev.bridge 511 = some x ∧ x.frameAt = some 80 ∧ 80 + x.set.frame / 8 = s.clk.tick :=
  ⟨⟨st (mediaDev Med.reset), goodPkt, ⟨rfl, rfl⟩, by decide⟩,
   ⟨st (mediaDev { Med.reset with pkts := [(4095, some { set := goodPkt })] }), { set := goodPkt }, ⟨rfl, rfl⟩, by decide⟩,
   ⟨st (mediaDev { Med.reset with pkts := [(4095, some { set := goodPkt, mode := 1 })] }), { set := goodPkt, mode := 1 }, ⟨rfl, rfl⟩,
      by decide⟩,
   ⟨st (pkt4095 { latched with destroying := some 160 } 0 []) 160, { latched with destroying := some 160 }, by decide⟩,
   ⟨st (mediaDev Med.reset), { thread := 8191, group := 63, level := 3, mixMax := 8, inHop := 1023, pageRamp := 256, evtRing := 255 },
      ⟨rfl, rfl⟩, by decide⟩,
   ⟨st (bridge511 {}), {}, leg true, ⟨rfl, rfl⟩, by decide⟩, ⟨st (bridge511 { legs := [leg true] }), { legs := [leg true] }, ⟨rfl, rfl⟩, by decide⟩,
   ⟨st (bridge511 { destroying := some 160 }) 160, { destroying := some 160 }, by decide⟩,
   ⟨st (bridge511 { frameAt := some 80 }) 90, { frameAt := some 80 }, by decide⟩⟩

/-- The report block of RFC 3550 (Table 11.2), by hand: packets 10 and 13 of source 9 came, two of four are lost. -/
theorem test_report_block : (((({ set := {} } : PktCh).countSrc 9 10).countSrc 9 13).block 9 0).take 12 =
    [0, 0, 0, 9, 128, 0, 0, 2, 0, 0, 0, 13] := by decide

/-- Two packets of the worked example of chapter 11, its k being 1,000. -/
def handset : PktCh :=
  { set := { codec := 2, jbMode := 0 }, anchor := some (1037, 51200), jb := [{ ts := 51200, seq := 0, pt := 9, ticks := 80 },
      { ts := 51280, seq := 1, pt := 9, ticks := 80 }] }

/-- Playout of chapter 11's worked example: silence to k + 516, packets 0 and 1, and concealment behind them. -/
theorem test_playout : [1516, 1517, 1676, 1677].map handset.soundAt = [.silence, .audio, .audio, .concealed] := by decide

/-- The worked examples of chapter 10: the data of 30 bytes last 5,400 ticks, and the loop delay is 2.66 ms. -/
theorem test_line_times : ({ mode := 0, mod := 0, pr := false, typ := 0, body := List.replicate 30 0 } : CidMsg).ticks = 5400 ∧
    loopNs 16000 = 2656250 := by decide

/-- The first of the three end packets of a digit of 320 ticks (R291). -/
theorem test_event_end : (({ ev := 5, vol := 10, ts := 7, start := some 1000, total := some 320 } : EvtOut).frame handset 1320) =
    ([5, 138, 1, 64], some { ev := 5, vol := 10, ts := 7, start := some 1000, total := some 320, ends := some 2, first := false }) := by
  decide

/-! ### Witnesses: Ethernet -/

/-- Port 1 up and enabled for frames of 60 bytes and their FCS, with miss ring 255. -/
def port1 : EPort := { en := true, link := true, maxFrame := 64, missRing := 255 }

def dPort (x : EPort) : Dev := dEth { Eth.reset with ports := [(1, x)] }

/-- A broadcast frame of 60 bytes with EtherType `e`. -/
def bcast (e : Nat) : List Nat := [255, 255, 255, 255, 255, 255, 0, 0, 0, 0, 0, 0] ++ bytesBE 2 e ++ List.replicate 46 0

/-- A broadcast frame with an empty UDP datagram between the zero addresses and ports. -/
def udp0 : List Nat :=
  [255, 255, 255, 255, 255, 255, 0, 0, 0, 0, 0, 0, 0x08, 0, 0x45, 0, 0, 28, 0, 0, 0, 0, 0, 17, 0, 0] ++ List.replicate 12 0 ++
    [0, 8, 0, 0] ++ List.replicate 18 0

/-- The flow entry of the key of `udp0` under SRC_MODE 2, with ACTION 2. -/
def flow0 : Flow := { flowOf (16 :: List.replicate 39 0) with action := 2 }

def missBuf : Buf := { idx := 0, addr := 4096, len := 60, good := true }

/-- Port 1 with its miss ring enabled and one buffer posted in it. -/
def dMiss : Dev :=
  { (dPort port1) with hif := { Hif.reset with bme := true, rings := [(255, { enabled := true, typ := 4, posted := [missBuf] })] } }

theorem witness_FramesAreCheckedAndReceived_general :
    (∃ (s : State) (x : EPort) (bs : List Nat), s.dev.port 1 = x ∧ x.en = true ∧ 60 ≤ bs.length ∧ bs.length + 4 ≤ x.maxFrame ∧
      s.dev.addrOk 1 (bs.take 6) = true ∧ beAt bs 12 2 = 0x8808) ∧
    (∃ (s : State) (x : EPort) (bs : List Nat), s.dev.port 1 = x ∧ x.en = true ∧ 60 ≤ bs.length ∧ bs.length + 4 ≤ x.maxFrame ∧
      s.dev.addrOk 1 (bs.take 6) = true ∧ beAt bs 12 2 ≠ 0x8808 ∧ 131072 < x.rxBytes + bs.length) ∧
    (∃ (s : State) (x : EPort), s.dev.port 1 = x ∧ x.en = true ∧ s.dev.ptpOn 1 = true ∧ s.dev.hif.paused = true) ∧
    (∃ (s : State) (x : EPort), s.dev.port 1 = x ∧ x.en = true ∧ s.dev.ptpOn 1 = true ∧ s.dev.hif.paused = false ∧ 4 ≤ 12 % 16 ∧
      12 % 16 ≠ 13) ∧
    ∃ (s : State) (x : EPort), s.dev.port 1 = x ∧ x.en = true ∧ s.dev.takesPause 1 = false ∧ x.pfcEn = false :=
  ⟨⟨st (dPort port1), port1, bcast 0x8808, by decide⟩, ⟨st (dPort { port1 with rxBytes := 131013 }), { port1 with rxBytes := 131013 }, bcast 0, by decide⟩,
   ⟨st { (dPort port1) with htb := { Htb.reset with enables := 2 }, hif := { Hif.reset with paused := true } }, port1, by decide⟩,
   ⟨st { (dPort port1) with htb := { Htb.reset with enables := 2 } }, port1, by decide⟩,
   ⟨st (dPort { port1 with pauseEn := false }), { port1 with pauseEn := false }, by decide⟩⟩

theorem witness_FramesAreCheckedAndReceived :
    (∃ (s : State) (x : EPort), s.dev.port 1 = x ∧ x.en = false) ∧
    (∃ (s : State) (x : EPort), s.dev.port 1 = x ∧ x.en = true ∧ ([] : List Nat).length < 60 ∧
      60 ≤ (List.replicate 61 0).length ∧ x.maxFrame < (List.replicate 61 0).length + 4 ∧ 60 ≤ (List.replicate 60 1).length ∧
      (List.replicate 60 1).length + 4 ≤ x.maxFrame ∧ s.dev.addrOk 1 ((List.replicate 60 1).take 6) = false) ∧
    (∃ (s : State) (x : EPort) (bs : List Nat) (f : Parsed) (b : Buf), s.dev.port 1 = x ∧ x.en = true ∧ bs = bcast 0 ∧
      60 ≤ bs.length ∧ bs.length + 4 ≤ x.maxFrame ∧ s.dev.addrOk 1 (bs.take 6) = true ∧ beAt bs 12 2 ≠ 0x8808 ∧
      x.rxBytes + bs.length ≤ 131072 ∧ s.dev.ptpOn 1 = false ∧ s.dev.syncOn 1 = false ∧ x.dropIp = false ∧ x.dropL4 = false ∧
      parseFrame bs (s.dev.tpid 1) = f ∧ f.classified = false ∧ Store.wf {} s.dev.hif.rings = true ∧ s.dev.hif.paused = false ∧
      s.dev.hif.bme = true ∧ s.dev.hif.d3hot = false ∧ s.dev.ringIs x.missRing 4 = true ∧
      (s.dev.ring x.missRing).posted = [b] ∧ b.good = true ∧ bs.length ≤ b.len) ∧
    (∃ (s : State) (x : EPort) (bs : List Nat) (f : Parsed) (fl : Flow), s.dev.port 1 = x ∧ x.en = true ∧ bs = udp0 ∧
      60 ≤ bs.length ∧ bs.length + 4 ≤ x.maxFrame ∧ s.dev.addrOk 1 (bs.take 6) = true ∧ beAt bs 12 2 ≠ 0x8808 ∧
      s.dev.ptpOn 1 = false ∧ s.dev.syncOn 1 = false ∧ x.dropIp = false ∧ x.dropL4 = false ∧ parseFrame bs (s.dev.tpid 1) = f ∧
      f.classified = true ∧ s.dev.flowLookup f = some (32767, fl) ∧ fl.action = 2) ∧
    (∃ s : State, s.dev.ptpOn 1 = true ∧ s.dev.hif.paused = false ∧ 3 % 16 < 4 ∧ 13 % 16 = 13) ∧
    (∃ (s : State) (x : EPort), s.dev.port 1 = x ∧ Store.wf {} s.dev.eth.queues = true ∧ Store.wf 0 s.dev.ctr = true ∧
      x.en = true ∧ x.pauseEn = true ∧ x.pfcEn = false ∧ 65535 < 65536) ∧
    (∃ (s : State) (x : EPort), s.dev.port 1 = x ∧ Store.wf {} s.dev.eth.queues = true ∧ x.en = true ∧ x.pfcEn = true) ∧
    ∃ s : State, (s.dev.txq 1 7).pauseTo ≤ clockAbs s.clk :=
  ⟨⟨st (dPort {}), {}, by decide⟩, ⟨st (dPort port1), port1, by decide⟩,
   ⟨st dMiss, port1, _, _, missBuf, by decide, by decide, rfl, by decide, by decide, by decide, by decide, by decide, by decide, by decide,
      by decide, by decide, rfl, by decide⟩,
   ⟨st (dEth { Eth.reset with ports := [(1, port1)], flows := [(32767, some flow0)] }), port1, _, _, flow0, by decide, by decide, rfl,
      by decide, by decide, by decide, by decide, by decide, by decide, by decide, by decide, rfl, by decide⟩,
   ⟨st (dHtb { Htb.reset with enables := 2 }), by decide⟩, ⟨st (dPort port1), port1, by decide⟩,
   ⟨st (dPort { port1 with pfcEn := true }), { port1 with pfcEn := true }, by decide⟩, ⟨st Dev.reset, by decide⟩⟩

/-- Queue 7 of port 1 reads Hopper 5, which holds a RAW packet of one byte. -/
def dTx (x : EPort) : Dev :=
  hop5 (dEth { Eth.reset with ports := [(1, x)], queues := [(15, { hop := 5, en := true })] }) [0x00012000, 0, 0x000000FF]

theorem dTx_reads : ((dTx port1).readsOf 1).find? (fun q => (dTx port1).txEligible (st (dTx port1)).clk 1 q) = some (1, 7) := by decide

theorem dTx_takes_packet : ((dTx port1).hopTake (st (dTx port1)).clk 5).1 =
    some ({ start := 0, n := 3, prio := 4 }, [0x00012000, 0, 0x000000FF]) := by decide

theorem dTx_takes : (dTx port1).hopTake (st (dTx port1)).clk 5 =
    (some ({ start := 0, n := 3, prio := 4 }, [0x00012000, 0, 0x000000FF]), ((dTx port1).hopTake (st (dTx port1)).clk 5).2) := by
  rw [← dTx_takes_packet]

def dPair (x0 x1 : EPort) (f : Eth → Eth) : Dev := dEth (f { Eth.reset with ports := [(0, x0), (1, x1)], protect := true })

def disWait : Waiter := { kind := .portEnable, key := 1, src := .host o0, opc := 0x0902 }

theorem witness_PortsSendAndSwitch_general :
    (∃ (s : State) (x : EPort), s.dev.port 1 = x ∧ s.dev.eth.switchTo = none ∧ x.en = true ∧ x.link = true ∧
      x.busyTo ≤ clockAbs s.clk * 78125 ∧ (s.dev.readsOf 1).find? (fun q => s.dev.txEligible s.clk 1 q) = none) ∧
    (∃ (s : State) (x : EPort), s.dev.port 1 = x ∧ x.link = true ∧ x.fault = true ∧ s.clk.sub = 0 ∧ s.dev.eth.protect = false) ∧
    (∃ (s : State) (e : Eth), s.dev.eth = e ∧ e.protect = true ∧ s.clk.sub = 0 ∧ (s.dev.port e.active).link = false ∧
      e.holdoff ≤ e.downFor ∧ (s.dev.port (1 - e.active)).link = true ∧ clockAbs s.clk * 78125 < (s.dev.port e.active).busyTo ∧
      (s.dev.port e.active).busyQ = some 7) ∧
    (∃ (s : State) (e : Eth), s.dev.eth = e ∧ e.protect = true ∧ e.revert = true ∧ e.active = 1 ∧ (s.dev.port 0).link = true ∧
      e.wtr * 8000 ≤ e.upFor ∧ clockAbs s.clk * 78125 < (s.dev.port 1).busyTo) ∧
    ∃ (s : State) (x : EPort), s.dev.port 1 = x ∧ x.disabling = true ∧ x.rxBytes = 0 ∧ x.busyTo ≤ clockAbs s.clk * 78125 ∧
      s.dev.waits.length = 2 :=
  ⟨⟨st (dPort port1), port1, by decide⟩, ⟨st (dPort port1), port1, by decide⟩,
   ⟨st (dPair { busyTo := 1, busyQ := some 7 } port1 id), _, rfl, by decide⟩,
   ⟨st (dPair { link := true } { port1 with busyTo := 1 } (fun e => { e with active := 1, upFor := 2400000 })), _, rfl, by decide⟩,
   ⟨st { (dPort { disabling := true }) with waits := [disWait, disWait] }, { disabling := true }, by decide⟩⟩

theorem witness_PortsSendAndSwitch :
    (∃ (s : State) (x : EPort) (y : Nat × Nat) (pk : Pkt) (w0 : Word) (ws : List Word) (content : List Nat) (d1 : Dev), HostOk o0 s ∧
      Store.wf {} s.dev.eth.ports = true ∧ s.dev.port 1 = x ∧ s.dev.eth.switchTo = none ∧ x.en = true ∧ x.link = true ∧
      x.busyTo ≤ clockAbs s.clk * 78125 ∧ (s.dev.readsOf 1).find? (fun q => s.dev.txEligible s.clk 1 q) = some y ∧
      s.dev.hopTake s.clk (s.dev.txq y.1 y.2).hop = (some (pk, w0 :: 0 :: ws), d1) ∧
      w0.toNat = 2 ^ 13 + content.length * 2 ^ 16 ∧ content.length < 2 ^ 14 ∧ ws.length = (content.length + 3) / 4 ∧
      (wordsBytes ws).take content.length = content ∧ delayReqAt content (s.dev.tpid 1) = none ∧
      content.length + 4 ≤ x.maxFrame ∧ 64 ≤ x.maxFrame) ∧
    (∃ (s : State) (x : EPort), s.dev.port 1 = x ∧ x.link = true ∧ x.fault = true ∧ s.clk.sub = 0 ∧ s.dev.eth.protect = true) ∧
    (∃ (s : State) (x : EPort), s.dev.port 1 = x ∧ x.link = false ∧ 8 ≤ x.good ∧ s.clk.sub = 0) ∧
    (∃ (s : State) (e : Eth), s.dev.eth = e ∧ e.protect = true ∧ s.clk.sub = 0 ∧ (s.dev.port e.active).link = false ∧
      max 1 e.holdoff ≤ e.downFor ∧ (s.dev.port (1 - e.active)).link = true ∧
      (s.dev.port e.active).busyTo ≤ clockAbs s.clk * 78125) ∧
    (∃ (s : State) (e : Eth), s.dev.eth = e ∧ e.protect = true ∧ e.revert = true ∧ e.active = 1 ∧ (s.dev.port 0).link = true ∧
      e.wtr * 8000 ≤ e.upFor ∧ (s.dev.port 1).busyTo ≤ clockAbs s.clk * 78125) ∧
    (∃ (s : State) (x : EPort), s.dev.port 1 = x ∧ s.dev.eth.protect = true ∧ x.link = true ∧ 1 ≠ s.dev.eth.active ∧
      (s.dev.port s.dev.eth.active).busyTo ≤ clockAbs s.clk * 78125) ∧
    (∃ (s : State) (x : EPort), s.dev.port 1 = x ∧ s.dev.eth.protect = true ∧ x.link = true ∧ 1 ≠ s.dev.eth.active ∧
      clockAbs s.clk * 78125 < (s.dev.port s.dev.eth.active).busyTo) ∧
    (∃ (s : State) (x : EPort), s.dev.port 1 = x ∧ x.lockOff = false) ∧
    (∃ (s : State) (x : EPort), s.dev.port 1 = x ∧ x.lockOff = true) ∧
    ∃ (s : State) (x : EPort), s.dev.port 1 = x ∧ x.disabling = true ∧ x.rxBytes = 0 ∧ x.busyTo ≤ clockAbs s.clk * 78125 ∧
      s.dev.waits = [{ kind := .portEnable, key := 1, src := .host o0, opc := 0x0902 }] :=
  ⟨⟨st (dTx port1), port1, (1, 7), _, 0x00012000, [0x000000FF], [255], _, ⟨rfl, rfl⟩, by decide, by decide,
      by decide, by decide, by decide, by decide, dTx_reads, dTx_takes, by decide, by decide, by decide, by decide, by decide, by decide, by decide⟩,
   ⟨st (dPair {} port1 id), port1, by decide⟩, ⟨st (dPort { good := 8 }), { good := 8 }, by decide⟩,
   ⟨st (dPair {} port1 (fun e => { e with downFor := 1 })), _, rfl, by decide⟩,
   ⟨st (dPair { link := true } port1 (fun e => { e with active := 1, upFor := 2400000 })), _, rfl, by decide⟩,
   ⟨st (dPair {} port1 id), port1, by decide⟩, ⟨st (dPair { busyTo := 1 } port1 id), port1, by decide⟩,
   ⟨st (dPort port1), port1, by decide⟩, ⟨st (dPort { lockOff := true }), { lockOff := true }, by decide⟩,
   ⟨st { (dPort { disabling := true }) with waits := [disWait] }, { disabling := true }, by decide⟩⟩

/-- An entry of the destination table with TTL 1. -/
def dest0 : List Nat := List.replicate 11 0 ++ [1] ++ List.replicate 52 0

/-- An entry of the flow table: the key of `udp0` and ACTION 2. -/
def flowBytes : List Nat := 16 :: List.replicate 39 0 ++ [2] ++ List.replicate 23 0

def dFlow : Dev := dEth { Eth.reset with flows := [(8191, some flow0)], dests := [(8191, dest0)] }

def dfl (h : Nat) : EFlight :=
  { port := 1, hop := 5, handle := h, flagEn := false, thread := 0, flag := 0, keyH := 0, bytes := 60, raw := [], head := [] }

/-- Four flows of one key that hold the key's slot in all four ways. -/
def dFull : Dev := dEth { Eth.reset with
  flows := [0, 1, 2, 3].map (fun w =>
    (w, some { flowOf flowBytes with way := w, slot := (Config.flowHash Eth.reset.seed w (ofBytesLE (slice flowBytes 0 40))).toNat })) }

theorem chain_full (d : Dev) (key : List Nat)
    (h : ∀ w, w ∈ [0, 1, 2, 3] → ∃ u, d.slotUser w (d.slotOf w key) = some u ∧ u.2.key = key) :
    ∀ n seen w, w ∈ [0, 1, 2, 3] → d.chain n seen w (d.slotOf w key) = none
  | 0, _, _, _ => rfl
  | n + 1, seen, w, hw => by
    obtain ⟨u, hu, hk⟩ := h w hw
    have h4 : ∀ v, v ∈ [0, 1, 2, 3].filter (· != w) → v ∈ [0, 1, 2, 3] := fun v hv => (List.mem_filter.mp hv).1
    have hf : ([0, 1, 2, 3].filter (· != w)).find? (fun w => (d.slotUser w (d.slotOf w key)).isNone) = none := by
      rw [List.find?_eq_none]
      intro v hv
      obtain ⟨x, hx, -⟩ := h v (h4 v hv)
      simp [hx]
    have hs : ∀ seen', ([0, 1, 2, 3].filter (· != w)).findSome? (fun w => (d.chain n seen' w (d.slotOf w key)).map (fun c => c ++ [(u.1, w)])) = none := by
      intro seen'
      rw [List.findSome?_eq_none_iff]
      intro v hv
      simp [chain_full d key h n seen' v (h4 v hv)]
    simp only [Dev.chain, hu, hk, hf, hs]
    split <;> rfl

theorem witness_FlowTableAndDestinations_places :
    (∃ (s : State) (key : List Nat), HostOk o0 s ∧ slice flowBytes 0 40 = key ∧ flowBytes.length = 64 ∧ keyOk key = true ∧
      flowTailOk (slice flowBytes 40 16) = true ∧ (∀ b ∈ slice flowBytes 56 8, b = 0) ∧ s.dev.flowPlace key = none) ∧
    (∃ (s : State) (key : List Nat) (way n n' : Nat) (e : Dev) (f : Flow), slice flowBytes 0 40 = key ∧
      s.dev.flowPlace key = some (way, n, e) ∧
      least 32768 (fun i => (s.dev.flow i).isNone && !s.dev.waiting .flowDelete i) = some n' ∧ s.dev.flowFind key = some (8191, f)) ∧
    ∃ s : State, s.dev.eth.dests.get [] 8191 = [] :=
  ⟨⟨st dFull, slice flowBytes 0 40, ⟨rfl, rfl⟩, rfl, by decide, by decide, by decide, by decide, by
      have h : ∀ w, w ∈ [0, 1, 2, 3] → ∃ u, dFull.slotUser w (dFull.slotOf w (slice flowBytes 0 40)) = some u ∧
          u.2.key = slice flowBytes 0 40 := by
        intro w hw
        simp only [List.mem_cons, List.not_mem_nil, or_false] at hw
        rcases hw with rfl | rfl | rfl | rfl <;>
        exact ⟨_, by simp [Dev.slotUser, Dev.flowList, dFull, dEth, Store.entries, Dev.slotOf]; rfl, by decide⟩
      have h0 : [0, 1, 2, 3].find? (fun w => (dFull.slotUser w (dFull.slotOf w (slice flowBytes 0 40))).isNone) = none := by
        rw [List.find?_eq_none]
        intro v hv
        obtain ⟨x, hx, -⟩ := h v hv
        simp [hx]
      have h1 : [1, 2, 3, 4, 5].findSome? (fun n => [0, 1, 2, 3].findSome? (fun w =>
          (dFull.chain n [] w (dFull.slotOf w (slice flowBytes 0 40))).map (fun c => (w, c.length, dFull.moveAll c)))) = none := by
        rw [List.findSome?_eq_none_iff]
        intro n _
        rw [List.findSome?_eq_none_iff]
        intro w hw
        simp [chain_full dFull _ h n [] w hw]
      show dFull.flowPlace (slice flowBytes 0 40) = none
      simp only [Dev.flowPlace, h0, h1]⟩,
   ⟨st (dEth { Eth.reset with flows := [(8191, some { flow0 with way := 4 })] }), _, 0, 0, 0, _, { flow0 with way := 4 }, rfl, rfl, by decide, by decide⟩,
   ⟨st Dev.reset, by decide⟩⟩

theorem witness_FlowTableAndDestinations :
    (∃ s : State, HostOk o0 s ∧ destOk dest0 = true ∧ s.dev.eth.protect = false ∧ s.dev.eth.dests.get [] 8191 = dest0 ∧ dest0 ≠ []) ∧
    (∃ (s : State) (key : List Nat), HostOk o0 s ∧ slice flowBytes 0 40 = key ∧ flowBytes.length = 64 ∧ keyOk key = true ∧
      flowTailOk (slice flowBytes 40 16) = true ∧ (∀ b ∈ slice flowBytes 56 8, b = 0) ∧ s.dev.flowFind key = none ∧
      s.dev.slotUser 0 (s.dev.slotOf 0 key) = none ∧
      least 32768 (fun n => (s.dev.flow n).isNone && !s.dev.waiting .flowDelete n) = some 0) ∧
    (∃ (s : State) (key : List Nat) (f : Flow), slice flowBytes 0 40 = key ∧ keyOk key = true ∧
      s.dev.flowFind key = some (8191, f) ∧ s.dev.flow 8191 = some f) ∧
    (∃ tail : List Nat, tail.length = 16 ∧ flowTailOk tail = true ∧ tail.getD 0 0 = 61) ∧
    (∃ s : State, (∀ f ∈ s.dev.eth.flight, f.handle ≠ 8191) ∧
      s.dev.waits = [{ kind := .flowDelete, key := 8191, src := .host o0, opc := 0x0909 }]) ∧
    ∃ (s : State) (f : EFlight), f ∈ s.dev.eth.flight ∧ f.handle = 8191 :=
  ⟨⟨st dFlow, ⟨rfl, rfl⟩, by decide⟩, ⟨st Dev.reset, _, ⟨rfl, rfl⟩, rfl, by decide, by decide, by decide, by decide, by decide, rfl, by decide⟩,
   ⟨st dFlow, _, _, rfl, by decide, rfl, rfl⟩, ⟨61 :: List.replicate 15 0, by decide⟩,
   ⟨st { (dEth { Eth.reset with flight := [dfl 5] }) with waits := [{ kind := .flowDelete, key := 8191, src := .host o0, opc := 0x0909 }] },
      by decide⟩,
   ⟨st (dEth { Eth.reset with flight := [dfl 8191] }), dfl 8191, by decide⟩⟩

/-! ### Witnesses: the Kiln -/

/-- Windows of one page that host memory lends for reading and writing. -/
def winHif : Hif := { Hif.reset with wins := [{ base := 0, pages := 1, read := true, write := true }] }

def dWin (x : Kln) : Dev := { (dKln x) with hif := winHif }

def rec1 : OwnerRec := { epoch := 1, imp := some 3, dump := some 4, recKey := some 5 }

/-- A module owned at epoch 1, with the challenge 77 outstanding and a working source of entropy. -/
def owned : Kln := { Kln.reset with epoch := 1, recB := some rec1, chal := some 77, entropyOk := true }

/-- A statement of a type that passes every check on `owned`. -/
def stmt (typ : Nat) : Statement :=
  { format := true, typ := typ, devOk := true, epoch := 1, nonce := 77, signed := 1, scope := 15, ticks := 230400000 }

theorem witness_KilnIdentityOwnerAndAlarms_general :
    (∃ (s : State) (x : Kln) (d : Dev), HostOk o0 s ∧ s.dev.kln = x ∧ x.entropyOk = false ∧ x.fails ≠ 0 ∧
      { s.dev with kln := { x with entropyOk := true, fails := 0 } } = d ∧ x.held ≠ []) ∧
    (∃ (s : State) (d : Dev), HostOk o0 s ∧ s.dev.winOk false 0 4096 = true ∧ s.dev.stmtCheck (stmt 4) false = .ok ∧
      s.dev.stmtApply s.clk (stmt 4) 1 0 false = (.now .ok [], d)) ∧
    (∃ s : State, HostOk o0 s ∧ s.dev.winOk false 0 4096 = true ∧ s.dev.stmtCheck (stmt 6) false = .ok) ∧
    (∃ s : State, HostOk o0 s ∧ s.dev.winOk false 0 4096 = true ∧ s.dev.stmtCheck (stmt 2) false = .ok ∧ (stmt 2).typ < 4 ∧
      s.dev.sys.pfwN = false) ∧
    (∃ s : State, HostOk o0 s ∧ s.dev.winOk false 0 4096 = true ∧ s.dev.sys.pfwN = true ∧ s.dev.stmtCheck (stmt 1) false = .ok ∧
      (stmt 1).typ < 2) ∧
    (∃ (s : State) (d : Dev), (∀ i ∈ s.dev.kln.ulithen, 64 ≤ i.svn) ∧ s.dev.kln.svn = 63 ∧ s.dev.burnSvn s.clk 64 [1] 64 = (true, d)) ∧
    (∃ (s : State) (x : Kln), HostOk o0 s ∧ s.dev.kln = x ∧ x.root0Rev = false ∧ x.ulithen ≠ [] ∧
      ∀ i ∈ x.ulithen, i.signer = 1 ∧ i.revoke = true) :=
  ⟨⟨st (dKln { Kln.reset with fails := 1, held := [.challenge o0] }), _, _, ⟨rfl, rfl⟩, rfl, by decide, by decide, rfl, by decide⟩,
   ⟨st (dWin owned), _, ⟨rfl, rfl⟩, by decide, by decide, rfl⟩,
   ⟨st (dWin { owned with roots := [0] }), ⟨rfl, rfl⟩, by decide⟩,
   ⟨st { (dWin owned) with sys := { Sys.reset with pfwN := false } }, ⟨rfl, rfl⟩, by decide⟩,
   ⟨st (dWin owned), ⟨rfl, rfl⟩, by decide⟩,
   ⟨st (dKln { Kln.reset with svn := 63, stage1 := some ⟨1, 1, 64, 0, 0, false, 0⟩ }), _, by decide, by decide, rfl⟩,
   ⟨st (dKln { Kln.reset with stage1 := some ⟨1, 1, 64, 0, 0, true, 0⟩ }), _, ⟨rfl, rfl⟩, rfl, by decide⟩⟩

theorem witness_KilnIdentityOwnerAndAlarms :
    (∃ (s : State) (x : Kln), HostOk o0 s ∧ s.dev.kln = x ∧ s.dev.winOk true 0 4096 = true ∧ x.epoch ≠ 0 ∧ x.entropyOk = true ∧
      s.dev.htb.state = .freeRun ∧ s.dev.htb.todSet = false) ∧
    (∃ (s : State) (x : Kln), HostOk o0 s ∧ s.dev.kln = x ∧ x.entropyOk = true ∧ s.dev.htb.todSet = true) ∧
    (∃ (s : State) (x : Kln), HostOk o0 s ∧ s.dev.kln = x ∧ x.entropyOk = false ∧ x.fails ≠ 0 ∧ x.held = [] ∧ x.svn < 64 ∧
      ([] : List Nat).headD 0 ≤ 1 ∧ ∀ i ∈ x.ulithen, x.svn < i.svn) ∧
    (∃ (s : State) (x : Kln), HostOk o0 s ∧ s.dev.kln = x ∧ x.chal.isSome = true ∧ x.chalLeft = 0) ∧
    (∃ s : State, HostOk o0 s ∧ s.dev.winOk false 0 4096 = true ∧ s.dev.sys.pfwN = true ∧
      s.dev.stmtCheck { stmt 4 with nonce := 78 } false ≠ .ok ∧ s.dev.stmtCheck (stmt 4) false = .ok ∧
      s.dev.stmtCheck (stmt 2) false = .ok ∧ s.dev.stmtCheck (stmt 3) false = .ok ∧ s.dev.stmtCheck (stmt 5) true = .ok) ∧
    (∃ (s : State) (x : Kln), HostOk o0 s ∧ s.dev.kln = x ∧ x.scope ≠ 0 ∧ x.debugLeft = 0) ∧
    (∃ (s : State) (y : Sys), s.dev.sys = y ∧ y.inReset = none ∧ y.ash = .empty ∧ y.warmDue = none ∧ y.dumpId < 65535 ∧
      y.log.length < 64) ∧
    (∃ (s : State) (x : Kln), s.dev.kln = x ∧ Store.wf {} x.ctxs = true ∧ Store.wf none x.sess = true ∧
      (s.dev.ctx 16383).used = true) ∧
    ∃ s : State, s.dev.sys.tamperLow = 1 :=
  ⟨⟨st (dWin owned), owned, ⟨rfl, rfl⟩, by decide⟩,
   ⟨st { (dKln owned) with htb := { Htb.reset with todSet := true } }, owned, ⟨rfl, rfl⟩, by decide⟩,
   ⟨st (dKln { Kln.reset with fails := 1, svn := 63, stage1 := some ⟨1, 1, 64, 0, 0, false, 0⟩ }), _, ⟨rfl, rfl⟩, rfl, by decide⟩,
   ⟨st (dKln owned), owned, ⟨rfl, rfl⟩, by decide⟩, ⟨st (dWin owned), ⟨rfl, rfl⟩, by decide⟩,
   ⟨st (dKln { Kln.reset with scope := 15 }), { Kln.reset with scope := 15 }, ⟨rfl, rfl⟩, by decide⟩,
   ⟨st (dSys { Sys.reset with dumpId := 65534 }), { Sys.reset with dumpId := 65534 }, by decide⟩,
   ⟨st (dKln { owned with ctxs := [(16383, { used := true, made := true })] }),
     { owned with ctxs := [(16383, { used := true, made := true })] }, by decide⟩,
   ⟨st (dSys { Sys.reset with tamperLow := 1 }), by decide⟩⟩

/-- Context 16,383 with generation 4,095: `c`. -/
def ctxTop (c : KCtx) : Kln := { owned with ctxs := [(5, { used := true, made := true, rx := some ⟨1, 9, 0, 0, none, {}, {}⟩ }),
  (16383, { c with used := true, made := true, gen := 4095 })] }

/-- Its receive and its transmit handle. -/
def hRx : Nat := handleOf 1 4095 16383
def hTxTop : Nat := hRx + 16384

def rx9 : KRx := { suite := 1, key := 9 }

def sealed (dir : Nat) : Sealed :=
  { format := true, suite := 4, dir := dir, target := if dir = 0 then hRx else hTxTop, devOk := true, epoch := 1, notAfter := 0, sigOk := true,
    tagOk := true, ssrc := 1, roc := 2, key := 3 }

/-- Session 511 with generation 4,095. -/
def sess511 : KSess :=
  { gen := 4095, target := hRx, role := 1, versions := 3, profiles := 15, fpAlg := 1, peerFp := 2, cert := 0 }
def hSess : Nat := handleOf 2 4095 511

def dSess (x : KSess) : Dev := dWin { owned with sess := [(511, some x)] }

/-- A request of words `ws` waits in Hopper 5, which KILN_JOB_CONFIG names; export 63 is `e`. -/
def dJob (e : Option KExp) (ws : List Word) : Dev :=
  { (hop5 (dKln { owned with jobHop := 5, jobEn := true, exps := e.toList.map (fun x => (63, some x)) }) ws) with
    til := { Til.reset with winHi := 8192 } }

theorem witness_KilnContextsSessionsAndJobs_general :
    (∃ s : State, HostOk o0 s ∧ s.dev.hCurrent hRx = true ∧ hTx hRx = false ∧ (s.dev.ctx 16383).rx.isSome = true ∧
      (s.dev.hRxOf (handleOf 1 1 5)).isSome = true ∧ hIndex (handleOf 1 1 5) ≠ hIndex hRx ∧ hRtcp (handleOf 1 1 5) = hRtcp hRx ∧
      (s.dev.linkOf (handleOf 1 1 5)).next = 0) ∧
    (∃ s : State, HostOk o0 s ∧ s.dev.kln.entropyOk = false) ∧
    (∃ (s : State) (x : KSess) (out : List (List Nat)) (d : Dev) (w : Status × List RField × List (List Nat) × Dev), HostOk o0 s ∧
      s.dev.sessOf hSess = some (511, x) ∧ s.dev.winOk false 0 1500 = true ∧ s.dev.winOk true 0 3 = true ∧
      s.dev.dtlsTake s.clk 511 x (.onward [[1]]) = (out, d) ∧ d.outWrite out 0 3 = w ∧ w.1 = .ok) ∧
    (∃ (s : State) (x : KSess) (w : Status × List RField × List (List Nat) × Dev), HostOk o0 s ∧
      s.dev.sessOf hSess = some (511, x) ∧ s.dev.winOk true 0 3 = true ∧ s.dev.outWrite [[1, 2]] 0 3 = w ∧ w.1 = .partialDone) ∧
    ∃ (s : State) (x : KSess), s.dev.sess 511 = some x ∧ x.retx = some 0 ∧ 6 ≤ x.tries :=
  ⟨⟨st (dKln (ctxTop { rx := some rx9 })), ⟨rfl, rfl⟩, by decide⟩, ⟨st (dKln Kln.reset), ⟨rfl, rfl⟩, by decide⟩,
   ⟨st (dSess sess511), sess511, _, _, _, ⟨rfl, rfl⟩, by decide, by decide, by decide, rfl, rfl, by decide⟩,
   ⟨st (dSess sess511), sess511, _, ⟨rfl, rfl⟩, by decide, by decide, rfl, by decide⟩,
   ⟨st (dSess { sess511 with retx := some 0, tries := 6 }), { sess511 with retx := some 0, tries := 6 }, by decide⟩⟩

theorem witness_KilnContextsSessionsAndJobs :
    (∃ s : State, HostOk o0 s ∧ Store.wf {} s.dev.kln.ctxs = true ∧ Store.wf none s.dev.kln.sess = true ∧
      Store.wf none s.dev.kln.exps = true ∧ s.dev.kln.isHeld = false ∧ least 16384 (fun n => !(s.dev.ctx n).used) = some 0 ∧
      s.dev.winOk false 0 1500 = true ∧ s.dev.hCurrent hRx = true ∧ s.dev.hCurrent hTxTop = true ∧ (s.dev.ctx 16383).rx = none ∧
      (s.dev.ctx 16383).tx = none ∧ s.dev.kln.entropyOk = true ∧ s.dev.kln.open_ < 512 ∧
      least 512 (fun n => (s.dev.sess n).isNone) = some 0 ∧ (s.dev.kln.record.bind (·.imp)).isSome = true ∧
      s.dev.kln.recLost = false ∧ (sealed 0).epoch = s.dev.kln.epoch ∧ s.clk.tick ≤ (sealed 0).notAfter) ∧
    (∃ s : State, s.dev.hCurrent hRx = true ∧ hTx hRx = false ∧ hRtcp hRx = false ∧ (s.dev.ctx 16383).rx.isSome = true ∧
      s.dev.hCurrent (handleOf 1 1 5) = true ∧ (s.dev.hRxOf (handleOf 1 1 5)).isSome = true ∧ hIndex (handleOf 1 1 5) ≠ hIndex hRx ∧
      hRtcp (handleOf 1 1 5) = false ∧ (s.dev.ctx 5).link.next = 0) ∧
    (∃ (s : State) (tx : KTx) (rx : KRx), s.dev.hCurrent hRx = true ∧ (s.dev.ctx 16383).tx = some tx ∧ (s.dev.ctx 16383).rx = some rx) ∧
    (∃ (s : State) (x : KSess) (g : List Nat), HostOk o0 s ∧ s.dev.sessOf hSess = some (511, x) ∧ s.dev.winOk false 0 1501 = true ∧
      s.dev.winOk true 0 3 = true ∧ x.out = [g] ∧ g.length + 2 ≤ 3) ∧
    (∃ (s : State) (x : KSess), HostOk o0 s ∧ s.dev.sessOf hSess = some (511, x) ∧ s.dev.winOk false 0 1500 = true ∧
      s.dev.winOk true 0 4 = true ∧ x.out = [] ∧ [1, 2].length + 2 ≤ 4) ∧
    (∃ (s : State) (x : KSess), s.dev.sess 511 = some x ∧ x.retx = some 0 ∧ x.tries < 6) ∧
    (∃ (s : State) (x : KSess), s.dev.sess 511 = some x ∧ x.linger = none ∧ 1440000 ≤ x.age) ∧
    (∃ (s : State) (x : KSess), s.dev.sess 511 = some x ∧ x.linger = some 0) ∧
    (∃ s : State, HostOk o0 s ∧ s.dev.hopUp 1023 = true ∧ 255 ≤ 255) ∧
    (∃ (s : State) (w0 w1 n : Word) (d : Dev), s.dev.kln.jobEn = true ∧ s.dev.kln.entropyOk = true ∧
      s.dev.hopReady s.dev.kln.jobHop = true ∧ s.dev.hopRest s.dev.kln.jobHop = [w0, w1, n] ∧ w1.toNat < 2 ^ 29 ∧
      (s.dev.hopTake s.clk s.dev.kln.jobHop).2 = d ∧ w0.toNat % 65536 = 0x0A40 ∧ 1 ≤ n.toNat ∧ n.toNat ≤ 256) ∧
    (∃ (s : State) (w0 w1 lo hi : Word) (d : Dev), s.dev.hopReady s.dev.kln.jobHop = true ∧
      s.dev.hopRest s.dev.kln.jobHop = [w0, w1, lo, hi] ∧ w1.toNat < 2 ^ 29 ∧ (s.dev.hopTake s.clk s.dev.kln.jobHop).2 = d ∧
      w0.toNat % 65536 = 0x0A41 ∧ d.kln.record.bind (·.recKey) = some 5 ∧ d.inTileWin (addr2 lo hi) 1232 = true ∧
      least 64 (fun n => (d.exp n).isNone) = some 0) ∧
    (∃ (s : State) (w0 w1 eh sl sh dl dh lw : Word) (d : Dev) (x : KExp), s.dev.hopReady s.dev.kln.jobHop = true ∧
      s.dev.hopRest s.dev.kln.jobHop = [w0, w1, eh, sl, sh, dl, dh, lw] ∧ w1.toNat < 2 ^ 29 ∧
      (s.dev.hopTake s.clk s.dev.kln.jobHop).2 = d ∧ w0.toNat % 65536 = 0x0A42 ∧ lw.toNat % 2 ^ 31 = 64 ∧
      d.expOf eh.toNat = some (63, x) ∧ x.final = false ∧ d.inTileWin (addr2 sl sh) 64 = true ∧
      d.inTileWin (addr2 dl dh) (64 + 16) = true ∧ d.dramPoisoned (addr2 sl sh) 64 = false) ∧
    ∃ (s : State) (w0 w1 eh dl dh : Word) (d : Dev) (x : KExp), s.dev.hopReady s.dev.kln.jobHop = true ∧
      s.dev.hopRest s.dev.kln.jobHop = [w0, w1, eh, dl, dh] ∧ w1.toNat < 2 ^ 29 ∧
      (s.dev.hopTake s.clk s.dev.kln.jobHop).2 = d ∧ w0.toNat % 65536 = 0x0A43 ∧ d.expOf eh.toNat = some (63, x) ∧ x.final = true ∧
      d.inTileWin (addr2 dl dh) 3413 = true :=
  ⟨⟨st (dWin (ctxTop {})), ⟨rfl, rfl⟩, by decide, by decide, by decide, by decide, by rfl, by decide⟩,
   ⟨st (dKln (ctxTop { rx := some rx9 })), by decide⟩,
   ⟨st (dKln (ctxTop { rx := some rx9, tx := some ⟨4, 9, 0, none, 0⟩ })), ⟨4, 9, 0, none, 0⟩, rx9, by decide⟩,
   ⟨st (dSess { sess511 with out := [[1]] }), { sess511 with out := [[1]] }, [1], ⟨rfl, rfl⟩, by decide⟩,
   ⟨st (dSess sess511), sess511, ⟨rfl, rfl⟩, by decide⟩,
   ⟨st (dSess { sess511 with retx := some 0, tries := 5 }), { sess511 with retx := some 0, tries := 5 }, by decide⟩,
   ⟨st (dSess { sess511 with age := 1440000 }), { sess511 with age := 1440000 }, by decide⟩,
   ⟨st (dSess { sess511 with linger := some 0 }), { sess511 with linger := some 0 }, by decide⟩,
   ⟨st (hop1023 { setUp := true }), ⟨rfl, rfl⟩, by decide⟩,
   ⟨st (dJob none [0x00000A40, 0, 256]), 0x00000A40, 0, 256, _, by decide, by decide, by decide, by decide, by decide, rfl, by decide⟩,
   ⟨st (dJob none [0x00000A41, 0, 0, 0]), 0x00000A41, 0, 0, 0, _, by decide, by decide, by decide, rfl, by decide⟩,
   ⟨st (dJob (some { gen := 1, kind := 1 }) [0x00000A42, 0, 0x3001003F, 0, 0, 0x1000, 0, 0x80000040]), 0x00000A42, 0, 0x3001003F, 0, 0,
     0x1000, 0, 0x80000040, _, { gen := 1, kind := 1 }, by decide, by decide, by decide, rfl, by decide⟩,
   ⟨st (dJob (some { gen := 1, kind := 1, final := true }) [0x00000A43, 0, 0x3001003F, 0, 0]), 0x00000A43, 0, 0x3001003F, 0, 0, _,
     { gen := 1, kind := 1, final := true }, by decide, by decide, by decide, rfl, by decide⟩⟩

/-! ### Witnesses: the host interface -/

/-- A window of two pages at 0 lent for reading and writing, CMD ring 1 and its CPL ring 0, as set-up registers spell them. -/
def lockRegs : Store (Option Word) :=
  [(0xA00108, some 2), (0xA0010C, some 3), (0xA01000, some 0x1000), (0xA01008, some 0x00010042), (0xA01010, some 0x1800),
   (0xA01018, some 0x00010041)]

def dSet (regs : Store (Option Word)) (setupOpen : Bool) : Dev :=
  { Dev.reset with regs := regs, hif := { Hif.reset with setupOpen := setupOpen }, sys := { Sys.reset with powered := true, step := 6 } }

theorem witness_SealedBar0IgnoresEveryWrite :
    ∃ s : State, s.dev.hif.locked = true ∧ s.dev.sys.powered = true ∧ s.dev.sys.inReset = none :=
  ⟨st { Dev.reset with hif := { Hif.reset with locked := true }, sys := { Sys.reset with powered := true } }, by decide⟩

def ringSet : RingSet :=
  { addr := 0, typ := 1, sizeLog2 := 4, gen := 65535, bind := 0, cplRing := 255, vector := 63, irqEn := true, modTicks := 255,
    modCount := 255 }

def img (typ digest : Nat) : Image := { typ := typ, signer := 1, svn := 0, digest := digest, bytes := 4096, revoke := false, ver := digest }

/-- The records of a whole snapshot of a state. -/
def records (s : State) : List (List Nat) :=
  (allCtrs.filter (fun c => (true || s.dev.count c != 0) && ([] : List Nat).isPrefixOf c.nameBytes)).map
    (fun c => ctrRecord c.nameBytes (s.dev.count c))

/-- A result buffer as long as some records, whatever they are. -/
def buffer (rs : List (List Nat)) : Origin := { o0 with resLen := 16 + (rs.map List.length).foldl (· + ·) 0 }

theorem buffer_ne (rs : List (List Nat)) : (buffer rs).resLen ≠ 0 := by simp only [buffer, ne_eq]; omega

theorem snapshot_fits (s : State) (h : s.dev.hif.paused = false) :
    ∃ (s : State) (o : Origin) (zeros : Bool) (pre : List Nat) (rs : List (List Nat)) (full : Nat), HostOk o s ∧
    pre.length ≤ 63 ∧ o.resLen ≠ 0 ∧ (allCtrs.filter (fun c => (zeros || s.dev.count c != 0) && pre.isPrefixOf c.nameBytes)).map
      (fun c => ctrRecord c.nameBytes (s.dev.count c)) = rs ∧
    16 + (rs.map List.length).foldl (· + ·) 0 = full ∧ full ≤ o.resLen := by
  generalize hr : records s = rs
  exact ⟨s, buffer rs, true, [], rs, _, ⟨h, rfl⟩, by decide, buffer_ne rs, hr, rfl, Nat.le_refl _⟩

theorem snapshot_cut (s : State) (h : s.dev.hif.paused = false) :
    ∃ (s : State) (o : Origin) (zeros : Bool) (pre : List Nat) (rs fit : List (List Nat)) (full : Nat), HostOk o s ∧
    pre.length ≤ 63 ∧ o.resLen ≠ 0 ∧ (allCtrs.filter (fun c => (zeros || s.dev.count c != 0) && pre.isPrefixOf c.nameBytes)).map
      (fun c => ctrRecord c.nameBytes (s.dev.count c)) = rs ∧
    16 + (rs.map List.length).foldl (· + ·) 0 = full ∧ o.resLen < full ∧ fitRecords rs (o.resLen - 16) = fit := by
  generalize hr : records s = rs
  exact ⟨s, { o0 with resLen := 15 }, true, [], rs, _, _, ⟨h, rfl⟩, by decide, by decide, hr, rfl,
    Nat.lt_of_lt_of_le (by decide : 15 < 16) (Nat.le_add_right _ _), rfl⟩

theorem witness_SetUpIsWrittenAndLocked_general :
    (∃ (s : State) (c : Nat), s.dev.sys.powered = true ∧ s.dev.sys.inReset = none ∧ s.dev.hif.locked = false ∧ 6 ≤ s.dev.sys.step ∧
      s.dev.lockCode = c ∧ c ≠ 0) ∧
    (∃ (s : State) (o : Origin) (zeros : Bool) (pre : List Nat) (rs fit : List (List Nat)) (full : Nat), HostOk o s ∧
      pre.length ≤ 63 ∧ o.resLen ≠ 0 ∧ (allCtrs.filter (fun c => (zeros || s.dev.count c != 0) && pre.isPrefixOf c.nameBytes)).map
        (fun c => ctrRecord c.nameBytes (s.dev.count c)) = rs ∧
      16 + (rs.map List.length).foldl (· + ·) 0 = full ∧ o.resLen < full ∧ fitRecords rs (o.resLen - 16) = fit) ∧
    (∃ s : State, HostOk o0 s ∧ ringSet.shapeOk = true ∧ s.dev.txpQueueOk ringSet = true ∧ s.dev.ringIs 255 2 = true ∧
      s.dev.ringWin ringSet = true ∧ (s.dev.ring 254).enabled = false ∧ s.dev.sys.ash = .ready) ∧
    (∃ (s : State) (r : Ring), HostOk o0 s ∧ s.dev.ring 255 = r ∧ r.enabled = true ∧ r.typ = 2 ∧ s.dev.cplBound 255 = false) ∧
    ∃ (s : State) (r : Ring), HostOk o0 s ∧ s.dev.ring 255 = r ∧ r.enabled = true ∧ r.typ = 2 ∧ s.dev.cplBound 255 = true :=
  ⟨⟨st (dSet (lockRegs.take 5) true), _, by decide, by decide, by decide, by decide, rfl, by decide⟩,
   snapshot_cut (st Dev.reset) rfl,
   ⟨st { (dHif { winHif with rings := [(255, { enabled := true, typ := 2 })] }) with sys := { Sys.reset with ash := .ready } }, ⟨rfl, rfl⟩,
      by decide⟩,
   ⟨st (dHif { winHif with rings := [(255, { enabled := true, typ := 2 })] }), _, ⟨rfl, rfl⟩, rfl, by decide⟩,
   ⟨st (dHif { winHif with rings := [(0, { enabled := true, typ := 1, cplRing := 255 }), (255, { enabled := true, typ := 2 })] }), _,
      ⟨rfl, rfl⟩, rfl, by decide⟩⟩

theorem witness_SetUpIsWrittenAndLocked :
    (∃ (s : State) (rv mask : Nat), HostOk o0 s ∧ s.dev.sys.powered = true ∧ s.dev.sys.inReset = none ∧ s.dev.hif.locked = false ∧
      0x100000 < 0xF00000 ∧ 0x100000 ≠ 4 ∧ regSpec 0x100000 = some (rv, mask) ∧ inArr 0x100000 0xA1000C 16 64 = false ∧
      Store.wf none s.dev.regs = true) ∧
    (∃ s : State, s.dev.sys.powered = true ∧ s.dev.sys.inReset = none ∧ s.dev.hif.locked = false ∧ s.dev.hif.setupOpen = true ∧
      6 ≤ s.dev.sys.step ∧ s.dev.lockCode = 0) ∧
    (∃ s : State, s.dev.sys.powered = true ∧ s.dev.sys.inReset = none ∧ s.dev.hif.locked = false ∧ 6 ≤ s.dev.sys.step ∧
      s.dev.lockCode = 4 ∧ (4 : Nat) ≠ 0 ∧ (0 : Word) ≠ 0x4C4F434B) ∧
    (∃ (s : State) (o : Origin) (zeros : Bool) (pre : List Nat) (rs : List (List Nat)) (full : Nat), HostOk o s ∧ pre.length ≤ 63 ∧
      o.resLen ≠ 0 ∧ (allCtrs.filter (fun c => (zeros || s.dev.count c != 0) && pre.isPrefixOf c.nameBytes)).map
        (fun c => ctrRecord c.nameBytes (s.dev.count c)) = rs ∧
      16 + (rs.map List.length).foldl (· + ·) 0 = full ∧ full ≤ o.resLen) ∧
    (∃ s : State, HostOk o0 s ∧ ringSet.shapeOk = true ∧ s.dev.txpQueueOk ringSet = true ∧ s.dev.ringIs 255 2 = true ∧
      s.dev.ringWin ringSet = true ∧ (s.dev.ring 254).enabled = false ∧ s.dev.sys.ash ≠ .ready) ∧
    (∃ (s : State) (r : Ring), HostOk o0 s ∧ s.dev.ring 255 = r ∧ r.enabled = true ∧ r.typ ≠ 2 ∧ r.evts = [] ∧
      s.dev.sys.offer = none) ∧
    (∃ (s : State) (i j : Image), HostOk o0 s ∧ s.dev.kln.stage1 = some i ∧ s.dev.kln.ctrl = some j) ∧
    (List.replicate 24 0).length ≤ 24 :=
  ⟨⟨st (dSet [] true), 0x00180020, 0x00FF1F3F, ⟨rfl, rfl⟩, by decide⟩, ⟨st (dSet lockRegs true), by decide⟩,
   ⟨st (dSet (lockRegs.take 5) true), by decide⟩,
   snapshot_fits (st Dev.reset) rfl,
   ⟨st (dHif { winHif with rings := [(255, { enabled := true, typ := 2 })] }), ⟨rfl, rfl⟩, by decide⟩,
   ⟨st (dHif { Hif.reset with rings := [(255, { enabled := true, typ := 6 })] }), { enabled := true, typ := 6 }, ⟨rfl, rfl⟩, by decide⟩,
   ⟨st (dKln { Kln.reset with stage1 := some (img 1 1), ctrl := some (img 2 2) }), img 1 1, img 2 2, ⟨rfl, rfl⟩, by decide⟩, by decide⟩

/-- CMD ring 255 of 16 entries with generation 1, its CPL ring `q`. -/
def cmdRing (q : Nat) : Ring := { enabled := true, typ := 1, gen := 1, cplRing := q }

/-- Fetches on, locked and able to reach host memory. -/
def hostHif : Hif := { Hif.reset with bme := true, locked := true, fetchAt := some 0 }

def cmd0 : CmdDesc :=
  { opcode := 0x0D0C, tag := 9, indirect := false, fence := false, rsvOk := true, argLen := 24, argAddr := 0, resAddr := 0, resLen := 0,
    argRead := true }

/-- CPL ring 255 with a free slot in the last pass of its index. -/
def cplRing (p : BitVec 32) : Ring := { enabled := true, typ := 2, p := p, c := 0xFFFFFFFF }

def irqRing : Ring := { enabled := true, typ := 6, irqEn := true, pend := 3, modTicks := 255, pendTicks := 255, vector := 63 }

theorem witness_DoorbellsAdmitAndCompletionsAreWritten :
    (∃ (s : State) (r : Ring) (w : DbWord) (vm vc : BitVec 64), s.clk.sub ≤ 3071 ∧ s.dev.hif.locked = true ∧ s.dev.dmaOn = true ∧
      s.dev.hif.fetchAt = some 0 ∧ 0 ≤ s.clk.tick * 3072 + 3071 ∧ s.dev.hif.rings = [(255, r)] ∧ r.enabled = true ∧ r.typ = 1 ∧
      r.cplRing ≠ 255 ∧ w.ring = 255 ∧ w.gen = r.gen ∧ w.chk = 65535 - w.gen ∧ (w.index - r.c).toNat ≤ r.size ∧
      0 < (w.index - r.c).toNat ∧ (w.index - r.p).toNat < 2 ^ 31 ∧ vc ≠ ~~~vm ∧ s.dev.sys.offer = none ∧ s.dev.hif.pba = 0 ∧
      s.dev.hif.outst.length < 1024 ∧ cmd0.fence = false ∧ cmd0.indirect = false ∧ cmd0.rsvOk = true ∧ cmd0.argLen ≤ 24 ∧
      definedOp cmd0.opcode = true) ∧
    (∃ (s : State) (q : Nat) (r : Ring), HostOk o0 s ∧ s.dev.sys.inReset = none ∧ (s.dev.ring o0.ring).cplRing = q ∧
      s.dev.ring q = r ∧ o0.resLen = 0 ∧ r.held = [] ∧ Store.wf {} s.dev.hif.rings = true ∧ r.enabled = true ∧ 0 < r.free ∧
      s.dev.dmaOn = true) ∧
    (∃ (s : State) (q : Nat) (r : Ring), HostOk o0 s ∧ s.dev.sys.inReset = none ∧ (s.dev.ring o0.ring).cplRing = q ∧
      s.dev.ring q = r ∧ o0.resLen = 0 ∧ r.held = [] ∧ Store.wf {} s.dev.hif.rings = true ∧ r.free = 0) ∧
    (∃ (s : State) (r : Ring), s.dev.ring 255 = r ∧ r.enabled = true ∧ r.irqEn = true ∧ 0 < r.pend ∧ 0 < r.modTicks ∧
      r.modTicks ≤ r.pendTicks ∧ Store.wf {} s.dev.hif.rings = true ∧ s.dev.vecMasked r.vector = false ∧
      s.dev.hif.msgAt.get 0 r.vector ≠ clockStamp s.clk + 1) ∧
    ∃ (s : State) (r : Ring), s.dev.ring 255 = r ∧ r.enabled = true ∧ r.irqEn = true ∧ 0 < r.pend ∧ 0 < r.modTicks ∧
      r.modTicks ≤ r.pendTicks ∧ s.dev.vecMasked r.vector = true :=
  ⟨⟨st (dHif { hostHif with rings := [(255, cmdRing 0)] }), cmdRing 0, { ring := 255, index := 16, gen := 1, chk := 65534 }, 0, 0,
      by decide⟩,
   ⟨st (dHif { hostHif with rings := [(0, cmdRing 255), (255, cplRing 0)] }), 255, cplRing 0, ⟨rfl, rfl⟩, by decide⟩,
   ⟨st (dHif { hostHif with rings := [(0, cmdRing 255), (255, cplRing 0xFFFFFFFF)] }), 255, cplRing 0xFFFFFFFF, ⟨rfl, rfl⟩, by decide⟩,
   ⟨st (dHif { hostHif with msixEn := true, tblMask := 0, rings := [(255, irqRing)] }), irqRing, by decide⟩,
   ⟨st (dHif { hostHif with rings := [(255, irqRing)] }), irqRing, by decide⟩⟩

/-! ### Witnesses: Tamper -/

/-- A job that compresses `n` bytes to gzip with EFFORT 4. -/
def job (n cap : Nat) : TmpDesc :=
  { rsvOk := true, dir := 0, cls := 1, effort := 4, dyn := true, inLen := n, src := 0, dst := 1024, cap := cap, first := 0, blocks := 0 }

def tj (d : TmpDesc) (n : Nat) : TmpJob := { id := 6, who := .host, desc := d, done := n, data := List.replicate n 255 }

def dTmpWin (x : Tmp) : Dev := { (dTmp x) with hif := winHif, til := { Til.reset with winHi := 4096 } }

/-- The same job as a tile's packet asks for it. -/
def tjWords : List Word := [0x00070B01, 0x1FFFFFFF, 0x00000062, 100, 0, 0, 1024, 0, 128, 0]

/-- The same into an archive of Tamper's own, of an empty source. -/
def emptyJob : TmpJob := tj { job 0 99 with cls := 2 } 0

/-- A zlib stream of the byte 97 in a stored block. Its Adler-32 is 0x00620062 by hand. -/
def storedZ : List Nat := [0x78, 0x01, 1, 1, 0, 0xFE, 0xFF, 97, 0x00, 0x62, 0x00, 0x62]
def unpackJob : TmpJob :=
  { id := 6, who := .host, done := 12, data := storedZ, desc :=
      { rsvOk := true, dir := 1, cls := 0, effort := 0, dyn := false, inLen := 12, src := 0, dst := 1024, cap := 1, first := 0, blocks := 0 } }

/-- The stored byte comes out, and its stream is used whole. -/
theorem test_unzlib_stored : unzlib storedZ 1 = ⟨[97], [], 0, false⟩ := by decide
set_option maxRecDepth 20000 in
/-- The same byte under the fixed codes: BFINAL 1, BTYPE 01, the code 0x91 of 97 most significant bit first, and the end code. -/
theorem test_inflate_fixed : (inflate [0x4B, 0x04, 0x00] 1).out = [97] ∧ (inflate [0x4B, 0x04, 0x00] 1).stop = 0 := by decide
/-- No room for the byte is REASON 4, and a wrong check value REASON 1. -/
theorem test_unzlib_fails : (unzlib storedZ 0).reason = 4 ∧ (unzlib (storedZ.take 11 ++ [0x63]) 1).reason = 1 := by decide

/-- A job of a tile's packet under way: 3 bytes from DRAM. -/
def tileJob (done : Nat) : TmpJob := { id := 6, who := .tile 0x00070B01 8191 31 false 0, desc := job 3 99, done := done, data := [] }

theorem witness_TamperRunsItsJobs_general :
    (∃ (s : State) (x : Tmp), HostOk o0 s ∧ s.dev.tmp = x ∧ (job 100 123).shapeOk = true ∧ s.dev.tmpMemOk .host (job 100 123) = true ∧
      ((job 100 123).dir = 0 → tmpBound (job 100 123).cls (job 100 123).inLen ≤ (job 100 123).cap) ∧ x.enabled = false) ∧
    (∃ (s : State) (x : Tmp), HostOk o0 s ∧ s.dev.tmp = x ∧ s.dev.tmpMemOk .host (job 100 123) = true ∧ x.enabled = true ∧
      x.active.length = 4) ∧
    (∃ (s : State) (x : Tmp) (w0 w1 : Word) (args : List Word) (d d1 : Dev) (th : TmpSrc), s.dev.tmp = x ∧ x.jobEn = true ∧
      s.dev.hopReady x.jobHop = true ∧ s.dev.hopRest x.jobHop = w0 :: w1 :: args ∧ (s.dev.hopTake s.clk x.jobHop).2 = d ∧
      w0.toNat % 65536 = 0x0B01 ∧ args.length = 8 ∧ w1.toNat < 2 ^ 29 ∧
      TmpSrc.tile w0 (bitsOf w1.toNat 0 13) (bitsOf w1.toNat 13 5) (bitOf w1.toNat 18) (bitsOf w1.toNat 19 10) = th ∧
      d.tmpCheckJob th (descOf args) = (none, d1)) ∧
    (∃ (s : State) (x : Tmp) (w0 w1 : Word) (args : List Word) (d d1 : Dev) (th : TmpSrc) (r : Status × List RField), s.dev.tmp = x ∧
      x.jobEn = true ∧ s.dev.hopReady x.jobHop = true ∧ s.dev.hopRest x.jobHop = w0 :: w1 :: args ∧
      (s.dev.hopTake s.clk x.jobHop).2 = d ∧ w0.toNat % 65536 = 0x0B01 ∧ args.length = 8 ∧ w1.toNat < 2 ^ 29 ∧
      TmpSrc.tile w0 (bitsOf w1.toNat 0 13) (bitsOf w1.toNat 13 5) (bitOf w1.toNat 18) (bitsOf w1.toNat 19 10) = th ∧
      d.tmpCheckJob th (descOf args) = (some r, d1)) ∧
    (∃ (s : State) (x : Tmp) (j : TmpJob) (r : List TmpJob), s.dev.tmp = x ∧ x.active = j :: r ∧ j.who ≠ .host ∧
      min 65536 (j.desc.inLen - j.done) = 3 ∧ s.dev.dramPoisoned (j.desc.src + j.done) 3 = false) ∧
    (∃ (s : State) (x : Tmp) (j : TmpJob) (r : List TmpJob), s.dev.tmp = x ∧ x.active = j :: r ∧ j.who ≠ .host ∧
      min 65536 (j.desc.inLen - j.done) = 3 ∧ s.dev.dramPoisoned (j.desc.src + j.done) 3 = true) ∧
    (∃ (s : State) (x : Tmp) (j : TmpJob) (out : List Nat) (n m' : Nat) (m : Mems) (d : Dev), s.dev.tmp = x ∧
      x.active.find? (fun y => y.id == 6) = some j ∧ j.desc.dir = 0 ∧ j.desc.inLen ≤ j.done ∧ compressOut j.desc j.data = (out, n, m') ∧
      tmpWrite s.mem s.dev j out = (m, d)) ∧
    (∃ (s : State) (x : Tmp) (j : TmpJob) (m : Mems) (d : Dev), s.dev.tmp = x ∧ x.active.find? (fun y => y.id == 6) = some j ∧
      j.desc.dir ≠ 0 ∧ tmpUnpackEnd s.clk s.mem s.dev j = (m, d)) ∧
    (∃ (s : State) (x : Tmp) (d : Dev), HostOk o0 s ∧ s.dev.tmp = x ∧ x.disabling = none ∧
      ({ s.dev with tmp := { x with enabled := false, waitCtrl := [], waitTile := [], waitHost := [] } }).tmpAbortJobs s.clk false
        (x.waitCtrl ++ x.waitTile ++ x.waitHost) = d ∧ d.tmp.active = []) ∧
    ∃ (s : State) (x : Tmp) (d : Dev), HostOk o0 s ∧ s.dev.tmp = x ∧ x.disabling = none ∧
      ({ s.dev with tmp := { x with enabled := false, waitCtrl := [], waitTile := [], waitHost := [] } }).tmpAbortJobs s.clk false
        (x.waitCtrl ++ x.waitTile ++ x.waitHost) = d ∧ d.tmp.active ≠ [] :=
  ⟨⟨st (dTmpWin { Tmp.reset with enabled := false }), { Tmp.reset with enabled := false }, ⟨rfl, rfl⟩, by decide⟩,
   ⟨st (dTmpWin { Tmp.reset with active := List.replicate 4 emptyJob }), { Tmp.reset with active := List.replicate 4 emptyJob }, ⟨rfl, rfl⟩,
      by decide⟩,
   ⟨st { (hop5 (dTmp { Tmp.reset with jobHop := 5, jobEn := true }) tjWords) with til := { Til.reset with winHi := 4096 } },
     { Tmp.reset with jobHop := 5, jobEn := true }, 0x00070B01, 0x1FFFFFFF, tjWords.drop 2, _, _, _, rfl, by decide, by decide, by decide,
     rfl, by decide, by decide, by decide, rfl, rfl⟩,
   ⟨st (hop5 (dTmp { Tmp.reset with jobHop := 5, jobEn := true }) tjWords),
     { Tmp.reset with jobHop := 5, jobEn := true }, 0x00070B01, 0x1FFFFFFF, tjWords.drop 2, _, _, _, _, rfl, by decide, by decide, by decide,
     rfl, by decide, by decide, by decide, rfl, rfl⟩,
   ⟨st (dTmp { Tmp.reset with active := [tileJob 0] }), { Tmp.reset with active := [tileJob 0] }, tileJob 0, [], by decide⟩,
   ⟨st { (dTmp { Tmp.reset with active := [tileJob 0] }) with dram := { Dram.reset with poison := [(0, true)] } },
     { Tmp.reset with active := [tileJob 0] }, tileJob 0, [], by decide⟩,
   ⟨st (dTmp { Tmp.reset with active := [emptyJob] }), { Tmp.reset with active := [emptyJob] }, emptyJob, _, _, _, _, _, rfl, rfl, by decide,
     by decide, rfl, rfl⟩,
   ⟨st (dTmp { Tmp.reset with active := [unpackJob] }), { Tmp.reset with active := [unpackJob] }, unpackJob, _, _, rfl, rfl, by decide, rfl⟩,
   ⟨st (dTmp { Tmp.reset with waitHost := [emptyJob] }), { Tmp.reset with waitHost := [emptyJob] }, _, ⟨rfl, rfl⟩, rfl, rfl, rfl, rfl⟩,
   ⟨st (dTmp { Tmp.reset with active := [emptyJob] }), { Tmp.reset with active := [emptyJob] }, _, ⟨rfl, rfl⟩, rfl, rfl, rfl, by decide⟩⟩

theorem witness_TamperRunsItsJobs :
    (∃ (s : State) (x : Tmp) (o : Origin), HostOk o s ∧ s.dev.tmp = x ∧ 24 ≤ o.resLen ∧ ({ job 1 24 with dir := 2 }).shapeOk = false ∧
      (job 100 123).shapeOk = true ∧ s.dev.tmpMemOk .host { job 100 123 with dst := 3974 } = false ∧
      ({ job 100 123 with dst := 3974 }).shapeOk = true ∧ s.dev.tmpMemOk .host (job 100 123) = true ∧
      (job 100 122).cap < tmpBound 1 100 ∧ (job 100 122).shapeOk = true ∧ s.dev.tmpMemOk .host (job 100 122) = true ∧
      tmpBound 1 100 ≤ (job 100 123).cap ∧ x.enabled = true ∧ x.active.length < 4 ∧ x.waitCtrl = [] ∧ x.waitTile = [] ∧
      x.waitHost = [] ∧ x.turn < 3) ∧
    (∃ (s : State) (x : Tmp) (w0 w1 : Word) (args : List Word) (d : Dev) (th : TmpSrc), s.dev.tmp = x ∧ x.jobEn = true ∧
      s.dev.hopReady x.jobHop = true ∧ s.dev.hopRest x.jobHop = w0 :: w1 :: args ∧ (s.dev.hopTake s.clk x.jobHop).2 = d ∧
      w0.toNat % 65536 = 0x0B01 ∧ args.length = 8 ∧ w1.toNat < 2 ^ 29 ∧
      TmpSrc.tile w0 (bitsOf w1.toNat 0 13) (bitsOf w1.toNat 13 5) (bitOf w1.toNat 18) (bitsOf w1.toNat 19 10) = th ∧
      (descOf args).shapeOk = true ∧ d.tmpMemOk th (descOf args) = true ∧
      ((descOf args).dir = 0 → tmpBound (descOf args).cls (descOf args).inLen ≤ (descOf args).cap) ∧ x.enabled = true ∧
      x.active.length < 4 ∧ x.waitCtrl = [] ∧ x.waitTile = [] ∧ x.waitHost = [] ∧ x.turn < 3) ∧
    (∃ (s : State) (x : Tmp) (j : TmpJob) (r : List TmpJob) (host : List Nat), s.dev.tmp = x ∧ x.active = j :: r ∧ j.who = .host ∧
      host.length = min 65536 (j.desc.inLen - j.done)) ∧
    (∃ (s : State) (x : Tmp) (j : TmpJob) (out : List Nat), HostOk o0 s ∧ s.dev.tmp = x ∧ x.active = [j] ∧ x.waitCtrl = [] ∧ x.waitTile = [] ∧
      x.waitHost = [] ∧ x.disabling = none ∧ j.who = .host ∧ j.desc.dir = 0 ∧ j.done = j.desc.inLen ∧
      compressOut j.desc j.data = (out, 0, 0) ∧ out ≠ [] ∧
      s.dev.waits = [{ kind := .tamperJob, key := j.id, src := .host o0, opc := 0x0B01 }]) ∧
    (∃ (s : State) (x : Tmp) (j : TmpJob) (e : TmpEnd), HostOk o0 s ∧ s.dev.tmp = x ∧ x.active = [j] ∧ x.waitCtrl = [] ∧
      x.waitTile = [] ∧ x.waitHost = [] ∧ x.disabling = none ∧ j.who = .host ∧ j.desc.dir = 1 ∧ tmpUnpack j.desc j.data = e ∧
      (e.short = false ∨ j.done = j.desc.inLen) ∧ e.firstBad = false ∧ e.out ≠ [] ∧
      s.dev.waits = [{ kind := .tamperJob, key := j.id, src := .host o0, opc := 0x0B01 }]) ∧
    (∃ (s : State) (x : Tmp), HostOk o0 s ∧ s.dev.tmp = x ∧ x.disabling = none ∧ s.dev.sys.ash ≠ .captured ∧ x.active = [] ∧
      x.waitCtrl = [] ∧ x.waitTile = [] ∧ x.waitHost = []) ∧
    (∃ (s : State) (x : Tmp), HostOk o0 s ∧ s.dev.tmp = x ∧ x.disabling = none ∧ x.active ≠ [] ∧ x.waitCtrl = [] ∧ x.waitTile = [] ∧
      x.waitHost = []) ∧
    ∃ (s : State) (x : Tmp), s.dev.tmp = x ∧ x.disabling = some 0 :=
  ⟨⟨st (dTmpWin Tmp.reset), Tmp.reset, { o0 with resLen := 24 }, ⟨rfl, rfl⟩, by decide⟩,
   ⟨st { (hop5 (dTmp { Tmp.reset with jobHop := 5, jobEn := true }) tjWords) with til := { Til.reset with winHi := 4096 } },
     { Tmp.reset with jobHop := 5, jobEn := true }, 0x00070B01, 0x1FFFFFFF, tjWords.drop 2, _, _, rfl, by decide, by decide, by decide,
     rfl, by decide, by decide, by decide, rfl, by decide⟩,
   ⟨st (dTmp { Tmp.reset with active := [tj (job 3 99) 1] }), { Tmp.reset with active := [tj (job 3 99) 1] }, tj (job 3 99) 1, [], [8, 9],
     by decide⟩,
   ⟨st { (dTmp { Tmp.reset with active := [emptyJob] }) with waits := [{ kind := .tamperJob, key := 6, src := .host o0, opc := 0x0B01 }] },
     { Tmp.reset with active := [emptyJob] }, emptyJob, (compressOut emptyJob.desc []).1, ⟨rfl, rfl⟩, by decide⟩,
   ⟨st { (dTmp { Tmp.reset with active := [unpackJob] }) with waits := [{ kind := .tamperJob, key := 6, src := .host o0, opc := 0x0B01 }] },
     { Tmp.reset with active := [unpackJob] }, unpackJob, tmpUnpack unpackJob.desc unpackJob.data, ⟨rfl, rfl⟩, by decide⟩,
   ⟨st Dev.reset, Tmp.reset, ⟨rfl, rfl⟩, by decide⟩,
   ⟨st (dTmp { Tmp.reset with active := [tj (job 1 99) 0] }), { Tmp.reset with active := [tj (job 1 99) 0] }, ⟨rfl, rfl⟩, by decide⟩,
   ⟨st (dTmp { Tmp.reset with disabling := some 0 }), { Tmp.reset with disabling := some 0 }, by decide⟩⟩

/-! ### Witnesses: the DRAM controller -/

/-- Ranks 2 and 3 in service with one spare, rank 1, and migrations as given. -/
def dr (f : Dram → Dram) (r2 r1 : Rank) : Dev :=
  dDram (f { Dram.reset with ranks := [(1, r1), (2, r2)], map := [2] })

def serve : Rank := { state := .inService }

def rq (kind : DKind) (set : DPort) : DReq :=
  { id := 4, port := 7, addr := 63, len := 1, kind := kind, rank := 2, off := 63, at_ := 0, late := false, set := set }

def calm : DPort := ⟨100000, false, false, 48⟩

def mig21 (training : Bool) (done : Nat) : Mig := { src := 2, dst := 1, training := training, done := done, lock := none }

def spareWait : Waiter := { kind := .dramSpareTest, key := 0, src := .host o0, opc := 0x0C05 }

theorem witness_DramServesRefreshesAndMigrates_general :
    (∃ (s : State) (x : Dram), s.dev.dram = x ∧ s.dev.dramPlace 63 = some (2, 63) ∧ (x.queue 7 (2 / 2)).length = 64) ∧
    (∃ (s : State) (x : Dram), s.dev.dram = x ∧ s.dev.dramPlace 63 = some (2, 63) ∧ (x.queue 7 (2 / 2)).length = 63) ∧
    (∃ (s : State) (m : Mems) (d : Dev), channelTurn s.clk 1 0 s.mem s.dev = (m, d)) ∧
    (∃ (s : State) (y : Rank), s.dev.refreshed 2 = true ∧ s.dev.rank 2 = y ∧ y.accrued + refreshEvery s.dev.dram.allBank y.rate ≤ nowAbs s.clk ∧
      y.owed = 6 ∧ s.dev.rtPending 2 = true) ∧
    (∃ (s : State) (x : Dram), s.dev.dram = x ∧ x.scrubEn = true ∧ x.scrubAt ≠ s.clk.tick + 1 ∧ 0 < x.scrubOwed) ∧
    (∃ (s : State) (x : Dram) (n : Nat) (d : Dev), HostOk o0 s ∧ s.dev.dram = x ∧ x.testing = true ∧ x.spare = some n ∧
      (s.dev.setDram { x with testing := false }).modRank n (fun y => { y with selfRef := true, down := false, owed := 0 }) = d) ∧
    ∃ (s : State) (x : Dram), HostOk o0 s ∧ s.dev.dram = x ∧ x.mig.isSome = true ∧ x.retire ≠ [] :=
  ⟨⟨st (dr (fun x => { x with reqs := List.replicate 64 (rq .read calm) }) serve {}), _, rfl, by decide⟩,
   ⟨st (dr (fun x => { x with reqs := List.replicate 63 (rq .read calm) }) serve {}), _, rfl, by decide⟩,
   ⟨st Dev.reset, _, _, rfl⟩,
   ⟨st (dr (fun x => { x with reqs := [rq .read { calm with rt := true }] }) { serve with owed := 6 } {}) 64, _, by decide, rfl, by decide⟩,
   ⟨st (dr (fun x => { x with scrubOwed := 5 }) serve {}), _, rfl, by decide⟩,
   ⟨st (dr (fun x => { x with testing := true, spare := some 1 }) serve { state := .spare }), _, 1, _, ⟨rfl, rfl⟩, rfl, by decide, by decide, rfl⟩,
   ⟨st (dr (fun x => { x with mig := some (mig21 false 3), spare := some 1, retire := [3] }) serve { state := .spare }), _, ⟨rfl, rfl⟩, rfl,
      by decide⟩⟩

set_option maxRecDepth 100000 in
theorem witness_DramServesRefreshesAndMigrates :
    (∃ s : State, s.dev.dramPlace 63 = none ∧ 63 % 64 + 1 ≤ 64) ∧
    (∃ (s : State) (x : Dram), s.dev.dram = x ∧ s.dev.dramPlace 63 = some (2, 63) ∧ (x.queue 7 1).length < 64 ∧
      (x.port 7).panicEn = false ∧ x.reqs.all (fun q => isRead q.kind) = true) ∧
    (∃ (s : State) (x : Dram) (q : DReq), s.dev.dram = x ∧ x.reqs = [q] ∧ q.rank / 2 = 1 ∧
      (q.set.panicEn = true ∨ aged (nowAbs s.clk - q.at_) q.set.target = false) ∧ x.mig = none ∧ (∀ r, (s.dev.rank r).owed = 0) ∧
      (s.dev.rank q.rank).selfRef = false ∧ Store.wf (.ok, []) x.answer = true ∧ q.kind = .read ∧
      x.poison.get false (q.addr / 64) = false) ∧
    (∃ (s : State) (x : Dram) (q : DReq), s.dev.dram = x ∧ x.reqs = [q] ∧ q.rank / 2 = 1 ∧
      (q.set.panicEn = true ∨ aged (nowAbs s.clk - q.at_) q.set.target = false) ∧ x.mig = none ∧ (∀ r, (s.dev.rank r).owed = 0) ∧
      (s.dev.rank q.rank).selfRef = false ∧ q.kind = .write [255] ∧ x.poison.get false (q.addr / 64) = false) ∧
    (∃ (s : State) (x : Dram), s.dev.dram = x ∧ x.reqs = [] ∧ s.dev.refreshed (2 * 1) = true ∧ 8 ≤ (s.dev.rank (2 * 1)).owed) ∧
    (∃ (s : State) (x : Dram) (q : DReq), s.dev.dram = x ∧ x.reqs = [q] ∧ q.late = false ∧ q.set.panicEn = false ∧
      aged (nowAbs s.clk + 1 - q.at_) q.set.target = true) ∧
    (∃ (s : State) (x : Dram) (y : Rank), s.dev.dram = x ∧ s.dev.refreshed 2 = true ∧ s.dev.rank 2 = y ∧
      y.accrued + refreshEvery x.allBank y.rate ≤ nowAbs s.clk ∧ (7 ≤ y.owed ∨ s.dev.rtPending 2 = false) ∧ s.clk.tick % 64 = 0 ∧
      x.mr4At ≠ s.clk.tick + 1) ∧
    (∃ (s : State) (x : Dram), s.dev.dram = x ∧ x.serving 2 = true ∧ 0 < x.pdIdle ∧ x.reqs = [] ∧ (s.dev.rank 2).selfRef = false ∧
      x.pdIdle * 3072 * 2000 ≤ (nowAbs s.clk + 1 - (s.dev.rank 2).used) * 125000 * rateMts x.rate) ∧
    (∃ (s : State) (x : Dram), s.dev.dram = x ∧ x.scrubEn = true ∧ x.scrubAt ≠ s.clk.tick + 1 ∧ x.scrubOwed = 0 ∧ x.scrubRate ≤ 1 ∧
      x.map ≠ [] ∧ x.scrubPos * 64 < x.topAddr ∧ s.dev.dramPlace (x.scrubPos * 64) = some (2, 64) ∧ x.queue 9 (2 / 2) = [] ∧
      (x.port 9).panicEn = false) ∧
    (∃ (s : State) (x : Dram), s.dev.dram = x ∧ x.retire = 2 :: [] ∧ x.retire.all (fun q => x.serving q) = true ∧ x.spare = some 1 ∧
      x.mig = none ∧ x.testing = false) ∧
    (∃ (s : State) (x : Dram) (g : Mig), s.dev.dram = x ∧ x.mig = some g ∧ x.retire = [] ∧ s.dev.waits = [] ∧ g.src ≠ g.dst ∧
      Store.wf {} x.ranks = true ∧ Store.wf {} s.dev.cal.items = true ∧ g.training = true ∧
      eyeCodes false (s.dev.calItem (rankKey g.dst)).rd (List.replicate 256 0) = some [127, 127, 127, 127] ∧
      eyeCodes false (s.dev.calItem (rankKey g.dst)).wr (List.replicate 256 0) = some [127, 127, 127, 127]) ∧
    (∃ (s : State) (x : Dram) (g : Mig), s.dev.dram = x ∧ x.mig = some g ∧ x.retire = [] ∧ s.dev.waits = [] ∧ g.src ≠ g.dst ∧
      Store.wf {} x.ranks = true ∧ Store.wf {} s.dev.cal.items = true ∧ g.training = false ∧ x.blocks ≤ g.done) ∧
    (∃ (s : State) (x : Dram), HostOk o0 s ∧ s.dev.dram = x ∧ x.testing = true ∧ x.spare = some 1 ∧ x.retire = [] ∧
      s.dev.waits = [{ kind := .dramSpareTest, key := 0, src := .host o0, opc := 0x0C05 }]) ∧
    (∃ (s : State) (x : Dram), HostOk o0 s ∧ s.dev.dram = x ∧ x.serving 2 = true ∧ x.mig = none ∧ x.spare = some 1 ∧
      x.retire.contains 2 = false ∧ x.testing = false) ∧
    (∃ (s : State) (x : Dram), HostOk o0 s ∧ s.dev.dram = x ∧ x.serving 2 = true ∧ x.mig = none ∧ x.spare = none) ∧
    ∃ (s : State) (x : Dram) (g : Mig), HostOk o0 s ∧ s.dev.dram = x ∧ x.mig = some g ∧ x.retire = [] ∧ s.dev.waits = [] :=
  ⟨⟨st Dev.reset, by decide⟩, ⟨st (dr id serve {}), _, rfl, by decide⟩,
   ⟨st (dDram { Dram.reset with reqs := [rq .read calm] }), _, rq .read calm, rfl, by decide, by decide, by decide, by decide,
     fun _ => rfl, by decide⟩,
   ⟨st (dDram { Dram.reset with reqs := [rq (.write [255]) calm] }), _, rq (.write [255]) calm, rfl, by decide, by decide, by decide,
     by decide, fun _ => rfl, by decide⟩,
   ⟨st (dr id { serve with owed := 8 } {}), _, rfl, by decide⟩,
   ⟨st (dDram { Dram.reset with reqs := [rq .read calm] }) 1000, _, rq .read calm, rfl, by decide⟩,
   ⟨st (dr id { serve with owed := 7 } {}) 64, _, _, rfl, by decide, rfl, by decide⟩, ⟨st (dr id serve {}) 1, _, rfl, by decide⟩,
   ⟨st (dr (fun x => { x with scrubPos := 1 }) serve {}), _, rfl, by decide⟩,
   ⟨st (dr (fun x => { x with retire := [2], spare := some 1 }) serve {}), _, rfl, by decide⟩,
   ⟨st (dr (fun x => { x with mig := some (mig21 true 0), spare := some 1 }) serve { state := .spare }), _, mig21 true 0, rfl, by decide +kernel⟩,
   ⟨st (dr (fun x => { x with mig := some (mig21 false 16777216), spare := some 1 }) serve { state := .spare }), _, mig21 false 16777216, rfl,
     by decide⟩,
   ⟨st { (dr (fun x => { x with testing := true, spare := some 1 }) serve { state := .spare }) with waits := [spareWait] }, _, ⟨rfl, rfl⟩, rfl,
     by decide⟩,
   ⟨st (dr (fun x => { x with spare := some 1 }) serve { state := .spare }), _, ⟨rfl, rfl⟩, rfl, by decide⟩,
   ⟨st (dr id serve {}), _, ⟨rfl, rfl⟩, rfl, by decide⟩,
   ⟨st (dr (fun x => { x with mig := some (mig21 false 3), spare := some 1 }) serve { state := .spare }), _, mig21 false 3, ⟨rfl, rfl⟩, rfl,
     by decide⟩⟩

/-! ### Witnesses: service -/

/-- Position 31 on physical tile 33, position 33 on physical tile `p33` less one, with its state. -/
def dSpare (p33 : Nat) (x : Phys) (y : Sys) : Dev :=
  { (dTil { Til.reset with map := [(31, 34)] ++ (if p33 = 0 then [] else [(33, p33)]), phys := [(5, x), (33, { state := .active })] }) with
    sys := y }

def spareTile : Phys := { state := .spare, cleared := true }

def evac31 (held : Bool) : Evac := { tile := 31, spare := 5, pos := 33, at_ := 160, held := held }

/-- An image of a type with a digest, its format and signature as given. -/
def fimg (typ digest : Nat) (format sigOk : Bool) : FlashImg :=
  { x := { img := img typ digest, format := format, bindOk := true, sigOk := sigOk }, code := [], data := [] }

theorem witness_SparesTakeOverAndAreTested_general :
    (∃ (s : State) (e : Evac), s.dev.sys.evac = some e ∧ e.held = false ∧ e.at_ ≤ s.clk.tick ∧ e.reload.isSome = true) ∧
    (∃ (s : State) (e : Evac), s.dev.sys.evac = some e ∧ e.held = true ∧ s.dev.physOf e.tile = some 33 ∧
      s.dev.evacQuiet e.tile = true ∧ e.reload.isSome = true) ∧
    (∃ s : State, s.dev.sys.tests.find? (fun y => y.1 == 5) = some (5, true) ∧ s.dev.hif.paused = false) ∧
    (∃ (s : State) (v : FlashImg), HostOk o0 s ∧ s.dev.posActive 31 = true ∧ s.dev.sparePick = some (5, 33) ∧ s.dev.sys.evac = none ∧
      s.dev.reloadCheck 13 = .ok ∧ s.dev.stagedOf 13 = some v ∧ s.dev.reloadCheck 14 ≠ .ok) ∧
    (∃ s : State, HostOk o0 s ∧ s.dev.posActive 31 = true ∧ s.dev.sparePick ≠ none ∧ s.dev.sys.evac ≠ none) ∧
    ∃ s : State, HostOk o0 s ∧ s.dev.spareAt 32 ≠ some 5 ∧ s.dev.spareAt 33 = some 5 :=
  ⟨⟨st (dSpare 6 spareTile { Sys.reset with evac := some { (evac31 false) with reload := some (fimg 3 13 true true) } }) 160,
      { (evac31 false) with reload := some (fimg 3 13 true true) }, by decide⟩,
   ⟨st (dSpare 6 spareTile { Sys.reset with evac := some { (evac31 true) with reload := some (fimg 3 13 true true) } }) 160,
      { (evac31 true) with reload := some (fimg 3 13 true true) }, by decide⟩,
   ⟨st (dSpare 0 { state := .vacated } { Sys.reset with tests := [(5, true)] }), by decide⟩,
   ⟨st (dSpare 6 spareTile { Sys.reset with staged := [fimg 3 13 true true] }), fimg 3 13 true true, ⟨rfl, rfl⟩, by decide⟩,
   ⟨st { (dTil { Til.reset with map := [(31, 34), (32, 7), (33, 6)], phys := [(5, spareTile), (6, spareTile), (33, { state := .active })] }) with
      sys := { Sys.reset with evac := some (evac31 false) } }, ⟨rfl, rfl⟩, by decide⟩,
   ⟨st (dSpare 6 spareTile Sys.reset), ⟨rfl, rfl⟩, by decide⟩⟩

theorem witness_SparesTakeOverAndAreTested :
    (∃ (s : State) (e : Evac), s.dev.sys.evac = some e ∧ e.held = false ∧ e.at_ ≤ s.clk.tick ∧ e.reload = none ∧
      Store.wf {} s.dev.sch.tiles = true) ∧
    (∃ (s : State) (e : Evac), s.dev.sys.evac = some e ∧ e.held = true ∧ s.dev.physOf e.tile = some 33 ∧
      s.dev.evacQuiet e.tile = true ∧ e.reload = none ∧ 33 ≠ e.spare ∧ e.pos ≠ e.tile ∧ Store.wf {} s.dev.til.phys = true ∧
      Store.wf 0 s.dev.til.map = true) ∧
    (∃ s : State, s.dev.sys.tests.find? (fun y => y.1 == 5) = some (5, false) ∧ s.dev.hif.paused = false ∧
      Store.wf {} s.dev.til.phys = true ∧ Store.wf 0 s.dev.til.map = true ∧
      sparesSuffice (s.dev.phys 5).pmSpare (repairRows [(3, 511), (3, 0)] (s.dev.phys 5).pmHist) = true ∧
      sparesSuffice (s.dev.phys 5).dmSpare (repairRows [] (s.dev.phys 5).dmHist) = true ∧ s.dev.physOf 32 = none) ∧
    (∃ s : State, HostOk o0 s ∧ s.dev.posActive 31 = true ∧ s.dev.sparePick = some (5, 33) ∧ s.dev.sys.evac = none ∧
      s.dev.physOf 30 = none ∧ Store.wf {} s.dev.til.phys = true ∧ Store.wf 0 s.dev.til.map = true) ∧
    (∃ s : State, HostOk o0 s ∧ s.dev.posActive 31 = true ∧ s.dev.sparePick = none ∧ s.dev.spareAt 32 ≠ some 33 ∧
      s.dev.spareAt 33 ≠ some 33) ∧
    (∃ s : State, HostOk o0 s ∧ s.dev.spareAt 32 = some 5) ∧
    [20, 40, 80, 160].contains 160 = true ∧ [20, 40, 80, 160].contains 60 = false :=
  ⟨⟨st (dSpare 6 spareTile { Sys.reset with evac := some (evac31 false) }) 160, evac31 false, by decide⟩,
   ⟨st (dSpare 6 spareTile { Sys.reset with evac := some (evac31 true) }) 160, evac31 true, by decide⟩,
   ⟨st (dSpare 0 { state := .vacated } { Sys.reset with tests := [(5, false)] }), by decide⟩,
   ⟨st (dSpare 6 spareTile Sys.reset), ⟨rfl, rfl⟩, by decide⟩, ⟨st (dSpare 0 spareTile Sys.reset), ⟨rfl, rfl⟩, by decide⟩,
   ⟨st (dTil { Til.reset with map := [(32, 6)], phys := [(5, spareTile)] }), ⟨rfl, rfl⟩, by decide⟩, by decide, by decide⟩

def twoImgs : List FlashImg := [fimg 1 11 true true, fimg 2 12 true true]

def slotBoth : BootSlot := { dirOk := true, entries := [(fimg 1 11 true true, 0), (fimg 2 12 true true, 0)] }

def imgWait : Waiter := { kind := .imageWrite, key := 0, src := .host o0, opc := 0x0D05 }

/-- Past step 3 with the firmware running. -/
def running : Sys := { Sys.reset with powered := true, step := 11 }

theorem witness_FirmwareChangesFatalErrorsAndDumps_general :
    (∃ (s : State) (x : Sys) (others : List FlashImg), HostOk o0 s ∧ s.dev.sys = x ∧ s.dev.winOk false 0 4096 = true ∧
      s.dev.imageCheck (fimg 1 11 true true).x true = .ok ∧ x.ash = .delivered ∧
      x.staged.filter (fun y => y.x.img.digest != (fimg 1 11 true true).x.img.digest) = others ∧ others.length = 1) ∧
    (∃ (s : State) (es : List (FlashImg × Nat)), HostOk o0 s ∧ s.dev.slotEntries [(11, 0), (12, 0)] = some es ∧ entriesOk es = true ∧
      imagesEnd es ≤ 31 * 2 ^ 20 ∧ true ≠ s.dev.kln.bootB ∧ s.dev.sys.slotWr ≠ none) ∧
    (∃ (s : State) (v : FlashImg), HostOk o0 s ∧ s.dev.stagedOf 11 = some v ∧ v.x.img.typ ≠ 2) ∧
    (∃ (s : State) (x : Sys), HostOk o0 s ∧ s.dev.sys = x ∧ x.offer = none ∧ x.ash = .delivered) ∧
    (∃ (s : State) (x : Sys), HostOk o0 s ∧ s.dev.sys = x ∧ (5 : Nat) = x.dumpId ∧ x.ash = .packing) ∧
    ∃ s : State, s.dev.ctrlRuns = true ∧ s.dev.hif.paused = false ∧ s.dev.sys.wdogTicks ≤ s.dev.sys.wdog :=
  ⟨⟨st { (dHif winHif) with sys := { Sys.reset with ash := .delivered, staged := [fimg 2 12 true true] } }, _, _, ⟨rfl, rfl⟩, rfl, by decide,
      by decide, rfl, rfl, by decide⟩,
   ⟨st (dSys { Sys.reset with staged := twoImgs, slotWr := some ⟨true, []⟩ }), slotBoth.entries, ⟨rfl, rfl⟩, by decide⟩,
   ⟨st (dSys { Sys.reset with staged := twoImgs }), fimg 1 11 true true, ⟨rfl, rfl⟩, by decide⟩,
   ⟨st (dSys { Sys.reset with ash := .delivered }), _, ⟨rfl, rfl⟩, rfl, by decide⟩,
   ⟨st (dSys { Sys.reset with ash := .packing, dumpId := 5 }), _, ⟨rfl, rfl⟩, rfl, by decide⟩,
   ⟨st (dSys { running with wdog := 800 }), by decide⟩⟩

theorem witness_FirmwareChangesFatalErrorsAndDumps :
    (∃ (s : State) (x : Sys) (others : List FlashImg), HostOk o0 s ∧ s.dev.sys = x ∧ s.dev.winOk false 0 4096 = true ∧
      s.dev.imageCheck (fimg 1 11 true true).x true = .ok ∧ x.ash = .empty ∧
      x.staged.filter (fun y => y.x.img.digest != (fimg 1 11 true true).x.img.digest) = others ∧ others.length < 16 ∧
      (others.map (fun y => y.x.img.bytes)).foldl (· + ·) (fimg 1 11 true true).x.img.bytes ≤ 43 * 2 ^ 20 ∧
      (fimg 1 11 false true).x.format = false ∧ (fimg 1 11 true false).x.format = true ∧ (fimg 1 11 true false).x.img.typ = 1 ∧
      (fimg 1 11 true false).x.img.signer = 1 ∧ (fimg 1 11 true false).x.bindOk = true ∧
      s.dev.kln.svn ≤ (fimg 1 11 true false).x.img.svn ∧ (fimg 1 11 true false).x.img.svn ≤ 64 ∧
      (fimg 1 11 true false).x.sigOk = false) ∧
    (∃ (s : State) (es : List (FlashImg × Nat)), HostOk o0 s ∧ s.dev.slotEntries [(11, 0), (12, 0)] = some es ∧ entriesOk es = true ∧
      imagesEnd es ≤ 31 * 2 ^ 20 ∧ true ≠ s.dev.kln.bootB ∧ s.dev.sys.slotWr = none ∧ s.dev.sys.pfwN = true ∧
      false = s.dev.kln.bootB) ∧
    (∃ (s : State) (w : SlotWrite), s.dev.sys.slotWr = some w ∧
      s.dev.waits = [{ kind := .imageWrite, key := 0, src := .host o0, opc := 0x0D05 }]) ∧
    (∃ (s : State) (v : FlashImg) (c : FlashImg), HostOk o0 s ∧ s.dev.stagedOf 12 = some v ∧ v.x.img.typ = 2 ∧
      s.dev.bootChoice = some false ∧ (s.dev.slotOf_ false).ctrl = some c ∧ c.x.img.digest = 12 ∧ s.dev.stagedOf 13 = none) ∧
    (∃ (s : State) (v : FlashImg) (c : FlashImg), HostOk o0 s ∧ s.dev.stagedOf 13 = some v ∧ v.x.img.typ = 2 ∧
      s.dev.bootChoice = some false ∧ (s.dev.slotOf_ false).ctrl = some c ∧ c.x.img.digest ≠ 13) ∧
    (∃ (s : State) (x : Sys), HostOk o0 s ∧ s.dev.sys = x ∧ x.inReset = none ∧ x.ash ≠ .capturing ∧ x.offer = none ∧ x.ash = .ready ∧
      (5 : Nat) = x.dumpId ∧ (6 : Nat) ≠ x.dumpId) ∧
    (∃ (s : State) (x : Sys) (r : FatalRec) (l : List FatalRec), HostOk o0 s ∧ s.dev.sys = x ∧ x.ash = .empty ∧ x.log = r :: l) ∧
    (∃ (s : State) (x : Sys), s.dev.sys = x ∧ s.dev.ctrlRuns = true ∧ x.inReset = none ∧ s.dev.hif.paused = false ∧
      x.wdogTicks ≤ x.wdog ∧ (s.dev.hif.paused || false || x.ash == .capturing) = false ∧
      (x.ash == .empty || x.ash == .delivered) = true) ∧
    (∃ (s : State) (x : Sys), s.dev.sys = x ∧ s.dev.ctrlRuns = true ∧ x.inReset = none ∧
      (s.dev.hif.paused || false || x.ash == .capturing) = true ∧ (x.ash == .empty || x.ash == .delivered) = false) ∧
    (∃ (s : State) (x : Sys), s.dev.sys = x ∧ x.ash = .capturing) ∧
    ∃ (s : State) (x : Sys), s.dev.sys = x ∧ s.dev.kln.record.bind (·.dump) = some 4 ∧ x.ash = .packing ∧ x.contLen ≠ 0 ∧
      s.dev.tmp.active = [] ∧ s.dev.tmp.waitCtrl = [] :=
  ⟨⟨st (dHif winHif), Sys.reset, [], ⟨rfl, rfl⟩, by decide⟩,
   ⟨st (dSys { Sys.reset with staged := twoImgs }), slotBoth.entries, ⟨rfl, rfl⟩, by decide⟩,
   ⟨st { (dSys { Sys.reset with staged := twoImgs, slotWr := some ⟨true, slotBoth.entries⟩ }) with waits := [imgWait] },
     ⟨true, slotBoth.entries⟩, by decide⟩,
   ⟨st (dSys { Sys.reset with staged := twoImgs, slotA := slotBoth }), fimg 2 12 true true, fimg 2 12 true true, ⟨rfl, rfl⟩, by decide⟩,
   ⟨st (dSys { Sys.reset with staged := [fimg 2 13 true true], slotA := slotBoth }), fimg 2 13 true true, fimg 2 12 true true, ⟨rfl, rfl⟩,
     by decide⟩,
   ⟨st (dSys { Sys.reset with ash := .ready, dumpId := 5 }), _, ⟨rfl, rfl⟩, rfl, by decide⟩,
   ⟨st (dSys { Sys.reset with log := [⟨1, 1, true, 5, 0, 0⟩] }), _, ⟨1, 1, true, 5, 0, 0⟩, [], ⟨rfl, rfl⟩, rfl, by decide⟩,
   ⟨st (dSys { running with wdog := 800 }), _, rfl, by decide⟩, ⟨st (dSys { running with ash := .capturing }), _, rfl, by decide⟩,
   ⟨st (dSys { running with ash := .capturing }), _, rfl, by decide⟩,
   ⟨st { (dKln owned) with sys := { running with ash := .packing, contLen := 9 } }, _, rfl, by decide⟩⟩

/-! ### Ill-formed commands -/

theorem test_wf_well_formed : (Instr.laneScanEnd 31 (List.replicate 64 0) (List.replicate 32 0)).wf = true ∧
    (Instr.echo o0 (List.replicate 30 1)).wf = true ∧ (Instr.frameBoundary 160).wf = true ∧
    (Instr.dramRequest (.port 7) 63 1 none).wf = true ∧ (Instr.dramRequest (.tile 33) 64 64 none).wf = true := by decide

theorem test_wf_origin : (Instr.echo { o0 with ring := 256 } []).wf = false ∧ (Instr.echo { o0 with tag := 65536 } []).wf = false ∧
    (Instr.echo { o0 with resAddr := 2 ^ 64 } []).wf = false ∧ (Instr.echo { o0 with resLen := 16777217 } []).wf = false := by decide

theorem test_wf_time : (Instr.frameBoundary 60).wf = false ∧ (Instr.windowClose 0).wf = false ∧ (Instr.alarmFire 3072).wf = false ∧
    (Instr.doorbellFetch 3072 none).wf = false := by decide

theorem test_wf_lanes : (Instr.losAssert 32).wf = false ∧ (Instr.lineCmdTimeout 256).wf = false ∧
    (Instr.upstreamFrame 0 0 [0] true 0).wf = false ∧ (Instr.upstreamFrame 32 0 (List.replicate 383 0) true 0).wf = false ∧
    (Instr.laneScanEnd 0 [] (List.replicate 32 0)).wf = false ∧ (Instr.laneScanEnd 0 (List.replicate 64 0) []).wf = false ∧
    (Instr.streamSlot 512).wf = false := by decide

theorem test_wf_upstream_code : (Instr.upstreamFrame 0 1024 (List.replicate 383 0) true 0).wf = false := by decide

theorem test_wf_tiles : (Instr.mnop { tile := 32, fin := false } 0).wf = false ∧
    (Instr.mnop { tile := 0, fin := false, pmEcc := 3 } 0).wf = false ∧ (Instr.ldw { tile := 0, fin := false } 0 3).wf = false ∧
    (Instr.entry 32).wf = false ∧ (Instr.dataMemoryClearDone 34).wf = false ∧ (Instr.dmaDescStart 0 { chan := 4 }).wf = false ∧
    (Instr.flagSet [(0, 8192, 0)]).wf = false ∧ (Instr.flagSet [(0, 0, 32)]).wf = false := by decide

theorem test_wf_hoppers : (Instr.burstStart 1024 .filter 0 []).wf = false ∧ (Instr.burstStart 0 (.lane 32) 0 []).wf = false ∧
    (Instr.burstStart 0 .filter 8 []).wf = false ∧ (Instr.rtcpReceive 1024).wf = false ∧
    (Instr.rtcpReport 0 []).wf = false ∧ (Instr.rtcpReport 0 (256 :: List.replicate 27 0)).wf = false := by decide

theorem test_wf_ports : (Instr.ptpEventRx 0 16 0).wf = false ∧ (Instr.linkUp 2).wf = false ∧ (Instr.frameReceive 0 [256] false false 0).wf = false ∧
    (Instr.pauseFrameRx 0 65536).wf = false ∧ (Instr.pfcFrameRx 0 256 (List.replicate 8 0)).wf = false ∧ (Instr.pfcFrameRx 0 0 []).wf = false ∧
    (Instr.pauseExpiry 0 8).wf = false ∧ (Instr.flowDeleteDone 32768).wf = false := by decide

theorem test_wf_units : (Instr.dtlsLingerEnd 512).wf = false ∧ (Instr.tamperTrip 4 0).wf = false ∧ (Instr.tamperTrip 0 3).wf = false ∧
    (Instr.bar0Write 16777216 0 true).wf = false ∧ (Instr.msixModerationExpiry 256).wf = false ∧ (Instr.tamperJobTurn [256]).wf = false ∧
    (Instr.dramRequest (.port 8) 0 1 none).wf = false ∧ (Instr.dramRequest (.port 1) 0 1 none).wf = false ∧
    (Instr.dramRequest (.tile 34) 0 1 none).wf = false ∧
    (Instr.dramRequest (.tile 0) 0 0 none).wf = false ∧ (Instr.dramRequest (.tile 0) 0 63 none).wf = true ∧
    (Instr.dramRequest (.tile 0) 63 2 none).wf = false ∧
    (Instr.dramTransaction 2 0).wf = false ∧ (Instr.mr4Poll [(4, 0, false, false)]).wf = false ∧
    (Instr.mr4Poll [(0, 3, false, false)]).wf = false ∧ (Instr.vacatedSelfTestDone 0 false [] []).wf = false ∧
    (Instr.startStepEnd 0 {}).wf = false ∧ (Instr.startStepEnd 12 {}).wf = false := by decide

/-! ### Values worked out in the spec -/

/-- Bundle 300 of the worked example of chapter 7. -/
theorem test_bundle_of_chapter_7 : decodeBundle 9 0x8800205048152681 = some
    [.dot4 { tile := 9, fin := false } 0x00020, .ldd { tile := 9, fin := false } 0x0481 0, .ldd { tile := 9, fin := true } 0x2681 0] := by decide

/-- FORMAT 0b11 is not defined (Table 7.1), nor is MAC opcode 0x1F. -/
theorem test_bundle_undefined : decodeBundle 0 0xC000000000000000 = none ∧ decodeBundle 0 0x3E00000000000000 = none := by decide

/-- The pointer steps of the worked example of chapter 6, and its bit-reversed walk. -/
theorem test_pointer_steps : postModify 0x207FE 0x20000 2048 2 = 0x20000 ∧ postModify 0x20000 0x20000 2048 (-2) = 0x207FE ∧
    postModify 0x20400 0x20000 2048 2048 = 0x20400 ∧ postReverse 0x10000 0x10000 32 16 = 0x10010 ∧
    postReverse 0x10010 0x10000 32 16 = 0x10008 ∧ postReverse 0x1000C 0x10000 32 16 = 0x1001C := by decide

/-- The energy of 160 samples at negative full scale (chapter 6): EXP, NORM by it, and the rounded extraction; the 256th product
passes 2^39. -/
theorem test_energy : expAcc (BitVec.ofInt 40 (160 * 2 ^ 31)) = -8 ∧ shiftInt (160 * 2 ^ 31) (-8) = 0x50000000 ∧
    ext16 0x50000000 0 true = (20480, false) ∧ accResult (256 * 2 ^ 31) true = (0x7FFFFFFFFF, true, true) ∧
    (accResult (256 * 2 ^ 31) false).1 = 0x8000000000 := by decide

/-- Line 250's timing (chapter 3): RT 114,085.0 ns, CAP_TURN 114,000.0 ns, CAP_SAMPLE_LAT 1,200.0 ns. -/
theorem test_line_timing : timing 228170 228000 2400 = (90, 11) := by decide

/-- The step of the worked example of chapter 2: 18,813 ticks and 1,843 sub-ticks give 18,880 ticks. -/
theorem test_time_step : stepOf (18813 * 3072 + 1843) (160 * 3072) = 18880 := by decide

/-- The scan of lane 31 (chapter 5): delay codes 13 to 25 and threshold codes 11 to 23 without errors. -/
theorem test_scan_choice :
    (Dev.reset.chooseDelay (List.replicate 13 5 ++ List.replicate 13 0 ++ List.replicate 38 5) 22).1 = 19 ∧
    chooseThresh (List.replicate 11 5 ++ List.replicate 13 0 ++ List.replicate 8 5) 16 = 17 := by decide

/-- The frame of line 37 (chapter 12): 102 bytes of content behind a VLAN tag, IPv4 and UDP make 152 bytes with the FCS. -/
theorem test_frame_length : builtLen [0x20] 102 = 152 ∧ txLat 0 1522 = 96 * 1920 + 96 * 1522 := by decide

/-- The offset 0xA3_1240 of a rank (chapter 16): row 326, bank 1. -/
theorem test_dram_place : rowOf 0xA31240 = 326 ∧ bankOf 0xA31240 = 1 := by decide

/-- The check values of "a" under CRC-32 and Adler-32 (RFC 1952, RFC 1950). -/
theorem test_checks : crc32 [97] = 0xE8B7BE43 ∧ adler32 [97] = 0x00620062 := by decide

/-- The registers of the worked example of chapter 19 pass row 1 of the lock. -/
theorem test_lock_of_chapter_19 : (dSet [(0xA00004, some 0x20000000), (0xA00008, some 1), (0xA0000C, some 0x20001000), (0xA00010, some 1),
    (0xA00100, some 0x20000000), (0xA00104, some 1), (0xA00108, some 0x1000), (0xA0010C, some 3), (0xA01000, some 0x20010000),
    (0xA01004, some 1), (0xA01008, some 0x00010081), (0xA0100C, some 0x01000001), (0xA01010, some 0x20020000), (0xA01014, some 1),
    (0xA01018, some 0x00010082), (0xA0101C, some 0x08014000)] true).lockCode = 0 := by decide

/-! ### Single steps -/

theorem test_queue_is_first_in_first_out : (match step { State.reset with pending := [.rstNAssert, .pfwRelease] } with
    | .next t => t.pending
    | _ => []) = [.pfwRelease] := by decide

theorem test_no_word_spells_a_command : decodeTableWord 64 0x8800205048152681 = none ∧
    (State.reset.withFetchWord 64 0x8800205048152681).pending = [] := by decide

/-- ECHO returns the first eight bytes of its arguments and the ring its TAG (R403). -/
theorem test_echo : (match exec (.echo o0 [1, 2, 3, 4, 5, 6, 7, 8, 9]) (st (dHif { hostHif with rings := [(0, cmdRing 255), (255, cplRing 0)] })) with
    | .next t => t.dev.hif.sent
    | _ => []) = [.cpl 255 0xFFFFFFFF 0 { tag := 7, status := .ok, buffered := false, opcode := 0x0106, cmdRing := 0, result := 0x0807060504030201 }] := by
  decide

/-- An ALARM_ARM of a type beyond Table 2.11 answers ST_BAD_ARG and arms nothing. -/
theorem test_bad_alarm : (match exec (.alarmArm o0 5 false false 10 0 9 0) (st (dHif { hostHif with rings := [(0, cmdRing 255), (255, cplRing 0)] })) with
    | .next t => (t.dev.hif.sent.map (fun e => match e with | .cpl _ _ _ c => c.status | _ => .ok), t.dev.htb.alarms)
    | _ => ([], [])) = ([.badArg], []) := by decide

/-- The idle step stops at the last sub-tick; TICK begins the next tick. -/
theorem test_tick_wraps : (match exec (.tick 3125 3125 false false true []) (st { Dev.reset with sys := { Sys.reset with powered := true, step := 11 } } 7 3071) with
    | .next t => (t.clk.tick, t.clk.sub)
    | _ => (0, 0)) = (8, 0) := by decide

end Sys2Proof.Tests
end

/-! # The Hearth's obligations (chapter 2)

The Hearth's operations change the Hearth and its counters alone; what each of them keeps is said once here, and the
statements about TICK, the steps, the sources, the states and the alarm slots are assembled from it. -/

namespace Sys2Proof.Machine
open Sys2Proof

/-! ### What the Hearth's operations leave unchanged -/

/-- `d'` differs from `d` in the Hearth and the counters only. -/
def OnlyHtb (d d' : Dev) : Prop := d' = { d with htb := d'.htb, ctr := d'.ctr }

theorem OnlyHtb.refl (d : Dev) : OnlyHtb d d := rfl

theorem OnlyHtb.trans {a b c : Dev} (h : OnlyHtb a b) (g : OnlyHtb b c) : OnlyHtb a c := by
  unfold OnlyHtb at *; rw [g, h]

theorem OnlyHtb.setHtb (d : Dev) (h : Htb) : OnlyHtb d (d.setHtb h) := rfl

theorem OnlyHtb.bump0 (d : Dev) (e : CEv) : OnlyHtb d (d.bump0 e) := rfl

theorem OnlyHtb.enterH (d : Dev) (st : HState) : OnlyHtb d (d.enterH st) := by cases st <;> rfl

theorem OnlyHtb.selectTime (d : Dev) : OnlyHtb d d.selectTime := by
  unfold Dev.selectTime
  dsimp only
  split
  · exact .refl d
  · exact (OnlyHtb.setHtb d _).trans (.bump0 _ _)

theorem OnlyHtb.selectFreq (d : Dev) : OnlyHtb d d.selectFreq := by
  unfold Dev.selectFreq
  dsimp only
  split
  · exact .refl d
  · split
    · split
      · exact .refl d
      · exact (OnlyHtb.setHtb d _).trans (.bump0 _ _)
    · exact .refl d

/-! ### The sources (R40, R42, R43) -/

/-- Choosing the time source moves the selection and what is counted since it, and nothing else of the Hearth. -/
theorem Dev.selectTime_htb (d : Dev) : d.selectTime.htb = { d.htb with
    timeSrc := d.htb.wantTime, sinceSel := d.selectTime.htb.sinceSel, badUpd := d.selectTime.htb.badUpd,
    ppsRej := d.selectTime.htb.ppsRej, noSrc := d.selectTime.htb.noSrc } := by
  unfold Dev.selectTime
  dsimp only
  split
  case isTrue h => rw [h]
  case isFalse => rfl

/-- Choosing the frequency source moves the selection alone. -/
theorem Dev.selectFreq_htb (d : Dev) : d.selectFreq.htb = { d.htb with freqSrc := d.selectFreq.htb.freqSrc } := by
  unfold Dev.selectFreq
  dsimp only
  split
  · rfl
  · split
    · split <;> rfl
    · rfl

section
variable (d : Dev)

@[simp] theorem Dev.selectTime_timeSrc : d.selectTime.htb.timeSrc = d.htb.wantTime :=
  (congrArg Htb.timeSrc d.selectTime_htb).trans rfl
@[simp] theorem Dev.selectTime_state : d.selectTime.htb.state = d.htb.state := (congrArg Htb.state d.selectTime_htb).trans rfl
@[simp] theorem Dev.selectTime_ticksIn : d.selectTime.htb.ticksIn = d.htb.ticksIn :=
  (congrArg Htb.ticksIn d.selectTime_htb).trans rfl
@[simp] theorem Dev.selectTime_forced : d.selectTime.htb.forced = d.htb.forced := (congrArg Htb.forced d.selectTime_htb).trans rfl
@[simp] theorem Dev.selectTime_port0 : d.selectTime.htb.port0 = d.htb.port0 := (congrArg Htb.port0 d.selectTime_htb).trans rfl
@[simp] theorem Dev.selectTime_port1 : d.selectTime.htb.port1 = d.htb.port1 := (congrArg Htb.port1 d.selectTime_htb).trans rfl

@[simp] theorem Dev.selectFreq_refA : d.selectFreq.htb.refA = d.htb.refA := (congrArg Htb.refA d.selectFreq_htb).trans rfl
@[simp] theorem Dev.selectFreq_refB : d.selectFreq.htb.refB = d.htb.refB := (congrArg Htb.refB d.selectFreq_htb).trans rfl
@[simp] theorem Dev.selectFreq_port0 : d.selectFreq.htb.port0 = d.htb.port0 := (congrArg Htb.port0 d.selectFreq_htb).trans rfl
@[simp] theorem Dev.selectFreq_port1 : d.selectFreq.htb.port1 = d.htb.port1 := (congrArg Htb.port1 d.selectFreq_htb).trans rfl

end

/-- Port 0 alone is a candidate: it is the time source (R40). -/
theorem Htb.wantTime_port0 {h : Htb} (en : h.enables.getLsbD 0 = true) (s0 : h.port0.slave = true)
    (s1 : h.port1.slave = false) (on : h.ptpOff = false) (free : h.forced = false) : h.wantTime = 1 := by
  simp [Htb.wantTime, en, s0, s1, on, free]

/-! ### The states (R45) -/

/-- Table 2.6: HOLDOVER holds the last disciplined frequency, and no step waits. -/
theorem Dev.enterH_holdover (d : Dev) : d.enterH .holdover = ({ d with htb := { d.htb with
    state := .holdover, left := true, ticksIn := 0, inTicks := 0, inRun := false, badUpd := 0, sinceSel := 0, ppsRej := 0
    step := none, stepTod := false, leaving := false, residue := 0, rateHeld := true } }).bump0 .htbHoldoverEntry := by
  have left : (d.htb.left || HState.holdover != .freeRun) = true := Bool.or_true _
  simp only [Dev.enterH, Dev.setHtb, left]

/-- In FREE_RUN the media clock goes back to the frequency source's frequency (Table 2.6). -/
theorem Dev.enterH_freeRun (d : Dev) : d.enterH .freeRun = ({ d with htb := { d.htb with
    state := .freeRun, ticksIn := 0, inTicks := 0, inRun := false, badUpd := 0, sinceSel := 0, ppsRej := 0
    rateHeld := false } }).bump0 .htbFreerunEntry := by
  have left : (d.htb.left || HState.freeRun != .freeRun) = d.htb.left := Bool.or_false _
  simp only [Dev.enterH, Dev.setHtb, left]

@[simp] theorem Dev.enterH_state (d : Dev) (st : HState) : (d.enterH st).htb.state = st := by cases st <;> rfl
@[simp] theorem Dev.enterH_ticksIn (d : Dev) (st : HState) : (d.enterH st).htb.ticksIn = 0 := by cases st <;> rfl
@[simp] theorem Dev.enterH_ppsRej (d : Dev) (st : HState) : (d.enterH st).htb.ppsRej = 0 := by cases st <;> rfl
@[simp] theorem Dev.enterH_forced (d : Dev) (st : HState) : (d.enterH st).htb.forced = d.htb.forced := by cases st <;> rfl

/-! ### The servo (R45 to R48)

The moves of Table 2.7 leave the measurements alone: `ServoKeeps` says what they keep, step by step. -/

/-- A move of the servo from `d` to `d'`: it changes the Hearth and its counters only, and neither the time source nor the
offsets measured; no rejected edge is counted by it. -/
structure ServoKeeps (d d' : Dev) : Prop where
  only : OnlyHtb d d'
  timeSrc : d'.htb.timeSrc = d.htb.timeSrc
  offset : d'.htb.offset = d.htb.offset
  utcOff : d'.htb.utcOff = d.htb.utcOff
  ppsRej : d.htb.ppsRej = 0 → d'.htb.ppsRej = 0

theorem ServoKeeps.refl (d : Dev) : ServoKeeps d d := ⟨.refl d, rfl, rfl, rfl, id⟩

theorem ServoKeeps.trans {a b c : Dev} (h : ServoKeeps a b) (g : ServoKeeps b c) : ServoKeeps a c :=
  ⟨h.only.trans g.only, g.timeSrc.trans h.timeSrc, g.offset.trans h.offset, g.utcOff.trans h.utcOff, g.ppsRej ∘ h.ppsRej⟩

theorem ServoKeeps.bump0 (d : Dev) (e : CEv) : ServoKeeps d (d.bump0 e) := ⟨.bump0 d e, rfl, rfl, rfl, id⟩

/-- A change of the Hearth's record that touches none of these fields. -/
theorem ServoKeeps.setHtb {d : Dev} {h : Htb} (t : h.timeSrc = d.htb.timeSrc := by rfl)
    (o : h.offset = d.htb.offset := by rfl) (u : h.utcOff = d.htb.utcOff := by rfl)
    (p : h.ppsRej = d.htb.ppsRej := by rfl) : ServoKeeps d (d.setHtb h) :=
  ⟨.setHtb d h, t, o, u, p.trans⟩

theorem ServoKeeps.enterH (d : Dev) (st : HState) : ServoKeeps d (d.enterH st) where
  only := .enterH d st
  timeSrc := by cases st <;> rfl
  offset := by cases st <;> rfl
  utcOff := by cases st <;> rfl
  ppsRej _ := d.enterH_ppsRej st

theorem ServoKeeps.noStep (d : Dev) : ServoKeeps d d.noStep := .setHtb

theorem ServoKeeps.planStep (d : Dev) : ServoKeeps d d.planStep := .setHtb

theorem ServoKeeps.weighStep (d : Dev) : ServoKeeps d d.weighStep.2 := by
  unfold Dev.weighStep
  split
  · exact ServoKeeps.trans .setHtb (.noStep _)
  · split
    · exact .planStep d
    · split
      · exact .noStep d
      · exact (ServoKeeps.trans .setHtb (.bump0 _ _)).trans (.noStep _)

theorem ServoKeeps.leaveFor (d : Dev) : ServoKeeps d d.leaveFor :=
  ((ServoKeeps.enterH d .coarse).trans .setHtb).trans (.weighStep _)

theorem ServoKeeps.servoMove (d : Dev) : ServoKeeps d d.servoMove := by
  unfold Dev.servoMove
  dsimp only
  split
  · exact .leaveFor d
  · split
    · exact .leaveFor d
    · split
      · exact (ServoKeeps.noStep d).trans (.enterH _ _)
      · exact (ServoKeeps.noStep d).trans .setHtb
  · refine (ServoKeeps.weighStep d).trans ?_
    split
    · exact .setHtb
    · split
      · exact .setHtb
      · split
        · exact .enterH _ _
        · exact .refl _
  · refine (ServoKeeps.weighStep d).trans ?_
    split
    · exact .enterH _ _
    · split
      · split
        · exact .enterH _ _
        · exact .setHtb
      · exact .setHtb

/-- Weighing a step leaves the state alone (R47). -/
theorem Dev.weighStep_state (d : Dev) : d.weighStep.2.htb.state = d.htb.state := by
  unfold Dev.weighStep
  split
  · rfl
  · split
    · rfl
    · split <;> rfl

/-- The first update that is followed leaves FREE_RUN for COARSE (Table 2.7). -/
theorem Dev.servoMove_freeRun {d : Dev} (h : d.htb.state = .freeRun) : d.servoMove.htb.state = .coarse := by
  have leaves : d.servoMove = d.leaveFor := by simp only [Dev.servoMove, h]
  rw [leaves, Dev.leaveFor, Dev.weighStep_state, Dev.setHtb_htb, Dev.enterH_state]

/-- A new offset is kept as it was measured, with or without a move of the servo. -/
theorem Dev.discipline_keeps (d : Dev) (offset : Int) :
    ServoKeeps (d.setHtb { d.htb with offset := offset }) (d.discipline offset) := by
  unfold Dev.discipline
  split
  · exact .refl _
  · exact (ServoKeeps.servoMove _).trans .setHtb

theorem OnlyHtb.discipline (d : Dev) (offset : Int) : OnlyHtb d (d.discipline offset) :=
  (OnlyHtb.setHtb d _).trans (d.discipline_keeps offset).only

@[simp] theorem Dev.discipline_offset (d : Dev) (offset : Int) : (d.discipline offset).htb.offset = offset :=
  (d.discipline_keeps offset).offset

/-- Where holdover is not forced, the servo moves and what no step takes is slewed away (R45, R46). -/
theorem Dev.discipline_followed {d : Dev} (offset : Int) (free : d.htb.forced = false) : d.discipline offset =
    let e := (d.setHtb { d.htb with offset := offset }).servoMove
    e.setHtb { e.htb with residue := (offset - e.htb.step.getD 0 * 125000) * 12000000, rateHeld := false } :=
  if_neg (by simp [free])

theorem Dev.discipline_residue {d : Dev} (offset : Int) (free : d.htb.forced = false) :
    (d.discipline offset).htb.residue = (offset - (d.discipline offset).htb.step.getD 0 * 125000) * 12000000 := by
  rw [Dev.discipline_followed offset free]; rfl

theorem Dev.discipline_freeRun {d : Dev} (offset : Int) (free : d.htb.forced = false) (st : d.htb.state = .freeRun) :
    (d.discipline offset).htb.state = .coarse := by
  rw [Dev.discipline_followed offset free]
  exact Dev.servoMove_freeRun st

/-! ### An edge of PPS_IN (R41) -/

/-- What an edge `x` ns off that is taken leaves: it is no rejected one, and its offset is the servo's, unless the servo stands or
SET_TIME_OF_DAY's step waits. -/
def Dev.ppsTaken (d : Dev) (x : Int) : Dev :=
  let d := d.setHtb { d.htb with ppsRej := 0 }
  if !d.htb.servoOn || d.htb.stepTod then d.setHtb { d.htb with offset := -x } else d.discipline (-x)

/-- A taken edge sets the offset and no rejected edge stands. -/
theorem Dev.ppsTaken_keeps (d : Dev) (x : Int) :
    ServoKeeps (d.setHtb { d.htb with ppsRej := 0, offset := -x }) (d.ppsTaken x) := by
  unfold Dev.ppsTaken
  dsimp only
  split
  · exact .refl _
  · exact Dev.discipline_keeps (d.setHtb { d.htb with ppsRej := 0 }) (-x)

theorem Dev.ppsTaken_residue {d : Dev} {x : Int} (on : d.htb.servoOn = true) (free : d.htb.forced = false)
    (tod : d.htb.stepTod = false) :
    (d.ppsTaken x).htb.residue = (-x - (d.ppsTaken x).htb.step.getD 0 * 125000) * 12000000 := by
  have disciplined : d.ppsTaken x = (d.setHtb { d.htb with ppsRej := 0 }).discipline (-x) := if_neg (by simp [on, tod])
  rw [disciplined]
  exact Dev.discipline_residue _ free

/-! ### Holdover by command (R45) -/

/-- FORCE_HOLDOVER's effect, before the time source is chosen anew. -/
def Dev.forceHold (d : Dev) (hold : Bool) : Dev :=
  let d := d.setHtb { d.htb with forced := hold, sinceSel := 0 }
  if hold && (d.htb.state == .coarse || d.htb.state == .locked) then d.enterH .holdover else d

theorem OnlyHtb.forceHold (d : Dev) (hold : Bool) : OnlyHtb d (d.forceHold hold) := by
  unfold Dev.forceHold
  dsimp only
  split
  · exact (OnlyHtb.setHtb d _).trans (.enterH _ _)
  · exact .setHtb d _

@[simp] theorem Dev.forceHold_forced (d : Dev) (hold : Bool) : (d.forceHold hold).htb.forced = hold := by
  unfold Dev.forceHold
  dsimp only
  split
  · rw [Dev.enterH_forced, Dev.setHtb_htb]
  · rfl

theorem Dev.forceHold_stays {d : Dev} {hold : Bool}
    (h : hold = false ∨ d.htb.state = .freeRun ∨ d.htb.state = .holdover) :
    (d.forceHold hold).htb.state = d.htb.state := by
  obtain rfl | st | st := h
  · rfl
  all_goals simp [Dev.forceHold, st]

theorem Dev.forceHold_enters {d : Dev} (h : d.htb.state = .coarse ∨ d.htb.state = .locked) :
    d.forceHold true = (d.setHtb { d.htb with forced := true, sinceSel := 0 }).enterH .holdover := by
  obtain st | st := h <;> simp [Dev.forceHold, st]

/-! ### The step of a new time of day (R49) -/

/-- A step is a whole number of 160 ticks. -/
theorem stepOf_emod (off : Int) (unit : Nat) : stepOf off unit % 160 = 0 := by
  unfold stepOf
  dsimp only
  split <;> omega

/-- What the step leaves is at most half a unit of 160 ticks, of 3,072 sub-ticks each. -/
theorem stepOf_residue (off : Int) : (off - stepOf off 491520 * 3072).natAbs ≤ 80 * 3072 := by
  unfold stepOf
  dsimp only
  split <;> omega

/-- What SET_TIME_OF_DAY leaves of the Hearth, for a new time `off` sub-ticks ahead: the step planned, and the residue slewed. -/
def Htb.newTime (h : Htb) (off : Int) : Htb :=
  { h with
    step := if stepOf off 491520 = 0 then none else some (stepOf off 491520), stepTod := stepOf off 491520 != 0
    leaving := false, todSet := true, residue := (off - stepOf off 491520 * 3072) * 488281250, rateHeld := false
    offset := if h.follows then h.offset else 0 }

/-! ### Alarm slots (R50 to R56) -/

theorem Dev.bndDone_iff (k : Clock) (d : Dev) : d.bndDone k = true ↔ 0 < k.sub ∨ lastBnd k.tick ≤ d.htb.bnd := by
  simp [Dev.bndDone, Nat.pos_iff_ne_zero]

/-- Behind its boundary events an alarm sub-tick issues its actions (R52). -/
theorem exec_alarmFire {s : State} {n : Nat} (ge : s.clk.sub ≤ n) (lt : n < 3072)
    (done : 0 < n ∨ lastBnd s.clk.tick ≤ s.dev.htb.bnd) :
    exec (.alarmFire n) s = .next { s with
      clk := { s.clk with sub := n }, dev := s.dev.issueAlarms { s.clk with sub := n } } := by
  have turn : s.dev.bndDone { s.clk with sub := n } = true := (Dev.bndDone_iff _ _).mpr done
  change execAlarmFire n s = _
  simp only [execAlarmFire, atSub, ge, lt, and_self, if_true, onDev_next, turn]

/-- With no slot set up, only the record of issue changes. -/
theorem Dev.issueAlarms_nil {k : Clock} {d : Dev} (empty : d.htb.alarms = []) (new : d.htb.issueAt ≠ clockStamp k + 1) :
    d.issueAlarms k = d.setHtb { d.htb with issueAt := clockStamp k + 1, issued := 0 } := by
  simp [Dev.issueAlarms, Dev.issuesNow, Dev.dueAlarms, Store.entries, empty, new]

/-- A slot that fires at its target disarms, or takes the target one period of ticks later (R54); no firing is passed over. -/
theorem Alarm.advance_onTime {a : Alarm} {now : Nat} (armed : a.armed = true) (target : a.target = now) :
    a.advance now = ({ a with
      armed := decide (a.period ≠ 0), firedAt := now + 1,
      target := if a.period = 0 then a.target else a.target + a.period * 4096,
      due := if a.period = 0 then a.due else a.target + a.period * 4096 }, 0) := by
  unfold Alarm.advance
  by_cases once : a.period = 0
  · simp [once]
  · simp [once, armed, target]

/-- A slot that fires at its due stamp, passing nothing over, counts nothing: it advances, and its action is issued on what it
held before. -/
theorem Dev.fireAlarm_onTime {k : Clock} {d : Dev} {slot : Nat} {a b : Alarm} (held : d.alarm slot = a)
    (due : a.due = clockStamp k) (next : a.advance (clockStamp k) = (b, 0)) :
    d.fireAlarm k slot = (d.setAlarm slot b).alarmAct k slot a := by
  simp [Dev.fireAlarm, held, due, next]

/-- The only slot set up is due: it alone fires, and its action is issued on what it holds before it fires (R52). -/
theorem Dev.issueAlarms_single {k : Clock} {d : Dev} {slot : Nat} {a b : Alarm} (only : d.htb.alarms = [(slot, a)])
    (armed : a.armed = true) (due : a.due = clockStamp k) (new : d.htb.issueAt ≠ clockStamp k + 1)
    (next : a.advance (clockStamp k) = (b, 0)) (fired : b.firedAt ≠ 0) :
    ∃ h : Htb, d.issueAlarms k = ({ d with htb := h }).alarmAct k slot a ∧ h.alarms = [(slot, b)] := by
  have listed : d.issuesNow k = [slot] := by
    simp [Dev.issuesNow, Dev.dueAlarms, Store.entries, only, new, armed, due]
  have kept : b ≠ {} := fun e => fired (by rw [e])
  have wrote : Store.put {} [(slot, a)] slot b = [(slot, b)] := by simp [Store.put, kept]
  refine ⟨{ d.htb with issueAt := clockStamp k + 1, issued := 1, alarms := [(slot, b)] }, ?_, rfl⟩
  have fires := Dev.fireAlarm_onTime (k := k) (d := d.setHtb { d.htb with issueAt := clockStamp k + 1, issued := 1 })
    (slot := slot) (a := a) (by simp [Dev.alarm, only, Store.get]) due next
  simpa [Dev.issueAlarms, listed, new, Dev.setAlarm, Dev.setHtb, only, wrote] using fires

/-- What ALARM_ARM checks of its arguments (R53): the numbers are in range, and the Hopper of a swap action exists. -/
structure ArmArgs (d : Dev) (slot target typ targets : Nat) : Prop where
  slotLe : slot ≤ 1023
  typLe : typ ≤ 3
  hopUp : typ = 1 → d.hopUp targets = true
  targetsOk : alarmTargetsOk typ targets = true
  subLe : target % 4096 ≤ 3071

section
variable {k : Clock} {d : Dev} {slot target period typ targets : Nat} {absolute replace : Bool}

/-- Good arguments raise neither ST_BAD_ARG nor ST_UNKNOWN_OBJECT. -/
theorem ArmArgs.checks (args : ArmArgs d slot target typ targets) :
    (decide (1023 < slot) || decide (3 < typ) || !alarmTargetsOk typ targets || decide (3071 < stampSub target)) = false ∧
      (typ == 1 && !d.hopUp targets) = false := by
  obtain ⟨top, ty, hop, ok, sub⟩ := args
  constructor
  · simp [ok, stampSub, top, ty, Nat.not_lt.mpr sub]
  · by_cases one : typ = 1
    · simp [hop one]
    · simp [one]

/-- A host slot that is not armed takes what ALARM_ARM gives it: it fires at its target, or at the next sub-tick where the
target has passed (R51, R53). -/
theorem Dev.armAlarm_free (args : ArmArgs d slot target typ targets) (mine : slot < d.htb.hostSlots)
    (free : (d.alarm slot).armed = false) :
    d.armAlarm k true slot absolute replace target period typ targets = (.ok,
      let past := decide (target < clockStamp k)
      let d := d.setAlarm slot { armed := true, absolute := absolute, target := target,
                                 due := if past then nextStamp (clockStamp k) else target, period := period, typ := typ,
                                 targets := targets, firedAt := 0 }
      if past then d.bump0 .htbAlarmPast else d) := by
  simp [Dev.armAlarm, args.checks, firstStatus, mine, free]

theorem Dev.armAlarm_armed (args : ArmArgs d slot target typ targets) (mine : slot < d.htb.hostSlots)
    (armed : (d.alarm slot).armed = true) :
    d.armAlarm k true slot absolute false target period typ targets = (.refusedBusy, d) := by
  simp [Dev.armAlarm, args.checks, firstStatus, mine, armed]

/-- A slot of tile code is none of host software's, whether it is armed or not: ST_NOT_PERMITTED comes first (R28). -/
theorem Dev.armAlarm_tile (args : ArmArgs d slot target typ targets) (tile : d.htb.hostSlots ≤ slot) :
    d.armAlarm k true slot absolute replace target period typ targets = (.notPermitted, d) := by
  by_cases busy : ((d.alarm slot).armed && !replace) = true <;>
    simp [Dev.armAlarm, args.checks, firstStatus, tile, busy, statusRank]

/-! ALARM_DISARM meets an action of the same sub-tick in three ways (R55). -/

theorem Dev.disarmAlarm_idle (top : slot ≤ 1023) (mine : slot < d.htb.hostSlots) (idle : slot ∉ d.issuesNow k) :
    d.disarmAlarm k true slot =
      (.ok, (d.alarm slot).firedAt == clockStamp k + 1, d.setAlarm slot { d.alarm slot with armed := false }) := by
  simp [Dev.disarmAlarm, firstStatus, top, mine, idle]

theorem Dev.disarmAlarm_issuing (top : slot ≤ 1023) (mine : slot < d.htb.hostSlots) (now : slot ∈ d.issuesNow k)
    (done : d.bndDone k = true) :
    d.disarmAlarm k true slot = (.ok, ((d.issueAlarms k).alarm slot).firedAt == clockStamp k + 1,
      (d.issueAlarms k).setAlarm slot { (d.issueAlarms k).alarm slot with armed := false }) := by
  simp [Dev.disarmAlarm, firstStatus, top, mine, now, done]

theorem Dev.disarmAlarm_beforeBoundary (top : slot ≤ 1023) (mine : slot < d.htb.hostSlots) (now : slot ∈ d.issuesNow k)
    (ahead : d.bndDone k = false) :
    d.disarmAlarm k true slot = (.ok, true, d.setAlarm slot { d.alarm slot with period := 0 }) := by
  simp [Dev.disarmAlarm, firstStatus, top, mine, now, ahead]

theorem Dev.disarmAlarm_tile (top : slot ≤ 1023) (tile : d.htb.hostSlots ≤ slot) :
    d.disarmAlarm k true slot = (.notPermitted, false, d) := by
  simp [Dev.disarmAlarm, firstStatus, Nat.not_lt.mpr top, tile]

end

/-! ### Boundary events and the time step (R35 to R38, R48) -/

theorem Dev.counts_of_started {d : Dev} (powered : d.sys.powered = true) (run : d.sys.inReset = none)
    (started : 2 ≤ d.sys.step) : d.counts = true := by
  simp [Dev.counts, powered, run, started]

theorem exec_tick {s : State} (counts : s.dev.counts = true) (a b : Nat) (f0 f1 sv : Bool) (ce : List Nat) :
    exec (.tick a b f0 f1 sv ce) s = .next { s with
      clk := { s.clk with tick := s.clk.tick + 1, sub := 0 }
      dev := s.dev.tickUnits { s.clk with tick := s.clk.tick + 1, sub := 0 } a b f0 f1 sv ce } :=
  if_pos counts

/-- The four frame lengths and their places. -/
theorem frameIdx_of_mem {len i : Nat} (h : (len, i) ∈ [(20, 0), (40, 1), (80, 2), (160, 3)]) : frameIdx len = some i := by
  simp only [List.mem_cons, Prod.mk.injEq, List.not_mem_nil, or_false] at h
  obtain ⟨rfl, rfl⟩ | ⟨rfl, rfl⟩ | ⟨rfl, rfl⟩ | ⟨rfl, rfl⟩ := h <;> rfl

/-- With no step pending an event has its turn at sub-tick 0, once. -/
theorem Dev.bndTurn_of_noStep {k : Clock} {d : Dev} {n : Nat} (sub : k.sub = 0) (next : d.htb.bnd < n)
    (noStep : d.htb.step = none) : d.bndTurn k n = true := by
  simp [Dev.bndTurn, stepDue, sub, next, noStep]

section
variable {s : State} {len i : Nat}

theorem exec_frameBoundary (idx : frameIdx len = some i) (at0 : s.clk.tick % len = 0)
    (turn : s.dev.bndTurn s.clk (5 + i) = true) : exec (.frameBoundary len) s = .next { s with
      dev := ({ s.dev with htb := { s.dev.htb with bnd := 5 + i } }).frameEvent s.clk len } := by
  change execFrameBoundary len s = _
  simp [execFrameBoundary, onDev_next, idx, at0, turn, Dev.setHtb]

theorem exec_windowClose (idx : frameIdx len = some i) (quarter : s.clk.tick % len = len / 4)
    (turn : s.dev.bndTurn s.clk (1 + i) = true) : exec (.windowClose len) s = .next { s with
      dev := (({ s.dev with htb := { s.dev.htb with bnd := 1 + i } }).hopClose s.clk len).medClose s.clk len } := by
  change execWindowClose len s = _
  simp [execWindowClose, onDev_next, idx, quarter, turn, Dev.setHtb]

/-- Off its ticks a frame event has no effect. -/
theorem exec_frameBoundary_off (off : s.clk.tick % len ≠ 0) : exec (.frameBoundary len) s = .next s := by
  change execFrameBoundary len s = _
  cases frame : frameIdx len <;> simp [execFrameBoundary, onDev_next, frame, off]

theorem exec_windowClose_off (off : s.clk.tick % len ≠ len / 4) : exec (.windowClose len) s = .next s := by
  change execWindowClose len s = _
  cases frame : frameIdx len <;> simp [execWindowClose, onDev_next, frame, off]

theorem exec_timeStep_none (noStep : s.dev.htb.step = none) : exec .timeStep s = .next s := by
  change execTimeStep s = _
  simp only [execTimeStep, noStep]

theorem exec_timeStep_notDue (wait : stepDue s.clk s.dev = false) : exec .timeStep s = .next s := by
  change execTimeStep s = _
  cases step : s.dev.htb.step <;> simp [execTimeStep, step, wait]

/-- A step that is due moves the tick count by its size and leaves the memories alone. -/
theorem exec_timeStep_due {n : Int} (step : s.dev.htb.step = some n) (due : stepDue s.clk s.dev = true)
    (counts : s.dev.counts = true) :
    ∃ d, exec .timeStep s = .next { s with clk := { s.clk with tick := ((s.clk.tick : Int) + n).toNat }, dev := d } := by
  change ∃ d, execTimeStep s = _
  simp only [execTimeStep, step, due, counts]
  exact ⟨_, rfl⟩

end
end Sys2Proof.Machine

namespace Sys2Proof
open Sys2Proof.Machine

/-- An event whose effect is on the Hearth and its counters alone. -/
theorem does_of_onlyHtb {i : Instr} {s : State} {d : Dev} (h : Does i s d) (only : OnlyHtb s.dev d) :
    Does i s { s.dev with htb := d.htb, ctr := d.ctr } := only ▸ h

section
variable {s : State} {o : Origin}

/-! ### The Hearth's commands (Table 2.10) -/

/-- Where the Hearth follows no source, SET_TIME_OF_DAY sets the time (R49). -/
theorem setTimeOfDay_answers {stamp : Nat} (ho : HostOk o s) (sub : stamp % 4096 ≤ 3071)
    (st : s.dev.htb.state = .freeRun ∨ s.dev.htb.state = .holdover) :
    Answers (.setTimeOfDay o stamp) o 0x0202 s .ok []
      { s.dev with htb := s.dev.htb.newTime ((stampAbs stamp : Int) - (stampAbs (clockStamp s.clk) : Int)) } := by
  refine answers_of_hostCmd _ ho rfl ?_
  obtain st | st := st <;>
    simp [firstStatus, stampSub, Nat.not_lt.mpr sub, st, Htb.newTime, Dev.setHtb]

theorem setTimeOfDay_busy {stamp : Nat} (ho : HostOk o s) (sub : stamp % 4096 ≤ 3071)
    (st : s.dev.htb.state = .coarse ∨ s.dev.htb.state = .locked) :
    Answers (.setTimeOfDay o stamp) o 0x0202 s .refusedBusy [] s.dev := by
  refine answers_of_hostCmd _ ho rfl ?_
  obtain st | st := st <;> simp [firstStatus, stampSub, Nat.not_lt.mpr sub, st]

theorem forceHoldover_answers (ho : HostOk o s) (hold : Bool) :
    Answers (.forceHoldover o hold) o 0x0204 s .ok [] (s.dev.forceHold hold).selectTime :=
  answers_of_hostCmd _ ho rfl rfl

theorem hearthStatus_answers (ho : HostOk o s) :
    Answers (.hearthStatus o) o 0x0201 s .ok
      [⟨8, s.clk.tick * 4096 + s.clk.sub⟩, ⟨1, hstateCode s.dev.htb.state⟩, ⟨1, s.dev.htb.timeSrc⟩, ⟨1, s.dev.htb.freqSrc⟩,
        ⟨8, toBits 64 (if s.dev.htb.residue ≠ 0 ∧ (s.dev.htb.timeSrc = 0 ∨ s.dev.htb.forced = true) then
          s.dev.htb.residue / 12000000 else s.dev.htb.offset)⟩, ⟨4, toBits 32 s.dev.htb.utcOff⟩, ⟨8, s.dev.htb.ticksIn⟩]
      s.dev := by
  have slewed : (!s.dev.htb.follows && s.dev.htb.residue != 0) = true ↔
      s.dev.htb.residue ≠ 0 ∧ (s.dev.htb.timeSrc = 0 ∨ s.dev.htb.forced = true) := by
    simp only [Htb.follows, Bool.and_eq_true, Bool.not_eq_true', Bool.and_eq_false_iff, bne_eq_false_iff_eq,
      Bool.not_eq_false', bne_iff_ne]
    exact and_comm
  refine answers_of_hostCmd _ ho rfl ?_
  simp only [slewed]
  rfl

theorem stepPolicy_answers {thresh slew : Nat} (ho : HostOk o s) (svc : Bool) (thr : 1 ≤ thresh) (thrLe : thresh ≤ 65535)
    (slw : 1 ≤ slew) (slwLe : slew ≤ 200) :
    Answers (.stepPolicy o thresh slew svc) o 0x0208 s .ok []
      { s.dev with htb := ({ s.dev.htb with stepThr := thresh, slewMax := slew, stepSvc := svc } : Htb).keepStep } := by
  refine answers_of_hostCmd _ ho rfl (if_neg ?_)
  simp only [Bool.or_eq_true, decide_eq_true_eq]
  omega

theorem alarmRead_answers {slot : Nat} (ho : HostOk o s) (top : slot ≤ 1023) (mine : slot < s.dev.htb.hostSlots) :
    Answers (.alarmRead o slot) o 0x0207 s .ok
      [⟨1, b2n (s.dev.alarm slot).armed⟩, ⟨2, slot⟩, ⟨2, b2n (s.dev.alarm slot).absolute⟩, ⟨8, (s.dev.alarm slot).target⟩,
        ⟨4, (s.dev.alarm slot).period⟩, ⟨4, (s.dev.alarm slot).typ * 2 ^ 30 + (s.dev.alarm slot).targets⟩] s.dev :=
  answers_of_hostCmd _ ho rfl (by simp [firstStatus, Nat.not_lt.mpr top, Nat.not_le.mpr mine])

/-! ### Alarm commands -/

theorem alarmArm_answers {slot target period typ targets : Nat} {absolute replace : Bool} {st : Status} {d : Dev}
    (ho : HostOk o s) (h : s.dev.armAlarm s.clk true slot absolute replace target period typ targets = (st, d)) :
    Answers (.alarmArm o slot absolute replace target period typ targets) o 0x0205 s st [] d :=
  answers_of_hostCmd _ ho rfl (by simp only [h])

theorem alarmDisarm_answers {slot : Nat} {fired : Bool} {d : Dev} (ho : HostOk o s)
    (h : s.dev.disarmAlarm s.clk true slot = (.ok, fired, d)) :
    Answers (.alarmDisarm o slot) o 0x0206 s .ok [⟨1, b2n fired⟩] d :=
  answers_of_hostCmd _ ho rfl (by simp [h])

theorem alarmDisarm_refused {slot : Nat} {st : Status} {fired : Bool} {d : Dev} (ho : HostOk o s) (no : st ≠ .ok)
    (h : s.dev.disarmAlarm s.clk true slot = (st, fired, d)) : Answers (.alarmDisarm o slot) o 0x0206 s st [] d :=
  answers_of_hostCmd _ ho rfl (by simp [h, no])

end

/-! ### The Hearth's events -/

section
variable {s : State}

theorem sourceLossTimeout_enters (loss : s.dev.htb.srcLoss ≤ s.dev.htb.noSrc)
    (st : s.dev.htb.state = .coarse ∨ s.dev.htb.state = .locked) :
    Does .sourceLossTimeout s (s.dev.enterH .holdover) := by
  refine does_of_onDev (execSourceLossTimeout s) rfl rfl ?_
  obtain st | st := st <;> simp [loss, st]

theorem holdoverLimit_enters (st : s.dev.htb.state = .holdover) (limited : s.dev.htb.holdLim ≠ 0)
    (limit : s.dev.htb.holdLim * 480000 ≤ s.dev.htb.ticksIn) : Does .holdoverLimit s (s.dev.enterH .freeRun) :=
  does_of_onDev (execHoldoverLimit s) rfl rfl (by simp [st, limited, limit])

/-- The port `port` leaves the SLAVE state, and the time source is chosen anew (R39, R40). -/
theorem announceReceiptTimeout_does (on : s.dev.htb.servoOn = true) (port : Nat) :
    Does (.announceReceiptTimeout port) s
      (s.dev.setHtb (if port = 0 then { s.dev.htb with port0 := { s.dev.htb.port0 with slave := false } }
        else { s.dev.htb with port1 := { s.dev.htb.port1 with slave := false } })).selectTime :=
  does_of_onDev (execAnnounceReceiptTimeout port s) rfl rfl (if_neg (by simp [on]))

/-- A lost reference that has counted 8,000 good ticks is valid again, and the frequency source is chosen anew (R43). -/
theorem refRecover_does {b : Bool} (lost : (if b then s.dev.htb.refB else s.dev.htb.refA).lost = true)
    (good : 8000 ≤ (if b then s.dev.htb.refB else s.dev.htb.refA).good) :
    Does (.refRecover b) s
      (s.dev.setHtb (if b then { s.dev.htb with refB := { ok := true, lost := false, good := 0 } }
        else { s.dev.htb with refA := { ok := true, lost := false, good := 0 } })).selectFreq :=
  does_of_onDev (execRefRecover b s) rfl rfl (if_pos (by simp [lost, good]))

theorem esmcRx_does (run : s.dev.hif.paused = false) (port : Nat) (dnu : Bool) :
    Does (.esmcRx port dnu) s
      (s.dev.setHtb (if port = 0 then { s.dev.htb with port0 := { s.dev.htb.port0 with dnu := dnu } }
        else { s.dev.htb with port1 := { s.dev.htb.port1 with dnu := dnu } })).selectFreq :=
  does_of_onDev (execEsmcRx port dnu s) rfl rfl (if_neg (by simp [run]))

/-- The servo's update: the ports as the BMCA has left them, then the offset, where a port is the time source (R40, R45). -/
theorem servoUpdate_does {s0 s1 : Bool} {data0 data1 : Nat} {offset utc : Int} {d : Dev} (on : s.dev.htb.servoOn = true)
    (select : (s.dev.setHtb { s.dev.htb with
        port0 := { s.dev.htb.port0 with slave := s0, dataset := data0 }
        port1 := { s.dev.htb.port1 with slave := s1, dataset := data1 } }).selectTime = d) :
    Does (.servoUpdate s0 s1 data0 data1 offset utc) s (if d.htb.timeSrc = 0 ∨ d.htb.timeSrc = 3 then d
      else (d.setHtb { d.htb with utcOff := utc }).discipline offset) := by
  subst select
  refine does_of_onDev (execServoUpdate s0 s1 data0 data1 offset utc s) rfl rfl ((if_neg (by simp [on])).trans ?_)
  exact ite_congr (by simp only [Bool.or_eq_true, decide_eq_true_eq]) (fun _ => rfl) (fun _ => rfl)

/-- The first update that finds port 0 a time source in FREE_RUN: the Hearth enters COARSE and keeps what was measured. -/
theorem servoUpdate_firstSource (data0 data1 : Nat) (offset utc : Int) (on : s.dev.htb.servoOn = true)
    (st : s.dev.htb.state = .freeRun) (free : s.dev.htb.forced = false) (en : s.dev.htb.enables.getLsbD 0 = true)
    (ptp : s.dev.htb.ptpOff = false) : ∃ d, Does (.servoUpdate true false data0 data1 offset utc) s d ∧ OnlyHtb s.dev d ∧
      d.htb.state = .coarse ∧ d.htb.timeSrc = 1 ∧ d.htb.offset = offset ∧ d.htb.utcOff = utc := by
  obtain ⟨a, told⟩ : ∃ a, a = s.dev.setHtb { s.dev.htb with
    port0 := { s.dev.htb.port0 with slave := true, dataset := data0 }
    port1 := { s.dev.htb.port1 with slave := false, dataset := data1 } } := ⟨_, rfl⟩
  have src : a.selectTime.htb.timeSrc = 1 := by
    rw [Dev.selectTime_timeSrc, told]
    exact Htb.wantTime_port0 en rfl rfl ptp free
  have update := servoUpdate_does (offset := offset) (utc := utc) on (congrArg Dev.selectTime told.symm)
  rw [if_neg (by omega)] at update
  have only : OnlyHtb s.dev a.selectTime := told ▸ (OnlyHtb.setHtb s.dev _).trans (.selectTime _)
  have keeps := (a.selectTime.setHtb { a.selectTime.htb with utcOff := utc }).discipline_keeps offset
  refine ⟨_, update, (only.trans (.setHtb _ _)).trans (.discipline _ _), ?_, keeps.timeSrc.trans src, keeps.offset, keeps.utcOff⟩
  apply Dev.discipline_freeRun
  · exact (Dev.selectTime_forced a).trans (told ▸ free)
  · exact (Dev.selectTime_state a).trans (told ▸ st)

theorem ppsInEdge_taken {x : Int} (src : s.dev.htb.timeSrc = 3)
    (near : s.dev.htb.state ≠ .locked ∨ (x - s.dev.htb.ppsInComp).natAbs ≤ 100000) :
    Does (.ppsInEdge x) s (s.dev.ppsTaken (x - s.dev.htb.ppsInComp)) := by
  refine does_of_onDev (execPpsInEdge x s) rfl rfl ((if_neg (by simp [src])).trans ((if_neg ?_).trans rfl))
  simp only [Bool.and_eq_true, beq_iff_eq, decide_eq_true_eq]
  rintro ⟨st, far⟩
  exact near.elim (fun unlocked => unlocked st) (Nat.not_le.mpr far)

/-- A rejected edge is counted, and the eighth in a row moves the Hearth to COARSE. -/
theorem ppsInEdge_rejected {x : Int} (src : s.dev.htb.timeSrc = 3) (st : s.dev.htb.state = .locked)
    (far : 100000 < (x - s.dev.htb.ppsInComp).natAbs) :
    Does (.ppsInEdge x) s
      (let d := (s.dev.setHtb { s.dev.htb with ppsRej := s.dev.htb.ppsRej + 1 }).bump0 .htbPpsInReject
       if s.dev.htb.ppsRej + 1 = 8 then d.enterH .coarse else d) :=
  does_of_onDev (execPpsInEdge x s) rfl rfl ((if_neg (by simp [src])).trans (if_pos (by simp [st, far])))

end

/-! ### The obligations -/

/-- Settles O11: the step is the multiple of 160 ticks nearest the offset (`stepOf_residue`). -/
theorem setTimeOfDayStepsAndSlews : Obligations.SetTimeOfDayStepsAndSlews := by
  intro s o stamp ho sub
  refine ⟨fun st => ⟨_, setTimeOfDay_answers ho sub st, rfl, stepOf _ 491520, stepOf_emod _ _, rfl, stepOf_residue _, rfl⟩,
    fun st => setTimeOfDay_busy ho sub st⟩

/-- Settles O12: each command and event is a move of the Hearth alone (`OnlyHtb`), to the state that Table 2.7 gives. -/
theorem holdoverIsForcedAndEntered : Obligations.HoldoverIsForcedAndEntered := by
  intro s
  refine ⟨fun o hold ho => ?_, fun loss st => ?_, fun st limited limit => ?_, fun on => ?_, fun on => ?_⟩
  · have only : OnlyHtb s.dev (s.dev.forceHold hold).selectTime := (OnlyHtb.forceHold _ _).trans (.selectTime _)
    refine ⟨_, _, only ▸ forceHoldover_answers ho hold, by simp, fun stay => ?_, fun force st => ?_⟩
    · simp [Dev.forceHold_stays stay]
    · simp [force, Dev.forceHold_enters st]
  · exact s.dev.enterH_holdover ▸ sourceLossTimeout_enters loss st
  · exact s.dev.enterH_freeRun ▸ holdoverLimit_enters st limited limit
  · exact ⟨_, _, does_of_onlyHtb (announceReceiptTimeout_does on 0) ((OnlyHtb.setHtb _ _).trans (.selectTime _)),
      by simp, by simp, by simp⟩
  · exact ⟨_, _, does_of_onlyHtb (announceReceiptTimeout_does on 1) ((OnlyHtb.setHtb _ _).trans (.selectTime _)),
      by simp, by simp, by simp⟩

/-- Settles O13: each command is one branch of `Dev.armAlarm` or `Dev.disarmAlarm`, and the sub-tick is `exec_alarmFire`. -/
theorem alarmSlotsArmAndDisarm : Obligations.AlarmSlotsArmAndDisarm := by
  intro s o slot target period typ targets absolute replace ho top ty hop ok sub
  have args : ArmArgs s.dev slot target typ targets := ⟨top, ty, hop, ok, sub⟩
  refine ⟨fun mine free future => ?_, fun mine free past => ?_, fun mine armed => ?_, fun tile => ?_, fun mine idle => ?_,
    fun mine now done => ?_, fun mine now ahead => ?_, fun tile => ?_, fun n ge lt done => ?_, fun n ge lt done empty new => ?_⟩
  · exact alarmArm_answers ho (by simp [Dev.armAlarm_free args mine free, Nat.not_lt.mpr future])
  · exact alarmArm_answers ho (by simp [Dev.armAlarm_free args mine free, past])
  · exact alarmArm_answers ho (Dev.armAlarm_armed args mine armed)
  · exact alarmArm_answers ho (Dev.armAlarm_tile args tile)
  · exact alarmDisarm_answers ho (Dev.disarmAlarm_idle top mine idle)
  · exact alarmDisarm_answers ho (Dev.disarmAlarm_issuing top mine now done)
  · exact alarmDisarm_answers (fired := true) ho (Dev.disarmAlarm_beforeBoundary top mine now ahead)
  · exact alarmDisarm_refused ho (by simp) (Dev.disarmAlarm_tile top tile)
  · exact exec_alarmFire ge lt done
  · rw [exec_alarmFire ge lt done, Dev.issueAlarms_nil (k := { s.clk with sub := n }) empty new]
    rfl

/-- Settles O14: the only slot set up fires on time (R54), and its action of type 3 is the filter engine's. -/
theorem alarmFiresItsAction : Obligations.AlarmFiresItsAction := by
  intro s n slot a ge lt done only armed typ due target _ new
  have onTime := Alarm.advance_onTime (now := a.due) armed target
  rw [due] at onTime
  obtain ⟨h, issued, alarms⟩ := Dev.issueAlarms_single (k := { s.clk with sub := n }) only armed due new onTime
    (Nat.succ_ne_zero _)
  refine ⟨h, ?_, ?_⟩
  · rw [exec_alarmFire ge lt done, issued]
    simp [Dev.alarmAct, typ]
  · rw [alarms, due]

/-- Settles O17: what TICK, the boundary events and TIME_STEP do on and off their instants. -/
theorem tickBoundariesAreDelivered : Obligations.TickBoundariesAreDelivered := by
  intro s
  refine ⟨fun a b f0 f1 sv ce powered run started => ⟨_, exec_tick (Dev.counts_of_started powered run started) a b f0 f1 sv ce⟩,
    fun a b f0 f1 sv ce counts => exec_tick counts a b f0 f1 sv ce,
    fun len i mem => ⟨exec_frameBoundary (frameIdx_of_mem mem), exec_windowClose (frameIdx_of_mem mem)⟩,
    fun n step due counts => exec_timeStep_due step due counts,
    fun len i mem => ⟨fun at0 sub next noStep => ?_, exec_frameBoundary_off, fun quarter sub next noStep => ?_,
      exec_windowClose_off⟩,
    exec_timeStep_none, fun n step off => exec_timeStep_notDue (by simp [stepDue, off]),
    fun n step at0 sub bnd powered run started _ =>
      exec_timeStep_due step (by simp [stepDue, step, at0, sub, bnd]) (Dev.counts_of_started powered run started)⟩
  · exact exec_frameBoundary (frameIdx_of_mem mem) at0 (Dev.bndTurn_of_noStep sub next noStep)
  · exact exec_windowClose (frameIdx_of_mem mem) quarter (Dev.bndTurn_of_noStep sub next noStep)

/-- Settles O10: the four commands, one by one. -/
theorem hearthCommandsAnswer : Obligations.HearthCommandsAnswer := fun _ _ ho =>
  ⟨hearthStatus_answers ho, fun _ => answers_of_hostCmd _ ho rfl rfl,
   fun _ _ svc thr thrLe slw slwLe => stepPolicy_answers ho svc thr thrLe slw slwLe,
   fun _ top mine => alarmRead_answers ho top mine⟩

/-- Settles O16: what an input measures survives the moves of the servo that follow it (`ServoKeeps`). -/
theorem hearthInputsMoveSources : Obligations.HearthInputsMoveSources := by
  intro s
  refine ⟨fun lost good => ?_, fun lost good => ?_, fun x src near => ?_, fun x src st far few => ?_,
    fun x src st far seven => ?_, fun port dnu run => ?_, fun s0 s1 data0 data1 offset utc d on select => ?_,
    fun data0 data1 offset utc on st free en ptp => ?_⟩
  · exact ⟨_, _, does_of_onlyHtb (refRecover_does (b := true) lost good) ((OnlyHtb.setHtb _ _).trans (.selectFreq _)),
      by simp, by simp⟩
  · exact ⟨_, _, does_of_onlyHtb (refRecover_does (b := false) lost good) ((OnlyHtb.setHtb _ _).trans (.selectFreq _)),
      by simp, by simp⟩
  · have keeps := s.dev.ppsTaken_keeps (x - s.dev.htb.ppsInComp)
    refine ⟨_, _, does_of_onlyHtb (ppsInEdge_taken src near) ((OnlyHtb.setHtb _ _).trans keeps.only), keeps.ppsRej rfl,
      keeps.offset, fun on free tod => ?_⟩
    rw [keeps.offset]
    exact Dev.ppsTaken_residue on free tod
  · have rejected := ppsInEdge_rejected src st far
    rwa [if_neg (by omega)] at rejected
  · have eighth := ppsInEdge_rejected src st far
    simp only [seven, if_true] at eighth
    exact ⟨_, _, does_of_onlyHtb eighth (((OnlyHtb.setHtb _ _).trans (.bump0 _ _)).trans (.enterH _ _)), by simp, by simp⟩
  · refine ⟨_, _, does_of_onlyHtb (esmcRx_does run port dnu) ((OnlyHtb.setHtb _ _).trans (.selectFreq _)), ?_⟩
    by_cases zero : port = 0 <;> simp [zero]
  · exact servoUpdate_does on select
  · obtain ⟨d, update, only, rest⟩ := servoUpdate_firstSource data0 data1 offset utc on st free en ptp
    exact ⟨_, _, does_of_onlyHtb update only, rest⟩

end Sys2Proof

/-! # The filter engine's obligations (chapter 4)

A request is accepted (`Dev.askReq`), waits, and is judged at a boundary (`Dev.judgeReq`); each outcome of the two is said once
here, and so are a boundary with nothing else to do, a command packet, and the slot of a stopped stream. -/

namespace Sys2Proof.Machine
open Sys2Proof

/-! ### Streams -/

theorem isRx_of_ge {i : Nat} (ge : 256 ≤ i) : isRx i = false := decide_eq_false (Nat.not_lt.mpr ge)

theorem Dev.fst_setFst_self {d : Dev} (wf : Store.wf {} d.fce.streams = true) (i : Nat) (x : FStream) :
    (d.setFst i x).fst i = x := Store.get_put_self wf

theorem FStream.open_iff {x : FStream} : x.open = true ↔ x.state = .stopped ∧ x.held = none := by
  simp [FStream.open]

theorem FStream.open_eq_false {x : FStream} (h : x.state ≠ .stopped ∨ x.held ≠ none) : x.open = false := by
  simp only [← Bool.not_eq_true, FStream.open_iff, Classical.not_and_iff_not_or_not]
  exact h

@[simp] theorem FStream.rampLeft_state (x : FStream) : x.rampLeft.state = x.state := by
  unfold FStream.rampLeft; split <;> rfl

@[simp] theorem FStream.rampLeft_held (x : FStream) : x.rampLeft.held = x.held := by
  unfold FStream.rampLeft; split <;> rfl

/-! ### A request as it is accepted (R113, R116) -/

/-- A request to stop: a stop, or the compound that stops the stream for a tick. -/
def FKind.Stops (x : FKind) : Prop := x = .stop ∨ ∃ named b, x = .swap named b

section
variable {d : Dev} {r : FReq} {src : Src} {opc i : Nat} {x : FKind}

/-- A command joins those that wait. -/
theorem Dev.enqueueReq_cmd (who : r.who.isSome = true) :
    d.enqueueReq r = { d with fce := { d.fce with cmds := d.fce.cmds ++ [r] } } := by
  simp [Dev.enqueueReq, who]

theorem Dev.askReq_start {flush : Bool} (start : r.kind = .start flush) : d.askReq r = (none, d.enqueueReq r) := by
  simp [Dev.askReq, start]

theorem Dev.askReq_ramp {gm ga n : Nat} (ramp : r.kind = .ramp gm ga n) (st : (d.fst r.stream).state ≠ .stopPending) :
    d.askReq r = (none, d.enqueueReq r) := by
  simp [Dev.askReq, ramp, st]

theorem Dev.askReq_ramp_pending {gm ga n : Nat} (ramp : r.kind = .ramp gm ga n)
    (st : (d.fst r.stream).state = .stopPending) : d.askReq r = (some .refusedBusy, d) := by
  simp [Dev.askReq, ramp, st]

/-- What becomes of a stop or of a compound is one choice. -/
theorem Dev.askReq_stops (stops : r.kind.Stops) : d.askReq r =
    if (d.fst r.stream).state = .stopPending then (some .refusedBusy, d)
    else if (d.fst r.stream).state = .running ∧ (d.fst r.stream).ramp.isSome = true ∧ d.reqWaits r.stream = false then
      (none, (d.setFst r.stream { d.fst r.stream with state := .stopPending, pend := some r }).bump1 .fceLineStopDeferred
        (r.stream % 256))
    else (none, d.enqueueReq r) := by
  obtain stop | ⟨named, b, swap⟩ := stops
  · simp [Dev.askReq, stop, and_assoc]
  · simp [Dev.askReq, swap, and_assoc]

theorem Dev.askReq_stops_queued (stops : r.kind.Stops) (st : (d.fst r.stream).state ≠ .stopPending)
    (now : (d.fst r.stream).state = .stopped ∨ (d.fst r.stream).ramp = none ∨ d.reqWaits r.stream = true) :
    d.askReq r = (none, d.enqueueReq r) := by
  rw [Dev.askReq_stops stops, if_neg st, if_neg]
  rintro ⟨run, fading, alone⟩
  obtain stopped | steady | waits := now
  · simp [run] at stopped
  · simp [steady] at fading
  · simp [alone] at waits

/-- The stop of a fading stream for which nothing waits is deferred behind its ramp. -/
theorem Dev.askReq_stops_deferred (stops : r.kind.Stops) (run : (d.fst r.stream).state = .running)
    (fading : (d.fst r.stream).ramp.isSome = true) (alone : d.reqWaits r.stream = false) :
    d.askReq r = (none, (d.setFst r.stream { d.fst r.stream with state := .stopPending, pend := some r }).bump1
      .fceLineStopDeferred (r.stream % 256)) := by
  rw [Dev.askReq_stops stops, if_neg (by simp [run]), if_pos ⟨run, fading, alone⟩]

theorem Dev.askReq_stops_pending (stops : r.kind.Stops) (st : (d.fst r.stream).state = .stopPending) :
    d.askReq r = (some .refusedBusy, d) := by
  rw [Dev.askReq_stops stops, if_pos st]

/-! ### The commands that wait (Table 4.8) -/

/-- An accepted command has no answer of its own yet. -/
theorem Dev.queueReq_accepted {d' : Dev} (lt : i < 512)
    (ask : d.askReq { stream := i, kind := x, who := some (src, opc) } = (none, d')) :
    d.queueReq src opc i x = (.held, d') := by
  simp only [Dev.queueReq, if_neg (Nat.not_lt.mpr (Nat.le_of_lt_succ lt)), ask]

theorem Dev.queueReq_refused {d' : Dev} {st : Status} (lt : i < 512)
    (ask : d.askReq { stream := i, kind := x, who := some (src, opc) } = (some st, d')) :
    d.queueReq src opc i x = (.now st [], d') := by
  simp only [Dev.queueReq, if_neg (Nat.not_lt.mpr (Nat.le_of_lt_succ lt)), ask]

theorem Dev.queueReq_start {flush : Bool} (lt : i < 512) : d.queueReq src opc i (.start flush) =
    (.held, { d with fce := { d.fce with
      cmds := d.fce.cmds ++ [{ stream := i, kind := .start flush, who := some (src, opc) }] } }) :=
  Dev.queueReq_accepted lt (Dev.askReq_start rfl)

theorem Dev.queueReq_stops_queued (lt : i < 512) (stops : x.Stops) (st : (d.fst i).state ≠ .stopPending)
    (now : (d.fst i).state = .stopped ∨ (d.fst i).ramp = none ∨ d.reqWaits i = true) : d.queueReq src opc i x =
    (.held, { d with fce := { d.fce with cmds := d.fce.cmds ++ [{ stream := i, kind := x, who := some (src, opc) }] } }) :=
  Dev.queueReq_accepted lt (Dev.askReq_stops_queued stops st now)

theorem Dev.queueReq_stops_deferred (lt : i < 512) (stops : x.Stops) (run : (d.fst i).state = .running)
    (fading : (d.fst i).ramp.isSome = true) (alone : d.reqWaits i = false) : d.queueReq src opc i x =
    (.held, (d.setFst i { d.fst i with
      state := .stopPending, pend := some { stream := i, kind := x, who := some (src, opc) } }).bump1
      .fceLineStopDeferred (i % 256)) :=
  Dev.queueReq_accepted lt (Dev.askReq_stops_deferred stops run fading alone)

theorem Dev.queueReq_stops_pending (lt : i < 512) (stops : x.Stops) (st : (d.fst i).state = .stopPending) :
    d.queueReq src opc i x = (.now .refusedBusy [], d) :=
  Dev.queueReq_refused lt (Dev.askReq_stops_pending stops st)

end

/-- The arguments of FILTER_RAMP are in range (Table 4.8), and stream `i` transmits. -/
structure RampArgs (i gm ga n : Nat) : Prop where
  ticks : 1 ≤ n
  ticksLe : n ≤ 256
  main : gm ≤ 32768
  alt : ga ≤ 32768
  tx : 256 ≤ i
  lt : i < 512

section
variable {d : Dev} {src : Src} {i gm ga n : Nat}

/-- FILTER_RAMP with good arguments acts at once on an open stream for which nothing waits, or asks (R113, R115). -/
theorem Dev.cmdRamp_of_args (args : RampArgs i gm ga n) : d.cmdRamp src i gm ga n =
    if (d.fst i).open = true ∧ d.reqWaits i = false then (.now .ok [], d.setFst i { d.fst i with gm := gm, ga := ga })
    else d.queueReq src 0x0408 i (.ramp gm ga n) := by
  obtain ⟨ticks, ticksLe, main, alt, tx, lt⟩ := args
  simp [Dev.cmdRamp, Nat.ne_of_gt ticks, Nat.not_lt.mpr ticksLe, Nat.not_lt.mpr main, Nat.not_lt.mpr alt, isRx_of_ge tx,
    Nat.not_lt.mpr (Nat.le_of_lt_succ lt), Dev.modFst]

theorem Dev.cmdRamp_now (args : RampArgs i gm ga n) (st : (d.fst i).state = .stopped) (free : (d.fst i).held = none)
    (alone : d.reqWaits i = false) :
    d.cmdRamp src i gm ga n = (.now .ok [], d.setFst i { d.fst i with gm := gm, ga := ga }) := by
  rw [Dev.cmdRamp_of_args args, if_pos ⟨FStream.open_iff.mpr ⟨st, free⟩, alone⟩]

theorem Dev.cmdRamp_queued (args : RampArgs i gm ga n) (st : (d.fst i).state ≠ .stopPending)
    (later : (d.fst i).open = false ∨ d.reqWaits i = true) : d.cmdRamp src i gm ga n =
    (.held, { d with fce := { d.fce with
      cmds := d.fce.cmds ++ [{ stream := i, kind := .ramp gm ga n, who := some (src, 0x0408) }] } }) := by
  rw [Dev.cmdRamp_of_args args, if_neg, Dev.queueReq_accepted args.lt (Dev.askReq_ramp rfl st), Dev.enqueueReq_cmd rfl]
  rintro ⟨isOpen, alone⟩
  simp [isOpen, alone] at later

theorem Dev.cmdRamp_pending (args : RampArgs i gm ga n) (st : (d.fst i).state = .stopPending) :
    d.cmdRamp src i gm ga n = (.now .refusedBusy [], d) := by
  have shut : (d.fst i).open = false := FStream.open_eq_false (.inl (by simp [st]))
  rw [Dev.cmdRamp_of_args args, if_neg (by simp [shut]), Dev.queueReq_refused args.lt (Dev.askReq_ramp_pending rfl st)]

end

/-! ### The boundary (R115 to R117) -/

/-- No stream has anything of its own to do at the boundary: no compound's tick and no ramp is over, and no stop is deferred. -/
def Dev.StreamsIdle (d : Dev) : Prop :=
  ∀ j, (d.fst j).held = none ∧ (d.fst j).pend = none ∧ (d.fst j).rampOver = false

/-- A pass over the streams that changes none of them leaves the device as it was. -/
theorem Dev.foldl_unchanged {d : Dev} {pass : Dev → Nat → Dev} (keeps : ∀ i, pass d i = d) (keys : List Nat) :
    keys.foldl pass d = d := by
  induction keys with
  | nil => rfl
  | cons i keys ih => rw [List.foldl_cons, keeps, ih]

/-- The boundary then only judges the requests that wait: none of the passes over the streams that come first changes any. -/
theorem Dev.filterBoundary_of_idle {d : Dev} (k : Clock) (idle : d.StreamsIdle) : d.filterBoundary k =
    (d.fce.cmds ++ d.fce.acts).foldl (fun d r => d.judgeReq k r) { d with fce := { d.fce with cmds := [], acts := [] } } := by
  simp only [Dev.filterBoundary]
  rw [Dev.foldl_unchanged (d := d), Dev.foldl_unchanged (d := d), Dev.foldl_unchanged (d := d)]
  · intro j
    obtain ⟨_, settled, _⟩ := idle j
    simp [settled]
  · intro j
    obtain ⟨free, _, _⟩ := idle j
    simp [free]
  · intro j
    obtain ⟨_, _, steady⟩ := idle j
    simp [steady]

section
variable {d : Dev} {k : Clock} {r : FReq}

theorem Dev.judgeReq_start_stopped {flush : Bool} (kind : r.kind = .start flush) (st : (d.fst r.stream).state = .stopped)
    (free : (d.fst r.stream).held = none) :
    d.judgeReq k r = (d.startStream k r.stream flush).answerReq k r .ok := by
  simp [Dev.judgeReq, kind, st, free]

theorem Dev.judgeReq_start_running {flush : Bool} (kind : r.kind = .start flush) (st : (d.fst r.stream).state = .running) :
    d.judgeReq k r = d.answerReq k r .refusedBusy := by
  simp [Dev.judgeReq, kind, st]

/-- A running stream without a ramp is stopped, for good or for the compound's tick. -/
theorem Dev.judgeReq_stops (stops : r.kind.Stops) (st : (d.fst r.stream).state = .running)
    (steady : (d.fst r.stream).ramp = none) : d.judgeReq k r = d.stopStream k r.stream r := by
  obtain stop | ⟨named, b, swap⟩ := stops
  · simp [Dev.judgeReq, stop, st, steady]
  · simp [Dev.judgeReq, swap, st, steady]

theorem Dev.judgeReq_stop (kind : r.kind = .stop) (st : (d.fst r.stream).state = .running)
    (steady : (d.fst r.stream).ramp = none) : d.judgeReq k r = (d.setFst r.stream { d.fst r.stream with
      state := .stopped, ramp := none, pend := none, block := none, ended := (d.fst r.stream).block }).answerReq k r .ok := by
  rw [Dev.judgeReq_stops (.inl kind) st steady]
  simp [Dev.stopStream, kind]

/-- The compound's answer waits until the stream runs again. -/
theorem Dev.judgeReq_swap {named b : Bool} (kind : r.kind = .swap named b) (st : (d.fst r.stream).state = .running)
    (steady : (d.fst r.stream).ramp = none) : d.judgeReq k r = d.setFst r.stream { d.fst r.stream with
      state := .stopped, ramp := none, pend := none, held := some r, block := none, ended := (d.fst r.stream).block,
      bankB := if named then b else !(d.fst r.stream).bankB } := by
  rw [Dev.judgeReq_stops (.inr ⟨named, b, kind⟩) st steady]
  simp [Dev.stopStream, kind]

theorem Dev.judgeReq_ramp {gm ga n : Nat} (kind : r.kind = .ramp gm ga n) (tx : 256 ≤ r.stream)
    (st : (d.fst r.stream).state = .running) : d.judgeReq k r = (d.setFst r.stream { d.fst r.stream with
      ramp := some { gm0 := (d.fst r.stream).gm, ga0 := (d.fst r.stream).ga, gm1 := gm, ga1 := ga, ticks := n, done := 0 }
      }).answerReq k r .ok := by
  simp [Dev.judgeReq, kind, isRx_of_ge tx, st]

end

/-! ### Slots (R98) -/

theorem slotSub_lt (n : Nat) : slotSub n < 3072 := Nat.lt_succ_of_le (Nat.min_le_left ..)

section
variable {s : State} {n : Nat}

theorem exec_streamSlot_past (past : slotSub n < s.clk.sub) : exec (.streamSlot n) s = .next s := by
  change execStreamSlot n s = _
  rw [execStreamSlot, atSub, if_neg fun ⟨le, _⟩ => Nat.not_le.mpr past le]

theorem exec_streamSlot (ge : s.clk.sub ≤ slotSub n) : exec (.streamSlot n) s = .next { s with
    clk := { s.clk with sub := slotSub n }
    dev := if (s.dev.fst n).served = s.clk.tick + 1 then s.dev else s.dev.slot { s.clk with sub := slotSub n } n } := by
  change execStreamSlot n s = _
  rw [execStreamSlot, atSub, if_pos ⟨ge, slotSub_lt n⟩]
  rfl

end

/-- Eight zero samples join those placed on the lane, whether the line is active or not. -/
theorem Dev.play_zeros (d : Dev) (i : Nat) : d.play i (List.replicate 8 0) = d.modFst i (fun y => { y with
    out := List.replicate 8 0, played := (List.replicate 8 0 ++ y.played).take 64 }) := by
  simp only [Dev.play, ite_self, List.reverse_replicate]

section
variable {d : Dev} {k : Clock} {n : Nat}

theorem Dev.slotTx_stopped (st : (d.fst n).state = .stopped) (free : (d.fst n).held = none) :
    d.slotTx k n = d.play n (List.replicate 8 0) := by
  simp [Dev.slotTx, st, free]

theorem Dev.slotRx_stopped (st : (d.fst n).state = .stopped) (free : (d.fst n).held = none) :
    d.slotRx k n = d.commitEnded k n := by
  simp [Dev.slotRx, st, free]

/-- The slot's mark leaves the rest of the stream as it was. -/
theorem Dev.fst_served (wf : Store.wf {} d.fce.streams = true) (m : Nat) :
    (d.setFst n { d.fst n with served := m }).fst n = { d.fst n with served := m } := Dev.fst_setFst_self wf ..

theorem Dev.slot_tx_stopped (wf : Store.wf {} d.fce.streams = true) (tx : 256 ≤ n) (st : (d.fst n).state = .stopped)
    (free : (d.fst n).held = none) : d.slot k n = (d.setFst n { d.fst n with served := k.tick + 1 }).modFst n (fun y =>
      { y with out := List.replicate 8 0, played := (List.replicate 8 0 ++ y.played).take 64 }) := by
  have marked := Dev.fst_served (n := n) wf (k.tick + 1)
  rw [Dev.slot, if_neg (Nat.not_lt.mpr tx), ← Dev.play_zeros]
  exact Dev.slotTx_stopped (by rw [Dev.modFst, marked]; exact st) (by rw [Dev.modFst, marked]; exact free)

theorem Dev.slot_rx_stopped (wf : Store.wf {} d.fce.streams = true) (rx : n < 256) (st : (d.fst n).state = .stopped)
    (free : (d.fst n).held = none) : d.slot k n =
      (d.setFst n { d.fst n with served := k.tick + 1 }).commitEnded { k with sub := 6 * n + 6 } n := by
  have marked := Dev.fst_served (n := n) wf (k.tick + 1)
  have ends : slotEnd k n = { k with sub := 6 * n + 6 } := if_neg (by omega)
  rw [Dev.slot, if_pos rx, ends]
  exact Dev.slotRx_stopped (by rw [Dev.modFst, marked]; exact st) (by rw [Dev.modFst, marked]; exact free)

end
end Sys2Proof.Machine

namespace Sys2Proof
open Sys2Proof.Machine

section
variable {s : State} {o : Origin} {i : Nat}

/-! ### The commands that stop a stream -/

/-- FILTER_STOP and FILTER_STOP_SWAP_START differ in their opcode and in the request they make: `cmd` is either. -/
structure StopCmd (s : State) (o : Origin) (i : Nat) (cmd : Instr) (opc : Nat) (x : FKind) : Prop where
  ask : exec cmd s = hostCmd o opc (fun _ d => d.queueReq (.host o) opc i x) s
  stops : x.Stops

theorem stopCmd_stop : StopCmd s o i (.filterStop o i) 0x0406 .stop := ⟨rfl, .inl rfl⟩

theorem stopCmd_swap (named b : Bool) : StopCmd s o i (.filterStopSwapStart o i named b) 0x0407 (.swap named b) :=
  ⟨rfl, .inr ⟨named, b, rfl⟩⟩

section
variable {cmd : Instr} {opc : Nat} {x : FKind}

theorem StopCmd.queued (c : StopCmd s o i cmd opc x) (ho : HostOk o s) (lt : i < 512)
    (st : (s.dev.fst i).state ≠ .stopPending)
    (now : (s.dev.fst i).state = .stopped ∨ (s.dev.fst i).ramp = none ∨ s.dev.reqWaits i = true) :
    Does cmd s { s.dev with fce := { s.dev.fce with
      cmds := s.dev.fce.cmds ++ [{ stream := i, kind := x, who := some (.host o, opc) }] } } :=
  does_of_hostCmd_held _ ho c.ask (Dev.queueReq_stops_queued lt c.stops st now)

theorem StopCmd.deferred (c : StopCmd s o i cmd opc x) (ho : HostOk o s) (lt : i < 512)
    (run : (s.dev.fst i).state = .running) (fading : (s.dev.fst i).ramp.isSome = true) (alone : s.dev.reqWaits i = false) :
    Does cmd s ((s.dev.setFst i { s.dev.fst i with
      state := .stopPending, pend := some { stream := i, kind := x, who := some (.host o, opc) } }).bump1
      .fceLineStopDeferred (i % 256)) :=
  does_of_hostCmd_held _ ho c.ask (Dev.queueReq_stops_deferred lt c.stops run fading alone)

theorem StopCmd.refused (c : StopCmd s o i cmd opc x) (ho : HostOk o s) (lt : i < 512)
    (st : (s.dev.fst i).state = .stopPending) : Answers cmd o opc s .refusedBusy [] s.dev :=
  answers_of_hostCmd _ ho c.ask (Dev.queueReq_stops_pending lt c.stops st)

end

/-! ### FILTER_RAMP -/

section
variable {gm ga n : Nat}

theorem filterRamp_queued (ho : HostOk o s) (args : RampArgs i gm ga n) (st : (s.dev.fst i).state ≠ .stopPending)
    (later : (s.dev.fst i).open = false ∨ s.dev.reqWaits i = true) :
    Does (.filterRamp o i gm ga n) s { s.dev with fce := { s.dev.fce with
      cmds := s.dev.fce.cmds ++ [{ stream := i, kind := .ramp gm ga n, who := some (.host o, 0x0408) }] } } :=
  does_of_hostCmd_held _ ho rfl (Dev.cmdRamp_queued args st later)

theorem filterRamp_now (ho : HostOk o s) (args : RampArgs i gm ga n) (st : (s.dev.fst i).state = .stopped)
    (free : (s.dev.fst i).held = none) (alone : s.dev.reqWaits i = false) :
    Answers (.filterRamp o i gm ga n) o 0x0408 s .ok [] (s.dev.setFst i { s.dev.fst i with gm := gm, ga := ga }) :=
  answers_of_hostCmd _ ho rfl (Dev.cmdRamp_now args st free alone)

theorem filterRamp_refused (ho : HostOk o s) (args : RampArgs i gm ga n) (st : (s.dev.fst i).state = .stopPending) :
    Answers (.filterRamp o i gm ga n) o 0x0408 s .refusedBusy [] s.dev :=
  answers_of_hostCmd _ ho rfl (Dev.cmdRamp_pending args st)

end

/-! ### The boundary -/

theorem filterBoundaryApply_does (sub : s.clk.sub = 0) : Does .filterBoundaryApply s (s.dev.filterBoundary s.clk) := by
  have clk : { s.clk with sub := 0 } = s.clk := by rw [← sub]
  change execFilterBoundaryApply s = _
  rw [execFilterBoundaryApply, atSub, if_pos ⟨Nat.le_of_eq sub, by decide⟩, clk, onDev_next]

/-- The boundary of a single request is its judgement. -/
theorem filterBoundaryApply_single {r : FReq} {d : Dev} (sub : s.clk.sub = 0) (cmds : s.dev.fce.cmds = [r])
    (acts : s.dev.fce.acts = []) (idle : s.dev.StreamsIdle)
    (judged : ({ s.dev with fce := { s.dev.fce with cmds := [] } } : Dev).judgeReq s.clk r = d) :
    Does .filterBoundaryApply s d := by
  have waiting : s.dev.fce.cmds ++ s.dev.fce.acts = [r] := by rw [cmds, acts]; rfl
  have taken : ({ s.dev.fce with cmds := [], acts := [] } : Fce) = { s.dev.fce with cmds := [] } := by simp only [acts]
  have boundary := filterBoundaryApply_does sub
  rw [Dev.filterBoundary_of_idle s.clk idle, waiting, taken] at boundary
  exact judged ▸ boundary

/-! ### Command packets (R122) -/

/-- A packet that is read runs its command, or is answered ST_BAD_ARG where its words do not spell the one named. -/
theorem fceCmdPacket_does {c : FceCmd} {p : Pkt} {w0 : Word} {ws : List Word} {d : Dev}
    (en : s.dev.fce.cmdEn = true) (take : s.dev.hopTake s.clk s.dev.fce.cmdHop = (some (p, w0 :: ws), d)) {r : Reply × Dev}
    (run : (if w0.toNat % 65536 = fceOpc c then d.fceRun (.fcePkt (w0.toNat / 65536)) c else (.now .badArg [], d)) = r) :
    Does (.fceCmdPacket c) s (r.2.reply s.clk (.fcePkt (w0.toNat / 65536)) (w0.toNat % 65536) r.1) := by
  refine does_of_onDev (execFceCmdPacket c s) rfl rfl ?_
  simp [en, take, ← run]

theorem exec_fceCmdPacket_disabled (off : s.dev.fce.cmdEn = false) (c : FceCmd) :
    exec (.fceCmdPacket c) s = .next s :=
  does_of_onDev (d := s.dev) (execFceCmdPacket c s) rfl rfl (by simp [off])

end

/-! ### The obligations -/

/-- Settles O25: a request is asked (`Dev.askReq`) as it is accepted, and judged (`Dev.judgeReq`) at the boundary. -/
theorem filterRequestsWaitForTheBoundary : Obligations.FilterRequestsWaitForTheBoundary := by
  intro s i lt
  refine ⟨fun o ho => ⟨fun flush => ?_, fun st now => ?_, fun run fading alone => ?_, fun st => ?_,
      fun gm ga n ticks ticksLe main alt tx run => ?_, fun gm ga n ticks ticksLe main alt tx st free alone => ?_⟩,
    fun r sub cmds acts on idle => ?_, fun o gm ga n ho ticks ticksLe main alt tx => ?_, filterBoundaryApply_does,
    fun p w0 ws d c en take spells => ?_, exec_fceCmdPacket_disabled, fun p w0 ws d en take => ?_,
    fun p w0 ws d flush en take opc => ?_⟩
  · exact does_of_hostCmd_held _ ho rfl (Dev.queueReq_start lt)
  · exact ⟨stopCmd_stop.queued ho lt st now, fun named b => (stopCmd_swap named b).queued ho lt st now⟩
  · exact ⟨stopCmd_stop.deferred ho lt run fading alone,
      fun named b => (stopCmd_swap named b).deferred ho lt run fading alone⟩
  · exact ⟨stopCmd_stop.refused ho lt st, fun named b => (stopCmd_swap named b).refused ho lt st⟩
  · exact filterRamp_queued ho ⟨ticks, ticksLe, main, alt, tx, lt⟩ (by simp [run])
      (.inl (FStream.open_eq_false (.inl (by simp [run]))))
  · exact filterRamp_now ho ⟨ticks, ticksLe, main, alt, tx, lt⟩ st free alone
  · subst on
    refine ⟨_, rfl, fun flush kind st => ?_, fun flush kind st => ?_, fun kind st steady => ?_,
      fun named b kind st steady => ?_, fun gm ga n kind tx st => ?_⟩ <;>
      refine filterBoundaryApply_single sub cmds acts idle ?_
    · exact Dev.judgeReq_start_stopped kind st (idle r.stream).1
    · exact Dev.judgeReq_start_running kind st
    · exact Dev.judgeReq_stop kind st steady
    · exact Dev.judgeReq_swap kind st steady
    · exact Dev.judgeReq_ramp kind tx st
  · have args : RampArgs i gm ga n := ⟨ticks, ticksLe, main, alt, tx, lt⟩
    exact ⟨fun st later => filterRamp_queued ho args st (later.imp_left fun held => FStream.open_eq_false (.inr held)),
      filterRamp_refused ho args⟩
  · exact spells ▸ fceCmdPacket_does en take (if_pos spells)
  · exact fceCmdPacket_does (r := (.now .badArg [], d)) en take (ite_self _)
  · have started := fceCmdPacket_does (c := .start i flush) en take (if_pos opc)
    rwa [Dev.fceRun, Dev.queueReq_start lt] at started

/-- Settles O26: the slot runs at its end (`exec_streamSlot`), and a stopped stream's slot is `Dev.slot_tx_stopped` or
`Dev.slot_rx_stopped`. -/
theorem streamSlotsFallInTheirSubTicks : Obligations.StreamSlotsFallInTheirSubTicks := by
  intro s n _
  refine ⟨exec_streamSlot_past, fun ge done => ?_, fun ge due => ?_, fun wf ge due st free => ⟨fun tx => ?_, fun rx => ?_⟩⟩
  · rw [exec_streamSlot ge, if_pos done]
  · rw [exec_streamSlot ge, if_neg due]
  · rw [exec_streamSlot ge, if_neg due, Dev.slot_tx_stopped wf tx st free]
  · rw [exec_streamSlot ge, if_neg due, Dev.slot_rx_stopped wf rx st free]

end Sys2Proof

/-! # The calibration unit's obligations (chapter 5)

An event or command of the unit tests its guard and then makes one of the unit's own operations; what each operation gives is
said once here, for an item whatever its kind, and the obligations read it for lanes and for ranks. -/

namespace Sys2Proof

/-! ### Stores written more than once -/

section
variable {α : Type} [DecidableEq α] {d : α}

theorem Store.put_put_from {st : Store α} {lo k : Nat} {v w : α} (wf : Store.wfFrom d lo st = true) :
    Store.put d (Store.put d st k v) k w = Store.put d st k w := by
  induction st generalizing lo with
  | nil => by_cases hv : v = d <;> simp [Store.put, hv]
  | cons p r ih =>
    obtain ⟨a, x⟩ := p
    simp only [Store.wfFrom, Bool.and_eq_true, decide_eq_true_eq] at wf
    obtain ⟨⟨_, _⟩, rest⟩ := wf
    obtain here | before | after : k = a ∨ (k ≠ a ∧ k < a) ∨ (k ≠ a ∧ ¬ k < a) := by omega
    · subst here
      by_cases hv : v = d
      · simp only [Store.put, if_true, hv]
        cases r with
        | nil => simp [Store.put]
        | cons q r =>
          obtain ⟨b, y⟩ := q
          simp only [Store.wfFrom, Bool.and_eq_true, decide_eq_true_eq] at rest
          simp [Store.put, show k ≠ b by omega, show k < b by omega]
      · simp [Store.put, hv]
    · by_cases hv : v = d <;> simp [Store.put, hv, before]
    · simp [Store.put, after, ih rest]

/-- Of two writes to the same key the second stands. -/
theorem Store.put_put {st : Store α} {k : Nat} {v w : α} (wf : Store.wf d st = true) :
    Store.put d (Store.put d st k v) k w = Store.put d st k w := Store.put_put_from wf

/-- A pass that rewrites each of some keys once, from what it holds, leaves at each key its own rewriting. -/
theorem Store.get_foldl_put {f : Nat → α → α} {keys : List Nat} (once : keys.Nodup) {st : Store α}
    (wf : Store.wf d st = true) (i : Nat) :
    Store.get d (keys.foldl (fun st j => Store.put d st j (f j (Store.get d st j))) st) i =
      if i ∈ keys then f i (Store.get d st i) else Store.get d st i := by
  induction keys generalizing st with
  | nil => rfl
  | cons j keys ih =>
    obtain ⟨new, once⟩ := List.nodup_cons.mp once
    rw [List.foldl_cons, ih once (Store.wf_put wf)]
    by_cases here : i = j
    · subst here
      simp [new, Store.get_put_self wf]
    · simp [here, Store.get_put_ne wf here]

end

end Sys2Proof

namespace Sys2Proof.Machine
open Sys2Proof

section
variable {d : Dev} {k : Clock} {n q r : Nat}

/-! ### Items -/

theorem Dev.calItem_setItem_self (wf : Store.wf {} d.cal.items = true) (x : CalItem) : (d.setItem n x).calItem n = x :=
  Store.get_put_self wf

theorem Dev.calItem_modItem_self (wf : Store.wf {} d.cal.items = true) (f : CalItem → CalItem) :
    (d.modItem n f).calItem n = f (d.calItem n) := Dev.calItem_setItem_self wf _

theorem Dev.modItem_modItem (wf : Store.wf {} d.cal.items = true) (f g : CalItem → CalItem) :
    (d.modItem n f).modItem n g = d.modItem n (fun x => g (f x)) := by
  unfold Dev.modItem
  rw [Dev.calItem_setItem_self wf]
  simp only [Dev.setItem, Dev.setCal, Store.put_put wf]

/-- An application step is made once a tick, and not while the reading is invalid, but for a CAL_SET's (R125, R131). -/
theorem Dev.stepOk_iff : d.stepOk k n = true ↔ (d.calItem n).phase = .applying ∧ (d.calItem n).stepped ≠ k.tick + 1 ∧
    ((d.calItem n).setting = true ∨ d.readingBad n = false) := by
  simp [Dev.stepOk, and_assoc]

theorem rankKey_not_lane (r : Nat) : ¬ rankKey r < 32 := Nat.not_lt.mpr (Nat.le_add_right 32 r)

theorem rankKey_sub (r : Nat) : rankKey r - 32 = r := Nat.add_sub_cancel_left 32 r

theorem Dev.calState_rank (d : Dev) (r : Nat) : d.calState (rankKey r) = (d.calItem (rankKey r)).phase := by
  simp only [Dev.calState, rankKey_not_lane, decide_false, Bool.false_and, Bool.false_eq_true, if_false]

theorem Dev.calState_lane (rest : d.startScans n = false) : d.calState n = (d.calItem n).phase := by
  simp [Dev.calState, rest]

theorem Dev.calOn_lane (d : Dev) (lt : n < 32) : d.calOn n = true := by simp [Dev.calOn, lt]

theorem Dev.calOn_rank (d : Dev) (r : Nat) : d.calOn (rankKey r) = ((d.rank r).state == .inService) := by
  simp only [Dev.calOn, Dev.rank, rankKey_not_lane, rankKey_sub, decide_false, Bool.false_or]

/-! ### Names of items (Table 5.3) -/

theorem calName_lane (lt : n < 32) : calName 0 n 0 = (.ok, n) := by simp [calName, lt]

theorem calName_rank (lt : r < 4) : calName 1 r (r / 2) = (.ok, rankKey r) := by
  simp [calName, lt, show ¬ 1 < r / 2 by omega]

/-! ### Sensors (R124 to R126) -/

theorem itemSensor_lane (lt : n < 32) : itemSensor n = n / 8 := if_pos lt

theorem Dev.refNow_valid (valid : (d.cal.sensors.get {} (itemSensor n)).valid = true) : d.refNow n = some (d.reading n) :=
  if_pos valid

theorem Dev.refNow_invalid (invalid : (d.cal.sensors.get {} (itemSensor n)).valid = false) : d.refNow n = none :=
  if_neg (by simp [invalid])

/-- The sensors once each has taken its conversion. -/
def Cal.converted (c : Cal) (vals : List Int) : Store Sensor :=
  (List.range 8).foldl (fun st i =>
    st.put {} i { st.get {} i with conv := ((vals[i]?.getD 0) :: (st.get {} i).conv).take 16 }) c.sensors

theorem Cal.converted_get {c : Cal} {vals : List Int} {i : Nat} {v : Int} (wf : Store.wf {} c.sensors = true) (lt : i < 8)
    (val : vals[i]? = some v) : (c.converted vals).get {} i =
      { c.sensors.get {} i with conv := (v :: (c.sensors.get {} i).conv).take 16 } := by
  have pass := Store.get_foldl_put (f := fun j (x : Sensor) => { x with conv := ((vals[j]?.getD 0) :: x.conv).take 16 })
    (List.nodup_range (n := 8)) wf i
  rw [if_pos (List.mem_range.mpr lt), val, Option.getD_some] at pass
  exact pass

theorem Dev.updateSensor_few {i : Nat} (few : (d.cal.sensors.get {} i).conv.length < 16) : d.updateSensor i = d := if_pos few

theorem Dev.compareItem_noRef (new : (d.calItem n).ref = none) : d.compareItem n = d := by
  simp [Dev.compareItem, new]

/-- With no item and no sensor known the update changes only its mark. -/
theorem Dev.updateTemps_of_empty (sensors : d.cal.sensors = []) (items : d.cal.items = []) :
    d.updateTemps k = d.setCal { d.cal with updAt := k.tick + 1 } := by
  simp only [Dev.updateTemps]
  generalize marked : d.setCal { d.cal with updAt := k.tick + 1 } = e
  have sensors : e.cal.sensors = [] := marked ▸ sensors
  have items : e.cal.items = [] := marked ▸ items
  rw [Dev.foldl_unchanged (pass := Dev.updateSensor) (fun i => Dev.updateSensor_few (by simp [sensors, Store.get])),
    Dev.foldl_unchanged (pass := Dev.compareItem) (fun n => Dev.compareItem_noRef (by simp [Dev.calItem, items, Store.get]))]

/-! ### Scans (R128 to R134) -/

/-- The choice of R129 draws at most a free value. -/
theorem Dev.scanResult_device (d : Dev) (q : Nat) (errs : List Nat) : ∃ n, (d.scanResult q errs).2 = { d with freeN := n } := by
  simp only [Dev.scanResult, Dev.chooseDelay]
  split
  · exact ⟨d.freeN, rfl⟩
  · exact ⟨d.freeN + 1, rfl⟩

theorem Dev.scanLen_live (live : (d.lane q).train = .live) : d.scanLen q = 96 := by
  simp [Dev.scanLen, Dev.startScans, live]

theorem Dev.scanLen_start (start : d.startScans q = true) : d.scanLen q = if d.cal.hadRec then 96 else 2048 := by
  cases had : d.cal.hadRec <;> simp [Dev.scanLen, start, had]

/-- The scan of a lane that was pinned meanwhile ends with its codes kept (R138). -/
theorem Dev.endScan_pinned {errs : List Nat} (pinned : (d.calItem q).pinned = true) :
    d.endScan k q errs = ((d.scanResult q errs).2.bump1 .calLScan q).calEnd k q .aborted := by
  simp [Dev.endScan, pinned]

/-- The result of a scan begins to be applied; where it is what the lane has, the calibration is complete. -/
theorem Dev.endScan_applies {errs : List Nat} {goal : Nat × Nat} {d' : Dev} (free : (d.calItem q).pinned = false)
    (keep : (d.calItem q).discard = false) (chosen : (d.scanResult q errs).1 = goal)
    (next : ((d.scanResult q errs).2.bump1 .calLScan q).modItem q (fun x => { x with
      phase := .applying, goalD := goal.1, goalT := goal.2, ref := x.newRef.or x.ref }) = d') :
    d.endScan k q errs = if goal.1 = (d.calItem q).delay ∧ goal.2 = (d.calItem q).thresh
      then (d'.setCal { d'.cal with dirty := true }).calEnd k q .ok else d'.setCal { d'.cal with dirty := true } := by
  subst chosen next
  unfold Dev.endScan
  exact (if_neg (by simp [free, keep])).trans
    (ite_congr (by simp only [Bool.and_eq_true, beq_iff_eq]) (fun _ => rfl) (fun _ => rfl))

/-! ### Steps of application (R131, R136) -/

/-- A lane's item after one step of application. -/
def CalItem.laneStep (x : CalItem) (tick : Nat) : CalItem :=
  { x with delay := stepDelay x.delay x.goalD, thresh := stepCode x.thresh x.goalT, stepped := tick + 1 }

/-- The lanes after a step that leaves lane `q` with the item `y`: its bit alignment moves where DELAY wraps. -/
def Dev.stepLanes (d : Dev) (q : Nat) (y : CalItem) : Oll :=
  if stepAlign (d.calItem q).delay y.delay = 0 then d.oll
  else (d.setLane q { d.lane q with align := (d.lane q).align + stepAlign (d.calItem q).delay y.delay }).oll

theorem Dev.modLane_unless (p : Prop) [Decidable p] (f : Lane → Lane) : (if p then d else d.modLane q f) =
    { d with oll := if p then d.oll else (d.modLane q f).oll } := by
  split <;> rfl

/-- A rank's item after one step of application. -/
def CalItem.rankStep (x : CalItem) (tick : Nat) : CalItem :=
  { x with rd := List.zipWith stepCode x.rd x.goalRd, wr := List.zipWith stepCode x.wr x.goalWr, stepped := tick + 1 }

theorem stepCode_of_lt {x goal : Nat} (lt : x < goal) : stepCode x goal = x + 1 := if_pos lt

/-! ### Records (R140) -/

/-- A record write fills the slot that does not hold the newer valid record. -/
theorem Dev.calWrite_begins (k : Clock) (d : Dev) : ∃ b rec, d.calWrite k = { d with cal :=
    { d.cal.setSlot b {} with writing := some (b, rec), dirty := false } } ∧ rec.valid = true ∧ rec.stamp = clockStamp k ∧
      d.cal.newer ≠ some b := by
  refine ⟨_, _, rfl, rfl, rfl, ?_⟩
  cases d.cal.newer <;> simp

/-! ### A pin (R138) -/

/-- The device once item `n` is pinned: a scan in progress will be discarded. -/
def Dev.pinItem (d : Dev) (n : Nat) : Dev :=
  ({ d with cal := { d.cal with dirty := true } }).setItem n { d.calItem n with
    pinned := true, discard := (d.calItem n).discard || (d.calState n == CPhase.measuring) }

theorem Dev.pinItem_idle (idle : d.calState n = .idle) : d.pinItem n =
    ({ d with cal := { d.cal with dirty := true } }).setItem n { d.calItem n with pinned := true } := by
  rw [Dev.pinItem, idle, show (CPhase.idle == CPhase.measuring) = false from rfl, Bool.or_false]

end

end Sys2Proof.Machine

namespace Sys2Proof
open Sys2Proof.Machine

section
variable {s : State}

/-! ### The events of sensors and lanes -/

theorem sensorConvert_does {vals : List Int} (eight : vals.length = 8) (at8 : s.clk.tick % 8 = 0)
    (new : s.dev.cal.convAt ≠ s.clk.tick + 1) : Does (.sensorConvert vals) s { s.dev with cal := { s.dev.cal with
      sensors := s.dev.cal.converted vals, convAt := s.clk.tick + 1 } } :=
  does_of_onDev (execSensorConvert vals s) rfl rfl (if_pos (by simp [eight, at8, new]))

theorem sensorUpdate_does (at64 : s.clk.tick % 64 = 0) (new : s.dev.cal.updAt ≠ s.clk.tick + 1) :
    Does .sensorUpdate s (s.dev.updateTemps s.clk) :=
  does_of_onDev (execSensorUpdate s) rfl rfl (if_pos (by simp [at64, new]))

theorem laneScanStart_does {q : Nat} (at8 : s.clk.tick % 8 = 0) (sub : s.clk.sub = 0) (free : s.dev.laneCalBusy = false)
    (next : s.dev.nextLane = some q) :
    Does (.laneScanStart q) s (((s.dev.calUnqueue q).setItem q { s.dev.calItem q with
      phase := .measuring, newRef := s.dev.refNow q, discard := false }).setLane q
        { s.dev.lane q with scanFrom := some s.clk.tick }) :=
  does_of_onDev (execLaneScanStart q s) rfl rfl (if_pos (by simp [at8, sub, free, next]))

theorem laneScanEnd_live {q : Nat} {errs errsT : List Nat} (len : errs.length = 64) (lenT : errsT.length = 32)
    (live : (s.dev.lane q).train = .live) (scan : (s.dev.calItem q).phase = .measuring) (four : 4 ≤ s.clk.tick)
    (begun : (s.dev.lane q).scanFrom = some (s.clk.tick - 4)) :
    Does (.laneScanEnd q errs errsT) s (s.dev.endScan s.clk q (errs ++ errsT)) := by
  refine does_of_onDev (execLaneScanEnd q errs errsT s) rfl rfl ((if_neg ?_).trans ((if_neg ?_).trans (if_pos ?_)))
  · simp [len, lenT, Dev.scanLen_live live]
  · simp [Dev.startScans, live]
  · simp [scan, begun, four]

theorem laneScanEnd_start {q : Nat} {errs errsT : List Nat} (start : s.dev.startScans q = true)
    (len : errs.length = (if s.dev.cal.hadRec then 64 else 2048)) (lenT : errsT.length = (if s.dev.cal.hadRec then 32 else 0))
    (ended : (if s.dev.cal.hadRec then 4 else 32) ≤ (s.dev.lane q).inTicks) :
    Does (.laneScanEnd q errs errsT) s (s.dev.endStartScan s.clk q (errs ++ errsT)) := by
  refine does_of_onDev (execLaneScanEnd q errs errsT s) rfl rfl ((if_neg ?_).trans ((if_pos start).trans (if_pos ended)))
  rw [List.length_append, len, lenT, Dev.scanLen_start start]
  cases s.dev.cal.hadRec <;> simp

theorem laneCalApplyStep_off {q : Nat} (off : s.dev.stepOk s.clk q = false) : exec (.laneCalApplyStep q) s = .next s :=
  does_of_onDev (d := s.dev) (execLaneCalApplyStep q s) rfl rfl (if_neg (by simp [off]))

theorem laneCalApplyStep_does {q : Nat} {y : CalItem} {d : Dev} (lt : q < 32) (ok : s.dev.stepOk s.clk q = true)
    (stepped : (s.dev.calItem q).laneStep s.clk.tick = y)
    (moved : { s.dev with oll := s.dev.stepLanes q y, cal := { s.dev.cal with
      items := s.dev.cal.items.put {} q y, dirty := true } } = d) :
    Does (.laneCalApplyStep q) s (if y.delay = y.goalD ∧ y.thresh = y.goalT then d.calEnd s.clk q .ok else d) := by
  refine does_of_onDev (execLaneCalApplyStep q s) rfl rfl ((if_pos (by simp [lt, ok])).trans ?_)
  subst stepped moved
  simp only [Dev.modLane_unless]
  exact ite_congr (by simp only [Bool.and_eq_true, beq_iff_eq]; rfl) (fun _ => rfl) (fun _ => rfl)

/-! ### The events of ranks and records

A measurement is made on `e`, the device that bears its mark. -/

section
variable {r : Nat} {bad : BitVec 4} {e : Dev}

/-- The first measurement of a rank takes it from the queue. -/
theorem rankRecalMeasure_first (turn : s.dev.rankTurn = some r) (new : s.dev.cal.measAt ≠ clockStamp s.clk + 1)
    (marked : s.dev.setCal { s.dev.cal with measAt := clockStamp s.clk + 1 } = e)
    (queued : (e.calItem (rankKey r)).phase = .queued) (wf : Store.wf {} e.cal.items = true) :
    Does (.rankRecalMeasure r bad) s ((e.calUnqueue (rankKey r)).modItem (rankKey r) (fun x => { x with
      phase := .measuring, points := [bad], newRef := e.refNow (rankKey r), discard := false })) := by
  refine does_of_onDev (execRankRecalMeasure r bad s) rfl rfl ((if_pos (by simp [turn, new])).trans ?_)
  simp only [marked, queued, beq_self_eq_true, if_true]
  rw [Dev.modItem_modItem (d := e.calUnqueue _) wf, Dev.calItem_modItem_self (d := e.calUnqueue _) wf]
  exact if_neg (by simp)

theorem rankRecalMeasure_next (turn : s.dev.rankTurn = some r) (new : s.dev.cal.measAt ≠ clockStamp s.clk + 1)
    (marked : s.dev.setCal { s.dev.cal with measAt := clockStamp s.clk + 1 } = e)
    {x : CalItem} (held : e.calItem (rankKey r) = x) (going : x.phase = .measuring)
    (wf : Store.wf {} e.cal.items = true) {d : Dev}
    (taken : e.modItem (rankKey r) (fun x => { x with points := x.points ++ [bad] }) = d) :
    Does (.rankRecalMeasure r bad) s (if x.points.length = 63 then d.recalChoose s.clk r else d) := by
  refine does_of_onDev (execRankRecalMeasure r bad s) rfl rfl ((if_pos (by simp [turn, new])).trans ?_)
  subst taken
  simp only [marked, held, going, show (CPhase.measuring == CPhase.queued) = false from rfl, Bool.false_eq_true, if_false]
  rw [Dev.calItem_modItem_self wf, held]
  exact ite_congr (by simp) (fun _ => rfl) (fun _ => rfl)

end

theorem rankRecalApplyStep_does {r : Nat} {y : CalItem} {d : Dev} (lt : r < 4) (ok : s.dev.stepOk s.clk (rankKey r) = true)
    (stepped : (s.dev.calItem (rankKey r)).rankStep s.clk.tick = y)
    (moved : { s.dev with cal := { s.dev.cal with dirty := true, items := s.dev.cal.items.put {} (rankKey r) y } } = d) :
    Does (.rankRecalApplyStep r) s
      (if y.rd = y.goalRd ∧ y.wr = y.goalWr then (d.bump1 .calRankRecal r).calEnd s.clk (rankKey r) .ok else d) := by
  refine does_of_onDev (execRankRecalApplyStep r s) rfl rfl ((if_pos (by simp [lt, ok])).trans ?_)
  subst stepped moved
  exact ite_congr (by simp only [Bool.and_eq_true, beq_iff_eq]; rfl) (fun _ => rfl) (fun _ => rfl)

theorem recordInterval_does (interval : s.clk.tick % (max 1 s.dev.cal.interval * 28800000) = 0)
    (dirty : s.dev.cal.dirty = true) (free : s.dev.cal.writing = none) (run : s.dev.hif.paused = false)
    (power : s.dev.sys.pfwN = true) : Does .recordInterval s (s.dev.calWrite s.clk) :=
  does_of_onDev (execRecordInterval s) rfl rfl (if_pos (by simp [interval, dirty, free, run, power]))

theorem calRecordWriteDone_does {b : Bool} {rec : CalRec} (writing : s.dev.cal.writing = some (b, rec)) :
    Does .calRecordWriteDone s ((({ s.dev with cal := { s.dev.cal.setSlot b rec with writing := none } }).bump0
      .calRecordWrite).finish s.clk .calSave 0 .ok) :=
  does_of_onDev (execCalRecordWriteDone s) rfl rfl (by simp only [writing]; rfl)

/-! ### The commands that name an item -/

section
variable {o : Origin} {kind n ch m : Nat}

theorem calStatus_answers (ho : HostOk o s) (name : calName kind n ch = (.ok, m)) :
    ∃ more, Answers (.calStatus o kind n ch) o 0x0501 s .ok
      ((if kind = 0 then [⟨1, (s.dev.calItem m).delay⟩, ⟨1, (s.dev.calItem m).thresh⟩]
        else (s.dev.calItem m).rd.map (fun v => ⟨1, v⟩) ++ (s.dev.calItem m).wr.map (fun v => ⟨1, v⟩)) ++ more) s.dev :=
  ⟨_, answers_of_hostCmd _ ho rfl (by simp only [name]; rfl)⟩

theorem calRun_waits (ho : HostOk o s) (name : calName kind n ch = (.ok, m)) (free : (s.dev.calItem m).pinned = false)
    (on : s.dev.calOn m = true) : Waits (.calRun o kind n ch) o 0x0502 s .calRun m
      (if (s.dev.calItem m).phase = .idle then s.dev.calQueue m else s.dev) :=
  waits_of_hostCmd _ ho rfl (by simp [name, free, on, firstStatus])

theorem calRun_outOfService (ho : HostOk o s) (name : calName kind n ch = (.ok, m))
    (free : (s.dev.calItem m).pinned = false) (off : s.dev.calOn m = false) :
    Answers (.calRun o kind n ch) o 0x0502 s .refusedBusy [] s.dev :=
  answers_of_hostCmd _ ho rfl (by simp [name, free, off, firstStatus])

theorem calRun_locked (ho : HostOk o s) (name : calName kind n ch = (.ok, m)) (pinned : (s.dev.calItem m).pinned = true) :
    Answers (.calRun o kind n ch) o 0x0502 s .locked [] s.dev := by
  refine answers_of_hostCmd _ ho rfl ?_
  cases on : s.dev.calOn m <;> simp [name, pinned, on, firstStatus, statusRank]

/-- An item whose calibration is not in progress, or is a scan or a CAL_SET's move, is pinned where it stands. -/
theorem calPin_pins (ho : HostOk o s) (name : calName kind n ch = (.ok, m))
    (stays : (s.dev.calItem m).phase = .idle ∨ (s.dev.calItem m).phase = .measuring ∨
      ((s.dev.calItem m).phase = .applying ∧ (s.dev.calItem m).setting = true)) :
    Answers (.calPin o kind n ch 1) o 0x0503 s .ok [] (s.dev.pinItem m) := by
  refine answers_of_hostCmd _ ho rfl ?_
  obtain idle | scan | ⟨move, set⟩ := stays
  · simp only [name, Dev.pinItem, idle]; rfl
  · simp only [name, Dev.pinItem, scan]; rfl
  · simp only [name, Dev.pinItem, move, set]; rfl

/-- A queued item, and one whose result is being applied, ends its calibration by the pin. -/
theorem calPin_ends (ho : HostOk o s) (name : calName kind n ch = (.ok, m))
    (ends : (s.dev.calItem m).phase = .queued ∨
      ((s.dev.calItem m).phase = .applying ∧ (s.dev.calItem m).setting = false)) :
    Answers (.calPin o kind n ch 1) o 0x0503 s .ok [] ((s.dev.pinItem m).calEnd s.clk m .aborted) := by
  refine answers_of_hostCmd _ ho rfl ?_
  obtain queued | ⟨move, result⟩ := ends
  · simp only [name, Dev.pinItem, queued]; rfl
  · simp only [name, Dev.pinItem, move, result]; rfl

theorem calPin_unpins (ho : HostOk o s) (name : calName kind n ch = (.ok, m)) (pinned : (s.dev.calItem m).pinned = true) :
    Answers (.calPin o kind n ch 0) o 0x0503 s .ok []
      (({ s.dev with cal := { s.dev.cal with dirty := true } }).setItem m { s.dev.calItem m with
        pinned := false, ref := (s.dev.refNow m).or (s.dev.calItem m).ref }) := by
  refine answers_of_hostCmd _ ho rfl ?_
  simp only [name, pinned]
  rfl

end

/-! ### CAL_SET, CAL_SAVE and CAL_RECORD_READ -/

section
variable {o : Origin} {n delay thresh : Nat} {d : Dev}

theorem calSet_rank (ho : HostOk o s) {r : Nat} (lt : r < 4) : Answers (.calSet o 1 r 0 0) o 0x0504 s .badArg [] s.dev := by
  refine answers_of_hostCmd _ ho rfl ?_
  cases scan : s.dev.calState r == CPhase.measuring <;> simp [firstStatus, statusRank, show ¬ 31 < r by omega]

theorem calSet_checks (lt : n < 32) (top : delay ≤ 63) (topT : thresh ≤ 31) (still : s.dev.calState n ≠ .measuring) :
    firstStatus .ok [(0 != 0 || decide (63 < delay) || decide (31 < thresh), .badArg), (decide (31 < n), .unknownObject),
      (s.dev.calState n == .measuring, .refusedBusy)] = .ok := by
  simp [firstStatus, Nat.not_lt.mpr top, Nat.not_lt.mpr topT, Nat.not_lt.mpr (Nat.le_of_lt_succ lt), still]

/-- CAL_SET of a lane first ends the calibration in progress; where the codes are then those asked, it only pins. -/
theorem calSet_pins (ho : HostOk o s) (lt : n < 32) (top : delay ≤ 63) (topT : thresh ≤ 31)
    (still : s.dev.calState n ≠ .measuring)
    (ended : (if (s.dev.calItem n).phase = .idle then s.dev else s.dev.calEnd s.clk n .aborted) = d)
    (same : (d.calItem n).delay = delay) (sameT : (d.calItem n).thresh = thresh) :
    Answers (.calSet o 0 n delay thresh) o 0x0504 s .ok []
      (({ d with cal := { d.cal with dirty := true } }).setItem n { d.calItem n with pinned := true }) := by
  refine answers_of_hostCmd _ ho rfl ((if_neg ?_).trans ?_)
  · rw [calSet_checks lt top topT still]; decide
  · simp only [beq_iff_eq, ended]
    exact if_pos (Bool.and_eq_true_iff.mpr ⟨decide_eq_true same, decide_eq_true sameT⟩)

theorem calSet_moves (ho : HostOk o s) (lt : n < 32) (top : delay ≤ 63) (topT : thresh ≤ 31)
    (still : s.dev.calState n ≠ .measuring)
    (ended : (if (s.dev.calItem n).phase = .idle then s.dev else s.dev.calEnd s.clk n .aborted) = d)
    (other : (d.calItem n).delay ≠ delay ∨ (d.calItem n).thresh ≠ thresh) :
    Waits (.calSet o 0 n delay thresh) o 0x0504 s .calSet n
      (({ d with cal := { d.cal with dirty := true } }).setItem n { d.calItem n with
        pinned := true, phase := .applying, setting := true, goalD := delay, goalT := thresh }) := by
  refine waits_of_hostCmd _ ho rfl ((if_neg ?_).trans ?_)
  · rw [calSet_checks lt top topT still]; decide
  · simp only [beq_iff_eq, ended]
    exact if_neg (fun both => not_and_of_not_or_not other
      ((Bool.and_eq_true_iff.mp both).imp of_decide_eq_true of_decide_eq_true))

theorem calSave_waits (ho : HostOk o s) (free : s.dev.cal.writing = none) (power : s.dev.sys.pfwN = true) :
    Waits (.calSave o) o 0x0505 s .calSave 0 (s.dev.calWrite s.clk) :=
  waits_of_hostCmd _ ho rfl (by simp [free, power])

theorem calSave_powerFail (ho : HostOk o s) (free : s.dev.cal.writing = none) (fail : s.dev.sys.pfwN = false) :
    Answers (.calSave o) o 0x0505 s .aborted [] s.dev :=
  answers_of_hostCmd _ ho rfl (by simp [free, fail])

theorem calRecordRead_answers (ho : HostOk o s) {slot : Nat} (top : slot ≤ 1) :
    Answers (.calRecordRead o slot) o 0x0506 s .ok [⟨4, (s.dev.cal.slot (slot == 1)).seq.toNat⟩,
      ⟨8, (s.dev.cal.slot (slot == 1)).stamp⟩, ⟨1, b2n (s.dev.cal.slot (slot == 1)).valid⟩] s.dev :=
  answers_of_hostCmd _ ho rfl (if_neg (Nat.not_lt.mpr top))

end

end

/-! ### The obligations -/

/-- Settles O27: each event makes its operation (`Dev.updateTemps`, `Dev.endScan`, a step) under its guard; a scan's result draws
at most a free value (`Dev.scanResult_device`). -/
theorem sensorsAndScansFollowTheirTicks : Obligations.SensorsAndScansFollowTheirTicks := by
  intro s
  refine ⟨fun vals eight at8 new => ⟨_, sensorConvert_does eight at8 new, fun wf i v val => ?_⟩,
    fun at64 new => sensorUpdate_does at64 new, fun at64 new sensors items => ?_,
    fun q _ at8 sub free next => laneScanStart_does at8 sub free next,
    fun q errs errsT len lenT live scan four begun => ⟨fun pinned => ?_, fun free keep => ?_⟩,
    fun q errs errsT lock start len lenT ended => laneScanEnd_start (by simp [Dev.startScans, lock, start]) len lenT ended,
    fun q _ _ invalid result => laneCalApplyStep_off (by simp [Dev.stepOk, invalid, result]),
    fun q lt applying new valid _ _ => ?_⟩
  · obtain ⟨lt, _⟩ := List.getElem?_eq_some_iff.mp val
    exact Cal.converted_get wf (eight ▸ lt) val
  · have update := sensorUpdate_does at64 new
    rwa [Dev.updateTemps_of_empty sensors items] at update
  · obtain ⟨n, drawn⟩ := s.dev.scanResult_device q (errs ++ errsT)
    have scanned := laneScanEnd_live len lenT live scan four begun
    rw [Dev.endScan_pinned pinned, drawn] at scanned
    exact ⟨n, scanned⟩
  · obtain ⟨n, drawn⟩ := s.dev.scanResult_device q (errs ++ errsT)
    have scanned := laneScanEnd_live len lenT live scan four begun
    rw [Dev.endScan_applies free keep rfl rfl, drawn] at scanned
    exact ⟨n, _, _, _, _, scanned, rfl, rfl, rfl, rfl⟩
  · have step := laneCalApplyStep_does lt (Dev.stepOk_iff.mpr ⟨applying, new, valid.symm⟩) rfl rfl
    refine ⟨_, s.dev.stepLanes q ((s.dev.calItem q).laneStep s.clk.tick), _, step, ?_, fun still => if_pos still,
      fun wraps => if_neg wraps, rfl, fun below => stepCode_of_lt below, rfl⟩
    split
    · exact .inr rfl
    · exact .inl rfl

/-- Settles O28: a measurement joins the points (`Dev.modItem_modItem`), a step is `CalItem.rankStep`, and a write begins by
`Dev.calWrite_begins`. -/
theorem rankRecalibrationAndRecords : Obligations.RankRecalibrationAndRecords := by
  intro s r lt
  refine ⟨fun bad turn new going few wf => ?_, fun bad turn new queued wf => ?_, fun bad turn new going last wf => ?_,
    fun rd wr d applying new valid hrd hwr moved => ?_, fun applying new valid away => ?_,
    fun interval dirty free run power => ?_, fun b rec writing => calRecordWriteDone_does writing⟩
  · have next := rankRecalMeasure_next (bad := bad) (x := s.dev.calItem (rankKey r)) turn new rfl rfl going wf rfl
    rwa [if_neg (Nat.ne_of_lt few)] at next
  · have first := rankRecalMeasure_first (bad := bad) turn new rfl queued wf
    exact ⟨_, first, rfl, rfl, rfl⟩
  · have next := rankRecalMeasure_next (bad := bad) (x := s.dev.calItem (rankKey r)) turn new rfl rfl going wf rfl
    rwa [if_pos last] at next
  · subst hrd hwr
    exact rankRecalApplyStep_does lt (Dev.stepOk_iff.mpr ⟨applying, new, valid⟩) rfl moved
  · have step := rankRecalApplyStep_does lt (Dev.stepOk_iff.mpr ⟨applying, new, .inr valid⟩) rfl rfl
    rwa [if_neg (fun there => away there.1)] at step
  · obtain ⟨b, rec, begun, valid, stamp, old⟩ := s.dev.calWrite_begins s.clk
    exact ⟨b, rec, begun ▸ recordInterval_does interval dirty free run power, valid, stamp, old⟩

/-- Settles O29: each command is said once for an item by its key (`calName_lane`, `calName_rank`), and read for both kinds. -/
theorem calibrationCommandsAnswer : Obligations.CalibrationCommandsAnswer := by
  intro s o n ho lt
  have name := calName_lane lt
  have on := s.dev.calOn_lane lt
  have idle_of (idle : (s.dev.calItem n).phase = .idle) (rest : s.dev.startScans n = false) : s.dev.calState n = .idle :=
    (Dev.calState_lane rest).trans idle
  refine ⟨calStatus_answers ho name, fun free idle => ?_, calRun_locked ho name, fun free busy => ?_, ?_, ?_,
    fun delay thresh top topT still d ended => ⟨calSet_pins ho lt top topT still ended, calSet_moves ho lt top topT still ended⟩,
    fun idle rest => ?_, fun pinned valid => ?_, fun pinned invalid => ?_, fun delay thresh top topT idle rest other => ?_,
    calSave_waits ho, calSave_powerFail ho, fun slot top => calRecordRead_answers ho top⟩
  · have run := calRun_waits ho name free on
    rwa [if_pos idle] at run
  · have run := calRun_waits ho name free on
    rwa [if_neg busy] at run
  · rintro r ltR x rfl
    have name := calName_rank ltR
    refine ⟨calStatus_answers ho name, fun free inService => ?_, fun free out => ?_, calRun_locked ho name, fun idle => ?_,
      calSet_rank ho ltR⟩
    · exact calRun_waits ho name free (by simp [Dev.calOn_rank, inService])
    · exact calRun_outOfService ho name free (by simp [Dev.calOn_rank, out])
    · have pin := calPin_pins ho name (.inl idle)
      rwa [Dev.pinItem_idle (s.dev.calState_rank r ▸ idle)] at pin
  · rintro d rfl
    exact ⟨calPin_ends ho name, calPin_pins ho name⟩
  · have pin := calPin_pins ho name (.inl idle)
    rwa [Dev.pinItem_idle (idle_of idle rest)] at pin
  · have unpin := calPin_unpins ho name pinned
    rwa [Dev.refNow_valid (itemSensor_lane lt ▸ valid), Option.some_or] at unpin
  · have unpin := calPin_unpins ho name pinned
    rwa [Dev.refNow_invalid (itemSensor_lane lt ▸ invalid), Option.none_or] at unpin
  · exact calSet_moves ho lt top topT (by simp [idle_of idle rest]) (if_pos idle) (.inl other)

end Sys2Proof

/-! # The tiles' obligations (chapter 6)

An operation of a bundle is `tileOp` of what it adds to its bundle; when it acts is said once of `tileOp`, and what the
forms of the MAC slot add is said once of each form. Entries and DMA are the shared operations of chapters 6 and 8, each said
once of the cases it has. -/

namespace Sys2Proof

/-! ### Stores read back -/

section
variable {α : Type} [DecidableEq α] {d : α}

/-- A read after a write of what the table does not read as by default gives the value written, in canonical form or not. -/
theorem Store.get_put_self_of_ne {v : α} (ne : v ≠ d) (st : Store α) (k : Nat) :
    Store.get d (Store.put d st k v) k = v := by
  induction st with
  | nil => simp [Store.put, Store.get, ne]
  | cons e r ih =>
    obtain ⟨a, w⟩ := e
    obtain here | before | after : k = a ∨ (k ≠ a ∧ k < a) ∨ (k ≠ a ∧ ¬ k < a) := by omega
    · simp [Store.put, Store.get, ne, here]
    · simp [Store.put, Store.get, ne, before]
    · simp [Store.put, Store.get, after, ih]

theorem Store.get_clear_from {st : Store α} {l lo hi : Nat} (wf : Store.wfFrom d l st = true) (k : Nat) :
    Store.get d (Store.clear st lo hi) k = if lo ≤ k ∧ k < hi then d else Store.get d st k := by
  induction st generalizing l with
  | nil => exact (ite_self d).symm
  | cons e r ih =>
    obtain ⟨a, w⟩ := e
    have rest : Store.wfFrom d (a + 1) r = true := (Bool.and_eq_true_iff.mp wf).2
    have low (lt : k < a + 1) : Store.get d r k = d := Store.get_lt rest lt
    have ih := ih rest
    by_cases kept : a < lo ∨ hi ≤ a
    · have keeps : Store.clear ((a, w) :: r) lo hi = (a, w) :: Store.clear r lo hi :=
        List.filter_cons_of_pos (by simpa using kept)
      rw [keeps, Store.get, Store.get, ih]
      grind
    · have drops : Store.clear ((a, w) :: r) lo hi = Store.clear r lo hi := List.filter_cons_of_neg (by simpa using kept)
      rw [drops, Store.get, ih]
      grind

/-- A clear leaves its range as nothing has written it, and every other key alone. -/
theorem Store.get_clear {st : Store α} (wf : Store.wf d st = true) (lo hi k : Nat) :
    Store.get d (Store.clear st lo hi) k = if lo ≤ k ∧ k < hi then d else Store.get d st k := Store.get_clear_from wf k

end

end Sys2Proof

namespace Sys2Proof.Machine
open Sys2Proof

/-! ### A tile and a channel after a write -/

section
variable {d : Dev} (wf : Store.wf {} d.til.tiles = true)
include wf

theorem Dev.tile_setTile_self (t : Nat) (r : Tile) : (d.setTile t r).tile t = r := Store.get_put_self wf

/-- A channel that runs a descriptor reads back as written. -/
theorem Dev.chan_setChan_self {t c : Nat} {x : Chan} (busy : x.run ≠ none) : (d.setChan t c x).chan t c = x := by
  have ne : x ≠ {} := fun empty => busy (congrArg Chan.run empty)
  unfold Dev.chan Dev.setChan Dev.modTile
  rw [Dev.tile_setTile_self wf]
  exact Store.get_put_self_of_ne ne _ _

end

/-! ### When an operation acts (R168, R180, R201) -/

section
variable {sl : Slot} {f : OpCtx → Bundle → Bundle} {k : Clock} {m : Mems} {d : Dev} {p : Nat} {b : Bundle}

theorem tileOp_idle (idle : d.physOf sl.tile = none ∨ d.issuing sl.tile = false ∨ d.requestDue sl.tile = true) :
    tileOp sl f k m d = (m, d) := by
  unfold tileOp
  split
  case h_1 => rfl
  case h_2 p held =>
    refine if_neg fun acts => ?_
    obtain ⟨issues, free⟩ := Bool.and_eq_true_iff.mp acts
    rw [Bool.not_eq_true'] at free
    simp [held, issues, free] at idle

/-- The first operation of a defined bundle fetches it, and then joins it as any other does. -/
theorem tileOp_fetches (held : d.physOf sl.tile = some p) (issues : d.issuing sl.tile = true)
    (free : d.requestDue sl.tile = false) (first : (d.tile sl.tile).opened = none)
    (defined : d.undefinedAt m sl.tile p = false) (heldAfter : (d.fetch k sl.tile p sl.pmEcc).physOf sl.tile = some p)
    (issuesAfter : (d.fetch k sl.tile p sl.pmEcc).issuing sl.tile = true)
    (opened : ((d.fetch k sl.tile p sl.pmEcc).tile sl.tile).opened = some b) :
    tileOp sl f k m d = tileOp sl f k m (d.fetch k sl.tile p sl.pmEcc) := by
  simp only [tileOp, held, issues, free, first, defined, heldAfter, issuesAfter, requestDue_of_opened opened, opened,
    Bool.not_false, Bool.and_self, if_true, Option.isNone_none, Option.isNone_some, Bool.and_false, Bool.false_and,
    Bool.false_eq_true, if_false]

/-- A word that chapter 7 does not define faults at its fetch. -/
theorem tileOp_undefined (held : d.physOf sl.tile = some p) (issues : d.issuing sl.tile = true)
    (free : d.requestDue sl.tile = false) (first : (d.tile sl.tile).opened = none)
    (undefined : d.undefinedAt m sl.tile p = true) {e : Dev} (fetched : e = d.fetch k sl.tile p sl.pmEcc)
    (opened : (e.tile sl.tile).opened = some b) : tileOp sl f k m d = closeBundle k sl.tile p m
      (e.setTile sl.tile { e.tile sl.tile with opened := some { b with faults := b.faults ++ [(4, 0)] } }) := by
  subst fetched
  simp only [tileOp, held, issues, free, first, undefined, opened, Bool.not_false, Bool.and_self, if_true,
    Option.isNone_none, Option.getD_some]

end

/-- A bundle whose only fault is ILLEGAL faults ILLEGAL, whether its slots fit a format or not (R181). -/
theorem closeBundle_illegal {k : Clock} {t p : Nat} {m : Mems} {d : Dev} {b : Bundle}
    (opened : (d.tile t).opened = some b) (only : b.faults = [(4, 0)]) :
    closeBundle k t p m d = (m, d.tileFault k t 4 0) := by
  have fault : pickFault (b.faults ++ (if b.formed then [] else [(4, 0)])) = some (4, 0) := by
    rw [only]
    split <;> rfl
  simp only [closeBundle, opened, fault]

/-! ### What the forms of the MAC slot add (Table 7.3) -/

theorem macZero_of_le {f : BitVec 17} {m n : Nat} (le : m ≤ n) (zero : macZero f n = true) : macZero f m = true := by
  simp only [macZero, bitsOf, beq_iff_eq] at zero ⊢
  exact Nat.mod_eq_zero_of_dvd (Nat.dvd_trans (Nat.pow_dvd_pow 2 le) (Nat.dvd_of_mod_eq_zero zero))

section
variable {ok : Bool} {f : BitVec 17} {c : OpCtx} {b : Bundle}

theorem macSlot_of_ok (h : ok = true) (g : Bundle → Bundle) : macSlot ok g b = g (withMac b) := if_pos h

theorem macForm_adds (fields : ok = true) (mode : macMode f ≤ 2) (zero : macZero f 3 = true) (sums : List (Nat × Int)) :
    macForm ok f c sums b = ((withMac b).names (sums.map (fun p => 64 + p.1))).wr
      (sums.map (fun p => accBy c.r.sr f p.1 p.2)) :=
  macSlot_of_ok (by simp [fields, macModeOk, mode, zero]) _

theorem accForm_sets (fields : ok = true) (mode : macMode f = 0) (v : Int) : accForm ok f c v b =
    ((withMac b).names [64 + macAcc f]).wr [⟨4, .accSet (macAcc f) v (srSat c.r.sr)⟩] :=
  macSlot_of_ok (by simp [fields, mode]) _

theorem macX_writes (fields : ok = true) (mode : macMode f = 0) (ws : List TWrite) : macX ok f ws b =
    ((withMac b).names [macRa f]).wr (ws.map (fun w => ⟨2, w⟩)) :=
  macSlot_of_ok (by simp [fields, mode]) _

/-- An extraction sets EXS beside its register where it has saturated (R163). -/
theorem macX_extracts (fields : ok = true) (mode : macMode f = 0) (w : TWrite) (sat : Bool) :
    macX ok f (w :: exsOf sat) b = ((withMac b).names [macRa f]).wr
      (⟨2, w⟩ :: (if sat then [⟨2, .sticky exsBit⟩] else [])) := by
  rw [macX_writes fields mode]
  cases sat <;> rfl

end

/-! ### Data memories (R153) -/

theorem Mems.clearDm_get {m : Mems} (wf : m.wf) (p q : Nat) {a : Nat} (lt : a < 524288) :
    (m.clearDm p).dm.get 0 (dmKey q a) = if q = p then 0 else m.dm.get 0 (dmKey q a) := by
  obtain ⟨dm, _, _⟩ := wf
  have range : (dmKey p 0 ≤ dmKey q a ∧ dmKey q a < dmKey (p + 1) 0) ↔ q = p := by
    simp only [dmKey]
    omega
  exact (Store.get_clear dm _ _ _).trans (ite_congr (propext range) (fun _ => rfl) (fun _ => rfl))

/-! ### Entries (R201, R204) -/

section
variable {k : Clock} {d : Dev} {t p : Nat} (held : d.physOf t = some p) (active : d.posActive t = true)
  (cleared : (d.phys p).cleared = true)
include held active cleared

theorem Dev.takeEntry_unbound (gated : (d.tile t).run = .gated) (unbound : (d.stl t).bound = none) :
    d.takeEntry k t = d := by
  simp [Dev.takeEntry, held, active, cleared, gated, unbound]

theorem Dev.takeEntry_dispatch {n : Nat} {r : Tile} (gated : (d.tile t).run = .gated) (bound : (d.stl t).bound = some n)
    (drained : r = (d.tile t).drain) : d.takeEntry k t = (d.setTile t { r with
      ssr := r.sr, sr := srPut r.sr 4 false, len := false, eblk := true, spc := r.pc, ecause := 0, faddr := 0
      run := .issuing, pc := 0, nxtth := some n, nxtctx := (d.thr n).ctx }).bump1 .tilTDispatch t := by
  simp [Dev.takeEntry, held, active, cleared, gated, bound, drained]

theorem Dev.takeEntry_turn {e : Turn} (ended : (d.tile t).run = .ended e) : d.takeEntry k t =
    (d.bump1 .tilTDispatch t).entry k t (.turn e) (d.tile t).pc (turnCause e) 0 0 := by
  simp [Dev.takeEntry, held, active, cleared, ended]

end

/-! ### The start of a descriptor (R170, R171) -/

section
variable {k : Clock} {t p c a : Nat} {m : Mems} {d : Dev} {rest : List Nat}

theorem Dev.dmaCheck_invalid {e : Desc} (invalid : e.invalid = true) : d.dmaCheck e = .badArg := if_pos invalid

theorem Dev.dmaCheck_fill {e : Desc} (valid : e.invalid = false) (fill : e.kind = 7) : d.dmaCheck e = .ok := by
  simp [Dev.dmaCheck, valid, fill]

theorem Mems.descRead_good (m : Mems) (p a : Nat) : m.descRead p a [] = m.desc p a := rfl

theorem dmaStart_empty {x : ChanRead} (empty : (d.chan t x.chan).queue = []) : dmaStart k t p x m d = d := by
  cases run : (d.chan t x.chan).run <;> simp [dmaStart, empty, run]

/-- The engine takes a descriptor read without errors, with the status of its checks; nothing else happens where the DRAM window
does not refuse it and no burst begins. -/
theorem dmaStart_takes {st : Status} (next : (d.chan t c).queue = a :: rest) (free : (d.chan t c).run = none)
    (good : (d.phys p).badWords [] a 8 = []) (checked : d.dmaCheck (m.desc p a) = st) (known : st ≠ .notPermitted)
    (still : st ≠ .ok ∨ (m.desc p a).kind ≠ 6) : dmaStart k t p { chan := c } m d = d.setChan t c
      { queue := rest, cut := 0, run := some { addr := a, desc := m.desc p a, st := st, port := tilePort p } } := by
  have noErrors (l : List Nat) : l.filter (fun i => ([] : List Nat).contains i && !([] : List Nat).contains i) = [] :=
    List.filter_eq_nil_iff.mpr (by simp)
  have noDenial (b : Bool) : (st == .notPermitted && b) = false := by simp [known]
  have noBurst : (st == .ok && decide ((m.desc p a).kind = 6)) = false := by
    rw [Bool.and_eq_false_iff]
    exact still.imp beq_eq_false_iff_ne.mpr decide_eq_false
  simp only [dmaStart, next, free, good, Mems.descRead_good, noErrors, List.foldl_nil, List.isEmpty_nil, if_true, checked, noDenial,
    noBurst, Bool.false_eq_true, if_false]

end

/-! ### The end of a descriptor (R172) -/

section
variable {k : Clock} {t p c moved : Nat} {poison : Option Nat} {ces ues : List Nat} {m : Mems} {d : Dev} {run : DmaRun}

/-- Where no descriptor was ended behind it, a descriptor's end writes RESULT alone. -/
theorem dmaEnd_mem {st : Status} {idle : Bool} {count : Nat} (uncut : (d.chan t c).cut = 0) :
    (dmaEnd k t p c run st idle count m d).1 = m.dmWrite p (run.addr + 28) 4 (resultWord st idle count) := by
  simp only [dmaEnd, uncut, List.take_zero]
  rfl

/-- A fill that its checks refused ends with their status (R171). -/
theorem dmaComplete_refused (going : (d.chan t c).run = some run) (refused : run.st = .badArg) (fill : run.desc.kind = 7) :
    dmaComplete k t p c moved poison ces ues m d = dmaEnd k t p c run .badArg false run.desc.rows m d := by
  simp [dmaComplete, going, refused, fill]

/-! ### A fill moves on (R172, R173) -/

theorem DmaRun.part_fill (fill : run.desc.kind = 7) (j o n : Nat) : run.part d j o n = n := by
  simp [DmaRun.part, fill]

theorem fillBytes_length (pat n : Nat) : (fillBytes pat n).length = n := by simp [fillBytes]

theorem movePart_fill (fill : run.desc.kind = 7) (u q ecc j o n : Nat) : movePart k t p u q run ces ues ecc j o n m d =
    (false, dmaPut p (rowAt run.desc.loc run.desc.lstride j + o) (fillBytes run.desc.remote n) m d) := by
  simp only [movePart, fill]

theorem Dev.holdBytes_closed (closed : ∀ u, (d.tile u).opened = none) (a n : Nat) : d.holdBytes m p a n = d := by
  unfold Dev.holdBytes
  split
  · rfl
  · rw [closed]

theorem moveOn_reached {u q goal f : Nat} (reached : goal ≤ run.moved) :
    moveOn k t p u q goal poison ces ues f run m d = (run, m, d) := by
  cases f with
  | zero => rfl
  | succ f => exact if_pos reached

theorem rowAt_zero (base : Nat) (stride : Int) : rowAt base stride 0 = base := by simp [rowAt]

/-- A fill that has not begun reaches a goal within its first row in one part. -/
theorem moveOn_fill {u q goal f : Nat} (fill : run.desc.kind = 7) (new : run.moved = 0) (pos : 0 < goal)
    (row : goal ≤ run.desc.len) (closed : ∀ u, (d.tile u).opened = none) :
    moveOn k t p u q goal poison ces ues (f + 1) run m d =
      ({ run with moved := goal }, m.dmPut p run.desc.loc (fillBytes run.desc.remote goal),
        d.modPhys p (fun x => x.unmark run.desc.loc goal)) := by
  have len : max 1 run.desc.len = run.desc.len := by omega
  rw [moveOn, if_neg (by omega)]
  simp only [new, len, Nat.zero_div, Nat.zero_mod, Nat.sub_zero, Nat.zero_add, Nat.min_eq_right row, DmaRun.part_fill fill,
    movePart_fill fill, rowAt_zero, Nat.add_zero, if_neg (Nat.ne_of_gt pos), Bool.false_and, Bool.false_eq_true, if_false]
  rw [moveOn_reached (Nat.le_refl goal), dmaPut, Dev.holdBytes_closed closed, fillBytes_length]

/-- A fill moved to a goal within its first row, at a boundary of 64 bytes and short of its bytes, stays in progress. -/
theorem dmaComplete_fill {n : Nat} (going : (d.chan t c).run = some run) (good : run.st = .ok) (fill : run.desc.kind = 7)
    (new : run.moved = 0) (pos : 0 < n) (row : n * 64 ≤ run.desc.len) (short : n * 64 < run.desc.rows * run.desc.len)
    (closed : ∀ u, (d.tile u).opened = none) : dmaComplete k t p c (n * 64) poison ces ues m d =
      (m.dmPut p run.desc.loc (fillBytes run.desc.remote (n * 64)),
        (d.modPhys p (fun x => x.unmark run.desc.loc (n * 64))).setChan t c
          { d.chan t c with run := some { run with moved := n * 64 } }) := by
  have moves : dmaComplete k t p c (n * 64) poison ces ues m d = dmaMove k t p c (n * 64) poison ces ues run m d := by
    simp [dmaComplete, going, good, fill]
  rw [moves]
  simp [dmaMove, fill, good, Nat.not_le.mpr short, moveOn_fill fill new (by omega) row closed, short]

end

end Sys2Proof.Machine

namespace Sys2Proof
open Sys2Proof.Machine

/-! ### The operations of the tile instruction set -/

/-- Each operation of the tile instruction set is `tileOp` of what it adds to its bundle. -/
theorem exec_of_slotOf {i : Instr} {sl : Slot} (h : slotOf i = some sl) : ∃ f, ∀ s, exec i s = onMem (tileOp sl f) s := by
  cases i <;> cases h <;> exact ⟨_, fun _ => rfl⟩

/-- An operation joins the bundle being gathered as `b'`, which is what it makes of it. -/
theorem gathers_of_tileOp {i : Instr} {sl : Slot} {s : State} {p : Nat} {b b' : Bundle} (f : OpCtx → Bundle → Bundle)
    (g : Gathering sl s p b) (h : exec i s = onMem (tileOp sl f) s)
    (e : f { r := s.dev.tile sl.tile, m := s.mem, p := p, ue := s.dev.phys p } b = b') : Gathers i sl s p b' := by
  subst e
  exact h.trans (tileOp_gathers f g)

section
variable {s : State} {t p : Nat}

/-! ### The events of tiles and channels -/

theorem entry_does {d : Dev} (taken : s.dev.takeEntry s.clk t = d) : Does (.entry t) s d :=
  does_of_onDev (execEntry t s) rfl rfl taken

theorem dataMemoryClearDone_does (lt : p < 34) (uncleared : (s.dev.phys p).cleared = false) :
    DoesMem (.dataMemoryClearDone p) s (s.mem.clearDm p)
      (s.dev.setPhys p { s.dev.phys p with cleared := true, ueWords := [] }) :=
  doesMem_of_onMem (execDataMemoryClearDone p s) rfl rfl (if_pos (by simp [lt, uncleared]))

theorem dmaDescStart_does {x : ChanRead} {d : Dev} (held : s.dev.physOf t = some p) (lt : x.chan < 4)
    (free : s.dev.sys.evac = none) (started : dmaStart s.clk t p x s.mem s.dev = d) : Does (.dmaDescStart t x) s d :=
  does_of_onMem (execDmaDescStart t x s) rfl rfl (by simp [held, lt, free, started])

theorem dmaDescComplete_does {c moved : Nat} {poison : Option Nat} {ces ues : List Nat} {m : Mems} {d : Dev}
    (held : s.dev.physOf t = some p) (lt : c < 4) (done : dmaComplete s.clk t p c moved poison ces ues s.mem s.dev = (m, d)) :
    DoesMem (.dmaDescComplete t c moved poison ces ues) s m d :=
  doesMem_of_onMem (execDmaDescComplete t c moved poison ces ues s) rfl rfl (by simp only [held, if_pos lt, done])

/-! ### The tile commands (Table 6.7) -/

variable {o : Origin}

theorem tileStatus_answers (ho : HostOk o s) (held : s.dev.physOf t = some p) (top : t ≤ 33) :
    ∃ more, Answers (.tileStatus o t) o 0x0601 s .ok ([⟨1, p⟩, ⟨1, pstateCode (s.dev.phys p).state⟩] ++ more) s.dev :=
  ⟨_, answers_of_hostCmd _ ho rfl ((if_neg (Nat.not_lt.mpr top)).trans (by simp only [held, List.append_assoc]; rfl))⟩

/-- TILE_MAP_READ gives a byte for each position's tile and one for its state. -/
theorem tileMapRead_answers (ho : HostOk o s) :
    ∃ res, Answers (.tileMapRead o) o 0x0602 s .ok res s.dev ∧ ∀ x ∈ res, x.len = 1 := by
  refine ⟨_, answers_of_hostCmd _ ho rfl rfl, fun x listed => ?_⟩
  obtain ⟨u, _, here⟩ := List.mem_flatMap.mp listed
  split at here
  all_goals
    simp only [List.mem_cons, List.not_mem_nil, or_false] at here
    obtain rfl | rfl := here <;> rfl

theorem tileRowStatus_answers (ho : HostOk o s) {q : Nat} (top : q ≤ 33) :
    Answers (.tileRowStatus o q 0) o 0x0603 s .ok
      (rowFields (s.dev.phys q).pmHist ++ spareFields 4 (s.dev.phys q).pmSpare) s.dev ∧
    Answers (.tileRowStatus o q 1) o 0x0603 s .ok
      (rowFields (s.dev.phys q).dmHist ++ spareFields 16 (s.dev.phys q).dmSpare) s.dev :=
  ⟨answers_of_hostCmd _ ho rfl (if_neg (Nat.not_lt.mpr top)), answers_of_hostCmd _ ho rfl (if_neg (Nat.not_lt.mpr top))⟩

end

/-! ### The obligations -/

/-- Settles O30: every operation is `tileOp` of what it adds (`exec_of_slotOf`), and the three cases are those of `tileOp`. -/
theorem tileOperationsJoinOnlyAnIssuingTile : Obligations.TileOperationsJoinOnlyAnIssuingTile := by
  intro i sl s named
  obtain ⟨f, acts⟩ := exec_of_slotOf named
  refine ⟨fun idle => ?_, fun p b held issues free first defined after => ?_,
    fun p b d held issues free first undefined fetched opened clean _ wf => ?_⟩
  · rw [acts, onMem_next, tileOp_idle idle]
  · obtain ⟨heldAfter, issuesAfter, opened⟩ := after
    rw [acts, acts, onMem_next, onMem_next, tileOp_fetches held issues free first defined heldAfter issuesAfter opened]
  · have closes := tileOp_undefined (f := f) held issues free first undefined fetched opened
    rw [clean, closeBundle_illegal (congrArg Tile.opened (Dev.tile_setTile_self wf _ _)) rfl] at closes
    exact does_of_onMem _ (acts s) rfl closes

/-- Settles O31: each multiply is a `macForm` of its sums, which adds them by `macForm_adds`. -/
theorem macProductsJoinTheirBundle : Obligations.MacProductsJoinTheirBundle := by
  rintro s sl p b f r g rfl
  refine ⟨gathers_of_tileOp _ g rfl rfl,
    fun zero mode => ⟨?mac1, fun acc quad => ?qcoef, fun acc quad => ?qsamp, fun quadA quadB => ?dot4,
      fun pair lowA lowB => ⟨?cmplx, ?cmplxc⟩, fun pair quad => ⟨?widess, ?wideus, ?widesu⟩⟩,
    fun mode zero ra ha => ?accadd⟩
  case mac1 => exact gathers_of_tileOp _ g rfl (macForm_adds rfl mode zero _)
  case qcoef | qsamp => exact gathers_of_tileOp _ g rfl (macForm_adds (by simp [acc, quad]) mode zero _)
  case dot4 =>
    refine gathers_of_tileOp _ g rfl ((macForm_adds (by simp [quadA, quadB]) mode zero _).trans ?_)
    simp [List.range_succ]
  case cmplx =>
    refine gathers_of_tileOp _ g rfl ((macForm_adds (by simp [pair, lowA, lowB]) mode zero _).trans ?_)
    simp only [Int.one_mul, List.map_cons, List.map_nil]
  case cmplxc =>
    refine gathers_of_tileOp _ g rfl ((macForm_adds (by simp [pair, lowA, lowB]) mode zero _).trans ?_)
    have neg_add (x y : Int) : -x + y = y - x := by omega
    simp only [Int.neg_mul, Int.one_mul, Int.sub_neg, neg_add, List.map_cons, List.map_nil]
  case widess | wideus | widesu => exact gathers_of_tileOp _ g rfl (macForm_adds (by simp [pair, quad]) mode zero _)
  case accadd =>
    exact gathers_of_tileOp _ g rfl (macForm_adds (by simp [zero, ra, ha]) mode (macZero_of_le (by decide) zero) _)

/-- Settles O32: an operation sets its accumulator by `accForm_sets`, or writes its register by `macX_writes` or
`macX_extracts`; ACCZ and NORM are their own use of the slot. -/
theorem accumulatorOperationsJoinTheirBundle : Obligations.AccumulatorOperationsJoinTheirBundle := by
  rintro s sl p b f r g rfl mode
  refine ⟨fun zero => ⟨?accneg, ?accz⟩, fun zero ra ha => ?accshi,
    fun zero => ⟨?accshx, ?accld, ?ext32, ?extg, ?expa, ?norm, ?expmaxa⟩, fun zero => ⟨?accldh, ?ext16⟩,
    fun zero acc ha => ⟨?exph, ?expmaxh⟩⟩
  case accneg | accshx | accld | accldh => exact gathers_of_tileOp _ g rfl (accForm_sets zero mode _)
  case accshi => exact gathers_of_tileOp _ g rfl (accForm_sets (by simp [zero, ra, ha]) mode _)
  case accz | norm => exact gathers_of_tileOp _ g rfl (macSlot_of_ok (by simp [zero, mode]) _)
  case ext32 | ext16 => exact gathers_of_tileOp _ g rfl (macX_extracts zero mode _ _)
  case extg | expa | expmaxa => exact gathers_of_tileOp _ g rfl (macX_writes zero mode _)
  case exph | expmaxh => exact gathers_of_tileOp _ g rfl (macX_writes (by simp [zero, acc, ha]) mode _)

/-- Settles O39: what an entry, the start of a descriptor and its moving on come to is said of the shared operations
(`Dev.takeEntry_dispatch`, `dmaStart_takes`, `dmaComplete_fill`), and the clear of a memory of its store (`Store.get_clear`). -/
theorem entriesClearsAndDmaOfATile : Obligations.EntriesClearsAndDmaOfATile := by
  intro s t p held
  refine ⟨entry_does rfl, fun x lt free => dmaDescStart_does held lt free rfl,
    fun c moved poison ces ues m d lt done => dmaDescComplete_does held lt done,
    fun active cleared gated => ⟨fun unbound => entry_does (Dev.takeEntry_unbound held active cleared gated unbound),
      fun n r bound drained => entry_does (Dev.takeEntry_dispatch held active cleared gated bound drained)⟩,
    fun e active cleared ended => entry_does ((Dev.takeEntry_turn held active cleared ended).trans (by cases e <;> rfl)),
    fun lt uncleared wf => ?_,
    fun c lt free => ⟨fun empty => dmaDescStart_does held lt free (dmaStart_empty empty), fun a rest next idle good => ?_,
      fun run n going ok fill new _ row short pos wf closed _ => ?_,
      fun run moved ces ues going refused uncut fill _ => ?_⟩,
    fun o ho => ⟨tileStatus_answers ho held, tileMapRead_answers ho, fun q top => tileRowStatus_answers ho top⟩⟩
  · refine ⟨_, dataMemoryClearDone_does lt uncleared, fun a lt => ?_, fun q a other lt => ?_, rfl, rfl⟩
    · rw [Mems.clearDm_get wf p p lt, if_pos rfl]
    · rw [Mems.clearDm_get wf p q lt, if_neg other]
  · refine ⟨fun invalid => dmaDescStart_does held lt free ?_, fun valid fill => dmaDescStart_does held lt free ?_⟩
    · exact dmaStart_takes next idle good (Dev.dmaCheck_invalid invalid) (by decide) (.inl (by decide))
    · exact dmaStart_takes next idle good (Dev.dmaCheck_fill valid fill) (by decide) (.inr (by omega))
  · have moves := dmaComplete_fill (k := s.clk) (p := p) (m := s.mem) (poison := none) (ces := []) (ues := []) going ok fill new
      pos row short closed
    exact ⟨_, dmaDescComplete_does held lt moves, (congrArg Chan.run (Dev.chan_setChan_self wf (by simp))).trans rfl⟩
  · refine ⟨_, dmaDescComplete_does held lt (Prod.ext ?_ rfl)⟩
    rw [dmaComplete_refused going refused fill, dmaEnd_mem uncut]
    rfl

end Sys2Proof

/-! # The tile instruction set's obligations (chapter 7)

What the control slot's forms add to their bundle, said once of each form; each operation is then one of the forms. -/

namespace Sys2Proof.Machine
open Sys2Proof

/-! ### The control slots' forms (Tables 7.8 and 7.9) -/

section
variable {ok : Bool} {b : Bundle}

theorem ctlSlot_of_ok (h : ok = true) (g : Bundle → Bundle) : ctlSlot ok g b = g (withCtl b) := if_pos h

theorem longSlot_of_ok (h : ok = true) (g : Bundle → Bundle) : longSlot ok g b = g (withLong b) := if_pos h

theorem aluZn_writes (fields : ok = true) (xd : Nat) (v : Word) : aluZn ok xd v b =
    ((withCtl b).names [xd]).wr [⟨1, .x xd v⟩, ⟨1, .zn (decide (v = 0)) v.msb⟩] :=
  ctlSlot_of_ok fields _

theorem aluZncv_writes (fields : ok = true) (xd : Nat) (q : Word × Bool × Bool) : aluZncv ok xd q b =
    ((withCtl b).names [xd]).wr [⟨1, .x xd q.1⟩, flagsOf q] :=
  ctlSlot_of_ok fields _

theorem unitSlot_asks (fields : ok = true) (dests : List Nat) (u : UnitOp) : unitSlot ok dests u b =
    { (withCtl b).names dests with unit := some u } :=
  ctlSlot_of_ok fields _

end

/-- A shift by a register takes the low five bits (R183). -/
theorem bitsOf_zero_five (x : Nat) : bitsOf x 0 5 = x % 32 := rfl

/-! ### Moves (R184) -/

@[simp] theorem Bundle.names_fws (b : Bundle) (l : List Nat) : (b.names l).fws = b.fws := by
  unfold Bundle.names
  split <;> rfl

/-- Nothing of a move to an X register waits for a fetch. -/
theorem moveTo_x {n : Nat} (lt : n < 16) (v : Word) (b : Bundle) : moveTo n v b = (b.names [n]).wr [⟨1, .x n v⟩] := by
  simp [moveTo, regWrite, regDest, Bundle.wr, lt, Nat.lt_trans lt (by decide : 16 < 48)]

/-! ### Redirects outside another's slots (R191, R192) -/

section
variable {c : OpCtx} (free : c.r.slots = 0) (b : Bundle)
include free

theorem redirect_outside (a : After) : redirect c a b = { b with flow := some a } := if_pos free

theorem branch_outside (cond : Nat) (target : BitVec 14) : branch c cond target b =
    { b with flow := some (if condHolds c.r.sr cond then .jump target else .onward) } :=
  redirect_outside free b _

theorem repeatOp_outside (k len : Nat) (count : BitVec 16) : repeatOp c k len count b = { b with
    flow := some (.jump (if count = 0 then c.r.pc + 3 + BitVec.ofNat 14 (len - 1) + 1 else c.r.pc + 3))
    fws := b.fws ++
      [⟨2, .ls k (c.r.pc + 3)⟩, ⟨2, .le k (c.r.pc + 3 + BitVec.ofNat 14 (len - 1))⟩, ⟨2, .lc k count⟩] } := by
  simp only [repeatOp, redirect_outside free]

end

end Sys2Proof.Machine

namespace Sys2Proof
open Sys2Proof.Machine

/-! ### The obligations -/

/-- Settles O34: a result with flags is `aluZn` or `aluZncv` of its operation; a move and a comparison are their own use of
the slot. -/
theorem aluOperationsJoinTheirBundle : Obligations.AluOperationsJoinTheirBundle := by
  rintro s sl p b f r g rfl x y im rfl rfl rfl sh rfl zn rfl addF subF rfl rfl
  refine ⟨?nop, fun zero => ⟨?add, ?sub, ?and, ?or, ?xor, ?shl, ?shr, ?shru, fun xd => ?cmp⟩, ?addi, ?movi, ?cmpi,
    fun zero => ⟨?shli, ?shri, ?shrui⟩, fun zero unused => ?padd, fun _ => ?lmovi⟩
  case nop => exact gathers_of_tileOp _ g rfl (ctlSlot_of_ok rfl id)
  case add | sub => exact gathers_of_tileOp _ g rfl (aluZncv_writes zero _ _)
  case and | or | xor | shli | shri | shrui => exact gathers_of_tileOp _ g rfl (aluZn_writes zero _ _)
  case shl | shr | shru =>
    rw [← bitsOf_zero_five]
    exact gathers_of_tileOp _ g rfl (aluZn_writes zero _ _)
  case cmp => exact gathers_of_tileOp _ g rfl (ctlSlot_of_ok (by simp [zero, xd]) _)
  case addi => exact gathers_of_tileOp _ g rfl (aluZncv_writes rfl _ _)
  case movi | cmpi => exact gathers_of_tileOp _ g rfl (ctlSlot_of_ok rfl _)
  case padd => exact gathers_of_tileOp _ g rfl (ctlSlot_of_ok (by simp [zero, unused]) _)
  case lmovi => exact gathers_of_tileOp _ g rfl (longSlot_of_ok rfl _)

/-- Settles O35: a move is `moveTo`, whatever names its source; a branch and a repeat are one redirect, which outside another's
slots sets the flow (`branch_outside`, `repeatOp_outside`). -/
theorem movesAndRedirectsJoinTheirBundle : Obligations.MovesAndRedirectsJoinTheirBundle := by
  rintro s sl p b f h r g rfl
  refine ⟨fun zero lt src => ?movrX, fun zero _ dst src => ?movr, ?lmova, ?lmovn,
    fun free => ⟨fun cond => ?bcc, fun cond zero => ?brx,
      fun cond zero => ⟨?lbcc, fun taken => ?lcall, fun passed => ?lcallNot⟩, ?rep, ?repi⟩, fun level zero => ?endrep,
    fun zero reg ctl read kernel => ?movcRead, fun zero reg ctl write kernel => ?movcWrite⟩
  case movrX =>
    have dst : bitsOf f.toNat 8 6 ≤ 57 := by omega
    exact gathers_of_tileOp _ g rfl ((ctlSlot_of_ok (by simp [zero, dst, src]) _).trans (moveTo_x lt _ _))
  case movr => exact gathers_of_tileOp _ g rfl (ctlSlot_of_ok (by simp [zero, dst, src]) _)
  case lmova | lmovn => exact gathers_of_tileOp _ g rfl (longSlot_of_ok rfl _)
  case bcc => exact gathers_of_tileOp _ g rfl ((ctlSlot_of_ok (by simp [cond]) _).trans (branch_outside free _ _ _))
  case brx => exact gathers_of_tileOp _ g rfl ((ctlSlot_of_ok (by simp [cond, zero]) _).trans (branch_outside free _ _ _))
  case lbcc => exact gathers_of_tileOp _ g rfl ((longSlot_of_ok (by simp [cond, zero]) _).trans (branch_outside free _ _ _))
  case lcall =>
    refine gathers_of_tileOp _ g rfl ((longSlot_of_ok (by simp [cond, zero]) _).trans ?_)
    simp only [branch_outside, free, taken, if_true]
  case lcallNot =>
    refine gathers_of_tileOp _ g rfl ((longSlot_of_ok (by simp [cond, zero]) _).trans ?_)
    simp only [branch_outside, free, passed, Bool.false_eq_true, if_false]
  case rep =>
    rintro k n c rfl level rfl rfl
    exact gathers_of_tileOp _ g rfl ((ctlSlot_of_ok (by simp [level]) _).trans (repeatOp_outside free _ _ _ _))
  case repi =>
    rintro k n c rfl level zeroHi zeroLo rfl rfl
    exact gathers_of_tileOp _ g rfl ((longSlot_of_ok (by simp [level, zeroHi, zeroLo]) _).trans (repeatOp_outside free _ _ _ _))
  case endrep => exact gathers_of_tileOp _ g rfl (ctlSlot_of_ok (by simp [level, zero]) _)
  case movcRead =>
    refine gathers_of_tileOp _ g rfl ((ctlSlot_of_ok (by simp [zero, reg, ctl, read, kernel]) _).trans ?_)
    simp only [read, Bool.false_eq_true, if_false]
  case movcWrite =>
    refine gathers_of_tileOp _ g rfl ((ctlSlot_of_ok (by simp [zero, reg, ctl, write, kernel, ctlWrite]) _).trans ?_)
    simp only [write, ctl, ctlWrite, if_true]

/-- Settles O37: each is `unitSlot` of its request, SIGNALI that of the long slot. -/
theorem unitOperationsJoinTheirBundle : Obligations.UnitOperationsJoinTheirBundle := by
  rintro s sl p b f r g rfl
  refine ⟨fun zero => ⟨?signal, ?dmapost⟩, fun h low high => ?signali, ?byRegister, fun zero => ?hcommit,
    fun zero => ?almarm, fun zero even => ?time, fun zero => ⟨?dmaabort, ?dmaq⟩⟩
  case signal | dmapost | hcommit | almarm | dmaabort | dmaq => exact gathers_of_tileOp _ g rfl (unitSlot_asks zero _ _)
  case signali => exact gathers_of_tileOp _ g rfl (longSlot_of_ok (by simp [low, high]) _)
  case time => exact gathers_of_tileOp _ g rfl (unitSlot_asks (by simp [zero, even]) _ _)
  case byRegister =>
    rintro zero h rfl
    refine ⟨?flagtake, ?almdis, ?hput, ?habort, ?hnext, ?hmark, ?hrewind, ?hrelease, fun even ecc => ?hget⟩
    case flagtake | almdis | hput | habort | hnext | hmark | hrewind | hrelease =>
      exact gathers_of_tileOp _ g rfl (unitSlot_asks zero _ _)
    case hget => exact gathers_of_tileOp _ g rfl (unitSlot_asks (by simp [zero, even]) _ _)

end Sys2Proof

/-! # The Barista's obligations (chapter 8)

Steps 4 to 6 of a Barista cycle are a run of moves of six kinds (`SchMove`), and what a cycle keeps is a case split over the
kinds. Flag sets and the commands write the thread table first and settle then. -/

namespace Sys2Proof

/-! ### Stores read back -/

section
variable {α : Type} [DecidableEq α] {d : α}

theorem Store.get_put {st : Store α} (wf : Store.wf d st = true) (k j : Nat) (v : α) :
    Store.get d (Store.put d st k v) j = if j = k then v else Store.get d st j := by
  split
  next here => exact here ▸ Store.get_put_self wf
  next other => exact Store.get_put_ne wf other

theorem Store.le_of_mem {st : Store α} {lo k : Nat} {v : α} (wf : Store.wfFrom d lo st = true)
    (listed : (k, v) ∈ st.entries) : lo ≤ k := by
  induction st generalizing lo with
  | nil => cases listed
  | cons e r ih =>
    obtain ⟨a, w⟩ := e
    simp only [Store.wfFrom, Bool.and_eq_true, decide_eq_true_eq] at wf
    obtain ⟨⟨le, _⟩, rest⟩ := wf
    cases listed with
    | head => exact le
    | tail _ later => exact Nat.le_trans le (Nat.le_of_succ_le (ih rest later))

/-- In canonical form a key reads as what is listed under it. -/
theorem Store.get_of_mem_from {st : Store α} {lo k : Nat} {v : α} (wf : Store.wfFrom d lo st = true)
    (listed : (k, v) ∈ st.entries) : Store.get d st k = v := by
  induction st generalizing lo with
  | nil => cases listed
  | cons e r ih =>
    obtain ⟨a, w⟩ := e
    simp only [Store.wfFrom, Bool.and_eq_true] at wf
    obtain ⟨_, rest⟩ := wf
    cases listed with
    | head => simp [Store.get]
    | tail _ later =>
      have after : a < k := Store.le_of_mem rest later
      rw [Store.get, if_neg (by omega), if_neg (by omega), ih rest later]

theorem Store.get_of_mem {st : Store α} {k : Nat} {v : α} (wf : Store.wf d st = true) (listed : (k, v) ∈ st.entries) :
    Store.get d st k = v := Store.get_of_mem_from wf listed

end

/-! ### What the Barista's operations leave unchanged -/

theorem OnlySch.refl (d : Machine.Dev) : OnlySch d d := rfl

theorem OnlySch.trans {a b c : Machine.Dev} (h : OnlySch a b) (g : OnlySch b c) : OnlySch a c := by
  unfold OnlySch at *; rw [g, h]

theorem OnlySch.of_hif {d d' : Machine.Dev} (only : Machine.OnlyHif d d') : OnlySch d d' := by
  unfold Machine.OnlyHif at only; rw [only]; rfl

end Sys2Proof

namespace Sys2Proof.Machine
open Sys2Proof

theorem OnlyHif.sch {d d' : Dev} (only : OnlyHif d d') : d'.sch = d.sch := (congrArg Dev.sch only).trans rfl

/-! ### Threads, tiles and groups read back -/

section
variable {d : Dev}

theorem Dev.thr_setThr (wf : Store.wf {} d.sch.threads = true) (n m : Nat) (t : Thread) :
    (d.setThr n t).thr m = if m = n then t else d.thr m := Store.get_put wf n m t

theorem Dev.thr_setThr_self (wf : Store.wf {} d.sch.threads = true) (n : Nat) (t : Thread) : (d.setThr n t).thr n = t :=
  Store.get_put_self wf

theorem Dev.thr_makeReady (wf : Store.wf {} d.sch.threads = true) (n m : Nat) :
    (d.makeReady n).thr m = if m = n then { d.thr n with state := .ready } else d.thr m := Dev.thr_setThr wf n m _

theorem Dev.thr_bind (wf : Store.wf {} d.sch.threads = true) (t n m : Nat) :
    (d.bind t n).thr m = if m = n then { d.thr n with state := .running, tile := some t, resumed := false } else d.thr m :=
  Dev.thr_setThr wf n m _

theorem Dev.stl_setStl (wf : Store.wf {} d.sch.tiles = true) (t u : Nat) (x : STile) :
    (d.setStl t x).stl u = if u = t then x else d.stl u := Store.get_put wf t u x

/-- A request that stands on a tile stands through a write that leaves such a request. -/
theorem Dev.req_setStl {t u : Nat} {x : STile} {r : Req} (wf : Store.wf {} d.sch.tiles = true)
    (stands : (d.stl u).req = none ∨ x.req = (d.stl u).req) (req : (d.stl t).req = some r) :
    ((d.setStl u x).stl t).req = some r := by
  rw [Dev.stl_setStl wf]
  split
  next here =>
    subst here
    obtain free | stays := stands
    · rw [free] at req; cases req
    · rw [stays, req]
  next => exact req

theorem Dev.grp_setGrp (wf : Store.wf {} d.sch.groups = true) (g h : Nat) (x : Group) :
    (d.setGrp g x).grp h = if h = g then x else d.grp h := Store.get_put wf g h x

end

/-! ### Which threads a cycle can move (R210, R214) -/

/-- The thread stands in some Ready queue. -/
def Dev.Queued (d : Dev) (n : Nat) : Prop := ∃ key, n ∈ d.sch.fifos.get [] key

/-- The thread is Waiting with its condition met. -/
def Dev.Wakes (d : Dev) (n : Nat) : Prop := ∃ t : Thread, (n, t) ∈ d.sch.threads.entries ∧ t.state = .waiting ∧ t.met = true

section
variable {d : Dev} {n : Nat}

/-- `Dev.Wakes` says of the table's lines what the thread itself reads as. -/
theorem Dev.Wakes.thr (wakes : d.Wakes n) (wf : Store.wf {} d.sch.threads = true) :
    (d.thr n).state = .waiting ∧ (d.thr n).met = true := by
  obtain ⟨t, listed, waits⟩ := wakes
  rw [Dev.thr, Store.get_of_mem wf listed]
  exact waits

theorem Dev.queued_of_candidate {g : Nat} (h : d.candidate g = some n) : d.Queued n := by
  obtain ⟨l, _, found⟩ := List.exists_of_findSome?_eq_some h
  exact ⟨_, List.mem_of_find?_eq_some found⟩

theorem Dev.queued_setFifo {g l : Nat} {q : List Nat} (wf : Store.wf [] d.sch.fifos = true)
    (queued : (d.setFifo g l q).Queued n) :
    n ∈ q ∨ ∃ key, key ≠ 4 * g + l ∧ n ∈ d.sch.fifos.get [] key := by
  obtain ⟨key, queued⟩ := queued
  rw [Dev.setFifo, Store.get_put wf] at queued
  split at queued
  next => exact .inl queued
  next other => exact .inr ⟨key, other, queued⟩

theorem key_of_queuedAtMost (most : QueuedAtMost d n) {key : Nat} (queued : n ∈ d.sch.fifos.get [] key) :
    key = 4 * (d.thr n).group + (d.thr n).level := by
  rw [← Nat.div_add_mod key 4] at queued
  obtain ⟨group, level⟩ := most (key / 4) (key % 4) (by omega) queued
  omega

/-- A thread that stands in no queue but that of its group and level, and not there, stands in none. -/
theorem not_queued_of_queuedAtMost (most : QueuedAtMost d n) (out : n ∉ d.fifo (d.thr n).group (d.thr n).level) :
    ¬ d.Queued n := by
  rintro ⟨key, queued⟩
  rw [key_of_queuedAtMost most queued] at queued
  exact out queued

/-- A thread that leaves its queue leaves the only one it stood in. -/
theorem not_queued_unqueue (most : QueuedAtMost d n) (wf : Store.wf [] d.sch.fifos = true) : ¬ (d.unqueue n).Queued n := by
  intro queued
  obtain own | ⟨key, other, queued⟩ := Dev.queued_setFifo wf queued
  · simp at own
  · exact other (key_of_queuedAtMost most queued)

end

/-! ### The moves of a cycle (R212, steps 4 to 6) -/

/-- One move of the Barista's cycle; `woken` are the threads that may become Ready in it. A thread is bound out of a queue, and a
tile's request stands where there is one. -/
inductive SchMove (woken : Nat → Prop) : Dev → Dev → Prop
  | ready (d : Dev) {n : Nat} (wakes : woken n) : SchMove woken d (d.makeReady n)
  | bind {d : Dev} (t : Nat) {n : Nat} (queued : d.Queued n) : SchMove woken d (d.bind t n)
  | tile {d : Dev} {t : Nat} {x : STile} (stands : (d.stl t).req = none ∨ x.req = (d.stl t).req) : SchMove woken d (d.setStl t x)
  | rounds (d : Dev) (ctr deficit pass : Store Nat) :
      SchMove woken d { d with ctr := ctr, sch := { d.sch with deficit := deficit, pass := pass } }
  | stranded (d : Dev) (g : Nat) (now : Bool) : SchMove woken d (d.setGrp g { d.grp g with stranded := now })
  | tells {d d' : Dev} (only : OnlyHif d d') : SchMove woken d d'

/-- A run of moves. -/
inductive SchMoves (woken : Nat → Prop) : Dev → Dev → Prop
  | refl {d : Dev} : SchMoves woken d d
  | tail {a b c : Dev} (moves : SchMoves woken a b) (move : SchMove woken b c) : SchMoves woken a c

section
variable {woken : Nat → Prop} {d d' : Dev}

theorem SchMoves.single (move : SchMove woken d d') : SchMoves woken d d' := .tail .refl move

theorem SchMoves.trans {d'' : Dev} (h : SchMoves woken d d') (g : SchMoves woken d' d'') : SchMoves woken d d'' := by
  induction g with
  | refl => exact h
  | tail _ move ih => exact ih.tail move

theorem SchMoves.head {d'' : Dev} (move : SchMove woken d d') (moves : SchMoves woken d' d'') : SchMoves woken d d'' :=
  (SchMoves.single move).trans moves

/-- What every move keeps, a run of moves keeps. -/
theorem SchMoves.keeps {P : Dev → Prop} (moves : SchMoves woken d d') (step : ∀ {a b}, SchMove woken a b → P a → P b)
    (start : P d) : P d' := by
  induction moves with
  | refl => exact start
  | tail _ move ih => exact step move ih

theorem SchMoves.foldl {α : Type} {f : Dev → α → Dev} {l : List α} (each : ∀ d, ∀ x ∈ l, SchMoves woken d (f d x)) (d : Dev) :
    SchMoves woken d (l.foldl f d) := by
  induction l generalizing d with
  | nil => exact .refl
  | cons x r ih =>
    exact (each d x List.mem_cons_self).trans (ih (fun d y listed => each d y (List.mem_cons_of_mem x listed)) _)

theorem SchMoves.bump1 (d : Dev) (e : CEv) (i : Nat) : SchMoves woken d (d.bump1 e i) := .single (.tells (.bumpN d _ _))

/-! ### Steps 4 to 6 are runs of moves -/

theorem Dev.wake_moves (d : Dev) : SchMoves d.Wakes d d.wake := by
  refine .foldl (fun d' p listed => ?_) d
  split
  next wakes =>
    simp only [Bool.and_eq_true, beq_iff_eq] at wakes
    exact .single (.ready d' ⟨p.2, listed, wakes⟩)
  next => exact .refl

theorem Dev.selectGroup_moves (d : Dev) (t : Nat) (cand : List Nat) : SchMoves woken d (d.selectGroup t cand).2 := by
  unfold Dev.selectGroup
  dsimp only
  split
  · exact .single (.rounds _ _ _ _)
  · generalize mostPassed _ _ = starved
    cases starved with
    | some g => exact .single (.rounds _ _ _ _)
    | none =>
      dsimp only
      generalize roundRobin _ _ _ _ _ = round
      exact .head (.tile (t := t) (x := { d.stl t with cur := round.1 }) (.inr rfl)) (.single (.rounds _ _ _ _))

theorem Dev.selectOn_moves (d : Dev) (t : Nat) (cand : List Nat) : SchMoves woken d (d.selectOn t cand) := by
  have selects := d.selectGroup_moves (woken := woken) t cand
  unfold Dev.selectOn
  split
  next _ taken => rw [taken] at selects; exact selects.tail (.tile (.inr rfl))
  next _ _ taken =>
    rw [taken] at selects
    split
    next _ found => exact selects.tail (.bind t (Dev.queued_of_candidate found))
    next => exact selects.tail (.tile (.inr rfl))

theorem Dev.req_of_preemptTarget {n t : Nat} (h : d.preemptTarget n = some t) : (d.stl t).req = none := by
  obtain ⟨l, _, found⟩ := List.exists_of_findSome?_eq_some h
  have ok := (List.mem_filter.mp (List.mem_of_find?_eq_some found)).2
  simp only [Bool.and_eq_true, Option.isNone_iff_eq_none] at ok
  exact ok.1.2

theorem Dev.preempts_moves (d : Dev) : SchMoves woken d d.preempts := by
  refine .foldl (fun d n _ => ?_) d
  split
  · exact .refl
  · split
    next _ target => exact .head (.tile (.inl (Dev.req_of_preemptTarget target))) (SchMoves.bump1 _ _ _)
    next => exact .refl

theorem Dev.checkStranded_moves (k : Clock) (d : Dev) : SchMoves woken d (d.checkStranded k) := by
  refine .foldl (fun d g _ => ?_) d
  dsimp only
  split
  · exact .refl
  · refine .head (.stranded d g (d.stranded g)) ?_
    split
    · exact (SchMoves.bump1 _ _ _).tail (.tells (.event _ _ _ _ _ _))
    · exact .refl

/-- A cycle in which no tile enters is a run of moves. -/
theorem Dev.settle_moves (k : Clock) (d : Dev) : SchMoves d.Wakes d (d.settle k none) := by
  refine (d.wake_moves.trans (SchMoves.foldl (fun d t _ => ?_) _)).trans
    ((Dev.preempts_moves _).trans (Dev.checkStranded_moves k _))
  dsimp only
  split
  · exact d.selectOn_moves t _
  · exact .refl

/-! ### What a move keeps -/

theorem SchMove.only (move : SchMove woken d d') : OnlySch d d' := by
  cases move with
  | ready | bind | tile | rounds | stranded => rfl
  | tells only => exact .of_hif only

/-- What a cycle can make of a thread: one that becomes Ready or Running, perhaps on a tile. -/
structure Thread.Settles (t t' : Thread) : Prop where
  fields : t' = { t with state := t'.state, tile := t'.tile, resumed := t'.resumed }
  state : t'.state = t.state ∨ t'.state = .ready ∨ t'.state = .running

theorem Thread.Settles.refl (t : Thread) : t.Settles t := ⟨rfl, .inl rfl⟩

theorem Thread.Settles.trans {a b c : Thread} (h : a.Settles b) (g : b.Settles c) : a.Settles c := by
  refine ⟨by rw [g.fields, h.fields], g.state.elim (fun same => ?_) .inr⟩
  rw [same]
  exact h.state

section
variable {t t' : Thread} (h : t.Settles t')
include h

theorem Thread.Settles.flags : t'.flags = t.flags := (congrArg Thread.flags h.fields).trans rfl
theorem Thread.Settles.mask : t'.mask = t.mask := (congrArg Thread.mask h.fields).trans rfl
theorem Thread.Settles.all : t'.all = t.all := (congrArg Thread.all h.fields).trans rfl

theorem Thread.Settles.met : t'.met = t.met := by simp only [Thread.met, h.flags, h.mask, h.all]

end

theorem SchMove.threads (move : SchMove woken d d') (wf : Store.wf {} d.sch.threads = true) :
    Store.wf {} d'.sch.threads = true ∧ ∀ m, (d.thr m).Settles (d'.thr m) := by
  cases move with
  | @ready n =>
    refine ⟨Store.wf_put wf, fun m => ?_⟩
    rw [Dev.thr_makeReady wf]
    split
    next here => exact here ▸ ⟨rfl, .inr (.inl rfl)⟩
    next => exact .refl _
  | @bind t n =>
    refine ⟨Store.wf_put wf, fun m => ?_⟩
    rw [Dev.thr_bind wf]
    split
    next here => exact here ▸ ⟨rfl, .inr (.inr rfl)⟩
    next => exact .refl _
  | tile | rounds | stranded => exact ⟨wf, fun m => .refl _⟩
  | tells only =>
    unfold Dev.thr
    rw [only.sch]
    exact ⟨wf, fun m => .refl _⟩

/-- A thread that stands in no queue, and how it reads. -/
structure Dev.Rests (d : Dev) (n : Nat) (t : Thread) : Prop where
  threads : Store.wf {} d.sch.threads = true
  fifos : Store.wf [] d.sch.fifos = true
  out : ¬ d.Queued n
  reads : d.thr n = t

theorem SchMove.rests {n : Nat} {t : Thread} (move : SchMove woken d d') (sleeps : ¬ woken n) (rests : d.Rests n t) :
    d'.Rests n t := by
  obtain ⟨threads, fifos, out, reads⟩ := rests
  cases move with
  | @ready m wakes =>
    have other : n ≠ m := fun same => sleeps (same ▸ wakes)
    refine ⟨Store.wf_put threads, Store.wf_put fifos, fun queued => ?_, by rw [Dev.thr_makeReady threads, if_neg other, reads]⟩
    obtain joined | ⟨key, _, before⟩ := Dev.queued_setFifo (d := d.modThr m _) fifos queued
    · obtain before | joined := List.mem_append.mp joined
      · exact out ⟨_, before⟩
      · exact other (List.mem_singleton.mp joined)
    · exact out ⟨key, before⟩
  | @bind u m bound =>
    have other : n ≠ m := fun same => out (same ▸ bound)
    refine ⟨Store.wf_put threads, Store.wf_put fifos, fun queued => ?_, by rw [Dev.thr_bind threads, if_neg other, reads]⟩
    obtain left | ⟨key, _, before⟩ := Dev.queued_setFifo (d := d) fifos queued
    · exact out ⟨_, (List.mem_filter.mp left).1⟩
    · exact out ⟨key, before⟩
  | tile | rounds | stranded => exact ⟨threads, fifos, out, reads⟩
  | tells only =>
    unfold Dev.thr at reads
    exact ⟨only.sch ▸ threads, only.sch ▸ fifos, fun ⟨key, queued⟩ => out ⟨key, only.sch ▸ queued⟩,
      by unfold Dev.thr; rw [only.sch, reads]⟩

/-- A request that stands on a tile stays. -/
theorem SchMove.req {t : Nat} {r : Req} (move : SchMove woken d d')
    (h : Store.wf {} d.sch.tiles = true ∧ (d.stl t).req = some r) :
    Store.wf {} d'.sch.tiles = true ∧ (d'.stl t).req = some r := by
  obtain ⟨wf, req⟩ := h
  cases move with
  | @bind u n => exact ⟨Store.wf_put wf, Dev.req_setStl (d := (d.unqueue n).modThr n _) wf (.inr rfl) req⟩
  | tile stands => exact ⟨Store.wf_put wf, Dev.req_setStl wf stands req⟩
  | ready | rounds | stranded => exact ⟨wf, req⟩
  | tells only =>
    unfold Dev.stl at *
    exact ⟨only.sch ▸ wf, only.sch ▸ req⟩

/-- A group's settings stay. -/
theorem SchMove.settings (move : SchMove woken d d') (wf : Store.wf {} d.sch.groups = true) :
    Store.wf {} d'.sch.groups = true ∧ ∀ h, d'.grp h = { d.grp h with stranded := (d'.grp h).stranded } := by
  cases move with
  | stranded g now =>
    refine ⟨Store.wf_put wf, fun h => ?_⟩
    rw [Dev.grp_setGrp wf]
    split
    next here => exact here ▸ rfl
    next => rfl
  | ready | bind | tile | rounds => exact ⟨wf, fun _ => rfl⟩
  | tells only =>
    unfold Dev.grp
    rw [only.sch]
    exact ⟨wf, fun _ => rfl⟩

/-! ### What a cycle keeps (R212) -/

variable (k : Clock)

theorem Dev.settle_only (d : Dev) : OnlySch d (d.settle k none) :=
  (d.settle_moves k).keeps (fun move only => only.trans move.only) (.refl d)

theorem Dev.settle_threads (wf : Store.wf {} d.sch.threads = true) :
    Store.wf {} (d.settle k none).sch.threads = true ∧ ∀ n, (d.thr n).Settles ((d.settle k none).thr n) :=
  (d.settle_moves k).keeps (P := fun d' => Store.wf {} d'.sch.threads = true ∧ ∀ n, (d.thr n).Settles (d'.thr n))
    (fun move h => ⟨(move.threads h.1).1, fun n => (h.2 n).trans ((move.threads h.1).2 n)⟩) ⟨wf, fun _ => .refl _⟩

/-- A thread in no queue that does not wait, or whose condition is not met, stays as it is. -/
theorem Dev.settle_rests {n : Nat} {t : Thread} (rests : d.Rests n t) (sleeps : t.state = .waiting → t.met = false) :
    (d.settle k none).thr n = t := by
  refine ((d.settle_moves k).keeps (fun move => move.rests fun wakes => ?_) rests).reads
  obtain ⟨waits, met⟩ := wakes.thr rests.threads
  rw [rests.reads] at waits met
  exact Bool.false_ne_true ((sleeps waits).symm.trans met)

theorem Dev.settle_req {t : Nat} {r : Req} (wf : Store.wf {} d.sch.tiles = true) (req : (d.stl t).req = some r) :
    ((d.settle k none).stl t).req = some r :=
  ((d.settle_moves k).keeps SchMove.req ⟨wf, req⟩).2

theorem Dev.settle_grp (wf : Store.wf {} d.sch.groups = true) (h : Nat) :
    (d.settle k none).grp h = { d.grp h with stranded := ((d.settle k none).grp h).stranded } :=
  ((d.settle_moves k).keeps (P := fun d' => Store.wf {} d'.sch.groups = true ∧
      ∀ h, d'.grp h = { d.grp h with stranded := (d'.grp h).stranded })
    (fun move g => ⟨(move.settings g.1).1, fun h => by rw [(move.settings g.1).2 h, g.2 h]⟩) ⟨wf, fun _ => rfl⟩).2 h

end

/-! ### Flag sets (R208, R209) -/

/-- `d'` is `d` after the flag sets `l`, written and settled in whatever order: each thread has the flags it had and those set. -/
structure FlagsSet (l : List (Nat × Nat × Nat)) (d d' : Dev) : Prop where
  only : OnlySch d d'
  wf : Store.wf {} d.sch.threads = true → Store.wf {} d'.sch.threads = true
  flag : Store.wf {} d.sch.threads = true → ∀ n i, i < 32 →
    ((d'.thr n).flags.getLsbD i = true ↔ (d.thr n).flags.getLsbD i = true ∨ ∃ src, (src, n, i) ∈ l)

section
variable {l : List (Nat × Nat × Nat)} {d d' : Dev} {n f : Nat}

theorem FlagsSet.refl (d : Dev) : FlagsSet [] d d := ⟨.refl d, id, fun _ n i _ => by simp⟩

theorem FlagsSet.trans {l' : List (Nat × Nat × Nat)} {d'' : Dev} (h : FlagsSet l d d') (g : FlagsSet l' d' d'') :
    FlagsSet (l ++ l') d d'' where
  only := h.only.trans g.only
  wf wf := g.wf (h.wf wf)
  flag wf n i lt := by
    rw [g.flag (h.wf wf) n i lt, h.flag wf n i lt, or_assoc, ← exists_or]
    simp only [List.mem_append]

theorem FlagsSet.congr {l' : List (Nat × Nat × Nat)} (same : ∀ s, s ∈ l ↔ s ∈ l') (h : FlagsSet l d d') :
    FlagsSet l' d d' where
  only := h.only
  wf := h.wf
  flag wf n i lt := by simp only [h.flag wf n i lt, same]

theorem FlagsSet.settle (k : Clock) (d : Dev) : FlagsSet [] d (d.settle k none) where
  only := d.settle_only k
  wf wf := (Dev.settle_threads k wf).1
  flag wf n i _ := by simp [((Dev.settle_threads k wf).2 n).flags]

theorem FlagsSet.bump0 (d : Dev) (e : CEv) : FlagsSet [] d (d.bump0 e) := ⟨rfl, id, fun _ n i _ => by simp [Dev.thr]⟩

theorem Dev.writeFlag_only (d : Dev) (n f : Nat) : OnlySch d (d.writeFlag n f) := by
  unfold Dev.writeFlag
  dsimp only
  split <;> rfl

theorem Dev.writeFlag_sch (d : Dev) (n f : Nat) :
    (d.writeFlag n f).sch = (d.setThr n { d.thr n with flags := (d.thr n).flags ||| BitVec.twoPow 32 f }).sch := by
  unfold Dev.writeFlag
  dsimp only
  split <;> rfl

theorem Dev.thr_writeFlag (wf : Store.wf {} d.sch.threads = true) (n f m : Nat) : (d.writeFlag n f).thr m =
    if m = n then { d.thr n with flags := (d.thr n).flags ||| BitVec.twoPow 32 f } else d.thr m := by
  change Store.get {} (d.writeFlag n f).sch.threads m = _
  rw [Dev.writeFlag_sch]
  exact Dev.thr_setThr wf n m _

theorem FlagsSet.writeFlag (d : Dev) (s : Nat × Nat × Nat) : FlagsSet [s] d (d.writeFlag s.2.1 s.2.2) where
  only := d.writeFlag_only _ _
  wf wf := by rw [Dev.writeFlag_sch]; exact Store.wf_put wf
  flag wf n i lt := by
    obtain ⟨src, m, f⟩ := s
    rw [Dev.thr_writeFlag wf]
    split
    next here =>
      have bit : f < 32 ∧ f = i ↔ i = f := by omega
      simp [here, bit]
    next other => simp [other]

theorem FlagsSet.writeFlags (l : List (Nat × Nat × Nat)) (d : Dev) :
    FlagsSet l d (l.foldl (fun d s => d.writeFlag s.2.1 s.2.2) d) := by
  induction l generalizing d with
  | nil => exact .refl d
  | cons s r ih => exact (FlagsSet.writeFlag d s).trans (ih _)

/-- Each cycle writes eight sets and settles. -/
theorem FlagsSet.flagCycles (k : Clock) {n : Nat} (enough : l.length ≤ n) (d : Dev) : FlagsSet l d (Dev.flagCycles k n l d) := by
  induction n generalizing l d with
  | zero => exact List.eq_nil_of_length_eq_zero (Nat.le_zero.mp enough) ▸ .refl d
  | succ n ih =>
    unfold Dev.flagCycles
    split
    next empty => exact List.isEmpty_iff.mp empty ▸ .refl d
    next =>
      dsimp only
      have cycle (d : Dev) : FlagsSet l d
          (Dev.flagCycles k n (l.drop 8) (((l.take 8).foldl (fun d s => d.writeFlag s.2.1 s.2.2) d).settle k none)) :=
        (((FlagsSet.writeFlags _ d).trans (.settle k _)).trans (ih (by rw [List.length_drop]; omega) _)).congr
          (by simp)
      split
      next => exact (FlagsSet.bump0 d _).trans (cycle _)
      next => exact cycle d

theorem insertFlag_perm (a : Nat × Nat × Nat) (l : List (Nat × Nat × Nat)) : (insertFlag a l).Perm (a :: l) := by
  induction l with
  | nil => exact .refl _
  | cons b r ih =>
    unfold insertFlag
    split
    · exact (ih.cons b).trans (.swap a b r)
    · exact .refl _

theorem sortFlags_perm (l : List (Nat × Nat × Nat)) : (sortFlags l).Perm l := by
  have sorted (acc : List (Nat × Nat × Nat)) : (l.foldl (fun acc a => insertFlag a acc) acc).Perm (l ++ acc) := by
    induction l generalizing acc with
    | nil => exact .refl _
    | cons a r ih => exact (ih _).trans (((insertFlag_perm a acc).append_left r).trans List.perm_middle)
  exact (sorted []).trans (.of_eq (List.append_nil l))

theorem FlagsSet.setFlags (k : Clock) (l : List (Nat × Nat × Nat)) (d : Dev) : FlagsSet l d (d.setFlags k l) :=
  (FlagsSet.flagCycles k (Nat.le_of_eq (sortFlags_perm l).length_eq) d).congr fun _ => (sortFlags_perm l).mem_iff

/-- Sets of one thread's flags add those flags to its own and none to another's. -/
theorem FlagsSet.flags {flags : Word} (h : FlagsSet l d d') (wf : Store.wf {} d.sch.threads = true)
    (sets : ∀ m i, i < 32 → ((∃ src, (src, m, i) ∈ l) ↔ m = n ∧ flags.getLsbD i = true)) :
    (d'.thr n).flags = (d.thr n).flags ||| flags ∧ ∀ m, m ≠ n → (d'.thr m).flags = (d.thr m).flags := by
  refine ⟨BitVec.eq_of_getLsbD_eq fun i lt => ?_, fun m other => BitVec.eq_of_getLsbD_eq fun i lt => ?_⟩
  · rw [Bool.eq_iff_iff, h.flag wf n i lt, sets n i lt]; simp
  · rw [Bool.eq_iff_iff, h.flag wf m i lt, sets m i lt]; simp [other]

end

/-! ### What the commands do (Table 8.6) -/

section
variable {d : Dev} {k : Clock}

/-- The device with a group's three settings written and its deficits 0. -/
def Dev.groupSet (d : Dev) (g weight ceiling : Nat) (aff : BitVec 34) : Dev :=
  { d with sch := { d.sch with
      groups := d.sch.groups.put {} g { d.grp g with weight := weight, ceiling := ceiling, aff := aff }
      deficit := d.sch.deficit.filter (fun p => p.1 % 64 != g) } }

theorem Dev.cmdGroupConfig_ok {g weight ceiling : Nat} {aff : BitVec 34} (lt : g ≤ 63) (pos : 0 < weight) (top : weight ≤ 255)
    (more : 0 < ceiling) (most : ceiling ≤ 65535) (named : aff.toNat % 2 ^ 32 ≠ 0) :
    d.cmdGroupConfig k g weight ceiling aff = (.now .ok [], (d.groupSet g weight ceiling aff).settle k none) := by
  unfold Dev.cmdGroupConfig
  rw [if_neg (by simp; omega), if_neg (Nat.not_lt.mpr lt)]
  rfl

theorem Dev.grp_groupSet (wf : Store.wf {} d.sch.groups = true) (g weight ceiling : Nat) (aff : BitVec 34) (h : Nat) :
    (d.groupSet g weight ceiling aff).grp h =
      if h = g then { d.grp g with weight := weight, ceiling := ceiling, aff := aff } else d.grp h := Dev.grp_setGrp wf g h _

theorem Dev.cmdThreadConfig_valid {th g level : Nat} {preempt : Bool} {ctx : Word} (le : th ≤ 8191) (group : g ≤ 63)
    (top : level ≤ 3) (aligned : ctx.toNat % 8 = 0) (small : ctx.toNat < 2 ^ 25) (pos : ctxPos ctx ≤ 31) :
    d.cmdThreadConfig th g level preempt ctx =
      if (d.thr th).off then
        (.now .ok [], d.setThr th { d.thr th with group := g, level := level, preempt := preempt, ctx := ctx })
      else (.now .refusedBusy [], d) := by
  unfold Dev.cmdThreadConfig
  have fits : (decide (3 < level) || ctx.toNat % 8 != 0 || decide (2 ^ 25 ≤ ctx.toNat) || decide (31 < ctxPos ctx)) = false := by
    simp [aligned]; omega
  have known : (decide (8191 < th) || decide (63 < g)) = false := by simp; omega
  simp only [fits, known]
  cases (d.thr th).off <;> rfl

/-- What THREAD_READ returns of a thread. -/
def Dev.threadFields (d : Dev) (th : Nat) : List RField :=
  [⟨1, tstateCode (d.thr th).state⟩, ⟨4, (d.thr th).flags.toNat⟩, ⟨4, (d.thr th).mask.toNat⟩, ⟨1, b2n (d.thr th).all⟩,
    ⟨1, (d.thr th).group⟩, ⟨1, (d.thr th).level⟩, ⟨1, b2n (d.thr th).preempt⟩, ⟨4, (d.thr th).ctx.toNat⟩,
    ⟨1, (d.thr th).tile.getD 0x3F⟩, ⟨1, b2n (d.thr th).resumed⟩, ⟨1, b2n (d.causeOf th)⟩]

theorem Dev.cmdThreadRead_fields (d : Dev) {th : Nat} (le : th ≤ 8191) :
    d.cmdThreadRead th = (.now .ok (d.threadFields th), d) := if_neg (Nat.not_lt.mpr le)

/-- The device with a thread started: Waiting, or at the tail of its queue. -/
def Dev.threadStarted (d : Dev) (th : Nat) (waiting : Bool) (mask : Word) (all clear : Bool) : Dev :=
  let d := (d.endVoided th).setThr th { d.thr th with
    state := .waiting, mask := mask, all := all, flags := if clear then 0 else (d.thr th).flags, tile := none, resumed := false }
  if waiting then d else d.makeReady th

theorem Dev.cmdThreadStart_off {th : Nat} (le : th ≤ 8191) (off : (d.thr th).off = true) (waiting : Bool) (mask : Word)
    (all clear : Bool) : d.cmdThreadStart k th waiting mask all clear =
      (.now .ok [], (d.threadStarted th waiting mask all clear).settle k none) := by
  unfold Dev.cmdThreadStart
  simp only [off, decide_eq_false (Nat.not_lt.mpr le)]
  rfl

section
variable {th : Nat} {waiting all clear : Bool} {mask : Word}

theorem Dev.threadStarted_only (d : Dev) : OnlySch (d.endVoided th) (d.threadStarted th waiting mask all clear) := by
  unfold Dev.threadStarted
  cases waiting <;> rfl

theorem Dev.thr_threadStarted (wf : Store.wf {} d.sch.threads = true) :
    (d.threadStarted th waiting mask all clear).thr th = { d.thr th with
      state := if waiting then .waiting else .ready, mask := mask, all := all
      flags := if clear then 0 else (d.thr th).flags, tile := none, resumed := false } := by
  have started := Dev.thr_setThr_self (d := d.endVoided th) wf th
  cases waiting with
  | true => exact started _
  | false => exact (Dev.thr_makeReady (Store.wf_put wf) th th).trans (by rw [if_pos rfl, started]; rfl)

theorem Dev.threadStarted_threads (wf : Store.wf {} d.sch.threads = true) :
    Store.wf {} (d.threadStarted th waiting mask all clear).sch.threads = true := by
  cases waiting with
  | true => exact Store.wf_put wf
  | false => exact Store.wf_put (Store.wf_put wf)

end

theorem Dev.cmdThreadSignal_sets {th : Nat} {flags : Word} (le : th ≤ 8191) (set : flags ≠ 0) :
    d.cmdThreadSignal k th flags =
      (.now .ok [], d.setFlags k (((List.range 32).filter (fun f => flags.getLsbD f)).map (fun f => (9, th, f)))) := by
  rw [Dev.cmdThreadSignal, if_neg set, if_neg (Nat.not_lt.mpr le)]

/-- A cancel that no flag set meets: its coincidence is counted, the cancel is asked and the cycle settles. -/
theorem Dev.cmdThreadCancel_alone {th : Nat} (le : th ≤ 8191) : ∃ ctr d',
    d' = (({ d with ctr := ctr } : Dev).cancelReq k th).settle k none ∧ d.cmdThreadCancel k th [] =
      (if (d'.thr th).state = .cancelled then .now .ok [] else .later .threadCancel th, d') := by
  unfold Dev.cmdThreadCancel
  dsimp only
  rw [if_neg (Nat.not_lt.mpr le)]
  simp only [beq_iff_eq]
  split <;> exact ⟨_, _, rfl, rfl⟩

section
variable {n t : Nat} (threads : Store.wf {} d.sch.threads = true)

theorem Dev.cancelReq_off (off : (d.thr n).state ≠ .running) : d.cancelReq k n = d.cancelThr n := by
  unfold Dev.cancelReq
  split
  next running _ => exact absurd running off
  next running _ => exact absurd running off
  next => rfl

theorem Dev.cancelReq_running (running : (d.thr n).state = .running) (tile : (d.thr n).tile = some t) :
    d.cancelReq k n = d.setStl t { d.stl t with req := some .cancel, cause := none, cancelAt := some k } := by
  unfold Dev.cancelReq
  rw [running, tile]
  rfl

theorem Dev.cancelReq_only (d : Dev) : OnlySch d (d.cancelReq k n) := by
  unfold Dev.cancelReq
  split <;> rfl

include threads

theorem Dev.cancelThr_rests (fifos : Store.wf [] d.sch.fifos = true) (most : QueuedAtMost d n) :
    (d.cancelThr n).Rests n { d.thr n with state := .cancelled, tile := none, resumed := false } :=
  ⟨Store.wf_put threads, Store.wf_put fifos, not_queued_unqueue most fifos, Dev.thr_setThr_self (d := d.unqueue n) threads n _⟩

theorem Dev.cancelReq_cancels (fifos : Store.wf [] d.sch.fifos = true) (most : QueuedAtMost d n)
    (off : (d.thr n).state ≠ .running) : (((d.cancelReq k n).settle k none).thr n).state = .cancelled := by
  rw [Dev.cancelReq_off off, Dev.settle_rests k (Dev.cancelThr_rests threads fifos most) nofun]

theorem Dev.cancelReq_asks (tiles : Store.wf {} d.sch.tiles = true) (running : (d.thr n).state = .running)
    (tile : (d.thr n).tile = some t) : (((d.cancelReq k n).settle k none).thr n).state ≠ .cancelled ∧
      (((d.cancelReq k n).settle k none).stl t).req = some .cancel := by
  rw [Dev.cancelReq_running running tile]
  generalize asked : d.setStl t _ = d'
  have same : d'.thr n = d.thr n := asked ▸ rfl
  have wf : Store.wf {} d'.sch.threads = true := asked ▸ threads
  refine ⟨?_, Dev.settle_req k (asked ▸ Store.wf_put tiles) (asked ▸ congrArg STile.req (Store.get_put_self tiles))⟩
  obtain stays | ready | again := ((Dev.settle_threads k wf).2 n).state
  · simp [stays, same, running]
  · simp [ready]
  · simp [again]

end

end

end Sys2Proof.Machine

namespace Sys2Proof
open Sys2Proof.Machine

section
variable {s : State} {o : Origin}

/-! ### GROUP_CONFIG, THREAD_CONFIG and the reads -/

theorem groupConfig_answers (ho : HostOk o s) (wf : Store.wf {} s.dev.sch.groups = true) {g weight ceiling : Nat}
    {aff : BitVec 34} (lt : g ≤ 63) (pos : 0 < weight) (top : weight ≤ 255) (more : 0 < ceiling) (most : ceiling ≤ 65535)
    (named : aff.toNat % 2 ^ 32 ≠ 0) :
    ∃ d, Answers (.groupConfig o g weight ceiling aff) o 0x0620 s .ok [] d ∧ OnlySch s.dev d ∧
      (d.grp g).weight = weight ∧ (d.grp g).ceiling = ceiling ∧ (d.grp g).aff = aff ∧
      ∀ h, h ≠ g → (d.grp h).weight = (s.dev.grp h).weight ∧ (d.grp h).ceiling = (s.dev.grp h).ceiling ∧
        (d.grp h).aff = (s.dev.grp h).aff := by
  have settled (h : Nat) := Dev.settle_grp s.clk (d := s.dev.groupSet g weight ceiling aff) (Store.wf_put wf) h
  have own := settled g
  rw [Dev.grp_groupSet wf, if_pos rfl] at own
  refine ⟨_, answers_of_hostCmd _ ho rfl (Dev.cmdGroupConfig_ok lt pos top more most named),
    .trans (b := s.dev.groupSet g weight ceiling aff) rfl (Dev.settle_only _ _), ?_, ?_, ?_, fun h other => ?_⟩
  · rw [own]
  · rw [own]
  · rw [own]
  · have rest := settled h
    rw [Dev.grp_groupSet wf, if_neg other] at rest
    rw [rest]
    exact ⟨rfl, rfl, rfl⟩

theorem groupStatus_answers (ho : HostOk o s) {g : Nat} (lt : g ≤ 63) : Answers (.groupStatus o g) o 0x0621 s .ok
    ([⟨2, (s.dev.grp g).weight⟩, ⟨2, (s.dev.grp g).ceiling⟩, ⟨5, (s.dev.grp g).aff.toNat⟩,
      ⟨2, (s.dev.fifo g 0).length⟩, ⟨2, (s.dev.fifo g 1).length⟩, ⟨2, (s.dev.fifo g 2).length⟩,
      ⟨2, (s.dev.fifo g 3).length⟩, ⟨2, s.dev.maxPass g⟩, ⟨1, b2n (s.dev.grp g).stranded⟩]) s.dev :=
  answers_of_hostCmd _ ho rfl (if_neg (Nat.not_lt.mpr lt))

section
variable {th g level : Nat} {preempt : Bool} {ctx : Word} (le : th ≤ 8191) (group : g ≤ 63)
  (top : level ≤ 3) (aligned : ctx.toNat % 8 = 0) (small : ctx.toNat < 2 ^ 25) (pos : ctxPos ctx ≤ 31)
include le group top aligned small pos

theorem threadConfig_off (ho : HostOk o s) (off : (s.dev.thr th).off = true) :
    Answers (.threadConfig o th g level preempt ctx) o 0x0622 s .ok []
      (s.dev.setThr th { s.dev.thr th with group := g, level := level, preempt := preempt, ctx := ctx }) :=
  answers_of_hostCmd _ ho rfl ((Dev.cmdThreadConfig_valid le group top aligned small pos).trans (if_pos off))

theorem threadConfig_busy (ho : HostOk o s) (busy : (s.dev.thr th).off = false) :
    Answers (.threadConfig o th g level preempt ctx) o 0x0622 s .refusedBusy [] s.dev :=
  answers_of_hostCmd _ ho rfl
    ((Dev.cmdThreadConfig_valid le group top aligned small pos).trans (if_neg (Bool.eq_false_iff.mp busy)))

end

theorem schedTileStatus_answers (ho : HostOk o s) {t : Nat} (top : t ≤ 33) :
    Answers (.schedTileStatus o t) o 0x0627 s .ok
      ([⟨2, (s.dev.stl t).running.getD 0xFFFF⟩, ⟨2, (s.dev.stl t).bound.getD 0xFFFF⟩,
        ⟨1, b2n (s.dev.stl t).idle + 2 * b2n (s.dev.stl t).frozen + 4 * b2n (s.dev.stl t).within⟩,
        ⟨1, reqCode (s.dev.stl t).req⟩, ⟨2, (s.dev.stl t).cause.getD 0xFFFF⟩, ⟨1, (s.dev.stl t).cur⟩] ++
        (List.range 64).map (fun g => ⟨2, s.dev.sch.deficit.get 0 (64 * t + g)⟩) ++
        (List.range 64).map (fun g => ⟨2, s.dev.sch.pass.get 0 (64 * t + g)⟩)) s.dev :=
  answers_of_hostCmd _ ho rfl (if_neg (Nat.not_lt.mpr top))

/-! ### THREAD_START, THREAD_SIGNAL and THREAD_CANCEL -/

section
variable {th : Nat} (le : th ≤ 8191) (wf : Store.wf {} s.dev.sch.threads = true)

include wf in
theorem flagSet_one (src : Nat) {f : Nat} (lt : f < 32) : ∃ d, Does (.flagSet [(src, th, f)]) s d ∧ OnlySch s.dev d ∧
    (d.thr th).flags = (s.dev.thr th).flags ||| BitVec.twoPow 32 f ∧
    ∀ n, n ≠ th → (d.thr n).flags = (s.dev.thr n).flags := by
  have set := FlagsSet.setFlags s.clk [(src, th, f)] s.dev
  exact ⟨_, rfl, set.only, set.flags wf fun m i _ => by simp [BitVec.getLsbD_twoPow, lt, eq_comm]⟩

include le wf in
theorem threadSignal_answers (ho : HostOk o s) {flags : Word} (set : flags ≠ 0) :
    ∃ d, Answers (.threadSignal o th flags) o 0x0624 s .ok [] d ∧ OnlySch s.dev d ∧
      (d.thr th).flags = (s.dev.thr th).flags ||| flags ∧ ∀ n, n ≠ th → (d.thr n).flags = (s.dev.thr n).flags := by
  have sets := FlagsSet.setFlags s.clk (((List.range 32).filter (fun f => flags.getLsbD f)).map (fun f => (9, th, f))) s.dev
  refine ⟨_, answers_of_hostCmd _ ho rfl (Dev.cmdThreadSignal_sets le set), sets.only, sets.flags wf fun m i lt => ?_⟩
  simp only [List.mem_map, List.mem_filter, List.mem_range, Prod.mk.injEq]
  exact ⟨fun ⟨_, _, named, _, here, same⟩ => ⟨here.symm, same ▸ named.2⟩,
    fun ⟨here, named⟩ => ⟨9, i, ⟨lt, named⟩, rfl, here.symm, rfl⟩⟩

include le wf in
theorem threadStart_answers (ho : HostOk o s) (fifos : Store.wf [] s.dev.sch.fifos = true) (waiting : Bool) (mask : Word)
    (all clear : Bool) (off : (s.dev.thr th).off = true) :
    ∃ d, Answers (.threadStart o th waiting mask all clear) o 0x0623 s .ok [] d ∧ OnlySch (s.dev.endVoided th) d ∧
      (d.thr th).mask = mask ∧ (d.thr th).all = all ∧ (d.thr th).flags = (if clear then 0 else (s.dev.thr th).flags) ∧
      (waiting = false → (d.thr th).state = .ready ∨ (d.thr th).state = .running) ∧
      (waiting = true → (d.thr th).met = false → QueuedAtMost s.dev th →
        th ∉ s.dev.fifo (s.dev.thr th).group (s.dev.thr th).level → (d.thr th).state = .waiting) := by
  have started := Dev.thr_threadStarted (th := th) (waiting := waiting) (mask := mask) (all := all) (clear := clear) wf
  have threads := Dev.threadStarted_threads (th := th) (waiting := waiting) (mask := mask) (all := all) (clear := clear) wf
  have settles := (Dev.settle_threads s.clk threads).2 th
  refine ⟨_, answers_of_hostCmd _ ho rfl (Dev.cmdThreadStart_off le off waiting mask all clear),
    (Dev.threadStarted_only s.dev).trans (Dev.settle_only _ _), settles.mask.trans (by rw [started]),
    settles.all.trans (by rw [started]), settles.flags.trans (by rw [started]), fun ready => ?_, fun waits unmet most out => ?_⟩
  · refine settles.state.elim (fun same => .inl ?_) id
    rw [same, started]
    simp [ready]
  · subst waits
    rw [settles.met] at unmet
    rw [Dev.settle_rests s.clk ⟨threads, fifos, not_queued_of_queuedAtMost (d := s.dev) most out, rfl⟩ fun _ => unmet, started]
    rfl

theorem settle_cancelReq_only (ctr : Store Nat) :
    OnlySch s.dev ((({ s.dev with ctr := ctr } : Dev).cancelReq s.clk th).settle s.clk none) :=
  .trans (b := { s.dev with ctr := ctr }) rfl ((Dev.cancelReq_only _).trans (Dev.settle_only _ _))

include le wf in
theorem threadCancel_off (ho : HostOk o s) (fifos : Store.wf [] s.dev.sch.fifos = true) (off : (s.dev.thr th).state ≠ .running)
    (most : QueuedAtMost s.dev th) :
    ∃ d, Answers (.threadCancel o th []) o 0x0625 s .ok [] d ∧ OnlySch s.dev d ∧ (d.thr th).state = .cancelled := by
  obtain ⟨ctr, d, settled, cancels⟩ := Dev.cmdThreadCancel_alone (d := s.dev) (k := s.clk) le
  have gone := Dev.cancelReq_cancels (d := { s.dev with ctr := ctr }) (k := s.clk) wf fifos most off
  rw [← settled] at gone
  rw [if_pos gone] at cancels
  exact ⟨d, answers_of_hostCmd _ ho rfl cancels, settled ▸ settle_cancelReq_only ctr, gone⟩

include le wf in
theorem threadCancel_running (ho : HostOk o s) (tiles : Store.wf {} s.dev.sch.tiles = true) {t : Nat}
    (running : (s.dev.thr th).state = .running) (tile : (s.dev.thr th).tile = some t) :
    ∃ d, Waits (.threadCancel o th []) o 0x0625 s .threadCancel th d ∧ OnlySch s.dev d ∧ (d.stl t).req = some .cancel := by
  obtain ⟨ctr, d, settled, cancels⟩ := Dev.cmdThreadCancel_alone (d := s.dev) (k := s.clk) le
  obtain ⟨stays, asked⟩ := Dev.cancelReq_asks (d := { s.dev with ctr := ctr }) (k := s.clk) wf tiles running tile
  rw [← settled] at stays asked
  rw [if_neg stays] at cancels
  exact ⟨d, waits_of_hostCmd _ ho rfl cancels, settled ▸ settle_cancelReq_only ctr, asked⟩

end

/-- A THREAD_CANCEL, whatever flags are set in its cycle, is replied to as its meaning says. -/
theorem threadCancel_does (ho : HostOk o s) {th : Nat} {sets : List (Nat × Nat × Nat)} {r : Reply} {d : Dev}
    (cancels : s.dev.cmdThreadCancel s.clk th sets = (r, d)) :
    Does (.threadCancel o th sets) s (d.reply s.clk (.host o) 0x0625 r) := by
  obtain ⟨running, valid⟩ := ho
  change hostCmd o 0x0625 _ s = _
  simp [hostCmd, running, valid, onDev_next, cancels]

/-! ### Command packets (R229) -/

/-- A packet that is read runs its command, or is answered ST_BAD_ARG where it is too short or does not spell the one named. -/
theorem schCmdPacket_does {c : SchCmd} {short : Bool} {p : Pkt} {w0 : Word} {ws : List Word} {d : Dev}
    (en : s.dev.sch.cmdEn = true) (take : s.dev.hopTake s.clk s.dev.sch.cmdHop = (some (p, w0 :: ws), d)) {r : Reply × Dev}
    (run : (if short then (.now .badArg [], d.bump0 .schCmdBadPacket)
      else if w0.toNat % 65536 == schOpc c then d.schRun s.clk c else (.now .badArg [], d)) = r) :
    Does (.schCmdPacket c short) s (r.2.reply s.clk (.schPkt (w0.toNat / 65536)) (w0.toNat % 65536) r.1) := by
  refine does_of_onDev (execSchCmdPacket c short s) rfl rfl ?_
  simp only [en, take, ← run]
  rfl

theorem schCmdPacket_empty {d : Dev} (en : s.dev.sch.cmdEn = true) (take : s.dev.hopTake s.clk s.dev.sch.cmdHop = (none, d))
    (c : SchCmd) (short : Bool) : Does (.schCmdPacket c short) s d :=
  does_of_onDev (execSchCmdPacket c short s) rfl rfl (by simp [en, take])

end

/-! ### The obligations -/

/-- Settles O40: GROUP_CONFIG writes the group and settles, which keeps every group's settings (`Dev.settle_grp`). -/
theorem baristaCommandsAnswer : Obligations.BaristaCommandsAnswer := by
  intro s o ho
  refine ⟨fun g weight ceiling aff wf lt pos top more most named => groupConfig_answers ho wf lt pos top more most named,
    fun g lt => groupStatus_answers ho lt,
    fun th g level preempt ctx le group top aligned small pos => ⟨threadConfig_off le group top aligned small pos ho,
      threadConfig_busy le group top aligned small pos ho⟩,
    fun th le t reads => reads ▸ answers_of_hostCmd _ ho rfl (Dev.cmdThreadRead_fields s.dev le),
    fun t top => ⟨_, _, List.length_map _, List.length_map _, fun g lt => ?_, schedTileStatus_answers ho top⟩⟩
  simp [lt]

/-- Settles O41: each writes the thread table or a tile's request and settles, which keeps what it has written. -/
theorem flagsStartsAndCancelsMoveThreads : Obligations.FlagsStartsAndCancelsMoveThreads := by
  intro s o th ho le threads tiles fifos
  refine ⟨fun src f lt => flagSet_one threads src lt, fun flags set => threadSignal_answers le threads ho set,
    fun waiting mask all clear => threadStart_answers le threads ho fifos waiting mask all clear,
    fun off most _ => threadCancel_off le threads ho fifos off most,
    fun t running tile => threadCancel_running le threads ho tiles running tile,
    fun sets r d cancels => threadCancel_does ho cancels, fun sets => rfl,
    fun c short d en take => schCmdPacket_empty en take c short,
    fun c p w0 ws d r d' en take spells run => ?_, fun p w0 ws d en take spells t reads => ⟨?_, ?_⟩⟩
  · exact spells ▸ schCmdPacket_does (c := c) (short := false) en take ((if_pos (beq_iff_eq.mpr spells)).trans run)
  · have read := schCmdPacket_does (c := .threadRead th) (short := false) en take (if_pos (beq_iff_eq.mpr spells))
    rw [Dev.schRun, Dev.cmdThreadRead_fields d le, spells] at read
    exact reads ▸ read
  · have read := schCmdPacket_does (c := .threadRead th) (short := true) en take rfl
    rwa [spells] at read

end Sys2Proof

/-! # The Hoppers' obligations (chapter 9)

Each operation of R236 is written here as a composition of `bumpN`, `setHopper` and writes of the queue SRAM, so that what it
leaves of a Hopper, of its words and of its counters is read off that form. -/

namespace Sys2Proof

/-! ### Stores: what is read is written back, and what is read is listed -/

section
variable {α : Type} [DecidableEq α] {d : α}

theorem Store.put_get_from {st : Store α} {lo : Nat} (wf : Store.wfFrom d lo st = true) (k : Nat) :
    Store.put d st k (Store.get d st k) = st := by
  induction st generalizing lo with
  | nil => exact if_pos rfl
  | cons e r ih =>
    obtain ⟨a, v⟩ := e
    simp only [Store.wfFrom, Bool.and_eq_true, decide_eq_true_eq] at wf
    obtain ⟨⟨_, listed⟩, rest⟩ := wf
    obtain here | before | after : k = a ∨ (k ≠ a ∧ k < a) ∨ (k ≠ a ∧ ¬ k < a) := by omega
    · simp [Store.put, Store.get, here, listed]
    · simp [Store.put, Store.get, before]
    · simp [Store.put, Store.get, after, ih rest]

/-- Writing back what a key reads as changes nothing. -/
theorem Store.put_get {st : Store α} (wf : Store.wf d st = true) (k : Nat) : Store.put d st k (Store.get d st k) = st :=
  Store.put_get_from wf k

end

/-- A key that does not read as the default is listed with what it reads as. -/
theorem Store.mem_of_get_ne {α : Type} {d : α} {st : Store α} {k : Nat} (ne : Store.get d st k ≠ d) :
    (k, Store.get d st k) ∈ st.entries := by
  induction st with
  | nil => exact absurd rfl ne
  | cons e r ih =>
    obtain ⟨a, v⟩ := e
    rw [Store.get] at ne ⊢
    split at ne
    next here => rw [if_pos here, here]; exact .head _
    next other =>
      split at ne
      next => exact absurd rfl ne
      next later => rw [if_neg other, if_neg later]; exact .tail _ (ih ne)

/-! ### What the Hoppers' operations leave unchanged -/

theorem OnlyHop.refl (d : Machine.Dev) : OnlyHop d d := rfl

theorem OnlyHop.trans {a b c : Machine.Dev} (h : OnlyHop a b) (g : OnlyHop b c) : OnlyHop a c := by
  unfold OnlyHop at *; rw [g, h]

theorem OnlyHop.setHopper (d : Machine.Dev) (h : Nat) (x : Machine.Hopper) : OnlyHop d (d.setHopper h x) := rfl

theorem OnlyHop.bumpN (d : Machine.Dev) (c : Machine.Ctr) (n : Nat) : OnlyHop d (d.bumpN c n) := rfl

theorem OnlySch.hop {d d' : Machine.Dev} (only : OnlySch d d') : d'.hop = d.hop := (congrArg Machine.Dev.hop only).trans rfl

end Sys2Proof

namespace Sys2Proof.Machine
open Sys2Proof

/-! ### Counters of a Hopper read back -/

section
variable {d : Dev} (wf : Store.wf 0 d.ctr = true)
include wf

theorem Dev.count_bumpN_self (c : Ctr) (n : Nat) : (d.bumpN c n).count c = d.count c + n := Store.get_put_self wf

/-- Counters of two kinds are two counters. -/
theorem Dev.count_bumpN_ne {e f : CEv} (ne : e.ctorIdx ≠ f.ctorIdx) (h n : Nat) :
    (d.bumpN ⟨e, h, 0⟩ n).count ⟨f, h, 0⟩ = d.count ⟨f, h, 0⟩ :=
  Store.get_put_ne wf (by simp only [Ctr.key]; omega)

theorem Dev.bumpN_zero (c : Ctr) : d.bumpN c 0 = d := by
  unfold Dev.bumpN
  rw [Nat.add_zero, Store.put_get wf]

/-- A count that the model leaves out where it is 0. -/
theorem Dev.bumpN_unless_zero (c : Ctr) (n : Nat) : (if n = 0 then d else d.bumpN c n) = d.bumpN c n := by
  split
  next zero => rw [zero, Dev.bumpN_zero wf]
  next => rfl

/-- `discard_drain` of R236 counts the packets that have not been released. -/
theorem Dev.discardDrain_eq (h : Nat) (c : CEv) :
    d.discardDrain h c = d.bumpN ⟨c, h, 0⟩ ((d.hopper h).seq.length - (d.hopper h).rel) := by
  unfold Dev.discardDrain
  dsimp only
  split
  next released => rw [Nat.sub_eq_zero_of_le released, Dev.bumpN_zero wf]
  next => rfl

end

/-! ### Hoppers read back -/

section
variable {d : Dev} {k : Clock} {h : Nat} {x : Hopper}

theorem Dev.setFlag_hop (k : Clock) (d : Dev) (th f : Nat) : (d.setFlag k th f).hop = d.hop :=
  ((Dev.writeFlag_only d th f).trans (Dev.settle_only k _)).hop

theorem Dev.hopUp_of (lt : h < 1024) (up : (d.hopper h).setUp = true) : d.hopUp h = true := by simp [Dev.hopUp, lt, up]

section
variable (wf : Store.wf {} d.hop.hops = true)
include wf

theorem Dev.hopper_setHopper (h g : Nat) (x : Hopper) : (d.setHopper h x).hopper g = if g = h then x else d.hopper g :=
  Store.get_put wf h g x

theorem Dev.hopper_setHopper_self (h : Nat) (x : Hopper) : (d.setHopper h x).hopper h = x := Store.get_put_self wf

theorem Dev.setHopper_hopper (h : Nat) : d.setHopper h (d.hopper h) = d := by
  unfold Dev.setHopper Dev.hopper
  rw [Store.put_get wf]

end

/-! ### Swaps (R236 to R240) -/

theorem Dev.hopSwap_quiet (is : d.hopper h = x) (quiet : x.swapFlagEn = false) :
    d.hopSwap k h = d.setHopper h (swapped x) := by
  subst is; simp [Dev.hopSwap, quiet, swapped]

theorem Dev.hopSwap_flags (is : d.hopper h = x) (flags : x.swapFlagEn = true) :
    d.hopSwap k h = (d.setHopper h (swapped x)).setFlag k x.thread x.swapFlag := by
  subst is; simp [Dev.hopSwap, flags, swapped]

/-- The swap flag touches no Hopper. -/
theorem Dev.hopSwap_hop (is : d.hopper h = x) : (d.hopSwap k h).hop = (d.setHopper h (swapped x)).hop := by
  by_cases flags : x.swapFlagEn = true
  · rw [Dev.hopSwap_flags is flags, Dev.setFlag_hop]
  · rw [Dev.hopSwap_quiet is (Bool.eq_false_iff.mpr flags)]

theorem Dev.hopper_hopSwap (is : d.hopper h = x) (g : Nat) : (d.hopSwap k h).hopper g = (d.setHopper h (swapped x)).hopper g := by
  simp only [Dev.hopper, Dev.hopSwap_hop is]

theorem Dev.trySwap_busy {b : Burst} (busy : (d.hopper h).burst = some b) : d.trySwap k h = d := by simp [Dev.trySwap, busy]

/-- No swap is due where nothing is committed in work-conserving mode, or no boundary has come in the other (R238, R239). -/
theorem Dev.trySwap_notDue (is : d.hopper h = x) (not : x.due = false) (rest : x.sched = true ∨ x.fill = []) :
    d.trySwap k h = d := by
  rcases rest with sched | empty
  · simp [Dev.trySwap, is, not, sched]
  · simp [Dev.trySwap, is, not, empty]

/-- In work-conserving mode a committed packet and a released drain bank bring a swap (R238). -/
theorem Dev.trySwap_swaps (is : d.hopper h = x) (up : x.setUp = true) (idle : x.burst = none) (released : x.rel = x.seq.length)
    (conserving : x.sched = false) (committed : x.fill ≠ []) : d.trySwap k h = d.hopSwap k h := by
  simp [Dev.trySwap, is, up, idle, released, conserving, committed]

theorem Dev.trySwap_hopSwap (wf : Store.wf {} d.hop.hops = true) : (d.hopSwap k h).trySwap k h = d.hopSwap k h :=
  Dev.trySwap_notDue ((Dev.hopper_hopSwap rfl h).trans (Dev.hopper_setHopper_self wf h _)) rfl (.inr rfl)

theorem Dev.forcedSwap_idle (ctr : Store.wf 0 d.ctr = true) (is : d.hopper h = x) (idle : x.burst = none) :
    d.forcedSwap k h = (d.bumpN ⟨.hopHSwapResidueLost, h, 0⟩ (x.seq.length - x.rel)).hopSwap k h := by
  subst is; simp [Dev.forcedSwap, idle, Dev.discardDrain_eq ctr]

theorem Dev.forcedSwap_busy {b : Burst} (is : d.hopper h = x) (busy : x.burst = some b) :
    d.forcedSwap k h = d.setHopper h { x with burst := some { b with swapAfter := true } } := by
  subst is; simp [Dev.forcedSwap, busy]

/-- The swap that HOPPER_SWAP and the alarm action force. -/
theorem Dev.forceSwap_idle (wf : Store.wf {} d.hop.hops = true) (ctr : Store.wf 0 d.ctr = true) (is : d.hopper h = x)
    (idle : x.burst = none) : (d.forcedSwap k h).trySwap k h =
      (d.bumpN ⟨.hopHSwapResidueLost, h, 0⟩ (x.seq.length - x.rel)).hopSwap k h := by
  rw [Dev.forcedSwap_idle ctr is idle, Dev.trySwap_hopSwap (by exact wf)]

theorem Dev.forceSwap_busy {b : Burst} (wf : Store.wf {} d.hop.hops = true) (is : d.hopper h = x) (busy : x.burst = some b) :
    (d.forcedSwap k h).trySwap k h = d.setHopper h { x with burst := some { b with swapAfter := true } } := by
  rw [Dev.forcedSwap_busy is busy, Dev.trySwap_busy (congrArg Hopper.burst (Dev.hopper_setHopper_self wf h _))]

/-- The swap that a slot's action forces (Table 2.8). -/
theorem Dev.alarmAct_swap {slot : Nat} {a : Alarm} (swap : a.typ = 1) (target : a.targets = h)
    (up : d.hopUp h = true) : d.alarmAct k slot a = (d.forcedSwap k h).trySwap k h := by
  have lt : h < 1024 := by simp only [Dev.hopUp, Bool.and_eq_true, decide_eq_true_eq] at up; exact up.1
  have named : bitsOf a.targets 0 10 = h := by rw [target]; exact Nat.mod_eq_of_lt lt
  simp [Dev.alarmAct, swap, named, up]

/-! ### The end of a burst (R236) -/

/-- Hopper `x` with the words of burst `b` committed as a packet. -/
def Hopper.commits (x : Hopper) (b : Burst) : Hopper :=
  { x with burst := none, fill := x.fill ++ [{ start := b.start, n := b.words.length, prio := b.prio }] }

theorem Dev.burstEndAt_commits {b : Burst} (is : d.hopper h = x) (busy : x.burst = some b) (valid : b.voided = false)
    (quiet : x.noticeEn = false) : (d.burstEndAt k h true).2 =
      if b.swapAfter then (d.setHopper h (x.commits b)).forcedSwap k h else d.setHopper h (x.commits b) := by
  subst is; simp [Dev.burstEndAt, busy, valid, quiet, Hopper.commits]

theorem Dev.burstEndAt_aborts {b : Burst} (is : d.hopper h = x) (busy : x.burst = some b) (valid : b.voided = false) :
    (d.burstEndAt k h false).2 =
      if b.swapAfter then ((d.setHopper h { x with burst := none, w := b.start }).bump1 .hopHAbort h).forcedSwap k h
      else (d.setHopper h { x with burst := none, w := b.start }).bump1 .hopHAbort h := by
  subst is; simp [Dev.burstEndAt, busy, valid]

/-- With nobody waiting, the end of a burst is followed by the swap that is due alone. -/
theorem Dev.burstEnd_alone {ok : Bool} {d' : Dev} (ends : (d.burstEndAt k h ok).2 = d') (alone : (d'.hopper h).queue = []) :
    (d.burstEnd k h ok).2 = d'.trySwap k h := by
  subst ends; simp [Dev.burstEnd, alone, Dev.nextBursts]

section
variable {b : Burst} (busy : (d.hopper h).burst = some b) (other : ∀ p, b.prod ≠ .eth p)
include busy other

theorem Dev.endBurst_commits (a c : Bool) : d.endBurst k h true a c = (d.burstEnd k h true).2 := by
  unfold Dev.endBurst
  rw [busy]
  cases made : b.prod with
  | eth p => exact absurd made (other p)
  | _ => simp [made]

theorem Dev.endBurst_aborts (notPut : ∀ t, b.prod ≠ .put t) (a c : Bool) :
    d.endBurst k h false a c = (d.burstEnd k h false).2 := by
  unfold Dev.endBurst
  rw [busy]
  cases made : b.prod with
  | eth p => exact absurd made (other p)
  | put t => exact absurd made (notPut t)
  | _ => simp [made]

end

end

/-! ### The words of a bank -/

section
variable {d : Dev}

/-- Words written change nothing but the queue SRAM. -/
theorem Dev.writeWords_only (d : Dev) (i : Nat) (ws : List Word) : d.writeWords i ws =
    { d with hop := { d.hop with qsram := (d.writeWords i ws).hop.qsram, qErr := (d.writeWords i ws).hop.qErr } } := by
  induction ws generalizing d i with
  | nil => rfl
  | cons v ws ih => exact (ih (d.setQword i v) (i + 1)).trans rfl

theorem Dev.writeWords_hops (d : Dev) (i : Nat) (ws : List Word) : (d.writeWords i ws).hop.hops = d.hop.hops :=
  (congrArg (fun e : Dev => e.hop.hops) (d.writeWords_only i ws)).trans rfl

theorem Dev.writeWords_ctr (d : Dev) (i : Nat) (ws : List Word) : (d.writeWords i ws).ctr = d.ctr :=
  (congrArg Dev.ctr (d.writeWords_only i ws)).trans rfl

theorem Dev.qword_setQword (wf : Store.wf 0 d.hop.qsram = true) (i j : Nat) (v : Word) :
    (d.setQword i v).qword j = if j = i then v else d.qword j := Store.get_put wf i j v

theorem Dev.qword_writeWords_out {i j : Nat} {ws : List Word} (wf : Store.wf 0 d.hop.qsram = true)
    (out : j < i ∨ i + ws.length ≤ j) : (d.writeWords i ws).qword j = d.qword j := by
  induction ws generalizing d i with
  | nil => rfl
  | cons v ws ih =>
    rw [List.length_cons] at out
    rw [Dev.writeWords, ih (Store.wf_put wf) (by omega), Dev.qword_setQword wf, if_neg (by omega)]

theorem Dev.qword_writeWords_in {i j : Nat} {ws : List Word} (wf : Store.wf 0 d.hop.qsram = true) (inside : j < ws.length) :
    ws[j]? = some ((d.writeWords i ws).qword (i + j)) := by
  induction ws generalizing d i j with
  | nil => cases inside
  | cons v ws ih =>
    have wf' : Store.wf 0 (d.setQword i v).hop.qsram = true := Store.wf_put wf
    cases j with
    | zero =>
      rw [Nat.add_zero, Dev.writeWords, Dev.qword_writeWords_out wf' (.inl (Nat.lt_succ_self i)), Dev.qword_setQword wf,
        if_pos rfl]
      rfl
    | succ j =>
      rw [Dev.writeWords, List.getElem?_cons_succ, ih (i := i + 1) wf' (Nat.lt_of_succ_lt_succ inside), Nat.add_assoc,
        Nat.add_comm 1]

end

/-! ### The start of a burst (R232, R233, R236, R237) -/

/-- A packet's words are written behind its header word into the fill bank of Hopper `h`, which stands as `y`. -/
def Dev.beginBurst (d : Dev) (h : Nat) (y : Hopper) (p : Prod) (prio : Nat) (words : List Word) : Dev :=
  (d.writeWords (y.bankAt y.fb + y.w + 1) words).setHopper h
    { y with w := y.w + words.length + 1, burst := some { prod := p, start := y.w, prio := prio, words := words } }

section
variable {d : Dev} {k : Clock} {h : Nat} {x : Hopper} {p : Prod} {prio : Nat} {words : List Word}

theorem Dev.beginBurst_only (d : Dev) (h : Nat) (y : Hopper) (p : Prod) (prio : Nat) (words : List Word) :
    OnlyHop d (d.beginBurst h y p prio words) := by
  unfold Dev.beginBurst
  rw [Dev.writeWords_only]
  rfl

theorem Dev.beginBurst_ctr (d : Dev) (h : Nat) (y : Hopper) (p : Prod) (prio : Nat) (words : List Word) :
    (d.beginBurst h y p prio words).ctr = d.ctr := Dev.writeWords_ctr d _ words

theorem Dev.hopper_beginBurst (wf : Store.wf {} d.hop.hops = true) (y : Hopper) : (d.beginBurst h y p prio words).hopper h =
    { y with w := y.w + words.length + 1, burst := some { prod := p, start := y.w, prio := prio, words := words } } :=
  Dev.hopper_setHopper_self (by rw [Dev.writeWords_hops, wf]) h _

theorem Dev.burstStart_fits (is : d.hopper h = x) (fits : x.w + words.length + 1 ≤ x.size) :
    d.burstStart k h p prio words = (.ok, d.beginBurst h x p prio words) := by
  subst is
  have short : ¬ (d.hopper h).size < words.length + 1 := by omega
  simp [Dev.burstStart, short, Nat.not_lt.mpr fits, Dev.beginBurst]

/-- A packet that does not fit any more makes the Hopper overflow: the packets not released are lost, and it begins the other
bank. -/
theorem Dev.burstStart_overflows (wf : Store.wf {} d.hop.hops = true) (ctr : Store.wf 0 d.ctr = true) (is : d.hopper h = x)
    (short : words.length + 1 ≤ x.size) (full : x.size < x.w + words.length + 1) (quiet : x.swapFlagEn = false) :
    d.burstStart k h p prio words =
      (.ok, ((((d.bumpN ⟨.hopHLostItem, h, 0⟩ (x.seq.length - x.rel)).bump1 .hopHOverflowSwap h).setHopper h
        (swapped x)).beginBurst h (swapped x) p prio words)) := by
  subst is
  have swaps : ((d.discardDrain h .hopHLostItem).bump1 .hopHOverflowSwap h).hopSwap k h = ((d.bumpN ⟨.hopHLostItem, h, 0⟩
      ((d.hopper h).seq.length - (d.hopper h).rel)).bump1 .hopHOverflowSwap h).setHopper h (swapped (d.hopper h)) := by
    rw [Dev.discardDrain_eq ctr]
    exact Dev.hopSwap_quiet rfl quiet
  unfold Dev.burstStart
  dsimp only
  rw [if_neg (Nat.not_lt.mpr short), if_pos full, swaps, Dev.hopper_setHopper_self (by exact wf)]
  rfl

theorem Dev.burstStart_tooLong (is : d.hopper h = x) (long : x.size < words.length + 1) :
    d.burstStart k h p prio words = (.badArg, d.bump1 .hopHTooLong h) := by
  subst is; simp [Dev.burstStart, long]

section
variable (lt : h < 1024) (is : d.hopper h = x) (up : x.setUp = true)
include lt is up

theorem Dev.burstOpen_closed (closed : x.closing.isSome = true) :
    d.burstOpen k h p prio words = (.aborted, d.bump1 .hopHClosedDrop h) := by
  subst is; simp [Dev.burstOpen, Dev.hopUp_of lt up, closed]

section
variable (taking : x.closing = none)
include taking

theorem Dev.burstOpen_begins (now : x.burst = none ∨ x.size < words.length + 1) :
    d.burstOpen k h p prio words = d.burstStart k h p prio words := by
  subst is
  rcases now with idle | long
  · simp [Dev.burstOpen, Dev.hopUp_of lt up, taking, idle]
  · simp [Dev.burstOpen, Dev.hopUp_of lt up, taking, Nat.not_le.mpr long]

theorem Dev.burstOpen_waits (busy : x.burst.isSome = true) (short : words.length + 1 ≤ x.size) :
    d.burstOpen k h p prio words = (.ok, d.setHopper h { x with
      queue := insertWait { at_ := k, prod := p, prio := prio, words := words } x.queue }) := by
  subst is; simp [Dev.burstOpen, Dev.hopUp_of lt up, taking, busy, short]

end

end

/-- A producer that becomes ready in a cycle of its own stands behind all that wait. -/
theorem insertWait_last {w : Waiting} {queue : List Waiting} (alone : ∀ e ∈ queue, e.at_ ≠ w.at_) :
    insertWait w queue = queue ++ [w] := by
  induction queue with
  | nil => rfl
  | cons e r ih =>
    have apart : ¬ (e.at_ = w.at_ ∧ w.prod.place < e.prod.place) := fun same => alone e (.head _) same.1
    rw [insertWait, if_neg apart, ih fun f later => alone f (.tail _ later), List.cons_append]

end

/-! ### Packets voided (R235) -/

/-- Hopper `x` with its burst in progress voided. -/
def Hopper.voids (x : Hopper) : Hopper := { x with burst := x.burst.map (fun b => { b with voided := true }) }

theorem Hopper.voids_of_same {x : Hopper} (same : x.burst.map (fun b => { b with voided := true }) = x.burst) : x.voids = x := by
  unfold Hopper.voids; rw [same]

/-- `d'` is `d` with open packets of put buffers voided, each counted for `h` by `c`. -/
structure PutsVoided (h : Nat) (c : CEv) (d d' : Dev) : Prop where
  only : OnlyHop d d'
  hops : d'.hop.hops = d.hop.hops
  puts : Store.wf {} d.hop.puts = true → Store.wf {} d'.hop.puts = true
  buf : Store.wf {} d.hop.puts = true → ∀ t, d'.putBuf t = d.putBuf t ∨ (d'.putBuf t).owner = none
  ctr : Store.wf 0 d.ctr = true → Store.wf 0 d'.ctr = true
  count : Store.wf 0 d.ctr = true → ∀ e : CEv, c.ctorIdx ≠ e.ctorIdx → d'.count ⟨e, h, 0⟩ = d.count ⟨e, h, 0⟩

section
variable {d d' : Dev} {h : Nat} {c : CEv}

theorem PutsVoided.refl (d : Dev) : PutsVoided h c d d := ⟨.refl d, rfl, id, fun _ _ => .inl rfl, id, fun _ _ _ => rfl⟩

theorem PutsVoided.trans {d'' : Dev} (f : PutsVoided h c d d') (g : PutsVoided h c d' d'') : PutsVoided h c d d'' where
  only := f.only.trans g.only
  hops := g.hops.trans f.hops
  puts wf := g.puts (f.puts wf)
  buf wf t := (g.buf (f.puts wf) t).elim (fun same => same ▸ f.buf wf t) .inr
  ctr wf := g.ctr (f.ctr wf)
  count wf e ne := (g.count (f.ctr wf) e ne).trans (f.count wf e ne)

theorem Dev.voidPut_voids {t : Nat} (names : (d.putBuf t).hop = h ∨ (d.putBuf t).owner = none) :
    PutsVoided h c d (d.voidPut t c) ∧ (Store.wf {} d.hop.puts = true → ((d.voidPut t c).putBuf t).owner = none) := by
  cases owned : (d.putBuf t).owner with
  | none =>
    have same : d.voidPut t c = d := by simp [Dev.voidPut, owned]
    rw [same]
    exact ⟨.refl d, fun _ => owned⟩
  | some th =>
    have names : (d.putBuf t).hop = h := names.resolve_right (by simp [owned])
    have voids : d.voidPut t c = { (d.setPutBuf t {}).bump1 c h with
        hop := { (d.setPutBuf t {}).hop with voided := d.hop.voided.put 0 th (h + 1) } } := by
      subst names; simp only [Dev.voidPut, owned]; rfl
    have empty (wf : Store.wf {} d.hop.puts = true) (u : Nat) :
        (d.voidPut t c).putBuf u = if u = t then {} else d.putBuf u := by rw [voids]; exact Store.get_put wf t u {}
    refine ⟨⟨by rw [voids]; rfl, by rw [voids]; rfl, fun wf => ?_, fun wf u => ?_, fun wf => ?_, fun wf e ne => ?_⟩,
      fun wf => by rw [empty wf, if_pos rfl]⟩
    · rw [voids]; exact Store.wf_put wf
    · rw [empty wf]
      split
      next => exact .inr rfl
      next => exact .inl rfl
    · rw [voids]; exact Store.wf_put wf
    · rw [voids]; exact Dev.count_bumpN_ne wf ne h 1

/-- Of listed put buffers those whose open packet names `h` are voided. -/
theorem Dev.foldl_voidPut {l : List (Nat × PutBuf)} (wf : Store.wf {} d.hop.puts = true)
    (listed : ∀ e ∈ l, d.putBuf e.1 = e.2 ∨ (d.putBuf e.1).owner = none) :
    let d' := l.foldl (fun d e => if e.2.owner.isSome && e.2.hop == h then d.voidPut e.1 c else d) d
    PutsVoided h c d d' ∧ ∀ e ∈ l, e.2.owner.isSome = true → e.2.hop = h → (d'.putBuf e.1).owner = none := by
  induction l generalizing d with
  | nil => exact ⟨.refl d, fun _ mem => absurd mem List.not_mem_nil⟩
  | cons e l ih =>
    have head := listed e (.head l)
    rw [List.foldl_cons]
    generalize first : (if e.2.owner.isSome && e.2.hop == h then d.voidPut e.1 c else d) = d₁
    have step : PutsVoided h c d d₁ ∧ (e.2.owner.isSome = true → e.2.hop = h → (d₁.putBuf e.1).owner = none) := by
      by_cases mine : e.2.owner.isSome = true ∧ e.2.hop = h
      · rw [if_pos (by simp [mine])] at first
        subst first
        obtain ⟨voids, gone⟩ := Dev.voidPut_voids (c := c) (head.imp_left fun same => same ▸ mine.2)
        exact ⟨voids, fun _ _ => gone wf⟩
      · rw [if_neg (by simpa using mine)] at first
        subst first
        exact ⟨.refl d, fun own names => absurd ⟨own, names⟩ mine⟩
    obtain ⟨voids, gone⟩ := step
    obtain ⟨rest, others⟩ := ih (voids.puts wf) fun f later =>
      (voids.buf wf f.1).elim (fun same => same ▸ listed f (.tail _ later)) .inr
    refine ⟨voids.trans rest, fun f mem own names => ?_⟩
    cases mem with
    | head => exact (rest.buf (voids.puts wf) e.1).elim (fun same => same ▸ gone own names) id
    | tail _ later => exact others f later own names

/-- Voiding leaves no open packet that names the Hopper. -/
theorem Dev.voidPuts_voids (wf : Store.wf {} d.hop.puts = true) :
    PutsVoided h c d (d.voidPuts h c) ∧ NoOpenPut (d.voidPuts h c) h := by
  obtain ⟨voids, gone⟩ : PutsVoided h c d (d.voidPuts h c) ∧ ∀ e ∈ d.hop.puts.entries, e.2.owner.isSome = true → e.2.hop = h →
      ((d.voidPuts h c).putBuf e.1).owner = none := Dev.foldl_voidPut wf fun e mem => .inl (Store.get_of_mem wf mem)
  refine ⟨voids, fun t own names => ?_⟩
  rcases voids.buf wf t with same | unowned
  · rw [same] at own names
    have kept : d.putBuf t ≠ {} := fun empty => by simp [empty] at own
    have unowned := gone (t, d.putBuf t) (Store.mem_of_get_ne kept) own names
    rw [same] at unowned
    simp [unowned] at own
  · simp [unowned] at own

/-- A pass in which no listed entry changes `d` leaves it. -/
theorem foldl_unchanged_of_mem {α : Type} {f : Dev → α → Dev} {l : List α} (keeps : ∀ e ∈ l, f d e = d) : l.foldl f d = d := by
  induction l with
  | nil => rfl
  | cons e l ih => rw [List.foldl_cons, keeps e (.head l), ih fun x later => keeps x (.tail e later)]

theorem Dev.voidPuts_none (wf : Store.wf {} d.hop.puts = true) (shut : NoOpenPut d h) : d.voidPuts h c = d := by
  refine foldl_unchanged_of_mem fun e mem => if_neg fun mine => ?_
  have is : d.putBuf e.1 = e.2 := Store.get_of_mem wf mem
  obtain ⟨own, names⟩ := Bool.and_eq_true_iff.mp mine
  exact shut e.1 (is ▸ own) (is ▸ eq_of_beq names)

/-- Voiding the burst in progress counts it unless it has been voided before, or there is none. -/
theorem Dev.voidBurst_eq (hops : Store.wf {} d.hop.hops = true) (ctr : Store.wf 0 d.ctr = true) {x : Hopper}
    (is : d.hopper h = x) : ∃ n, d.voidBurst h c = (d.setHopper h x.voids).bumpN ⟨c, h, 0⟩ n := by
  have unchanged (same : x.voids = x) : d = (d.setHopper h x.voids).bumpN ⟨c, h, 0⟩ 0 := by
    rw [Dev.bumpN_zero (by exact ctr), same, ← is, Dev.setHopper_hopper hops]
  subst is
  unfold Dev.voidBurst
  dsimp only
  split
  next b busy =>
    split
    next voided => exact ⟨0, unchanged (Hopper.voids_of_same (by simp [busy, ← voided]))⟩
    next => exact ⟨1, by simp [Hopper.voids, busy, Dev.bump1]⟩
  next idle => exact ⟨0, unchanged (Hopper.voids_of_same (by simp [idle]))⟩

end

section
variable {d d' : Dev} {k : Clock} {h : Nat} {x : Hopper}

/-! ### What the end of a burst brings (R236, R238, R240) -/

section
variable {ok : Bool}

/-- No swap is due. -/
theorem Dev.burstEnd_rests (ends : (d.burstEndAt k h ok).2 = d') (is : d'.hopper h = x) (alone : x.queue = [])
    (not : x.due = false) (rest : x.sched = true ∨ x.fill = []) : (d.burstEnd k h ok).2 = d' := by
  rw [Dev.burstEnd_alone ends (is ▸ alone), Dev.trySwap_notDue is not rest]

/-- The swap deferred behind the burst is made. -/
theorem Dev.burstEnd_deferred (ends : (d.burstEndAt k h ok).2 = d'.forcedSwap k h) (is : d'.hopper h = x)
    (hops : Store.wf {} d'.hop.hops = true) (ctr : Store.wf 0 d'.ctr = true) (idle : x.burst = none) (alone : x.queue = [])
    (quiet : x.swapFlagEn = false) : (d.burstEnd k h ok).2 =
      (d'.bumpN ⟨.hopHSwapResidueLost, h, 0⟩ (x.seq.length - x.rel)).setHopper h (swapped x) := by
  rw [Dev.forcedSwap_idle ctr is idle, Dev.hopSwap_quiet (d := d'.bumpN _ _) is quiet] at ends
  exact Dev.burstEnd_rests (x := swapped x) ends (Dev.hopper_setHopper_self (by exact hops) h _) alone rfl (.inr rfl)

/-- The packet committed brings the swap of a work-conserving Hopper whose drain bank is released. -/
theorem Dev.burstEnd_conserving (ends : (d.burstEndAt k h ok).2 = d') (is : d'.hopper h = x)
    (up : x.setUp = true) (idle : x.burst = none) (released : x.rel = x.seq.length) (conserving : x.sched = false)
    (committed : x.fill ≠ []) (alone : x.queue = []) (quiet : x.swapFlagEn = false) :
    (d.burstEnd k h ok).2 = d'.setHopper h (swapped x) := by
  rw [Dev.burstEnd_alone ends (is ▸ alone), Dev.trySwap_swaps is up idle released conserving committed,
    Dev.hopSwap_quiet is quiet]

end

theorem Hopper.commits_fill_ne_nil (x : Hopper) (b : Burst) : (x.commits b).fill ≠ [] :=
  List.append_ne_nil_of_right_ne_nil _ (List.cons_ne_nil _ _)

/-! ### Flush and destroy (R246, R247) -/

/-- Hopper `x` emptied, its burst in progress voided. -/
def Hopper.flushed (x : Hopper) : Hopper :=
  { x.voids with w := 0, fill := [], seq := [], rel := 0, rp := 0, ro := 0, mv := false, due := false }

section
variable {c : CEv} (ctr : Store.wf 0 d.ctr = true) (puts : Store.wf {} d.hop.puts = true) (is : d.hopper h = x)
include puts is

/-- What is open for a Hopper is voided: its burst in progress, and the put buffers' packets that name it. -/
theorem Dev.voidOpen_voids (hops : Store.wf {} d.hop.hops = true) (ctr : Store.wf 0 d.ctr = true) :
    let e := (d.voidBurst h c).voidPuts h c
    OnlyHop d e ∧ e.hop.hops = (d.setHopper h x.voids).hop.hops ∧ NoOpenPut e h ∧
      ∀ f : CEv, c.ctorIdx ≠ f.ctorIdx → e.count ⟨f, h, 0⟩ = d.count ⟨f, h, 0⟩ := by
  obtain ⟨n, burst⟩ := Dev.voidBurst_eq (c := c) hops ctr is
  rw [burst]
  obtain ⟨voids, shut⟩ := Dev.voidPuts_voids (h := h) (c := c) (d := (d.setHopper h x.voids).bumpN ⟨c, h, 0⟩ n) puts
  exact ⟨.trans (b := (d.setHopper h x.voids).bumpN ⟨c, h, 0⟩ n) rfl voids.only, voids.hops, shut, fun f ne =>
    (voids.count (Store.wf_put ctr) f ne).trans (Dev.count_bumpN_ne (d := d.setHopper h x.voids) ctr ne h n)⟩

theorem Dev.voidOpen_none (idle : x.burst = none) (shut : NoOpenPut d h) : (d.voidBurst h c).voidPuts h c = d := by
  subst is
  have still : d.voidBurst h c = d := by simp [Dev.voidBurst, idle]
  rw [still, Dev.voidPuts_none puts shut]

include ctr

theorem Dev.hopFlush_eq (hops : Store.wf {} d.hop.hops = true) : d.hopFlush k h =
    (((d.bumpN ⟨.hopHFlushDiscard, h, 0⟩ (x.fill.length + (x.seq.length - x.rel))).voidBurst h .hopHFlushVoid).voidPuts h
      .hopHFlushVoid).setHopper h x.flushed := by
  obtain ⟨_, same, _⟩ := Dev.voidOpen_voids (c := .hopHFlushVoid)
    (d := d.bumpN ⟨.hopHFlushDiscard, h, 0⟩ (x.fill.length + (x.seq.length - x.rel))) puts is hops (Store.wf_put ctr)
  unfold Dev.hopFlush
  dsimp only
  rw [Dev.bumpN_unless_zero ctr, is]
  generalize ((d.bumpN _ _).voidBurst h .hopHFlushVoid).voidPuts h .hopHFlushVoid = e at same
  have reads : e.hopper h = x.voids := by
    rw [Dev.hopper, same]; exact Dev.hopper_setHopper_self hops h _
  have wf : Store.wf {} e.hop.hops = true := by rw [same]; exact Store.wf_put hops
  have empties : e.modHopper h (fun x => { x with
      w := 0, fill := [], seq := [], rel := 0, rp := 0, ro := 0, mv := false, due := false }) = e.setHopper h x.flushed := by
    rw [Dev.modHopper, reads]; rfl
  rw [empties]
  exact Dev.trySwap_notDue (Dev.hopper_setHopper_self wf h _) rfl (.inr rfl)

/-- The end of a destroy with nothing open counts what is left. -/
theorem Dev.hopDestroyEnd_eq (idle : x.burst = none) (shut : NoOpenPut d h) : d.hopDestroyEnd h =
    ({ (d.bumpN ⟨.hopHDestroyDiscard, h, 0⟩ (x.fill.length + (x.seq.length - x.rel) + x.queue.length)).dropFlights
      (fun f => f.hop == h) with
        regs := d.regs.put none (0x700000 + 8 * h) (some (BitVec.ofNat 32 (x.base + x.sizeLog2 * 2 ^ 16))) } : Dev).setHopper
      h {} := by
  subst is
  unfold Dev.hopDestroyEnd
  dsimp only
  rw [Dev.bumpN_unless_zero ctr, Dev.voidOpen_none (d := d.bumpN _ _) puts rfl idle shut]
  rfl

end

/-- The packet received whose burst into Hopper `x` is in progress. -/
def Dev.openFlight (d : Dev) (h : Nat) (x : Hopper) : Option EFlight :=
  match x.burst with
  | some b => (match b.prod with
    | .eth p => d.eth.flight.find? (fun f => f.hop == h && f.port == p)
    | _ => none)
  | none => none

theorem Dev.openFlight_idle (idle : x.burst = none) : d.openFlight h x = none := by simp [Dev.openFlight, idle]

/-- The one host command that waits is answered. -/
theorem Dev.finish_single {kind : WKind} {key opc : Nat} {o : Origin}
    (waits : d.waits = [{ kind := kind, key := key, src := .host o, opc := opc }]) (st : Status) :
    d.finish k kind key st = ({ d with waits := [] } : Dev).complete k o opc st [] := by
  simp [Dev.finish, waits, Dev.answer]

end

end Sys2Proof.Machine

namespace Sys2Proof
open Sys2Proof.Machine

/-! ### HOPPER_SWAP and its alarm action (R240) -/

section
variable {s : State} {h : Nat} {x : Hopper} (up : s.dev.hopUp h = true) (is : s.dev.hopper h = x)
  (hops : Store.wf {} s.dev.hop.hops = true) (ctr : Store.wf 0 s.dev.ctr = true)

section
include up

theorem hopperSwap_answers {o : Origin} (ho : HostOk o s) :
    Answers (.hopperSwap o h) o 0x0704 s .ok [] ((s.dev.forcedSwap s.clk h).trySwap s.clk h) :=
  answers_of_hostCmd _ ho rfl (if_pos up)

/-- The alarm action of the only slot set up forces the same swap, once the slot has fired. -/
theorem alarmFire_swaps {n slot : Nat} {a : Alarm} (ge : s.clk.sub ≤ n) (lt : n < 3072) (only : s.dev.htb.alarms = [(slot, a)])
    (armed : a.armed = true) (swap : a.typ = 1) (target : a.targets = h) (due : a.due = s.clk.tick * 4096 + n)
    (onTime : a.target = a.due) (new : s.dev.htb.issueAt ≠ s.clk.tick * 4096 + n + 1)
    (done : s.dev.bndDone { s.clk with sub := n } = true) :
    ∃ t : Htb, exec (.alarmFire n) s = .next { s with
      clk := { s.clk with sub := n }
      dev := (({ s.dev with htb := t } : Dev).forcedSwap { s.clk with sub := n } h).trySwap { s.clk with sub := n } h } := by
  obtain ⟨t, fires, _⟩ := Dev.issueAlarms_single (k := { s.clk with sub := n }) only armed due new
    (Alarm.advance_onTime armed (onTime.trans due)) (Nat.succ_ne_zero _)
  refine ⟨t, ?_⟩
  rw [exec_alarmFire ge lt ((Dev.bndDone_iff _ _).mp done), fires, Dev.alarmAct_swap swap target (by exact up)]

end

theorem burstEnd_does {ok a c : Bool} {d : Dev} (ends : s.dev.endBurst s.clk h ok a c = d) : Does (.burstEnd h ok a c) s d :=
  does_of_onDev (execBurstEnd h ok a c s) rfl rfl ends

include is hops ctr

include up in
theorem hopperSwap_idle (idle : x.burst = none) {o : Origin} (ho : HostOk o s) :
    ∃ d, Answers (.hopperSwap o h) o 0x0704 s .ok [] d ∧
      d.hopper h = swapped x ∧ (x.fill = [] → (d.hopper h).seq = []) ∧
      (∀ g, g ≠ h → d.hopper g = s.dev.hopper g) ∧ d.hop.qsram = s.dev.hop.qsram ∧
      (x.swapFlagEn = false → OnlyHop s.dev d ∧
        d.count ⟨.hopHSwapResidueLost, h, 0⟩ = s.dev.count ⟨.hopHSwapResidueLost, h, 0⟩ + (x.seq.length - x.rel)) ∧
      (x.swapFlagEn = true → ∃ d', OnlyHop s.dev d' ∧ d = d'.setFlag s.clk x.thread x.swapFlag ∧
        d'.count ⟨.hopHSwapResidueLost, h, 0⟩ = s.dev.count ⟨.hopHSwapResidueLost, h, 0⟩ + (x.seq.length - x.rel)) := by
  have counts := Dev.count_bumpN_self ctr ⟨.hopHSwapResidueLost, h, 0⟩ (x.seq.length - x.rel)
  have same : (s.dev.bumpN ⟨.hopHSwapResidueLost, h, 0⟩ (x.seq.length - x.rel)).hopper h = x := is
  have reads (g : Nat) := (Dev.hopper_hopSwap (k := s.clk) same g).trans (Dev.hopper_setHopper (by exact hops) h g _)
  have own := (reads h).trans (if_pos rfl)
  refine ⟨_, Dev.forceSwap_idle hops ctr is idle ▸ hopperSwap_answers up ho, own, fun empty => ?_,
    fun g other => (reads g).trans (if_neg other), by rw [Dev.hopSwap_hop same]; rfl, fun quiet => ?_, fun flags => ?_⟩
  · rw [own, swapped, empty]; rfl
  · rw [Dev.hopSwap_quiet same quiet]
    exact ⟨rfl, counts⟩
  · exact ⟨_, .trans (.bumpN _ _ _) (.setHopper _ _ _), Dev.hopSwap_flags same flags, counts⟩

section
variable {b : Burst} (busy : x.burst = some b) (other : ∀ p, b.prod ≠ .eth p) (deferred : b.swapAfter = true)
  (valid : b.voided = false) (quiet : x.swapFlagEn = false) (alone : x.queue = [])
include busy other deferred valid quiet alone

theorem burstEnd_commits_swaps (a c : Bool) (still : x.noticeEn = false) : ∃ d, Does (.burstEnd h true a c) s d ∧ OnlyHop s.dev d ∧
    d.hopper h = swapped (x.commits b) := by
  have ends := (Dev.burstEndAt_commits (k := s.clk) is busy valid still).trans (if_pos deferred)
  have swaps := Dev.burstEnd_deferred ends (Dev.hopper_setHopper_self hops h _) (Store.wf_put hops) ctr rfl alone quiet
  exact ⟨_, burstEnd_does ((Dev.endBurst_commits (is ▸ busy) other a c).trans swaps), rfl,
    Dev.hopper_setHopper_self (Store.wf_put hops) h _⟩

theorem burstEnd_aborts_swaps (a c : Bool) (notPut : ∀ t, b.prod ≠ .put t) : ∃ d, Does (.burstEnd h false a c) s d ∧
    OnlyHop s.dev d ∧ d.hopper h = swapped { x with burst := none } := by
  have ends := (Dev.burstEndAt_aborts (k := s.clk) is busy valid).trans (if_pos deferred)
  have swaps := Dev.burstEnd_deferred ends (Dev.hopper_setHopper_self hops h _) (Store.wf_put hops) (Store.wf_put ctr)
    rfl alone quiet
  exact ⟨_, burstEnd_does ((Dev.endBurst_aborts (is ▸ busy) other notPut a c).trans swaps), rfl,
    Dev.hopper_setHopper_self (Store.wf_put hops) h _⟩

end

end

section
variable {s : State} {h : Nat} {x : Hopper} (is : s.dev.hopper h = x) (hops : Store.wf {} s.dev.hop.hops = true)
  (ctr : Store.wf 0 s.dev.ctr = true)

/-! ### The start of a burst (R232, R233, R237) -/

theorem burstStart_does {p : Prod} {prio : Nat} {words : List Word} {st : Status} {d : Dev}
    (opens : s.dev.burstOpen s.clk h p prio words = (st, d)) : Does (.burstStart h p prio words) s d :=
  does_of_onDev (execBurstStart h p prio words s) rfl rfl (congrArg Prod.snd opens)

section
variable (lt : h < 1024) (up : x.setUp = true) (taking : x.closing = none) {p : Prod} {prio : Nat} {words : List Word}
include is lt up taking

include hops in
theorem burstStart_stores (qsram : Store.wf 0 s.dev.hop.qsram = true) (idle : x.burst = none)
    (fits : x.w + words.length + 1 ≤ x.size) : ∃ d, Does (.burstStart h p prio words) s d ∧ OnlyHop s.dev d ∧
      d.hopper h = { x with
        w := x.w + words.length + 1
        burst := some { prod := p, start := x.w, prio := prio, words := words } } ∧
      (∀ i, i < words.length → words[i]? = some (d.qword (x.bankAt x.fb + x.w + 1 + i))) ∧
      (∀ i, i < x.bankAt x.fb + x.w + 1 ∨ x.bankAt x.fb + x.w + 1 + words.length ≤ i → d.qword i = s.dev.qword i) :=
  ⟨_, burstStart_does ((Dev.burstOpen_begins lt is up taking (.inl idle)).trans (Dev.burstStart_fits is fits)),
    Dev.beginBurst_only .., Dev.hopper_beginBurst hops x, fun _ inside => Dev.qword_writeWords_in qsram inside,
    fun _ out => Dev.qword_writeWords_out qsram out⟩

include hops ctr in
theorem burstStart_overflows (idle : x.burst = none) (short : words.length + 1 ≤ x.size)
    (full : x.size < x.w + words.length + 1) (quiet : x.swapFlagEn = false) : ∃ d,
      Does (.burstStart h p prio words) s d ∧ OnlyHop s.dev d ∧ d.hopper h = { swapped x with
        w := words.length + 1, burst := some { prod := p, start := 0, prio := prio, words := words } } ∧
      d.count ⟨.hopHOverflowSwap, h, 0⟩ = s.dev.count ⟨.hopHOverflowSwap, h, 0⟩ + 1 := by
  refine ⟨_, burstStart_does ((Dev.burstOpen_begins lt is up taking (.inl idle)).trans
    (Dev.burstStart_overflows hops ctr is short full quiet)), .trans ?_ (Dev.beginBurst_only ..), ?_, ?_⟩
  · rfl
  · rw [Dev.hopper_beginBurst (Store.wf_put hops)]
    simp [swapped]
  · have lost := Dev.count_bumpN_ne (e := .hopHLostItem) (f := .hopHOverflowSwap) ctr (by decide) h (x.seq.length - x.rel)
    rw [Dev.count, Dev.beginBurst_ctr, ← lost]
    exact Dev.count_bumpN_self (Store.wf_put ctr) _ 1

theorem burstStart_waits (busy : x.burst.isSome = true) (short : words.length + 1 ≤ x.size) :
    Does (.burstStart h p prio words) s (s.dev.setHopper h { x with
      queue := insertWait { at_ := s.clk, prod := p, prio := prio, words := words } x.queue }) :=
  burstStart_does (Dev.burstOpen_waits lt is up taking busy short)

theorem burstStart_tooLong (long : x.size < words.length + 1) :
    Does (.burstStart h p prio words) s (s.dev.bump1 .hopHTooLong h) :=
  burstStart_does ((Dev.burstOpen_begins lt is up taking (.inr long)).trans (Dev.burstStart_tooLong is long))

end

/-! ### The end of a burst (R236, R238) -/

section
variable {b : Burst} (busy : x.burst = some b) (other : ∀ p, b.prod ≠ .eth p) (valid : b.voided = false)
  (now : b.swapAfter = false) (alone : x.queue = []) (a c : Bool)
include is hops busy other valid now alone

theorem burstEnd_commits_scheduled (still : x.noticeEn = false) (not : x.due = false) (sched : x.sched = true) :
    Does (.burstEnd h true a c) s (s.dev.setHopper h (x.commits b)) := by
  have ends := (Dev.burstEndAt_commits (k := s.clk) is busy valid still).trans (if_neg (Bool.eq_false_iff.mp now))
  exact burstEnd_does ((Dev.endBurst_commits (is ▸ busy) other a c).trans
    (Dev.burstEnd_rests ends (Dev.hopper_setHopper_self hops h _) alone not (.inl sched)))

theorem burstEnd_commits_conserving (still : x.noticeEn = false) (up : x.setUp = true) (conserving : x.sched = false)
    (released : x.rel = x.seq.length) (quiet : x.swapFlagEn = false) :
    ∃ d, Does (.burstEnd h true a c) s d ∧ OnlyHop s.dev d ∧ d.hopper h = swapped (x.commits b) := by
  have ends := (Dev.burstEndAt_commits (k := s.clk) is busy valid still).trans (if_neg (Bool.eq_false_iff.mp now))
  have swaps := Dev.burstEnd_conserving ends (Dev.hopper_setHopper_self hops h _) up rfl released conserving
    (x.commits_fill_ne_nil b) alone quiet
  exact ⟨_, burstEnd_does ((Dev.endBurst_commits (is ▸ busy) other a c).trans swaps), rfl,
    Dev.hopper_setHopper_self (Store.wf_put hops) h _⟩

theorem burstEnd_aborts_scheduled (not : x.due = false) (sched : x.sched = true) (notPut : ∀ t, b.prod ≠ .put t) :
    Does (.burstEnd h false a c) s ((s.dev.setHopper h { x with burst := none, w := b.start }).bump1 .hopHAbort h) := by
  have ends := (Dev.burstEndAt_aborts (k := s.clk) is busy valid).trans (if_neg (Bool.eq_false_iff.mp now))
  exact burstEnd_does ((Dev.endBurst_aborts (is ▸ busy) other notPut a c).trans
    (Dev.burstEnd_rests ends (Dev.hopper_setHopper_self hops h _) alone not (.inl sched)))

end

/-! ### The commands of Table 9.2 -/

section
variable {o : Origin} (ho : HostOk o s)
include ho

theorem hopperCreate_answers (lt : h < 1024) {base lg : Nat} {m : HopMode} (least : 8 ≤ lg) (most : lg ≤ 18)
    (top : base ≤ 8191) (good : m.bad = false) (free : (s.dev.hopper h).setUp = false) (region : s.dev.regionOk h base lg = true) :
    Answers (.hopperCreate o h base lg m) o 0x0701 s .ok []
      (s.dev.setHopper h (({ setUp := true, base := base, sizeLog2 := lg } : Hopper).setMode m)) :=
  answers_of_hostCmd _ ho rfl (by
    simp [firstStatus, Nat.not_lt.mpr least, Nat.not_lt.mpr most, Nat.not_lt.mpr top, good, free, region,
      Nat.not_lt.mpr (Nat.le_of_lt_succ lt)])

section
variable (lt : h < 1024) (up : x.setUp = true)
include is lt up

theorem hopperMode_answers {m : HopMode} (good : m.bad = false) :
    Answers (.hopperMode o h m) o 0x0705 s .ok [] ((s.dev.setHopper h (x.setMode m)).trySwap s.clk h) := by
  subst is
  exact answers_of_hostCmd _ ho rfl (by simp [good, Dev.hopUp_of lt up, Dev.modHopper])

include hops in
theorem hopperMode_scheduled {m : HopMode} (good : m.bad = false) (sched : m.sched = true) (not : x.due = false) :
    Answers (.hopperMode o h m) o 0x0705 s .ok [] (s.dev.setHopper h { x with
      sched := true, frame := m.frame, noticeEn := m.noticeEn, noticeFlag := m.noticeFlag, swapFlagEn := m.swapFlagEn,
      swapFlag := m.swapFlag, thread := m.thread }) := by
  have answers := hopperMode_answers is ho lt up good
  rw [Dev.trySwap_notDue (Dev.hopper_setHopper_self hops h _) (by simp [Hopper.setMode, not]) (.inl sched)] at answers
  simpa [Hopper.setMode, not, sched] using answers

include hops ctr in
theorem hopperFlush_empties (puts : Store.wf {} s.dev.hop.puts = true) :
    ∃ d, Answers (.hopperFlush o h) o 0x0703 s .ok [] d ∧ OnlyHop s.dev d ∧ d.hopper h = x.flushed ∧ NoOpenPut d h ∧
      d.count ⟨.hopHFlushDiscard, h, 0⟩ =
        s.dev.count ⟨.hopHFlushDiscard, h, 0⟩ + x.fill.length + (x.seq.length - x.rel) := by
  have flushes : Answers (.hopperFlush o h) o 0x0703 s .ok [] (s.dev.hopFlush s.clk h) :=
    answers_of_hostCmd _ ho rfl (if_pos (Dev.hopUp_of lt (is ▸ up)))
  rw [Dev.hopFlush_eq ctr puts is hops] at flushes
  obtain ⟨only, same, shut, counts⟩ := Dev.voidOpen_voids (c := .hopHFlushVoid)
    (d := s.dev.bumpN ⟨.hopHFlushDiscard, h, 0⟩ (x.fill.length + (x.seq.length - x.rel))) puts is hops (Store.wf_put ctr)
  refine ⟨_, flushes, (OnlyHop.bumpN ..).trans (only.trans (.setHopper ..)),
    Dev.hopper_setHopper_self (by rw [same]; exact Store.wf_put hops) h _, shut, ?_⟩
  rw [Nat.add_assoc, ← Dev.count_bumpN_self ctr]
  exact counts .hopHFlushDiscard (by decide)

include ctr in
/-- A destroy closes the Hopper; of the packets received for it only the one whose burst is in progress stays buffered. -/
theorem hopperDestroy_waits {grace : Nat} (top : grace ≤ 160) (taking : x.closing = none) :
    Waits (.hopperDestroy o h grace) o 0x0702 s .hopperDestroy h
      (((s.dev.bumpN ⟨.hopHClosedDrop, h, 0⟩ x.queue.length).dropFlights
        (fun f => f.hop == h && s.dev.openFlight h x != some f)).setHopper h { x with closing := some grace, queue := [] }) := by
  subst is
  refine waits_of_hostCmd _ ho rfl ?_
  have fine : firstStatus .ok [(decide (160 < grace), .badArg), (!s.dev.hopUp h, .unknownObject),
      ((s.dev.hopper h).closing.isSome, .refusedBusy)] = .ok := by
    simp [firstStatus, Dev.hopUp_of lt up, taking, Nat.not_lt.mpr top]
  dsimp only
  rw [fine, beq_self_eq_true, if_pos rfl, Dev.bumpN_unless_zero ctr]
  rfl

theorem hopperStatus_answers : ∃ opens voids, Answers (.hopperStatus o h) o 0x0706 s .ok
    ([⟨2, x.base⟩, ⟨4, x.size⟩, ⟨1, b2n x.sched + 2 * x.frame⟩, ⟨1, x.fb⟩, ⟨4, x.w⟩, ⟨4, x.fill.length⟩,
      ⟨4, x.seq.length⟩, ⟨4, x.rel⟩, ⟨4, x.rp⟩, ⟨4, x.ro⟩, ⟨1, b2n x.mv⟩, ⟨1, b2n x.due⟩, ⟨2, opens⟩, ⟨2, voids⟩] ++
      hopCounters.map (fun c => ⟨8, s.dev.count ⟨c, h, 0⟩⟩)) s.dev := by
  subst is
  exact ⟨_, _, answers_of_hostCmd _ ho rfl (if_neg (by simp [Dev.hopUp_of lt up]))⟩

end

end

/-! ### The end of a destroy (R247) -/

section
variable (up : x.setUp = true)
include is up

theorem hopperDestroyEnd_does (ends : x.closing = some 0 ∨ x.closing.isSome = true ∧ x.empty = true) :
    Does (.hopperDestroyEnd h) s ((s.dev.hopDestroyEnd h).finish s.clk .hopperDestroy h .ok) := by
  subst is
  exact does_of_onDev (execHopperDestroyEnd h s) rfl rfl (if_pos (by simpa [up] using ends))

include hops ctr in
theorem hopperDestroyEnd_completes (puts : Store.wf {} s.dev.hop.puts = true) {o : Origin} (closing : x.closing = some 0)
    (idle : x.burst = none) (shut : NoOpenPut s.dev h)
    (waits : s.dev.waits = [{ kind := .hopperDestroy, key := h, src := .host o, opc := 0x0702 }]) :
    ∃ d : Dev, Does (.hopperDestroyEnd h) s (({ d with waits := [] }).complete s.clk o 0x0702 .ok []) ∧ d.hopper h = {} ∧
      d = { s.dev with hop := d.hop, ctr := d.ctr, eth := d.eth, regs := d.regs } ∧
      d.count ⟨.hopHDestroyDiscard, h, 0⟩ = s.dev.count ⟨.hopHDestroyDiscard, h, 0⟩ +
        (x.fill.length + (x.seq.length - x.rel) + x.queue.length) := by
  have ends := hopperDestroyEnd_does is up (.inl closing)
  rw [Dev.hopDestroyEnd_eq ctr puts is idle shut, Dev.finish_single (by exact waits)] at ends
  exact ⟨_, ends, Dev.hopper_setHopper_self (by exact hops) h {}, rfl, Dev.count_bumpN_self ctr _ _⟩

end

end

/-! ### The obligations -/

/-- Settles O42: with no burst in progress a forced swap is `hopSwap` behind one count (`Dev.forceSwap_idle`), for the command and
for the alarm action; behind a burst it is recorded, and the end of the burst makes it (`Dev.burstEnd_deferred`). -/
theorem hopperSwapIsForced : Obligations.HopperSwapIsForced := by
  intro s h x up is hops ctr
  refine ⟨fun o ho idle => hopperSwap_idle up is hops ctr idle ho,
    fun o b ho busy => Dev.forceSwap_busy hops is busy ▸ hopperSwap_answers up ho,
    fun b a c busy other deferred valid still quiet alone =>
      ⟨burstEnd_commits_swaps is hops ctr busy other deferred valid quiet alone a c still,
        fun notPut => burstEnd_aborts_swaps is hops ctr busy other deferred valid quiet alone a c notPut⟩,
    fun n slot al ge lt only armed swap target due onTime _ new done => ?_⟩
  obtain ⟨t, fires⟩ := alarmFire_swaps up ge lt only armed swap target due onTime new done
  refine ⟨_, fires, fun idle => ?_, fun b busy => ?_⟩
  · have same : (({ s.dev with htb := t } : Dev).bumpN ⟨.hopHSwapResidueLost, h, 0⟩ (x.seq.length - x.rel)).hopper h = x := is
    rw [Dev.forceSwap_idle (x := x) (d := { s.dev with htb := t }) hops ctr is idle]
    refine ⟨(Dev.hopper_hopSwap same h).trans (Dev.hopper_setHopper_self (by exact hops) h _), fun quiet => ?_⟩
    rw [Dev.hopSwap_quiet same quiet]
    rfl
  · rw [Dev.forceSwap_busy (x := x) (d := { s.dev with htb := t }) hops is busy]
    exact ⟨Dev.hopper_setHopper_self (by exact hops) h _, rfl⟩

/-- Settles O43: each clause is the operation that it names (R236, R246, R247), as the lemmas above write it. -/
theorem hoppersTakeWholePackets : Obligations.HoppersTakeWholePackets := by
  intro s h x is lt hops ctr qsram puts
  refine ⟨fun p prio words up taking => ⟨burstStart_stores is hops lt up taking qsram, fun busy short apart => ?_,
      burstStart_overflows is hops ctr lt up taking, burstStart_waits is lt up taking, rfl, fun w busy short one same before => ?_,
      burstStart_tooLong is lt up taking⟩,
    fun p prio words up closed => burstStart_does (Dev.burstOpen_closed lt is up closed), fun ok a c => rfl,
    fun b a c up busy other valid now still alone not =>
      ⟨burstEnd_commits_scheduled is hops busy other valid now alone a c still not,
        fun conserving released quiet =>
          burstEnd_commits_conserving is hops busy other valid now alone a c still up conserving released quiet,
        burstEnd_aborts_scheduled is hops busy other valid now alone a c not⟩,
    fun o base lg m ho least most top good free region => hopperCreate_answers ho lt least most top good (is ▸ free) region,
    fun o m ho good sched up not => hopperMode_scheduled is hops ho lt up good sched not,
    fun o m ho good up => hopperMode_answers is ho lt up good, fun o ho up => hopperFlush_empties is hops ctr ho lt up puts,
    fun o grace ho top up taking idle alone => ?_, fun o grace ho top up taking => ?_,
    fun up ends => hopperDestroyEnd_does is up ends,
    fun o up closing idle shut waits => hopperDestroyEnd_completes is hops ctr up puts closing idle shut waits,
    fun o ho up => hopperStatus_answers is ho lt up⟩
  · have waits := burstStart_waits is lt up taking (p := p) (prio := prio) busy short
    rwa [insertWait_last apart] at waits
  · have waits := burstStart_waits is lt up taking (p := p) (prio := prio) busy short
    rwa [one, insertWait, if_pos ⟨same, before⟩] at waits
  · have waits := hopperDestroy_waits is ctr ho lt up top taking
    have all : (fun f : EFlight => f.hop == h && (none : Option EFlight) != some f) = fun f => f.hop == h :=
      funext fun f => Bool.and_true _
    rw [Dev.openFlight_idle idle, all, alone, List.length_nil, Dev.bumpN_zero ctr] at waits
    exact waits
  · exact ⟨_, hopperDestroy_waits is ctr ho lt up top taking, Dev.hopper_setHopper_self (by exact hops) h _, rfl,
      Dev.count_bumpN_self ctr _ _⟩

end Sys2Proof

/-! # The packet channels' and bridges' obligations (chapter 11)

Channels and bridges stand in two stores of Sirboroth's record; what carries their packets touches neither (`OnlyCarry`). Each
command and event is one operation on a channel or a bridge, and the statements are assembled from what each operation gives. -/

namespace Sys2Proof.Machine
open Sys2Proof

/-! ### Channels and bridges read back -/

section
variable {d : Dev} {c : Nat}

@[simp] theorem Dev.pkt_setPkt_some (d : Dev) (c : Nat) (x : PktCh) : (d.setPkt c (some x)).pkt c = some x :=
  Store.get_put_self_of_ne (Option.some_ne_none x) _ c

theorem Dev.pkt_setPkt_none (wf : Store.wf none d.med.pkts = true) : (d.setPkt c none).pkt c = none := Store.get_put_self wf

@[simp] theorem Dev.bridge_setBridge_some (d : Dev) (c : Nat) (x : Bridge) : (d.setBridge c (some x)).bridge c = some x :=
  Store.get_put_self_of_ne (Option.some_ne_none x) _ c

theorem Dev.bridge_setBridge_none (wf : Store.wf none d.med.bridges = true) : (d.setBridge c none).bridge c = none :=
  Store.get_put_self wf

theorem Dev.modPkt_of {x : PktCh} (is : d.pkt c = some x) (f : PktCh → PktCh) : d.modPkt c f = d.setPkt c (some (f x)) := by
  rw [Dev.modPkt, is, Option.map_some]

theorem Dev.modBridge_of {x : Bridge} (is : d.bridge c = some x) (f : Bridge → Bridge) :
    d.modBridge c f = d.setBridge c (some (f x)) := by
  rw [Dev.modBridge, is, Option.map_some]

end

/-! ### What carries packets, and what it leaves unchanged -/

/-- `d'` differs from `d` only in what carries packets and tells of them: the Hoppers with the repair of their memory, the
Barista, the host interface and the counters. -/
def OnlyCarry (d d' : Dev) : Prop :=
  d' = { d with hop := d'.hop, sch := d'.sch, hif := d'.hif, ctr := d'.ctr, sys := d'.sys }

section
variable {d d' : Dev} {k : Clock} {h : Nat}

theorem OnlyCarry.refl (d : Dev) : OnlyCarry d d := rfl

theorem OnlyCarry.trans {a b c : Dev} (h : OnlyCarry a b) (g : OnlyCarry b c) : OnlyCarry a c := by
  unfold OnlyCarry at *; rw [g, h]

theorem OnlyCarry.of_hif (only : OnlyHif d d') : OnlyCarry d d' := by
  unfold OnlyHif at only; rw [only]; rfl

theorem OnlyCarry.of_sch (only : OnlySch d d') : OnlyCarry d d' := by
  unfold OnlySch at only; rw [only]; rfl

theorem OnlyCarry.foldl {α : Type} {f : Dev → α → Dev} (each : ∀ d x, OnlyCarry d (f d x)) (l : List α) (d : Dev) :
    OnlyCarry d (l.foldl f d) := by
  induction l generalizing d with
  | nil => exact .refl d
  | cons x r ih => exact (each d x).trans (ih _)

theorem OnlyCarry.med (only : OnlyCarry d d') : d'.med = d.med := (congrArg Dev.med only).trans rfl
theorem OnlyCarry.waits (only : OnlyCarry d d') : d'.waits = d.waits := (congrArg Dev.waits only).trans rfl

theorem OnlyCarry.bumpN (d : Dev) (c : Ctr) (n : Nat) : OnlyCarry d (d.bumpN c n) := rfl
theorem OnlyCarry.setHopper (d : Dev) (h : Nat) (x : Hopper) : OnlyCarry d (d.setHopper h x) := rfl

theorem OnlyCarry.setFlag (k : Clock) (d : Dev) (th f : Nat) : OnlyCarry d (d.setFlag k th f) :=
  .of_sch ((Dev.writeFlag_only d th f).trans (Dev.settle_only k _))

/-! A packet written (R232 to R240): bursts and the swaps that they bring. -/

theorem OnlyCarry.hopSwap (k : Clock) (d : Dev) (h : Nat) : OnlyCarry d (d.hopSwap k h) := by
  unfold Dev.hopSwap
  dsimp only
  split
  · exact .trans (.setHopper _ _ _) (.setFlag _ _ _ _)
  · exact .setHopper _ _ _

theorem OnlyCarry.discardDrain (d : Dev) (h : Nat) (c : CEv) : OnlyCarry d (d.discardDrain h c) := by
  unfold Dev.discardDrain
  dsimp only
  split
  · exact .refl d
  · exact .bumpN _ _ _

theorem OnlyCarry.trySwap (k : Clock) (d : Dev) (h : Nat) : OnlyCarry d (d.trySwap k h) := by
  unfold Dev.trySwap
  dsimp only
  split
  · exact .hopSwap k d h
  · exact .refl d

theorem OnlyCarry.forcedSwap (k : Clock) (d : Dev) (h : Nat) : OnlyCarry d (d.forcedSwap k h) := by
  unfold Dev.forcedSwap
  dsimp only
  split
  · exact .setHopper _ _ _
  · exact .trans (.discardDrain _ _ _) (.hopSwap _ _ _)

theorem OnlyCarry.burstStart (k : Clock) (d : Dev) (h : Nat) (p : Prod) (prio : Nat) (words : List Word) :
    OnlyCarry d (d.burstStart k h p prio words).2 := by
  unfold Dev.burstStart
  dsimp only
  split
  · exact .bumpN _ _ _
  · have stores (e : Dev) (y : Hopper) (i : Nat) : OnlyCarry e ((e.writeWords i words).setHopper h y) := by
      rw [Dev.writeWords_only]; rfl
    split
    · exact .trans (((OnlyCarry.discardDrain d h _).trans (.bumpN _ _ _)).trans (.hopSwap k _ h)) (stores _ _ _)
    · exact stores _ _ _

theorem OnlyCarry.burstEndAt (k : Clock) (d : Dev) (h : Nat) (ok : Bool) : OnlyCarry d (d.burstEndAt k h ok).2 := by
  unfold Dev.burstEndAt
  dsimp only
  split
  · exact .refl d
  next b _ =>
    have after {d' : Dev} (only : OnlyCarry d d') : OnlyCarry d (if b.swapAfter then d'.forcedSwap k h else d') := by
      split
      · exact only.trans (.forcedSwap _ _ _)
      · exact only
    refine after ?_
    split
    · exact .setHopper _ _ _
    · split
      · dsimp only
        split
        · exact .trans (.setHopper _ _ _) (.setFlag _ _ _ _)
        · exact .setHopper _ _ _
      · exact .trans (.setHopper _ _ _) (.bumpN _ _ _)

theorem OnlyCarry.nextBursts (k : Clock) (m : Nat) (d : Dev) (h : Nat) : OnlyCarry d (Dev.nextBursts k m d h) := by
  induction m generalizing d with
  | zero => exact .refl d
  | succ m ih =>
    unfold Dev.nextBursts
    dsimp only
    split
    next w r _ _ =>
      have begins : OnlyCarry d ((d.setHopper h { d.hopper h with queue := r }).burstStart k h w.prod w.prio w.words).2 :=
        .trans (.setHopper _ _ _) (.burstStart _ _ _ _ _ _)
      split
      · exact begins
      · exact begins
      · exact begins
      · exact begins.trans (((OnlyCarry.burstEndAt k _ h true).trans (.trySwap _ _ _)).trans (ih _))
      · exact begins.trans (ih _)
    next => exact .refl d

theorem OnlyCarry.burstEnd (k : Clock) (d : Dev) (h : Nat) (ok : Bool) : OnlyCarry d (d.burstEnd k h ok).2 :=
  ((OnlyCarry.burstEndAt k d h ok).trans (.trySwap _ _ _)).trans (.nextBursts _ _ _ _)

theorem OnlyCarry.burstOpen (k : Clock) (d : Dev) (h : Nat) (p : Prod) (prio : Nat) (words : List Word) :
    OnlyCarry d (d.burstOpen k h p prio words).2 := by
  unfold Dev.burstOpen
  dsimp only
  split
  · exact .refl d
  · split
    · exact .bumpN _ _ _
    · split
      · exact .setHopper _ _ _
      · exact .burstStart _ _ _ _ _ _

theorem OnlyCarry.hopPut (k : Clock) (d : Dev) (h : Nat) (p : Prod) (prio : Nat) (words : List Word) :
    OnlyCarry d (d.hopPut k h p prio words).2 := by
  have opens := OnlyCarry.burstOpen k d h p prio words
  unfold Dev.hopPut
  dsimp only
  split
  · exact opens.trans (.burstEnd _ _ _ _)
  · exact opens

/-! A packet taken (R236, R244). -/

theorem OnlyCarry.qError (d : Dev) (w : Nat) (ue : Bool) : OnlyCarry d (d.qError w ue) := by
  unfold Dev.qError
  dsimp only
  repeat' split
  all_goals rfl

theorem OnlyCarry.qRead (d : Dev) (h w e : Nat) : OnlyCarry d (d.qRead h w e) := by
  unfold Dev.qRead
  split
  · exact .trans (.bumpN _ _ _) (.qError _ _ _)
  · split
    · exact .trans (.trans (.bumpN _ _ _) (.qError _ w true)) rfl
    · exact .refl d

theorem OnlyCarry.hopErrors (d : Dev) (h : Nat) : OnlyCarry d (d.hopErrors h) := by
  unfold Dev.hopErrors
  dsimp only
  split
  · exact .refl d
  · exact .foldl (fun _ _ => .qRead _ _ _ _) _ d

theorem OnlyCarry.hopNext (d : Dev) (h : Nat) : OnlyCarry d (d.hopNext h) := by
  unfold Dev.hopNext
  dsimp only
  split
  · exact .setHopper _ _ _
  · exact .refl d

theorem OnlyCarry.hopTake (k : Clock) (d : Dev) (h : Nat) : OnlyCarry d (d.hopTake k h).2 := by
  unfold Dev.hopTake
  split
  · exact .refl d
  · exact ((OnlyCarry.hopErrors d h).trans (.hopNext _ _)).trans (.trans (.setHopper _ _ _) (.trySwap _ _ _))

theorem OnlyCarry.drainIn (k : Clock) (h n : Nat) (d : Dev) (acc : List TalkFrame) :
    OnlyCarry d (Dev.drainIn k h n d acc).2 := by
  induction n generalizing d acc with
  | zero => exact .refl d
  | succ n ih =>
    have takes := OnlyCarry.hopTake k d h
    unfold Dev.drainIn
    split
    · split
      next taken => rw [taken] at takes; exact takes.trans (ih _ _)
      next taken => rw [taken] at takes; exact takes
    · exact .refl d

/-! What is sent, and what is told. -/

theorem OnlyCarry.sendTo (k : Clock) (d : Dev) (th dest key : Nat) (rtcp : Bool) (content : List Nat) :
    OnlyCarry d (d.sendTo k th dest key rtcp content) := by
  unfold Dev.sendTo
  dsimp only
  split
  · exact .refl d
  · exact .hopPut _ _ _ _ _ _

theorem OnlyCarry.putMix (k : Clock) (d : Dev) (n b : Nat) (x : Bridge) (l : Leg) (mix : List Int) :
    OnlyCarry d (d.putMix k n b x l mix) := .hopPut _ _ _ _ _ _

theorem OnlyCarry.putMixes (k : Clock) (n b : Nat) (x : Bridge) (mix : Leg → List Int) (legs : List Leg) (d : Dev) :
    OnlyCarry d (legs.foldl (fun d l => d.putMix k n b x l (mix l)) d) := .foldl (fun _ _ => .putMix _ _ _ _ _ _ _) legs d

theorem OnlyCarry.raiseOn (k : Clock) (d : Dev) (n : Nat) (e : Evt) : OnlyCarry d (d.raiseOn k n e) :=
  .of_hif (.raiseOn _ _ _ _)

theorem OnlyCarry.pktEvt (k : Clock) (d : Dev) (c typ detail stamp arg : Nat) :
    OnlyCarry d (d.pktEvt k c typ detail stamp arg) := by
  unfold Dev.pktEvt
  split
  · exact .raiseOn _ _ _ _
  · exact .refl d

theorem OnlyCarry.bridgeEvt (k : Clock) (d : Dev) (b typ detail arg : Nat) : OnlyCarry d (d.bridgeEvt k b typ detail arg) := by
  unfold Dev.bridgeEvt
  split
  · exact .raiseOn _ _ _ _
  · exact .refl d

theorem OnlyCarry.wakeThread (k : Clock) (d : Dev) (th : Nat) : OnlyCarry d (d.wakeThread k th) := by
  unfold Dev.wakeThread
  split
  · exact .of_sch (FlagsSet.setFlags k _ d).only
  · exact .refl d

theorem OnlyCarry.answer (k : Clock) (d : Dev) (src : Src) (opc : Nat) (st : Status) (res : List RField) :
    OnlyCarry d (d.answer k src opc st res) := by
  cases src with
  | host o => exact .of_hif (.complete _ _ _ _ _ _ _)
  | hostAs o c => exact .of_hif (.complete _ _ _ _ _ _ _)
  | lanePkt q n => exact .hopPut _ _ _ _ _ _
  | fcePkt tag => exact .hopPut _ _ _ _ _ _
  | schPkt tag => exact .hopPut _ _ _ _ _ _
  | self => exact .refl d

section
variable (only : OnlyCarry d d')
include only

theorem OnlyCarry.pkt (c : Nat) : d'.pkt c = d.pkt c := congrArg (fun m : Med => m.pkts.get none c) only.med

theorem OnlyCarry.bridge (b : Nat) : d'.bridge b = d.bridge b := congrArg (fun m : Med => m.bridges.get none b) only.med

end

/-- The commands that waited for this wait no more, and what answers them carries packets alone. -/
theorem Dev.finish_carries (k : Clock) (d : Dev) (kind : WKind) (key : Nat) (st : Status) :
    (d.finish k kind key st).med = d.med ∧ (d.finish k kind key st).waiting kind key = false := by
  have only : OnlyCarry { d with waits := d.waits.filter (fun w => !(w.kind == kind && w.key == key)) }
      (d.finish k kind key st) := .foldl (fun _ _ => .answer _ _ _ _ _ _) _ _
  refine ⟨only.med, ?_⟩
  rw [Dev.waiting, only.waits, List.any_eq_false]
  intro w kept
  have other := (List.mem_filter.mp kept).2
  rw [Bool.not_eq_true'] at other
  exact ne_true_of_eq_false other

end
end Sys2Proof.Machine


namespace Sys2Proof.Machine
open Sys2Proof

/-! ### Events of a channel, and the next report (R282) -/

section
variable {d : Dev} {k : Clock} {c : Nat} {x : PktCh}

theorem Dev.pktEvt_of (is : d.pkt c = some x) (typ detail stamp arg : Nat) : d.pktEvt k c typ detail stamp arg =
    d.raiseOn k x.set.evtRing { typ := typ, detail := detail, obj := c, stamp := stamp, arg := arg % 2 ^ 32 } := by
  rw [Dev.pktEvt, is]

/-- A report without an interval is never due; with one it is half to one and a half intervals of 8,000 ticks ahead. -/
theorem Dev.drawRtcp_draws (d : Dev) (i tick : Nat) : ∃ next n, d.drawRtcp i tick = (next, { d with freeN := n }) ∧
    (i = 0 → next = none) ∧ (i ≠ 0 → ∃ t, next = some t ∧ tick + 4000 * i ≤ t ∧ t ≤ tick + 12000 * i) := by
  unfold Dev.drawRtcp
  split
  next off => exact ⟨none, d.freeN, rfl, fun _ => rfl, fun on => absurd off on⟩
  next on =>
    have below : Config.free d.freeN % (8000 * i + 1) < 8000 * i + 1 := Nat.mod_lt _ (Nat.succ_pos _)
    refine ⟨_, d.freeN + 1, rfl, fun off => absurd off on, fun _ => ⟨_, rfl, Nat.le_add_right _ _, ?_⟩⟩
    simp only [Dev.draw]
    omega

/-! ### RTP received (R280 to R286) -/

/-- `y` is `x` but for what is counted and measured of its source: it buffers and plays as `x` does. -/
structure PktCh.PlaysAs (y x : PktCh) : Prop where
  set : y.set = x.set
  mode : y.mode = x.mode
  dly : y.dly = x.dly
  formed : y.formed = x.formed
  anchor : y.anchor = x.anchor
  reanchor : y.reanchor = x.reanchor
  jb : y.jb = x.jb
  acc : y.acc = x.acc
  ssrc : y.ssrc = x.ssrc
  received : y.received = x.received

theorem PktCh.PlaysAs.playAt {x y : PktCh} (same : y.PlaysAs x) (a0 : Int) (ts0 u : Nat) :
    y.playAt a0 ts0 u = x.playAt a0 ts0 u := by
  simp only [PktCh.playAt, PktCh.clock, same.set, same.mode, same.dly]

theorem PktCh.countSrc_playsAs (x : PktCh) (tick ssrc q : Nat) : ({ x with srcTick := tick }.countSrc ssrc q).PlaysAs x := by
  unfold PktCh.countSrc
  split <;> constructor <;> rfl

theorem PktCh.withJitter_playsAs (x : PktCh) (tick ts : Nat) : (x.withJitter tick ts).PlaysAs x := by
  unfold PktCh.withJitter
  dsimp only
  split <;> constructor <;> rfl

/-- A packet that is new, and neither late nor early, joins the jitter buffer of a channel with an anchor (R285, R286). -/
theorem Dev.toBuffer_joins {stamp : Nat} {p : JbPkt} {a0 : Int} {ts0 : Nat} (is : d.pkt c = some x)
    (new : x.acc.contains (p.seq, p.ts) = false) (anchor : x.anchor = some (a0, ts0)) (stays : x.reanchor = false)
    (notLate : (x.formed : Int) ≤ x.playAt a0 ts0 p.ts)
    (notEarly : x.playAt a0 ts0 p.ts ≤ (k.tick : Int) + x.set.jbMax + 8000) :
    ∃ y, d.toBuffer k c stamp p = d.setPkt c (some y) ∧ y.jb = x.jb ++ [p] ∧ y.received = x.received + 1 ∧
      y.rxTick = stampTick stamp ∧ y.anchor = x.anchor ∧ y.ssrc = x.ssrc := by
  have same := x.withJitter_playsAs (stampTick stamp) p.ts
  generalize counted : x.withJitter (stampTick stamp) p.ts = y at same
  have inTime : ¬ y.playAt a0 ts0 p.ts < y.formed := by rw [same.playAt, same.formed]; exact Int.not_lt.mpr notLate
  have soon : ¬ (k.tick : Int) + y.set.jbMax + 8000 < y.playAt a0 ts0 p.ts := by
    rw [same.playAt, same.set]; exact Int.not_lt.mpr notEarly
  have anchorY := same.anchor.trans anchor
  have staysY := same.reanchor.trans stays
  simp only [Dev.toBuffer, is, new, counted, Bool.false_eq_true, if_false, anchorY, staysY]
  exact ⟨_, (if_neg inTime).trans (if_neg soon), by rw [← same.jb], rfl, rfl, anchor.symm, same.ssrc⟩

/-- A packet of one of the codecs G.711 and G.722 with a plain header passes every check of R280 when it is of the latched
source: its audio goes to the jitter buffer. -/
theorem Dev.rtpIn_plays {stamp : Nat} {bs : List Nat} {judged : Option Judged} (is : d.pkt c = some x) (voice : x.mode = 0)
    (codec : x.set.codec ≤ 2) (audio : x.set.rxPt ≠ x.set.evtPt) (latches : x.set.rxSsrc = 0) (head : bs.getD 0 0 = 0x80)
    (pt : bs.getD 1 0 % 128 = x.set.rxPt) (long : 12 < bs.length) (short : bs.length ≤ 972)
    (source : x.ssrc = some (beAt bs 8 4)) : d.rtpIn k c stamp bs judged =
      (d.setPkt c (some ({ x with srcTick := stampTick stamp }.countSrc (beAt bs 8 4) (beAt bs 2 2)))).toBuffer k c stamp
        { ts := beAt bs 4 4, seq := beAt bs 2 2, pt := x.set.rxPt, ticks := bs.length - 12 } := by
  have latched : x.latch (beAt bs 8 4) (stampTick stamp) = some none := by simp [PktCh.latch, latches, source]
  have whole : (slice bs 12 (bs.length - 12)).length = bs.length - 12 := by simp [slice]
  have judges : judgePayload x x.set.rxPt (bs.length - 12) judged = some { ticks := bs.length - 12 } := by
    simp [judgePayload, voice, codec]
  have plain : Nat.testBit 128 4 = false ∧ Nat.testBit 128 5 = false := by decide
  have fits : ¬ bs.length < 12 := by omega
  have lasts : ¬ (bs.length - 12 = 0 ∨ 960 < bs.length - 12) := by omega
  simp only [Dev.rtpIn, is, head, pt, plain, latched]
  simp [fits, audio, whole, judges, lasts]
end
end Sys2Proof.Machine


namespace Sys2Proof.Machine
open Sys2Proof

section
variable {d e : Dev} {k : Clock} {c : Nat} {x : PktCh}

/-! ### A frame of a channel (R279, R285 to R289) -/

theorem PktCh.sounds_length (x : PktCh) (rate : Nat) (w : PktWork) (noise : List Int) (span : List (Int × Nat)) (run : Nat) :
    (x.sounds rate w noise span run).1.length = rate / 8000 * span.length := by
  induction span generalizing run with
  | nil => rfl
  | cons t span ih =>
    obtain ⟨t, i⟩ := t
    rw [PktCh.sounds, List.length_append, ih, List.length_cons, Nat.mul_succ, Nat.add_comm]
    congr 1
    split
    case h_5 => repeat' split
                all_goals simp
    all_goals simp

theorem PktCh.rate_dvd (x : PktCh) : 8000 ∣ x.rate := by
  unfold PktCh.rate
  repeat' split
  all_goals decide

theorem frameSpan_length (b frame : Nat) : (frameSpan b frame).length = frame := by simp [frameSpan]

/-- `y` sends as `x` does: what the next packet's header is made of is the same. -/
structure PktCh.SendsAs (y x : PktCh) : Prop where
  set : y.set = x.set
  mode : y.mode = x.mode
  evtOut : y.evtOut = x.evtOut
  seq : y.seq = x.seq
  ts : y.ts = x.ts
  txSsrc : y.txSsrc = x.txSsrc
  sentLast : y.sentLast = x.sentLast
  sentN : y.sentN = x.sentN

/-- `d'` differs from `d` in its packet channels and in the free values drawn only. -/
def OnlyPkts (d d' : Dev) : Prop := d' = { d with med := { d.med with pkts := d'.med.pkts }, freeN := d'.freeN }

theorem OnlyPkts.legsOf (only : OnlyPkts d e) (pkt : Bool) (chan : Nat) : e.legsOf pkt chan = d.legsOf pkt chan := by
  have same : e.med.bridges = d.med.bridges := (congrArg (fun d : Dev => d.med.bridges) only).trans rfl
  simp only [Dev.legsOf, Dev.bridgeList, same]

theorem OnlyPkts.setPkt (only : OnlyPkts d e) (c : Nat) (x : Option PktCh) : OnlyPkts d (e.setPkt c x) := by
  unfold OnlyPkts at only ⊢
  rw [only]
  rfl

theorem OnlyPkts.media (only : OnlyPkts d e) : e = { d with med := e.med, freeN := e.freeN } := by
  unfold OnlyPkts at only
  rw [only]

section
variable (is : d.pkt c = some x) (free : d.legsOf true c = [])
include is free

/-- The playout of a channel that is no leg of a bridge gives the peer its frame and goes to no bridge. -/
theorem Dev.pktPlay_alone (b : Nat) (w : PktWork) : ∃ y near, OnlyPkts d (d.pktPlay k c b w) ∧
    (d.pktPlay k c b w).pkt c = some y ∧ y.SendsAs x ∧ y.frameAt = none ∧ y.formed = b ∧ y.near = some (b, false, near) ∧
    near.length = x.set.frame * x.rate / 8000 := by
  have alone (e : Dev) (only : OnlyPkts d e) (th rate len : Nat) (near : List Int) :
      e.toBridges k th true c b rate len near = e := by simp [Dev.toBridges, only.legsOf, free]
  simp only [Dev.pktPlay, is, Dev.pktNear, Dev.pkt_setPkt_some]
  rw [alone]
  · refine ⟨_, _, rfl, Dev.pkt_setPkt_some _ _ _, ?_, rfl, rfl, rfl, ?_⟩
    · constructor <;> rfl
    · rw [PktCh.sounds_length, frameSpan_length, Nat.mul_comm, ← Nat.mul_div_assoc _ x.rate_dvd]
  · rfl

/-- A channel that is no leg of a bridge hears none. -/
theorem Dev.pktFarEnd_alone (b : Nat) : ∃ l, d.pktFarEnd k c b = d.setPkt c (some { x with encIn := l }) := by
  have none' (paging : Bool) (rate len : Nat) : d.fromBridges k paging true c b rate len = (none, d) := by
    simp [Dev.fromBridges, free]
  have heard (rate len : Nat) (peer : Peer) : (d.farEnd k true c b rate len peer).2 = d := by
    simp only [Dev.farEnd, none', Option.isNone_none, Bool.and_self, if_true]
    split <;> rfl
  simp only [Dev.pktFarEnd, is, heard]
  exact ⟨_, Dev.modPkt_of is _⟩

end

theorem Dev.sendRtp_of (is : d.pkt c = some x) (m : Bool) (pt ts : Nat) (payload : List Nat) :
    d.sendRtp k c m pt ts payload = (d.sendTo k x.set.thread x.set.dest x.set.txKey false
      (rtpHead m pt x.seq ts x.txSsrc ++ payload)).setPkt c (some { x with
        seq := (x.seq + 1) % 65536, sentLast := true, sent0 := true, sentN := x.sentN + 1,
        sentB := x.sentB + payload.length }) := by
  rw [Dev.sendRtp, is]

section
variable (is : d.pkt c = some x) (voice : x.mode = 0) (quiet : x.evtOut = none)
include is voice quiet

/-- In voice, with no event being sent, a payload is one packet, marked after a frame that sent none (R279). -/
theorem Dev.pktSend_payload (b : Nat) (p : List Nat) : d.pktSend k c b (some p) =
    (d.setPkt c (some { x with sentLast := false })).sendRtp k c (!x.sentLast) x.set.txPt x.ts p := by
  simp only [Dev.pktSend, is, voice, quiet]

theorem Dev.pktSend_nothing (b : Nat) : d.pktSend k c b none = d.setPkt c (some { x with sentLast := false }) := by
  simp only [Dev.pktSend, is, voice, quiet]

end

end
end Sys2Proof.Machine


namespace Sys2Proof
open Sys2Proof.Machine

theorem OnlyMed.setPkt (d : Dev) (c : Nat) (x : Option PktCh) : OnlyMed d (d.setPkt c x) := rfl

section
variable {s : State}

/-! ### Packets received (R278, R280 to R283) -/

section
variable {hop : Nat} {p : Pkt} {ws : List Word} {d : Dev} {r : RxRec} (ready : s.dev.hopReady hop = true)
  (take : s.dev.hopTake s.clk hop = (some (p, ws), d)) (reads : rxRecOf ws = r)
include ready take reads

theorem rtpReceive_noChannel (judged : Option Judged) (none : d.pkt r.tag = none) :
    Does (.rtpReceive hop judged false) s (d.bump0 .medNoChannelDrop) :=
  does_of_onDev (execRtpReceive hop judged false s) rfl rfl (by simp [ready, take, reads, none])

variable {x : PktCh} (is : d.pkt r.tag = some x) (intact : r.l4bad = false)
include is intact

/-- A packet that has come to its channel is the relay's in T.38, a sign of T.38 where it is UDPTL, and RTP otherwise. -/
theorem rtpReceive_channel (judged : Option Judged) (udptl : Bool) : Does (.rtpReceive hop judged udptl) s
    (if x.mode = 2 then
      if 1400 < r.bytes.length then d.bump0 .medRtpBadPayload else d.setPkt r.tag (some (x.accept (stampTick r.stamp)))
    else if udptl && x.mode = 1 then d.faxTone r.tag 5 (some r.stamp)
    else d.rtpIn s.clk r.tag r.stamp r.bytes judged) :=
  does_of_onDev (execRtpReceive hop judged udptl s) rfl rfl (by simp [ready, take, reads, is, intact])

theorem rtcpReceive_malformed (bad : rtcpParts r.bytes.length r.bytes = none) :
    Does (.rtcpReceive hop) s (d.bump0 .medRtcpBadDrop) :=
  does_of_onDev (execRtcpReceive hop s) rfl rfl (by simp [ready, take, reads, is, intact, bad])

/-- A report is taken (R283): the channel keeps what it says, reports it, and forgets a source that says BYE. -/
theorem rtcpReceive_report {pt rc : Nat} {first : List Nat} {rest : List (Nat × Nat × List Nat)}
    (parts : rtcpParts r.bytes.length r.bytes = some ((pt, rc, first) :: rest)) (report : pt = 200 ∨ pt = 201) :
    ∃ arg, ∃ bye : Bool, ∃ y : PktCh, Does (.rtcpReceive hop) s
        (let e := (d.setPkt r.tag (some y)).pktEvt s.clk r.tag 0x0891 (if pt = 200 then 0 else 1) r.stamp arg
         if bye then (e.pktEvt s.clk r.tag 0x0892 0 r.stamp (y.source.getD 0)).modPkt r.tag (fun y => { y with ssrc := none })
         else e) ∧ y.rxTick = stampTick r.stamp ∧ y.mediaOn = true ∧
      y.sr = (if pt = 200 then some (beAt first 4 4, beAt first 10 4, r.stamp) else x.sr) ∧ y.set = x.set ∧ y.jb = x.jb := by
  have known : (pt != 200 && pt != 201) = false := by obtain rfl | rfl := report <;> decide
  have step := does_of_onDev (i := .rtcpReceive hop) (execRtcpReceive hop s) rfl rfl rfl
  simp only [ready, take, reads, is, intact, parts, known, Bool.not_true, Bool.false_eq_true, if_false] at step
  exact ⟨_, _, _, step, rfl, rfl, rfl, rfl, rfl⟩

/-- A receiver report without blocks says only that its source is there. -/
theorem rtcpReceive_emptyReport {b0 b1 b2 b3 : Nat} (bytes : r.bytes = [0x80, 201, 0, 1, b0, b1, b2, b3]) :
    Does (.rtcpReceive hop) s ((d.setPkt r.tag (some (x.accept (stampTick r.stamp)))).raiseOn s.clk x.set.evtRing
      { typ := 0x0891, detail := 1, obj := r.tag, stamp := r.stamp, arg := 0 }) := by
  have parts : rtcpParts r.bytes.length r.bytes = some [(201, 0, r.bytes)] := by
    rw [bytes]
    simp [rtcpParts, beAt, slice, ofBytesLE]
  have heard := Dev.pktEvt_of (k := s.clk) (Dev.pkt_setPkt_some d r.tag (x.accept (stampTick r.stamp))) 0x0891 1 r.stamp 0
  rw [Nat.zero_mod] at heard
  refine does_of_onDev (execRtcpReceive hop s) rfl rfl ?_
  simp only [ready, take, reads, is, intact, parts, List.filter_nil, List.flatMap_nil, List.find?_nil, List.findSome?_nil,
    List.any_nil, if_true, bne_self_eq_false, Nat.zero_mod, Nat.zero_mul, Nat.add_zero, Bool.not_true, Bool.and_false,
    Bool.false_eq_true, if_false, show ¬ (201 : Nat) = 200 by decide]
  exact heard

end

/-! ### Frames, reports and silence (R279, R282, R283) -/

section
variable {c : Nat} {x : PktCh} (is : s.dev.pkt c = some x)
include is

theorem pktFrameProcess_does {b : Nat} (due : x.frameAt = some b) (taken : s.dev.hopReady x.set.rxHop = false) (w : PktWork) :
    Does (.pktFrameProcess c w) s (((s.dev.pktPlay s.clk c b w).pktFarEnd s.clk c b).pktSend s.clk c b w.payload) :=
  does_of_onDev (execPktFrameProcess c w s) rfl rfl (by simp only [is, due, taken]; rfl)

/-- What stands before a channel in voice sends for its frame: the frame has been formed, and the header is as it was. -/
theorem pktFrame_formed (free : s.dev.legsOf true c = []) (b : Nat) (w : PktWork) : ∃ y near,
    OnlyPkts s.dev ((s.dev.pktPlay s.clk c b w).pktFarEnd s.clk c b) ∧
    ((s.dev.pktPlay s.clk c b w).pktFarEnd s.clk c b).pkt c = some y ∧ y.SendsAs x ∧ y.frameAt = none ∧ y.formed = b ∧
    y.near = some (b, false, near) ∧ near.length = x.set.frame * x.rate / 8000 := by
  obtain ⟨y, near, only, played, same, open', formed, given, length⟩ := Dev.pktPlay_alone (k := s.clk) is free b w
  obtain ⟨l, heard⟩ := Dev.pktFarEnd_alone (k := s.clk) played ((only.legsOf true c).trans free) b
  rw [heard]
  refine ⟨{ y with encIn := l }, near, only.setPkt c _, Dev.pkt_setPkt_some _ _ _, ?_, open', formed, given, length⟩
  obtain ⟨set, mode, evtOut, seq, ts, txSsrc, sentLast, sentN⟩ := same
  exact ⟨set, mode, evtOut, seq, ts, txSsrc, sentLast, sentN⟩

theorem pktFrameProcess_sends {b : Nat} (due : x.frameAt = some b) (voice : x.mode = 0) (quiet : x.evtOut = none)
    (free : s.dev.legsOf true c = []) (taken : s.dev.hopReady x.set.rxHop = false) {w : PktWork} {p : List Nat}
    (payload : w.payload = some p) : ∃ (d0 d1 d : Dev) (y : PktCh) (near : List Int),
      d0 = { s.dev with med := d0.med, freeN := d0.freeN } ∧
      d1 = d0.sendTo s.clk x.set.thread x.set.dest x.set.txKey false
        (rtpHead (!x.sentLast) x.set.txPt x.seq x.ts x.txSsrc ++ p) ∧
      OnlyMed d1 d ∧ Does (.pktFrameProcess c w) s d ∧ d.pkt c = some y ∧ y.seq = (x.seq + 1) % 65536 ∧
      y.frameAt = none ∧ y.near = some (b, false, near) ∧ near.length = x.set.frame * x.rate / 8000 ∧ y.formed = b ∧
      y.sentLast = true ∧ y.sentN = x.sentN + 1 := by
  obtain ⟨y, near, only, stands, same, open', formed, given, length⟩ := pktFrame_formed is free b w
  have does := pktFrameProcess_does is due taken w
  rw [payload, Dev.pktSend_payload stands (same.mode.trans voice) (same.evtOut.trans quiet),
    Dev.sendRtp_of (Dev.pkt_setPkt_some _ _ _)] at does
  generalize (s.dev.pktPlay s.clk c b w).pktFarEnd s.clk c b = e at only stands does
  rw [← same.set] at length ⊢
  rw [← same.seq, ← same.ts, ← same.txSsrc, ← same.sentLast, ← same.sentN]
  exact ⟨_, _, _, _, near, (only.setPkt c _).media, rfl, .setPkt _ _ _, does, Dev.pkt_setPkt_some _ _ _, rfl, open', given, length, formed,
    rfl, rfl⟩

theorem pktFrameProcess_silent {b : Nat} (due : x.frameAt = some b) (voice : x.mode = 0) (quiet : x.evtOut = none)
    (free : s.dev.legsOf true c = []) (taken : s.dev.hopReady x.set.rxHop = false) {w : PktWork} (nothing : w.payload = none) :
    ∃ (d : Dev) (y : PktCh), d = { s.dev with med := d.med, freeN := d.freeN } ∧ Does (.pktFrameProcess c w) s d ∧
      d.pkt c = some y ∧ y.seq = x.seq ∧ y.frameAt = none ∧ y.sentLast = false := by
  obtain ⟨y, _, only, stands, same, open', _⟩ := pktFrame_formed is free b w
  have does := pktFrameProcess_does is due taken w
  rw [nothing, Dev.pktSend_nothing stands (same.mode.trans voice) (same.evtOut.trans quiet)] at does
  exact ⟨_, _, (only.setPkt c _).media, does, Dev.pkt_setPkt_some _ _ _, same.seq, open', rfl⟩

/-- A report goes out in the window of the first frame boundary from its tick on, and the next is drawn (R282). -/
theorem rtcpReport_sends {t : Nat} (voip : List Nat) (due : x.rtcpAt = some t)
    (come : t ≤ s.clk.tick / x.set.frame * x.set.frame) (first : s.clk.tick / x.set.frame * x.set.frame < t + x.set.frame)
    (window : s.clk.tick < s.clk.tick / x.set.frame * x.set.frame + x.set.frame / 4) :
    ∃ (d : Dev) (nxt : Option Nat), Does (.rtcpReport c voip) s d ∧
      d = { s.dev.sendTo s.clk x.set.thread x.set.dest x.set.txKey true
              (x.report s.dev.htb.utcOff (clockStamp s.clk) ++
                (if x.set.xr then x.xrPacket s.dev.htb.utcOff (clockStamp s.clk) voip else [])) with
            med := d.med, freeN := d.freeN } ∧
      d.pkt c = some { x.reported with rtcpAt := nxt, sent1 := x.sent0, sent0 := false } ∧
      (x.set.rtcp = 0 → nxt = none) ∧
      (x.set.rtcp ≠ 0 → ∃ n, nxt = some n ∧ s.clk.tick + 4000 * x.set.rtcp ≤ n ∧ n ≤ s.clk.tick + 12000 * x.set.rtcp) := by
  obtain ⟨nxt, n, drawn, off, on⟩ := (s.dev.sendTo s.clk x.set.thread x.set.dest x.set.txKey true
    (x.report s.dev.htb.utcOff (clockStamp s.clk) ++
      (if x.set.xr then x.xrPacket s.dev.htb.utcOff (clockStamp s.clk) voip else []))).drawRtcp_draws x.set.rtcp s.clk.tick
  have does : Does (.rtcpReport c voip) s _ := does_of_onDev (execRtcpReport c voip s) rfl rfl rfl
  simp only [is, due, come, first, window, drawn, decide_true, Bool.and_self, if_true] at does
  exact ⟨_, nxt, does, rfl, Dev.pkt_setPkt_some _ c _, off, on⟩

/-- The end of MEDIA_TIMEOUT ticks of silence is reported, and not again before the next packet (R283). -/
theorem mediaTimeout_reports (on : x.mediaOn = true) (limited : x.set.mediaTo ≠ 0)
    (silent : x.rxTick + x.set.mediaTo ≤ s.clk.tick) :
    Does (.mediaTimeout c) s ((s.dev.setPkt c (some { x with mediaOn := false })).raiseOn s.clk x.set.evtRing
      { typ := 0x0894, detail := 0, obj := c, stamp := clockStamp s.clk, arg := (s.clk.tick - x.rxTick) % 2 ^ 32 }) := by
  refine does_of_onDev (execMediaTimeout c s) rfl rfl ?_
  simp only [is]
  refine (if_pos (by simp [on, limited, silent])).trans ?_
  exact Dev.pktEvt_of (Dev.pkt_setPkt_some s.dev c { x with mediaOn := false }) 0x0894 0 _ _

end

end
end Sys2Proof


namespace Sys2Proof
open Sys2Proof.Machine

section
variable {s : State} {hop : Nat} {p : Pkt} {ws : List Word} {d : Dev} {r : RxRec} (ready : s.dev.hopReady hop = true)
  (take : s.dev.hopTake s.clk hop = (some (p, ws), d)) (reads : rxRecOf ws = r) {x : PktCh} (is : d.pkt r.tag = some x)
  (intact : r.l4bad = false)
include ready take reads is intact

/-- A packet of the latched source with audio, new and in time, joins the jitter buffer and is counted (R280, R285). -/
theorem rtpReceive_joins (judged : Option Judged) {a0 : Int} {ts0 : Nat} (voice : x.mode = 0) (codec : x.set.codec ≤ 2)
    (audio : x.set.rxPt ≠ x.set.evtPt) (latches : x.set.rxSsrc = 0) (head : r.bytes.getD 0 0 = 0x80)
    (pt : r.bytes.getD 1 0 % 128 = x.set.rxPt) (long : 12 < r.bytes.length) (short : r.bytes.length ≤ 972)
    (source : x.ssrc = some (beAt r.bytes 8 4)) (anchor : x.anchor = some (a0, ts0)) (stays : x.reanchor = false)
    (new : x.acc.contains (beAt r.bytes 2 2, beAt r.bytes 4 4) = false)
    (notLate : (x.formed : Int) ≤ x.playAt a0 ts0 (beAt r.bytes 4 4))
    (notEarly : x.playAt a0 ts0 (beAt r.bytes 4 4) ≤ (s.clk.tick : Int) + x.set.jbMax + 8000) :
    ∃ (e : Dev) (y : PktCh), Does (.rtpReceive hop judged false) s e ∧ OnlyMed d e ∧ e.pkt r.tag = some y ∧
      y.jb = x.jb ++ [{ ts := beAt r.bytes 4 4, seq := beAt r.bytes 2 2, pt := x.set.rxPt, ticks := r.bytes.length - 12 }] ∧
      y.received = x.received + 1 ∧ y.rxTick = stampTick r.stamp ∧ y.anchor = x.anchor ∧ y.ssrc = x.ssrc := by
  have does := rtpReceive_channel ready take reads is intact judged false
  rw [if_neg (by simp [voice]), if_neg (by simp), Dev.rtpIn_plays is voice codec audio latches head pt long short source] at does
  have same := x.countSrc_playsAs (stampTick r.stamp) (beAt r.bytes 8 4) (beAt r.bytes 2 2)
  generalize ({ x with srcTick := stampTick r.stamp } : PktCh).countSrc (beAt r.bytes 8 4) (beAt r.bytes 2 2) = z at same does
  obtain ⟨y, joins, jb, received, rxTick, anchored, ssrc⟩ := Dev.toBuffer_joins (k := s.clk) (stamp := r.stamp)
    (p := { ts := beAt r.bytes 4 4, seq := beAt r.bytes 2 2, pt := x.set.rxPt, ticks := r.bytes.length - 12 })
    (Dev.pkt_setPkt_some d r.tag z) (same.acc ▸ new) (same.anchor.trans anchor) (same.reanchor.trans stays)
    (by rw [same.playAt, same.formed]; exact notLate) (by rw [same.playAt, same.set]; exact notEarly)
  rw [joins] at does
  exact ⟨_, y, does, rfl, Dev.pkt_setPkt_some _ _ _, jb.trans (by rw [same.jb]), received.trans (by rw [same.received]), rxTick,
    anchored.trans same.anchor, ssrc.trans same.ssrc⟩

/-- A sender or receiver report is taken (R283): the channel keeps what it says, and no more of it changes but what it knows of
its source. -/
theorem rtcpReceive_accepts {pt rc : Nat} {first : List Nat} {rest : List (Nat × Nat × List Nat)}
    (parts : rtcpParts r.bytes.length r.bytes = some ((pt, rc, first) :: rest)) (report : pt = 200 ∨ pt = 201) :
    ∃ (e : Dev) (y : PktCh), Does (.rtcpReceive hop) s e ∧ e.pkt r.tag = some y ∧ y.rxTick = stampTick r.stamp ∧
      y.mediaOn = true ∧ (pt = 200 → y.sr = some (beAt first 4 4, beAt first 10 4, r.stamp)) ∧ (pt = 201 → y.sr = x.sr) ∧
      y.set = x.set ∧ y.jb = x.jb := by
  obtain ⟨arg, bye, y, does, rxTick, on, sr, set, jb⟩ := rtcpReceive_report ready take reads is intact parts report
  have sender (pt200 : pt = 200) : y.sr = some (beAt first 4 4, beAt first 10 4, r.stamp) := sr.trans (if_pos pt200)
  have receiver (pt201 : pt = 201) : y.sr = x.sr := sr.trans (if_neg (by omega))
  have told := (OnlyCarry.pktEvt s.clk (d.setPkt r.tag (some y)) r.tag 0x0891 (if pt = 200 then 0 else 1) r.stamp arg).pkt r.tag
  rw [Dev.pkt_setPkt_some] at told
  cases bye with
  | false => exact ⟨_, y, does, told, rxTick, on, sender, receiver, set, jb⟩
  | true =>
    have gone := (OnlyCarry.pktEvt s.clk _ r.tag 0x0892 0 r.stamp (y.source.getD 0)).pkt r.tag |>.trans told
    dsimp only at does
    rw [if_pos rfl, Dev.modPkt_of gone] at does
    exact ⟨_, { y with ssrc := none }, does, Dev.pkt_setPkt_some _ _ _, rxTick, on, sender, receiver, set, jb⟩

end

/-- Settles O47: a packet taken is one of the four of `rtpReceive_channel`, a report is taken by `rtcpReceive_accepts`, and a frame
of a channel that is in no bridge forms its playout and sends behind it (`pktFrame_formed`). -/
theorem packetChannelsCarryMedia : Obligations.PacketChannelsCarryMedia := by
  intro s _
  refine ⟨fun hop judged p ws d x r ready take reads intact => ⟨fun none => rtpReceive_noChannel ready take reads judged none,
      fun is udptl => ?_, fun is => ⟨fun bad => rtcpReceive_malformed ready take reads is intact bad,
        fun pt rc first rest parts report => rtcpReceive_accepts ready take reads is intact parts report⟩,
      fun a0 ts0 is voice codec audio latches head pt long short source anchor stays new notLate notEarly =>
        rtpReceive_joins ready take reads is intact judged voice codec audio latches head pt long short source anchor stays new
          notLate notEarly,
      fun b0 b1 b2 b3 is bytes => ⟨_, .setPkt d _ _, Dev.pkt_setPkt_some _ _ _,
        rtcpReceive_emptyReport ready take reads is intact bytes⟩⟩,
    fun c x b w is due taken => pktFrameProcess_does is due taken w,
    fun c x b w is due voice quiet free taken => ⟨fun p payload => pktFrameProcess_sends is due voice quiet free taken payload,
      fun nothing => pktFrameProcess_silent is due voice quiet free taken nothing⟩,
    fun c x t voip is due come first window => rtcpReport_sends is voip due come first window,
    fun c x is on limited silent => ⟨_, .setPkt s.dev c _, Dev.pkt_setPkt_some _ _ _, mediaTimeout_reports is on limited silent⟩⟩
  have does := rtpReceive_channel ready take reads is intact judged udptl
  refine ⟨fun relay short => ?_, fun sign bearing => ?_, fun notRelay notSign => ?_⟩
  · rwa [if_pos relay, if_neg (Nat.not_lt.mpr short)] at does
  · rwa [if_neg (by omega), if_pos (by simp [sign, bearing])] at does
  · have speech : ¬ (udptl && decide (x.mode = 1)) = true := by
      obtain plain | other := notSign
      · simp [plain]
      · simp [other]
    rwa [if_neg notRelay, if_neg speech] at does

end Sys2Proof


namespace Sys2Proof.Machine
open Sys2Proof

/-- What each step of a pass keeps, the pass keeps. -/
theorem foldl_keeps {α β γ : Type} {f : β → α → β} (g : β → γ) (each : ∀ b a, g (f b a) = g b) (l : List α) (b : β) :
    g (l.foldl f b) = g b := by
  induction l generalizing b with
  | nil => rfl
  | cons a l ih => exact (ih _).trans (each b a)

section
variable {d : Dev} {k : Clock} {c : Nat} {x : PktCh}

/-! ### A thread taken (R276, R295) -/

theorem Thread.Settles.group {t t' : Thread} (h : t.Settles t') : t'.group = t.group := (congrArg Thread.group h.fields).trans rfl
theorem Thread.Settles.level {t t' : Thread} (h : t.Settles t') : t'.level = t.level := (congrArg Thread.level h.fields).trans rfl

/-- A thread that carries nothing and stands still is started in the group and at the level asked for; but for the value drawn
only what carries packets is touched. -/
theorem Dev.takeThread_starts {th group level : Nat} (le : th ≤ 8191) (noChan : d.chanFrame th = none)
    (noBridge : d.bridgeFrame th = none) (off : (d.thr th).off = true) (wf : Store.wf {} d.sch.threads = true) :
    (∃ n, OnlyCarry { d with freeN := n } (d.takeThread k th group level)) ∧
      ((d.takeThread k th group level).thr th).group = group ∧ ((d.takeThread k th group level).thr th).level = level := by
  obtain ⟨ctx, takes⟩ : ∃ ctx, d.takeThread k th group level = ((({ d with freeN := d.freeN + 1 } : Dev).modThr th (fun t =>
      { t with group := group, level := level, preempt := true, ctx := ctx })).cmdThreadStart k th false 0 false true).2 := by
    simp only [Dev.takeThread, noChan, noBridge]
    exact ⟨_, rfl⟩
  generalize configured : ({ d with freeN := d.freeN + 1 } : Dev).modThr th (fun t =>
      { t with group := group, level := level, preempt := true, ctx := ctx }) = e at takes
  have reads : e.thr th = { d.thr th with group := group, level := level, preempt := true, ctx := ctx } :=
    configured ▸ Dev.thr_setThr_self (by exact wf) th _
  have threads : Store.wf {} e.sch.threads = true := configured ▸ Store.wf_put wf
  rw [Dev.cmdThreadStart_off le (by rw [reads]; exact off)] at takes
  dsimp only at takes
  have settles := (Dev.settle_threads k (Dev.threadStarted_threads (th := th) (waiting := false) (all := false) (clear := true)
    (mask := 0) threads)).2 th
  rw [takes, settles.group, settles.level, Dev.thr_threadStarted threads, reads]
  have started : OnlyCarry (e.endVoided th) (((e.threadStarted th false 0 false true).settle k none)) :=
    .trans (.of_sch (Dev.threadStarted_only e)) (.of_sch (Dev.settle_only k _))
  have voided : OnlyCarry { d with freeN := d.freeN + 1 } (e.endVoided th) := by subst configured; rfl
  exact ⟨⟨d.freeN + 1, voided.trans started⟩, rfl, rfl⟩

/-! ### Pairs (R276) -/

/-- A channel without a peer stays without one. -/
theorem Dev.pair_none (is : d.pkt c = some x) (alone : x.set.peer = .none) : d.pair (.pkt c) .none =
    d.setPkt c (some { x with
      set := { x.set with peer := .none }, next := x.next.map (fun y => { y with peer := .none }) }) := by
  have side : d.peerSide (.pkt c) .none = d.setPkt c (some { x with
      set := { x.set with peer := .none }, next := x.next.map (fun y => { y with peer := .none }) }) := by
    rw [Dev.peerSide, Dev.modPkt_of is, alone]
    rfl
  simp only [Dev.pair, Dev.chanOf, is, Option.map_some, Option.elim_some, alone, beq_self_eq_true, if_true, side]
  rfl

theorem Dev.wf_peerSide (wf : Store.wf none d.med.pkts = true) (self p : Peer) :
    Store.wf none (d.peerSide self p).med.pkts = true := by
  cases self with
  | none => exact wf
  | line n => exact wf
  | pkt n => exact Store.wf_put wf

theorem Dev.wf_pair (wf : Store.wf none d.med.pkts = true) (self p : Peer) : Store.wf none (d.pair self p).med.pkts = true := by
  unfold Dev.pair
  dsimp only
  refine Dev.wf_peerSide (Dev.wf_peerSide ?_ _ _) _ _
  split
  · exact wf
  · exact Dev.wf_peerSide wf _ _

/-! ### Settings (Tables 11.1 and 11.3) -/

/-- What a codec allows it allows in frames of 160 ticks. -/
theorem codecOk_longest {codec frame : Nat} {o : List Nat} (ok : codecOk codec frame o = true) : codecOk codec 160 o = true := by
  unfold codecOk at ok ⊢
  by_cases plain : codec ≤ 2
  · rwa [if_pos plain] at ok ⊢
  rw [if_neg plain] at ok ⊢
  by_cases three : codec = 3
  · rwa [if_pos three] at ok ⊢
  rw [if_neg three] at ok ⊢
  by_cases four : codec = 4
  · rw [if_pos four, Bool.and_assoc, Bool.and_eq_true] at ok ⊢
    exact ⟨rfl, ok.2⟩
  rw [if_neg four] at ok ⊢
  by_cases five : codec = 5
  · simp only [if_pos five, Bool.and_assoc] at ok ⊢
    rw [Bool.and_eq_true] at ok ⊢
    exact ⟨rfl, ok.2⟩
  · rwa [if_neg five] at ok ⊢

/-- Settings in range are in range whatever MODIFY leaves out of them. -/
theorem PktSet.bad_unnamed {n : PktSet} (good : n.bad = false) :
    ({ n with thread := 0, group := 0, level := 0, frame := 160 } : PktSet).bad = false := by
  have codec : codecOk n.codec 160 n.opts = true := codecOk_longest (frame := n.frame) (by
    simp only [PktSet.bad, Bool.or_eq_false_iff] at good
    simp_all)
  simp only [PktSet.bad, Bool.or_eq_false_iff] at good ⊢
  simp only [good, codec]
  simp

theorem PktSet.given_self {n : PktSet} (thread : n.thread = x.set.thread) (group : n.group = x.set.group)
    (level : n.level = x.set.level) (frame : n.frame = x.set.frame) : n.given x = n := by
  simp only [PktSet.given, ← thread, ← group, ← level, ← frame]

end

/-! ### Legs (R295, R303) and pages (R298)

Of the two stores a leg's leaving and a page touch one each. -/

section
variable {k : Clock}

theorem Dev.dropLeg_pkts (d : Dev) (b : Nat) (pkt : Bool) (chan detail : Nat) :
    (d.dropLeg k b pkt chan detail).med.pkts = d.med.pkts := by
  have told (e : Dev) (typ detail arg : Nat) : (e.bridgeEvt k b typ detail arg).med.pkts = e.med.pkts :=
    congrArg Med.pkts (OnlyCarry.bridgeEvt k e b typ detail arg).med
  unfold Dev.dropLeg
  dsimp only
  split
  · split
    · rw [told, told]; rfl
    · rw [told]; rfl
  · rw [told]; rfl

theorem Dev.leaveBridges_pkts (d : Dev) (pkt : Bool) (chan : Nat) :
    (d.leaveBridges k pkt chan).med.pkts = d.med.pkts := by
  refine (foldl_keeps (fun d : Dev => d.med.pkts) (fun _ _ => Dev.dropLeg_pkts _ _ _ _ _) _ _).trans ?_
  refine foldl_keeps (fun d : Dev => d.med.pkts) (fun e p => ?_) _ d
  rfl

theorem Dev.wf_dropLeg {d : Dev} (wf : Store.wf none d.med.bridges = true) (b : Nat) (pkt : Bool) (chan detail : Nat) :
    Store.wf none (d.dropLeg k b pkt chan detail).med.bridges = true := by
  have told (e : Dev) (typ detail arg : Nat) : (e.bridgeEvt k b typ detail arg).med.bridges = e.med.bridges :=
    congrArg Med.bridges (OnlyCarry.bridgeEvt k e b typ detail arg).med
  unfold Dev.dropLeg
  dsimp only
  split
  · split
    · rw [told, told]; exact Store.wf_put wf
    · rw [told]; exact Store.wf_put wf
  · rw [told]; exact Store.wf_put wf

theorem Dev.wf_dropLegs {d : Dev} (wf : Store.wf none d.med.bridges = true) (b : Nat) (legs : List Leg) :
    Store.wf none (legs.foldl (fun d l => d.dropLeg k b l.pkt l.chan 0) d).med.bridges = true := by
  induction legs generalizing d with
  | nil => exact wf
  | cons l r ih => exact ih (Dev.wf_dropLeg wf _ _ _ _)

theorem Dev.putFeed_bridges (d : Dev) (n feed : Nat) : (d.putFeed n feed).med.bridges = d.med.bridges := by
  unfold Dev.putFeed Dev.putState
  split <;> rfl

theorem Dev.endPaging_bridges (d : Dev) (b n : Nat) : (d.endPaging k b n).med.bridges = d.med.bridges := by
  unfold Dev.endPaging
  split
  · split
    · dsimp only
      split
      · rfl
      · exact Dev.putFeed_bridges _ _ _
    · rfl
  · rfl

theorem Dev.pageLine_bridges (d : Dev) (b n : Nat) : (d.pageLine k b n).med.bridges = d.med.bridges := by
  unfold Dev.pageLine
  split
  · rfl
  · split
    · rfl
    · split
      · exact Dev.endPaging_bridges _ _ _
      · split
        · rfl
        · dsimp only
          split
          · rfl
          · exact Dev.putFeed_bridges _ _ _

theorem Dev.pageLines_bridges (d : Dev) (n : Nat) (x : Bridge) : (d.pageLines k n x).med.bridges = d.med.bridges := by
  refine foldl_keeps (fun d : Dev => d.med.bridges) (fun d l => ?_) _ d
  split
  · exact d.pageLine_bridges n l.chan
  · exact d.endPaging_bridges n l.chan

end
end Sys2Proof.Machine


namespace Sys2Proof
open Sys2Proof.Machine

/-! ### What a command of a packet channel or a bridge answers (R28) -/

section
variable {s : State} {o : Origin} {opc c : Nat} {i : Instr} {bad : Bool} {st : Status} {res : List RField} {d : Dev}

section
variable {x : PktCh} {checks : Dev → PktCh → List (Bool × Status)} {f : Clock → Dev → PktCh → Reply × Dev}
  (ho : HostOk o s) (h : exec i s = pktCmd o opc c bad checks f s) (is : s.dev.pkt c = some x) (stays : x.destroying = none)
include ho h is stays

theorem answers_of_pktCmd (valid : bad = false) (fine : firstStatus .ok (checks s.dev x) = .ok)
    (e : f s.clk s.dev x = (.now st res, d)) : Answers i o opc s st res d :=
  answers_of_hostCmd _ ho h (by simp [is, stays, valid, firstStatus, fine, e])

theorem waits_of_pktCmd {kind : WKind} {key : Nat} (valid : bad = false) (fine : firstStatus .ok (checks s.dev x) = .ok)
    (e : f s.clk s.dev x = (.later kind key, d)) : Waits i o opc s kind key d :=
  waits_of_hostCmd _ ho h (by simp [is, stays, valid, firstStatus, fine, e])

end

section
variable {x : Bridge} {checks : Dev → Bridge → List (Bool × Status)} {f : Clock → Dev → Bridge → Reply × Dev}
  (ho : HostOk o s) (h : exec i s = bridgeCmd o opc c bad checks f s) (is : s.dev.bridge c = some x) (stays : x.destroying = none)
  (valid : bad = false)
include ho h is stays valid

theorem refused_of_bridgeCmd (no : firstStatus .ok (checks s.dev x) = st) (bad : st ≠ .ok) : Answers i o opc s st [] s.dev :=
  answers_of_hostCmd _ ho h (by simp [is, stays, valid, firstStatus, no, bad])

section
variable (fine : firstStatus .ok (checks s.dev x) = .ok)
include fine

theorem answers_of_bridgeCmd (e : f s.clk s.dev x = (.now st res, d)) : Answers i o opc s st res d :=
  answers_of_hostCmd _ ho h (by simp [is, stays, valid, firstStatus, fine, e])

theorem waits_of_bridgeCmd {kind : WKind} {key : Nat} (e : f s.clk s.dev x = (.later kind key, d)) : Waits i o opc s kind key d :=
  waits_of_hostCmd _ ho h (by simp [is, stays, valid, firstStatus, fine, e])

theorem does_of_bridgeCmd_held (e : f s.clk s.dev x = (.held, d)) : Does i s d :=
  does_of_hostCmd_held _ ho h (by simp [is, stays, valid, firstStatus, fine, e])

end
end
end

section
variable {s : State} {o : Origin} {c : Nat}

/-! ### Packet channels made (R276) -/

/-- A channel is made with its settings, its thread started where it carries nothing yet, and paired with its peer. -/
theorem pktChannelCreate_pairs (ho : HostOk o s) {set : PktSet} (good : set.bad = false) (le : c ≤ 4095)
    (new : s.dev.pkt c = none) (room : s.dev.jbRoom = true) (frame : ∀ f, s.dev.chanFrame set.thread = some f → f = set.frame)
    (noBridge : s.dev.bridgeFrame set.thread = none) (hop : s.dev.rxHopBad set.rxHop set.thread = false)
    (off : s.dev.chanFrame set.thread = none → (s.dev.thr set.thread).off = true)
    (peer : s.dev.peerBad set.thread (.pkt c) set.peer = false) (there : s.dev.peerGone set.peer = false)
    (lasts : s.dev.peerEnds set.peer = false) : ∃ (d : Dev) (x : PktCh),
      Answers (.pktChannelCreate o c set) o 0x0820 s .ok [] ((d.setPkt c (some x)).pair (.pkt c) set.peer) ∧
      d = { s.dev.takeThread s.clk set.thread set.group set.level with freeN := d.freeN } ∧ x.set = set ∧ x.mode = 0 ∧
      x.dly = set.jbInit ∧ x.jb = [] ∧ x.next = none ∧ x.rxTick = s.clk.tick ∧ (set.txSsrc ≠ 0 → x.txSsrc = set.txSsrc) := by
  have sameFrame : (s.dev.chanFrame set.thread).any (fun f => f != set.frame) = false := by
    cases carries : s.dev.chanFrame set.thread with
    | none => rfl
    | some f => simp [frame f carries]
  have free : ((s.dev.chanFrame set.thread).isNone && !(s.dev.thr set.thread).off) = false := by
    cases carries : s.dev.chanFrame set.thread with
    | none => simp [off carries]
    | some f => rfl
  have judged := answers_of_hostCmd (i := .pktChannelCreate o c set) (res := []) (st := .ok) _ ho rfl (by
    simp only [good, sameFrame, free, noBridge, hop, peer, there, lasts, new, room, decide_eq_false (Nat.not_lt.mpr le),
      firstStatus, Bool.or_false, Bool.false_and, Bool.not_true, Option.isSome_none, Bool.false_eq_true, if_false, beq_self_eq_true,
      if_true]
    rfl)
  simp only [Dev.draw] at judged
  generalize s.dev.takeThread s.clk set.thread set.group set.level = t at judged ⊢
  obtain ⟨next, n, draws, -, -⟩ := Dev.drawRtcp_draws { t with freeN := t.freeN + 3 } set.rtcp s.clk.tick
  rw [draws] at judged
  exact ⟨_, _, judged, rfl, rfl, rfl, rfl, rfl, rfl, rfl, fun named => if_neg named⟩

/-- A channel without a peer, on a thread that carried nothing. -/
theorem pktChannelCreate_alone (ho : HostOk o s) (threads : Store.wf {} s.dev.sch.threads = true) {set : PktSet}
    (good : set.bad = false) (alone : set.peer = .none) (le : c ≤ 4095) (new : s.dev.pkt c = none) (room : s.dev.jbRoom = true)
    (noChan : s.dev.chanFrame set.thread = none) (noBridge : s.dev.bridgeFrame set.thread = none)
    (hop : s.dev.rxHopBad set.rxHop set.thread = false) (off : (s.dev.thr set.thread).off = true) : ∃ (d : Dev) (x : PktCh),
      Answers (.pktChannelCreate o c set) o 0x0820 s .ok [] d ∧ d.pkt c = some x ∧ x.set = set ∧ x.mode = 0 ∧
      x.dly = set.jbInit ∧ x.jb = [] ∧ x.rxTick = s.clk.tick ∧ (set.txSsrc ≠ 0 → x.txSsrc = set.txSsrc) ∧
      (d.thr set.thread).group = set.group ∧ (d.thr set.thread).level = set.level := by
  obtain ⟨d, x, answers, taken, setIs, mode, dly, jb, next, rxTick, ssrc⟩ := pktChannelCreate_pairs ho good le new room
    (fun f carries => by rw [noChan] at carries; cases carries) noBridge hop (fun _ => off) (by rw [alone]; rfl)
    (by rw [alone]; rfl) (by rw [alone]; rfl)
  have thread : set.thread ≤ 8191 := by
    simp only [PktSet.bad, Bool.or_eq_false_iff, decide_eq_false_iff_not, Nat.not_lt] at good
    omega
  have starts := Dev.takeThread_starts (k := s.clk) (group := set.group) (level := set.level) thread noChan noBridge off threads
  generalize s.dev.takeThread s.clk set.thread set.group set.level = t at taken starts
  have made : ((d.setPkt c (some x)).pair (.pkt c) .none) =
      (d.setPkt c (some x)).setPkt c (some { x with set := { x.set with peer := .none }, next := none }) := by
    rw [Dev.pair_none (Dev.pkt_setPkt_some d c x) (by rw [setIs, alone]), next]
    rfl
  rw [alone, made] at answers
  refine ⟨_, _, answers, Dev.pkt_setPkt_some _ _ _, ?_, mode, dly, jb, rxTick, ssrc, ?_, ?_⟩
  · rw [setIs, ← alone]
  · rw [taken]; exact starts.2.1
  · rw [taken]; exact starts.2.2

/-! ### Packet channels changed and read (R276, R284, R291, R293) -/

section
variable {x : PktCh} (ho : HostOk o s) (is : s.dev.pkt c = some x) (stays : x.destroying = none)
include ho is stays

/-- Settings that keep THREAD, GROUP, LEVEL and FRAME are kept for the next frame boundary. -/
theorem pktChannelModify_keeps {n : PktSet} (thread : n.thread = x.set.thread) (group : n.group = x.set.group)
    (level : n.level = x.set.level) (frame : n.frame = x.set.frame) (good : n.bad = false)
    (hop : s.dev.rxHopBad n.rxHop n.thread = false) (peer : s.dev.peerBad x.set.thread (.pkt c) n.peer = false)
    (there : s.dev.peerGone n.peer = false) (lasts : s.dev.peerEnds n.peer = false) :
    Answers (.pktChannelModify o c n) o 0x0822 s .ok [] (s.dev.setPkt c (some { x with next := some n })) := by
  have given := PktSet.given_self thread group level frame
  exact answers_of_pktCmd ho rfl is stays (PktSet.bad_unnamed good)
    (by simp [firstStatus, given, good, ← thread, hop, thread ▸ peer, there, lasts]) (by rw [given])

theorem pktChannelModify_alone {n : PktSet} (thread : n.thread = x.set.thread) (group : n.group = x.set.group)
    (level : n.level = x.set.level) (frame : n.frame = x.set.frame) (good : n.bad = false)
    (hop : s.dev.rxHopBad n.rxHop n.thread = false) (alone : n.peer = .none) :
    Answers (.pktChannelModify o c n) o 0x0822 s .ok [] (s.dev.setPkt c (some { x with next := some n })) :=
  pktChannelModify_keeps ho is stays thread group level frame good hop (by rw [alone]; rfl) (by rw [alone]; rfl)
    (by rw [alone]; rfl)

theorem pktModeSet_answers {mode : Nat} (le : mode ≤ 2) (room : mode = 2 → s.dev.t38Count c < 64) :
    Answers (.pktModeSet o c mode) o 0x0824 s .ok [] (s.dev.setPkt c (some { x with nextMode := some (mode, 0, none) })) := by
  have full : (decide (mode = 2) && decide (64 ≤ s.dev.t38Count c)) = false := by
    by_cases relay : mode = 2
    · simp [relay, room relay]
    · simp [relay]
  exact answers_of_hostCmd _ ho rfl (by simp [is, stays, le, full, firstStatus])

/-- An event of the host goes with the next frame of a channel that carries voice; another channel sends none. -/
theorem pktEventSend_answers {ev vol ticks : Nat} (evLe : ev ≤ 16) (volLe : vol ≤ 63) (ge : 8 ≤ ticks) (le : ticks ≤ 65535)
    (evtPt : x.set.evtPt ≠ 0) (idle : x.evtOut = none) : Answers (.pktEventSend o c ev vol ticks) o 0x0825 s .ok []
      (if x.mode = 0 then s.dev.setPkt c (some { x with
          evtOut := some { ev := ev, vol := vol, ts := x.ts, start := none, total := some ticks } })
        else s.dev) :=
  answers_of_pktCmd ho rfl is stays (by simp [evLe, volLe, ge, le]) (by simp [firstStatus, evtPt, idle])
    (by simp [PktCh.addEvt, idle])

theorem pktChannelDestroy_waits : Waits (.pktChannelDestroy o c) o 0x0821 s .pktDestroy c
    (s.dev.setPkt c (some { x with destroying := some (s.clk.tick + x.set.frame) })) :=
  waits_of_pktCmd ho rfl is stays rfl rfl rfl

theorem pktChannelStatus_answers : Answers (.pktChannelStatus o c) o 0x0823 s .ok (x.set.fields ++ [⟨1, x.mode⟩,
    ⟨1, b2n x.source.isSome⟩, ⟨4, x.source.getD 0⟩, ⟨4, x.received⟩, ⟨4, x.lost + (x.expected - x.srcN).toNat⟩, ⟨4, x.late⟩,
    ⟨4, x.early⟩, ⟨4, x.dup⟩, ⟨4, x.concealed⟩, ⟨2, x.dly⟩, ⟨4, x.jitter / 16⟩, ⟨4, x.rtt⟩] ++ x.voip.map (fun b => ⟨1, b⟩)) s.dev :=
  answers_of_pktCmd ho rfl is stays rfl rfl rfl

end

/-! ### Packet channels removed (R302) -/

/-- At the end of its destroy the channel is gone and the command has its answer. -/
theorem pktChannelDestroyEnd_removes {x : PktCh} (pkts : Store.wf none s.dev.med.pkts = true) (is : s.dev.pkt c = some x) {t : Nat}
    (ends : x.destroying = some t) (due : t ≤ s.clk.tick) (boundary : s.clk.tick % x.set.frame = 0) :
    ∃ d : Dev, Does (.pktChannelDestroyEnd c) s d ∧ d.pkt c = none ∧ d.waiting .pktDestroy c = false := by
  have does := does_of_onDev (i := .pktChannelDestroyEnd c) (execPktChannelDestroyEnd c s) rfl rfl rfl
  simp only [is, ends, due, boundary, decide_true, Bool.true_and, if_true] at does
  have said {e : Dev} (wf : Store.wf none e.med.pkts = true) : Store.wf none (if x.set.rtcp = 0 then e else
      e.sendTo s.clk x.set.thread x.set.dest x.set.txKey true (byeBytes x e.htb.utcOff (clockStamp s.clk))).med.pkts = true := by
    split
    · exact wf
    · rw [(OnlyCarry.sendTo _ _ _ _ _ _ _).med]; exact wf
  replace said := said pkts
  generalize (if x.set.rtcp = 0 then s.dev else _ : Dev) = e at said does
  have left : Store.wf none ((Dev.leaveBridges s.clk (e.bumpN ⟨.medDestroyDiscard, 0, 0⟩ x.jb.length) true c).pair (.pkt c)
      .none).med.pkts = true := Dev.wf_pair (by rw [Dev.leaveBridges_pkts]; exact said) _ _
  generalize (Dev.leaveBridges s.clk (e.bumpN ⟨.medDestroyDiscard, 0, 0⟩ x.jb.length) true c).pair (.pkt c) .none = f at left does
  obtain ⟨med, done⟩ := Dev.finish_carries s.clk (if (f.setPkt c none).idleThread x.set.thread then
    (f.setPkt c none).wakeThread s.clk x.set.thread else f.setPkt c none) .pktDestroy c .ok
  refine ⟨_, does, ?_, done⟩
  have gone : (f.setPkt c none).pkt c = none := Dev.pkt_setPkt_none left
  rw [Dev.pkt, med]
  split
  · exact ((OnlyCarry.wakeThread _ _ _).pkt c).trans gone
  · exact gone

end
end Sys2Proof


namespace Sys2Proof.Machine
open Sys2Proof

/-! ### The mix alarm (R277, R296) -/

section
variable {d : Dev} {k : Clock} {c : Nat}

/-- A free slot is one of tile code's. -/
theorem Dev.freeAlarm_range {sl : Nat} (free : d.freeAlarm = some sl) : d.htb.hostSlots ≤ sl ∧ sl ≤ 1023 := by
  have listed := List.mem_of_find?_eq_some free
  simp only [List.mem_map, List.mem_range] at listed
  omega

/-- A slot of tile code takes what Sirboroth gives it, armed or not. -/
theorem Dev.armAlarm_replaces {slot target period typ targets : Nat} {absolute : Bool} (args : ArmArgs d slot target typ targets)
    (tile : d.htb.hostSlots ≤ slot) : ∃ a : Alarm, a.armed = true ∧ a.period = period ∧
      ((d.armAlarm k false slot absolute true target period typ targets).2 = d.setAlarm slot a ∨
        (d.armAlarm k false slot absolute true target period typ targets).2 = (d.setAlarm slot a).bump0 .htbAlarmPast) := by
  refine ⟨{ armed := true, absolute := absolute, target := target,
            due := if decide (target < clockStamp k) then nextStamp (clockStamp k) else target, period := period, typ := typ,
            targets := targets, firedAt := 0 }, rfl, rfl, ?_⟩
  simp only [Dev.armAlarm, args.checks, firstStatus, decide_eq_false (Nat.not_lt.mpr tile), Bool.not_true, Bool.and_false,
    Bool.false_and, bne_self_eq_false, Bool.false_eq_true, if_false, beq_self_eq_true, if_true]
  split
  · exact .inr rfl
  · exact .inl rfl

theorem Dev.alarm_setAlarm_armed {a : Alarm} (armed : a.armed = true) (d : Dev) (slot : Nat) : (d.setAlarm slot a).alarm slot = a :=
  Store.get_put_self_of_ne (fun e => by rw [e] at armed; cases armed) _ slot

/-- The mix alarm of a thread is armed in its slot with the period of a frame; no bridge changes. -/
theorem Dev.mixAlarm_arms {th slot frame : Nat} (top : slot ≤ 1023) (tile : d.htb.hostSlots ≤ slot) (thread : th ≤ 8191) (c : Nat) :
    (d.mixAlarm k th slot frame).bridge c = d.bridge c ∧ ((d.mixAlarm k th slot frame).alarm slot).armed = true ∧
      ((d.mixAlarm k th slot frame).alarm slot).period = frame := by
  have flag : Config.free (d.draw 1).1 % 32 < 32 := Nat.mod_lt _ (by decide)
  have targets : alarmTargetsOk 0 (th + Config.free (d.draw 1).1 % 32 * 2 ^ 13) = true := by
    simp only [alarmTargetsOk, decide_eq_true_eq, if_true]
    omega
  have args (at_ : Nat) : ArmArgs (d.draw 1).2 slot (at_ * 4096) 0 (th + Config.free (d.draw 1).1 % 32 * 2 ^ 13) :=
    ⟨top, by decide, nofun, targets, by omega⟩
  obtain ⟨a, armed, period, set⟩ := Dev.armAlarm_replaces (k := k) (period := frame) (absolute := false)
    (args (if k.tick < k.tick / frame * frame + frame / 8 then k.tick / frame * frame + frame / 8
      else k.tick / frame * frame + frame / 8 + frame)) tile
  have reads := Dev.alarm_setAlarm_armed armed (d.draw 1).2 slot
  unfold Dev.mixAlarm
  dsimp only
  obtain future | past := set
  · rw [future]
    exact ⟨rfl, (congrArg Alarm.armed reads).trans armed, (congrArg Alarm.period reads).trans period⟩
  · rw [past]
    exact ⟨rfl, (congrArg Alarm.armed reads).trans armed, (congrArg Alarm.period reads).trans period⟩

end
end Sys2Proof.Machine

namespace Sys2Proof
open Sys2Proof.Machine

section
variable {s : State} {o : Origin} {c : Nat}

/-! ### Bridges made (R295) -/

section
variable (ho : HostOk o s) {set : BridgeSet} (good : set.bad = false) (le : c ≤ 511) (new : s.dev.bridge c = none)
  (noChan : s.dev.chanFrame set.thread = none) (hop : s.dev.rxHopBad set.inHop set.thread = false)
include ho good le new noChan hop

/-- The first bridge of a thread starts the thread and arms its mix alarm. -/
theorem bridgeCreate_fresh {sl : Nat} (threads : Store.wf {} s.dev.sch.threads = true)
    (noBridge : s.dev.bridgeFrame set.thread = none) (off : (s.dev.thr set.thread).off = true)
    (free : s.dev.freeAlarm = some sl) : ∃ d : Dev, Answers (.bridgeCreate o c set) o 0x0840 s .ok [] d ∧
      d.bridge c = some { set := set } ∧ (d.alarm sl).armed = true ∧ (d.alarm sl).period = set.frame := by
  have answers := answers_of_hostCmd (i := .bridgeCreate o c set) (res := []) (st := .ok) _ ho rfl (by
    simp only [good, noChan, noBridge, hop, free, new, off, decide_eq_false (Nat.not_lt.mpr le), firstStatus, Option.isSome_none,
      Option.isNone_none, Option.isNone_some, Option.any_none, Bool.or_false, Bool.and_false, Bool.not_true, Bool.false_and,
      bne_self_eq_false, Bool.false_eq_true, if_false, if_true]
    rfl)
  have thread : set.thread ≤ 8191 := by
    simp only [BridgeSet.bad, Bool.or_eq_false_iff, decide_eq_false_iff_not, Nat.not_lt] at good
    omega
  obtain ⟨⟨n, only⟩, -, -⟩ := Dev.takeThread_starts (k := s.clk) (group := set.group) (level := set.level) thread noChan noBridge off
    threads
  have htb : (s.dev.takeThread s.clk set.thread set.group set.level).htb = s.dev.htb := (congrArg Dev.htb only).trans rfl
  obtain ⟨tile, top⟩ := Dev.freeAlarm_range free
  obtain ⟨kept, armed⟩ := Dev.mixAlarm_arms (k := s.clk) (frame := set.frame)
    (d := (s.dev.takeThread s.clk set.thread set.group set.level).setBridge c (some { set := set })) top
    (by exact Nat.le_trans (Nat.le_of_eq (congrArg Htb.hostSlots htb)) tile) thread c
  exact ⟨_, answers, kept.trans (Dev.bridge_setBridge_some _ _ _), armed⟩

/-- Another bridge joins the thread of bridges of its frame length. -/
theorem bridgeCreate_joins (frame : s.dev.bridgeFrame set.thread = some set.frame) :
    Answers (.bridgeCreate o c set) o 0x0840 s .ok [] (s.dev.setBridge c (some { set := set })) :=
  answers_of_hostCmd _ ho rfl (by simp [good, noChan, frame, hop, new, le, firstStatus])

end

/-! ### Legs and STATUS (R295, R303) -/

section
variable {x : Bridge} (ho : HostOk o s) (is : s.dev.bridge c = some x) (stays : x.destroying = none)
include ho is stays

/-- A leg joins at the next frame boundary. -/
theorem bridgeLegAdd_answers {l : Leg} {th : Nat} {peer : Peer} (role : l.role ≤ 2) (gain : gainOk l.gain = true) (le : l.hop ≤ 1023)
    (chan : s.dev.legChan l.pkt l.chan = some (x.set.frame, th, peer)) (hop : s.dev.rxHopBad l.hop th = false)
    (room : x.allLegs.length < 64) (unbound : s.dev.legBound x l peer = false) (lasts : s.dev.legEnds l = false) :
    Answers (.bridgeLegAdd o c l) o 0x0842 s .ok [] (s.dev.setBridge c (some { x with ops := x.ops ++ [.add l] })) :=
  answers_of_bridgeCmd ho rfl is stays (by simp [role, gain, le]) (by simp [firstStatus, chan, hop, room, unbound, lasts]) rfl

theorem bridgeLegRemove_noLeg {pkt : Bool} {chan : Nat} (no : x.allLegs.any (fun l => l.is pkt chan) = false) :
    Answers (.bridgeLegRemove o c pkt chan) o 0x0843 s .unknownObject [] s.dev :=
  refused_of_bridgeCmd ho rfl is stays rfl (by simp only [no, firstStatus]; decide) (by decide)

section
variable {pkt : Bool} {chan : Nat} (leg : x.allLegs.any (fun l => l.is pkt chan) = true)
include leg

/-- A leg is removed at the next frame boundary, which answers the command; a line's page ends at once. -/
theorem bridgeLegRemove_held : Does (.bridgeLegRemove o c pkt chan) s
    ((if pkt then s.dev else s.dev.endPaging s.clk c chan).modBridge c (fun y => { y with
      ops := y.ops ++ [.remove pkt chan (.host o)] })) :=
  does_of_bridgeCmd_held ho rfl is stays rfl (by simp only [leg, firstStatus]; decide) rfl

theorem bridgeLegModify_answers {role : Nat} {gain : Int} (roleLe : role ≤ 2) (gainIs : gainOk gain = true) :
    Answers (.bridgeLegModify o c pkt chan role gain) o 0x0844 s .ok []
      (s.dev.setBridge c (some { x with ops := x.ops ++ [.modify pkt chan role gain] })) :=
  answers_of_bridgeCmd ho rfl is stays (by simp [roleLe, gainIs]) (by simp only [leg, firstStatus]; decide) rfl

end

/-- STATUS reads the settings first and the two counts last, and clears the counts. -/
theorem bridgeStatus_clears : ∃ res,
    Answers (.bridgeStatus o c) o 0x0845 s .ok res (s.dev.setBridge c (some { x with late := 0, lateMix := 0 })) ∧
    res.take 12 = [⟨2, x.set.thread⟩, ⟨1, x.set.group⟩, ⟨1, x.set.level⟩, ⟨1, x.set.frame⟩, ⟨2, x.set.rate⟩,
      ⟨1, b2n x.set.paging⟩, ⟨1, x.set.mixMax⟩, ⟨2, x.set.inHop⟩, ⟨1, b2n x.set.pageAdd⟩, ⟨2, x.set.pageRamp⟩,
      ⟨1, x.set.evtRing⟩, ⟨1, x.legs.length⟩] ∧
    res.drop (res.length - 2) = [⟨4, x.late⟩, ⟨4, x.lateMix⟩] := by
  refine ⟨_, answers_of_bridgeCmd ho rfl is stays rfl rfl rfl, rfl, ?_⟩
  rw [List.length_append]
  exact List.drop_left

theorem bridgeDestroy_waits : Waits (.bridgeDestroy o c) o 0x0841 s .bridgeDestroy c
    (((x.legs.filter (fun l => !l.pkt)).foldl (fun d l => d.endPaging s.clk c l.chan) s.dev).modBridge c
      (fun y => { y with destroying := some (s.clk.tick + 1) })) :=
  waits_of_bridgeCmd ho rfl is stays rfl rfl rfl

end

/-! ### Bridges removed (R303) -/

/-- At the end of its destroy the bridge is gone and the command has its answer. -/
theorem bridgeDestroyEnd_removes {x : Bridge} (bridges : Store.wf none s.dev.med.bridges = true) (is : s.dev.bridge c = some x)
    {t : Nat} (ends : x.destroying = some t) (due : t ≤ s.clk.tick) (boundary : s.clk.tick % x.set.frame = 0) :
    ∃ d : Dev, Does (.bridgeDestroyEnd c) s d ∧ d.bridge c = none ∧ d.waiting .bridgeDestroy c = false := by
  have does := does_of_onDev (i := .bridgeDestroyEnd c) (execBridgeDestroyEnd c s) rfl rfl rfl
  simp only [is, ends, due, boundary, decide_true, Bool.true_and, if_true] at does
  generalize answers : List.foldl _ s.dev x.ops = e at does
  have answered : OnlyCarry s.dev e := by
    rw [← answers]
    refine .foldl (fun e op => ?_) x.ops s.dev
    cases op with
    | remove pkt chan src => exact .answer _ _ _ _ _ _
    | add l => exact .refl e
    | modify pkt chan role gain => exact .refl e
  have left := Dev.wf_dropLegs (k := s.clk) (answered.med ▸ bridges) c x.legs
  generalize x.legs.foldl (fun d l => Dev.dropLeg s.clk d c l.pkt l.chan 0) e = f at left does
  generalize drains : Dev.drainIn s.clk x.set.inHop _ f [] = g at does
  have drained : Store.wf none g.2.med.bridges = true := by
    rw [← drains, (OnlyCarry.drainIn _ _ _ _ _).med]
    exact left
  have gone : (g.2.setBridge c none).bridge c = none := Dev.bridge_setBridge_none drained
  generalize g.2.setBridge c none = h at gone does
  obtain ⟨u, unbound, leaves⟩ : ∃ u : Dev, u.bridge c = none ∧ Does (.bridgeDestroyEnd c) s (u.finish s.clk .bridgeDestroy c .ok) := by
    refine ⟨_, ?_, does⟩
    split
    · exact gone
    · split
      · exact ((OnlyCarry.wakeThread _ _ _).bridge c).trans gone
      · exact gone
  obtain ⟨med, done⟩ := u.finish_carries s.clk .bridgeDestroy c .ok
  exact ⟨_, leaves, (congrArg (fun m : Med => m.bridges.get none c) med).trans unbound, done⟩

/-! ### A mix that is due (R296, R297) -/

/-- The talkers' frames are taken, the frame is formed for every listening leg, and the bridge waits for the next. -/
theorem bridgeMix_mixes {x : Bridge} (is : s.dev.bridge c = some x) {b : Nat} (frame : x.frameAt = some b)
    (due : x.mixDue b s.clk.tick = true) (fades : List (List Int)) {voices : List ((Bool × Nat) × List Int)}
    (heard : x.voices b (Dev.drainIn s.clk x.set.inHop ((s.dev.hopper x.set.inHop).seq.length +
      (s.dev.hopper x.set.inHop).fill.length) s.dev []).1 = voices) : ∃ d : Dev,
    Does (.bridgeMix c fades) s ((x.legs.filter (·.hears)).foldl (fun d l => d.putMix s.clk c b x l (mixFor (l.pkt, l.chan)
      (frameSamples x.set.rate x.set.frame) (fadedVoices x.talkers (x.chosen voices) voices fades))) d) ∧
    d.bridge c = some { x with
      frameAt := none, present := [], mixed := some b,
      late := x.late + ((x.legs.filter (·.talks)).filter (fun l => !x.present.contains (l.pkt, l.chan))).length,
      talkers := x.chosen voices } := by
  have does := does_of_onDev (i := .bridgeMix c fades) (execBridgeMix c fades s) rfl rfl rfl
  simp only [is, frame, due, heard, Bool.not_true, Bool.false_eq_true, if_false] at does
  refine ⟨_, does, ?_⟩
  split
  · exact (congrArg (fun st : Store (Option Bridge) => st.get none c) (Dev.pageLines_bridges _ _ _)).trans
      (Dev.bridge_setBridge_some _ _ _)
  · exact Dev.bridge_setBridge_some _ _ _

end
end Sys2Proof


namespace Sys2Proof
open Sys2Proof.Machine

section
variable {s : State} {o : Origin} {c : Nat} {x : Bridge}

theorem Bridge.mixDue_of_late {b tick : Nat} (late : b + x.set.frame / 8 ≤ tick) : x.mixDue b tick = true := by
  simp [Bridge.mixDue, late]

/-- A mix at its alarm leaves the bridge without a frame to mix, and with at most MIX_MAX talkers (R297). -/
theorem bridgeMix_late (is : s.dev.bridge c = some x) {b : Nat} (frame : x.frameAt = some b)
    (late : b + x.set.frame / 8 ≤ s.clk.tick) (fades : List (List Int)) : ∃ (d : Dev) (y : Bridge),
    Does (.bridgeMix c fades) s d ∧ d.bridge c = some y ∧ y.frameAt = none ∧ y.present = [] ∧ y.mixed = some b ∧
    y.talkers.length ≤ x.set.mixMax ∧ y.legs = x.legs ∧ y.set = x.set := by
  obtain ⟨d, does, mixed⟩ := bridgeMix_mixes is frame (Bridge.mixDue_of_late late) fades rfl
  exact ⟨_, _, does, ((OnlyCarry.putMixes _ _ _ _ _ _ _).bridge c).trans mixed, rfl, rfl, rfl, List.length_take_le _ _, rfl, rfl⟩

/-- A bridge whose legs are packet channels pages nobody: nothing but its own end changes. -/
theorem bridgeDestroy_packets (ho : HostOk o s) (is : s.dev.bridge c = some x) (stays : x.destroying = none)
    (packets : x.legs.all (fun l => l.pkt) = true) : Waits (.bridgeDestroy o c) o 0x0841 s .bridgeDestroy c
      (s.dev.setBridge c (some { x with destroying := some (s.clk.tick + 1) })) := by
  have noLines : x.legs.filter (fun l => !l.pkt) = [] := by
    rw [List.filter_eq_nil_iff]
    intro l leg
    simp [List.all_eq_true.mp packets l leg]
  have waits := bridgeDestroy_waits ho is stays
  rwa [noLines, List.foldl_nil, Dev.modBridge_of is] at waits

end

/-- Settles O48: each command and each event is one of the lemmas above, in the statement's order; a channel or a leg without a peer
is the case of the general one that names none. -/
theorem packetChannelAndBridgeCommands : Obligations.PacketChannelAndBridgeCommands := by
  intro s o c ho pkts bridges threads
  refine ⟨fun set good alone le new room noChan noBridge hop off =>
      pktChannelCreate_alone ho threads good alone le new room noChan noBridge hop off,
    fun set good le new room frame noBridge hop off peer there lasts => ?_,
    fun x is stays n thread group level frame good hop peer there lasts =>
      pktChannelModify_keeps ho is stays thread group level frame good hop peer there lasts,
    fun x is => ⟨fun stays => ⟨pktChannelDestroy_waits ho is stays,
        fun n thread group level frame good hop alone => pktChannelModify_alone ho is stays thread group level frame good hop alone,
        pktChannelStatus_answers ho is stays, fun mode le room => pktModeSet_answers ho is stays le room,
        fun ev vol ticks evLe volLe ge le evtPt idle => ?_⟩,
      fun t ends due boundary => pktChannelDestroyEnd_removes pkts is ends due boundary⟩,
    fun set sl good le new noChan noBridge hop off free _ _ =>
      bridgeCreate_fresh ho good le new noChan hop threads noBridge off free,
    fun set good le new noChan frame hop => bridgeCreate_joins ho good le new noChan hop frame,
    fun x is => ⟨fun stays chan => ⟨fun leg => ⟨bridgeLegRemove_held ho is stays leg,
          fun role gain roleLe gainIs => bridgeLegModify_answers ho is stays leg roleLe gainIs⟩,
        fun pkt no => bridgeLegRemove_noLeg ho is stays no, ?_, bridgeDestroy_waits ho is stays⟩,
      fun b fades voices frame due heard => bridgeMix_mixes is frame due fades heard,
      fun stays => ⟨fun l th role gain le chan hop room unbound lasts =>
          bridgeLegAdd_answers ho is stays role gain le chan hop room unbound lasts,
        fun chan leg => ⟨?_, fun role gain roleLe gainIs => bridgeLegModify_answers ho is stays leg roleLe gainIs⟩,
        bridgeStatus_clears ho is stays, bridgeDestroy_packets ho is stays⟩,
      fun t ends due boundary => bridgeDestroyEnd_removes bridges is ends due boundary,
      fun b fades frame late => bridgeMix_late is frame late fades⟩⟩
  · obtain ⟨d, x, answers, taken, setIs, mode, dly, -, -, rxTick, ssrc⟩ :=
      pktChannelCreate_pairs ho good le new room frame noBridge hop off peer there lasts
    exact ⟨d, x, answers, taken, setIs, mode, dly, rxTick, ssrc⟩
  · have sends := pktEventSend_answers ho is stays evLe volLe ge le evtPt idle
    exact ⟨fun voice => by rwa [if_pos voice] at sends, fun other => by rwa [if_neg other] at sends⟩
  · rintro l ⟨frame, th, peer⟩ role gain le chan rfl hop room unbound lasts
    exact bridgeLegAdd_answers ho is stays role gain le chan hop room unbound lasts
  · have held := bridgeLegRemove_held ho is stays leg
    rwa [if_pos rfl, Dev.modBridge_of is] at held

end Sys2Proof

/-! # The flow table and the destination table (chapter 12)

The search for a slot and the count of the ways are said once; each command of the two tables is then answered by the check
that decides it. -/

namespace Sys2Proof.Machine
open Sys2Proof

/-- A key whose slot of its first way is free goes there, and nothing is displaced (R327). -/
theorem Dev.flowPlace_first {d : Dev} {key : List Nat} (free : d.slotUser 0 (d.slotOf 0 key) = none) :
    d.flowPlace key = some (0, 0, d) := by
  have first : [0, 1, 2, 3].find? (fun w => (d.slotUser w (d.slotOf w key)).isNone) = some 0 :=
    List.find?_cons_of_pos (by rw [free]; rfl)
  simp only [Dev.flowPlace, first]

/-- Entries that each stand in one of the four ways are counted once by the four counts. -/
theorem length_eq_sum_ways {l : List (Nat × Flow)} (ways : ∀ e ∈ l, e.2.way < 4) :
    (l.filter (fun e => e.2.way == 0)).length + (l.filter (fun e => e.2.way == 1)).length +
      (l.filter (fun e => e.2.way == 2)).length + (l.filter (fun e => e.2.way == 3)).length = l.length := by
  induction l with
  | nil => rfl
  | cons e l ih =>
    have rest := ih (fun f member => ways f (.tail _ member))
    have here : e.2.way = 0 ∨ e.2.way = 1 ∨ e.2.way = 2 ∨ e.2.way = 3 := by
      have := ways e (.head _)
      omega
    obtain way | way | way | way := here <;> simp only [List.filter_cons, way, List.length_cons] <;> simp <;> omega

/-- What FLOW_ADD asks of its 64 bytes (Table 12.6). -/
structure FlowEntryOk (entry : List Nat) : Prop where
  length : entry.length = 64
  key : keyOk (slice entry 0 40) = true
  tail : flowTailOk (slice entry 40 16) = true
  rest : ∀ b ∈ slice entry 56 8, b = 0

theorem FlowEntryOk.check {entry : List Nat} (ok : FlowEntryOk entry) : (!(entry.length == 64 && keyOk (slice entry 0 40) &&
    flowTailOk (slice entry 40 16) && (slice entry 56 8).all (· == 0))) = false := by
  have zeros : (slice entry 56 8).all (· == 0) = true := by simpa using ok.rest
  simp [ok.length, ok.key, ok.tail, zeros]

end Sys2Proof.Machine

namespace Sys2Proof
open Sys2Proof.Machine

section
variable {s : State} {o : Origin} {h : Nat}

theorem destNumBad_of_range (ge : 1 ≤ h) (le : h ≤ 8191) : destNumBad h = false := by
  have pos : h ≠ 0 := by omega
  simp [destNumBad, pos, Nat.not_lt.mpr le]

section
variable (ho : HostOk o s)
include ho

/-! ### The destination table (R312, Table 12.2) -/

section
variable (ge : 1 ≤ h) (le : h ≤ 8191)
include ge le

theorem destWrite_answers {entry : List Nat} (ok : destOk entry = true)
    (pair : s.dev.eth.protect = false ∨ entry.getD 0 0 % 2 = 0) : Answers (.destWrite o h entry) o 0x0905 s .ok []
      { s.dev with eth := { s.dev.eth with dests := s.dev.eth.dests.put [] h entry } } := by
  have mine : (s.dev.eth.protect && entry.getD 0 0 % 2 == 1) = false := by
    obtain single | even := pair
    · rw [single]; rfl
    · rw [even]; exact Bool.and_false _
  refine answers_of_hostCmd _ ho rfl ?_
  simp only [ok, mine, destNumBad_of_range ge le, firstStatus]
  rfl

theorem destClear_answers : Answers (.destClear o h) o 0x0906 s .ok []
    { s.dev with eth := { s.dev.eth with dests := s.dev.eth.dests.put [] h [] } } :=
  answers_of_hostCmd _ ho rfl (if_neg (by simp [destNumBad_of_range ge le]))

theorem destRead_answers (written : s.dev.eth.dests.get [] h ≠ []) :
    Answers (.destRead o h) o 0x0907 s .ok ((s.dev.eth.dests.get [] h).map (fun b => ⟨1, b⟩)) s.dev :=
  answers_of_hostCmd _ ho rfl (if_neg (by simp [destNumBad_of_range ge le, written]))

end

theorem destRead_empty (empty : s.dev.eth.dests.get [] h = []) : Answers (.destRead o h) o 0x0907 s .unknownObject [] s.dev :=
  answers_of_hostCmd _ ho rfl (if_pos (by simp [empty]))

/-! ### Entries added (R327) -/

section
variable {entry : List Nat} (ok : FlowEntryOk entry)
include ok

section
variable {way moves n : Nat} {e : Dev} (place : s.dev.flowPlace (slice entry 0 40) = some (way, moves, e))
  (handle : least 32768 (fun i => (s.dev.flow i).isNone && !s.dev.waiting .flowDelete i) = some n)
include place handle

/-- A new key takes its slot under the lowest free handle, once what stood in its way has moved. -/
theorem flowAdd_answers (new : s.dev.flowFind (slice entry 0 40) = none) : Answers (.flowAdd o entry) o 0x0908 s .ok [⟨4, n⟩]
    (let d := e.setFlow n (some { flowOf entry with way := way, slot := s.dev.slotOf way (slice entry 0 40) })
     { d with eth := { d.eth with chains := (moves :: d.eth.chains).take 1024 } }) := by
  refine answers_of_hostCmd _ ho rfl ?_
  simp only [ok.check, place, handle, new, Option.isSome_none, Bool.false_eq_true, if_false]
  rfl

theorem flowAdd_busy {f : Nat × Flow} (there : s.dev.flowFind (slice entry 0 40) = some f) :
    Answers (.flowAdd o entry) o 0x0908 s .refusedBusy [] s.dev := by
  refine answers_of_hostCmd _ ho rfl ?_
  simp only [ok.check, place, handle, there, Option.isSome_some, Bool.false_eq_true, if_false, if_true]

end

theorem flowAdd_noResource (full : s.dev.flowPlace (slice entry 0 40) = none) :
    Answers (.flowAdd o entry) o 0x0908 s .noResource [] s.dev := by
  refine answers_of_hostCmd _ ho rfl ?_
  simp only [ok.check, full, Bool.false_eq_true, if_false]

end

/-! ### Entries found, changed and removed (R328) -/

section
variable {f : Flow} (is : s.dev.flow h = some f)
include is

theorem flowDelete_waits : Waits (.flowDelete o h) o 0x0909 s .flowDelete h (s.dev.setFlow h none) :=
  waits_of_hostCmd _ ho rfl (if_neg (by simp [is]))

theorem flowRead_answers : Answers (.flowRead o h) o 0x090B s .ok f.fields s.dev :=
  answers_of_hostCmd _ ho rfl (by simp only [is])

theorem flowModify_answers {tail : List Nat} (length : tail.length = 16) (ok : flowTailOk tail = true) :
    Answers (.flowModify o h tail) o 0x090A s .ok []
      (s.dev.setFlow h (some { flowOf (f.key ++ tail) with hits := f.hits, way := f.way, slot := f.slot })) :=
  answers_of_hostCmd _ ho rfl (by simp [is, length, ok, firstStatus])

end

section
variable {key : List Nat} (ok : keyOk key = true)
include ok

theorem flowLookup_answers {f : Flow} (found : s.dev.flowFind key = some (h, f)) :
    Answers (.flowLookup o key) o 0x090C s .ok [⟨4, h⟩] s.dev :=
  answers_of_hostCmd _ ho rfl (by simp [ok, found])

theorem flowLookup_unknown (new : s.dev.flowFind key = none) : Answers (.flowLookup o key) o 0x090C s .unknownObject [] s.dev :=
  answers_of_hostCmd _ ho rfl (by simp [ok, new])

end

/-- The four counts of the ways, which make up the table where each entry stands in one of the four. -/
theorem flowTableStatus_answers : ∃ n0 n1 n2 n3, Answers (.flowTableStatus o) o 0x090D s .ok
    [⟨4, n0⟩, ⟨4, n1⟩, ⟨4, n2⟩, ⟨4, n3⟩, ⟨4, s.dev.eth.chains.foldl max 0⟩] s.dev ∧
    ((∀ e ∈ s.dev.flowList, e.2.way < 4) → n0 + n1 + n2 + n3 = s.dev.flowList.length) :=
  ⟨_, _, _, _, answers_of_hostCmd _ ho rfl rfl, length_eq_sum_ways⟩

end

/-! ### The end of FLOW_DELETE -/

/-- With no frame of the entry in flight, FLOW_DELETE completes. -/
theorem flowDeleteDone_finishes (landed : ∀ f ∈ s.dev.eth.flight, f.handle ≠ h) :
    Does (.flowDeleteDone h) s (s.dev.finish s.clk .flowDelete h .ok) :=
  does_of_onDev (execFlowDeleteDone h s) rfl rfl (if_neg (by simpa using landed))

theorem flowDeleteDone_waits {f : EFlight} (member : f ∈ s.dev.eth.flight) (found : f.handle = h) :
    Does (.flowDeleteDone h) s s.dev :=
  does_of_onDev (execFlowDeleteDone h s) rfl rfl (if_pos (List.any_eq_true.mpr ⟨f, member, by simp [found]⟩))

end

/-- Settles O51: each command and the end of FLOW_DELETE is one of the lemmas above; a free slot of the first way is the case of
`flowAdd_answers` in which nothing moves. -/
theorem flowTableAndDestinations : Obligations.FlowTableAndDestinations := by
  intro s o h ho
  refine ⟨fun ge le => ⟨fun entry ok pair => destWrite_answers ho ge le ok pair, destClear_answers ho ge le, ?_,
      fun empty => destRead_empty ho empty⟩, ?_,
    fun f is => ⟨flowDelete_waits ho is, flowRead_answers ho is, fun tail length ok => flowModify_answers ho is length ok⟩,
    fun key f ok found => flowLookup_answers ho ok found, fun key ok new => flowLookup_unknown ho ok new,
    flowTableStatus_answers ho, flowDeleteDone_finishes, fun landed waits => ?_,
    fun f member found => flowDeleteDone_waits member found⟩
  · rintro e rfl written
    exact destRead_answers ho ge le written
  · rintro entry key rfl length keyIs tail rest
    have ok : FlowEntryOk entry := ⟨length, keyIs, tail, rest⟩
    exact ⟨fun new free handle => flowAdd_answers ho ok (Dev.flowPlace_first free) handle new,
      fun way moves n e place handle => ⟨fun new => ⟨_, rfl, flowAdd_answers ho ok place handle new⟩,
        fun f there => flowAdd_busy ho ok place handle there⟩,
      flowAdd_noResource ho ok⟩
  · rw [← Dev.finish_single waits]
    exact flowDeleteDone_finishes landed

end Sys2Proof

/-! # Frames received and pauses kept (chapter 12)

What a pass over the queues of a port leaves, what the delivery of a frame to a host ring leaves of the ring, and which frames
a port takes, are said once; reception and pauses are assembled from them. -/

namespace Sys2Proof.Machine
open Sys2Proof

/-! ### Passes over a range -/

/-- What a pass over the numbers below `n` establishes, where each step carries it on. -/
theorem foldl_range_invariant {β : Type} {f : β → Nat → β} {n : Nat} (P : Nat → β → Prop)
    (step : ∀ i b, i < n → P i b → P (i + 1) (f b i)) {b : β} (start : P 0 b) : P n ((List.range n).foldl f b) := by
  induction n with
  | zero => exact start
  | succ n ih =>
    rw [List.range_succ, List.foldl_append]
    exact step n _ (Nat.lt_succ_self n) (ih fun i b lt => step i b (Nat.lt_succ_of_lt lt))

/-! ### Pauses of the queues (R317, R318) -/

/-- A queue of port `p` after a pause of `quanta`, from the sub-tick after now. -/
def Dev.pausedQueue (k : Clock) (d : Dev) (p q quanta : Nat) : EQueue :=
  { d.txq p q with pauseTo := if quanta = 0 then 0 else clockAbs k + 1 + pauseLen (d.port p).mode quanta }

/-- What a PFC frame leaves of a queue: paused where its class is enabled (R317). -/
def Dev.pfcQueue (k : Clock) (d : Dev) (p enables : Nat) (times : List Nat) (q : Nat) : EQueue :=
  if bitOf enables (d.pfcClass p q) then d.pausedQueue k p q (times.getD (d.pfcClass p q) 0 % 65536) else d.txq p q

/-- `e` is `d` where the first `n` queues of port `p` are what `y` says; beside the queues only counters differ. -/
structure QueuesSet (d : Dev) (p : Nat) (y : Nat → EQueue) (n : Nat) (e : Dev) : Prop where
  only : e = { d with eth := { d.eth with queues := e.eth.queues }, ctr := e.ctr }
  wf : Store.wf {} e.eth.queues = true
  reads : ∀ i q, q < 8 → e.txq i q = if i = p ∧ q < n then y q else d.txq i q

section
variable {d e : Dev} {k : Clock} {p n : Nat} {y : Nat → EQueue}

theorem QueuesSet.start (wf : Store.wf {} d.eth.queues = true) : QueuesSet d p y 0 d :=
  ⟨rfl, wf, fun _ q _ => (if_neg (fun h => absurd h.2 (Nat.not_lt_zero q))).symm⟩

section
variable (set : QueuesSet d p y n e)
include set

theorem QueuesSet.eth : e.eth = { d.eth with queues := e.eth.queues } := (congrArg Dev.eth set.only).trans rfl

theorem QueuesSet.onlyEth : e = { d with eth := e.eth, ctr := e.ctr } := by
  rw [set.eth]
  exact set.only

theorem QueuesSet.port (i : Nat) : e.port i = d.port i := (congrArg (Dev.port · i) set.only).trans rfl

/-- A queue that has not had its turn is as it was. -/
theorem QueuesSet.next_reads (i : Nat) (lt : n < 8) : e.txq i n = d.txq i n :=
  (set.reads i n lt).trans (if_neg fun h => absurd h.2 (Nat.lt_irrefl n))

theorem QueuesSet.pfcClass (lt : n < 8) : e.pfcClass p n = d.pfcClass p n := by
  have protect : e.eth.protect = d.eth.protect := (congrArg Eth.protect set.eth).trans rfl
  have active : e.eth.active = d.eth.active := (congrArg Eth.active set.eth).trans rfl
  rw [Dev.pfcClass, protect, active, set.next_reads _ lt, Dev.pfcClass]

theorem QueuesSet.bumpN (c : Ctr) (m : Nat) : QueuesSet d p y n (e.bumpN c m) where
  only := by
    conv_lhs => rw [set.only]
    rfl
  wf := set.wf
  reads := set.reads

/-- The turn of a queue that stays as it was. -/
theorem QueuesSet.skip (same : y n = d.txq p n) : QueuesSet d p y (n + 1) e where
  only := set.only
  wf := set.wf
  reads i q lt := by
    rw [set.reads i q lt]
    by_cases here : i = p ∧ q = n
    · obtain ⟨rfl, rfl⟩ := here
      simp [same]
    · have before : i = p ∧ q < n + 1 ↔ i = p ∧ q < n := by omega
      simp only [before]

/-- The turn of a queue that is written. -/
theorem QueuesSet.put (lt : n < 8) : QueuesSet d p y (n + 1) (e.setTxq p n (y n)) where
  only := by
    conv_lhs => rw [set.only]
    rfl
  wf := Store.wf_put set.wf
  reads i q below := by
    have written : (e.setTxq p n (y n)).txq i q = if 8 * i + q = 8 * p + n then y n else e.txq i q := Store.get_put set.wf _ _ _
    rw [written, set.reads i q below]
    by_cases here : i = p ∧ q = n
    · obtain ⟨rfl, rfl⟩ := here
      simp
    · have other : ¬ 8 * i + q = 8 * p + n := by omega
      have before : i = p ∧ q < n + 1 ↔ i = p ∧ q < n := by omega
      simp only [other, if_false, before]

/-- The turn of a queue that is paused. -/
theorem QueuesSet.pause (lt : n < 8) {quanta : Nat} (is : y n = d.pausedQueue k p n quanta) :
    QueuesSet d p y (n + 1) (e.pauseQueue k p n quanta) := by
  have paused : e.pauseQueue k p n quanta = e.setTxq p n (y n) := by
    rw [Dev.pauseQueue, Dev.modTxq, set.port, set.next_reads p lt, is, Dev.pausedQueue]
  exact paused ▸ set.put lt

end

/-- A PAUSE counts its quanta. -/
theorem Dev.pauseRx_quanta (ctr : Store.wf 0 d.ctr = true) (quanta : Nat) :
    (d.pauseRx k p quanta).count ⟨.ethEPauseQuanta, p, 0⟩ = d.count ⟨.ethEPauseQuanta, p, 0⟩ + quanta := by
  have kept : (d.pauseRx k p quanta).ctr = ((d.bump1 .ethEPauseFrames p).bumpN ⟨.ethEPauseQuanta, p, 0⟩ quanta).ctr :=
    foldl_keeps (f := fun (e : Dev) q => e.pauseQueue k p q quanta) Dev.ctr (fun e q => e.modTxq_ctr p q _) _ _
  have frames : Store.wf 0 (d.bump1 .ethEPauseFrames p).ctr = true := Store.wf_put ctr
  rw [Dev.count, kept, ← Dev.count, Dev.count_bumpN_self frames, Dev.bump1, Dev.count_bumpN_ne ctr (by decide)]

section
variable (wf : Store.wf {} d.eth.queues = true)
include wf

/-- PAUSE pauses all eight queues (R317). -/
theorem Dev.pauseRx_sets (quanta : Nat) :
    QueuesSet d p (fun q => d.pausedQueue k p q quanta) 8 (d.pauseRx k p quanta) := by
  unfold Dev.pauseRx
  exact foldl_range_invariant (QueuesSet d p (fun q => d.pausedQueue k p q quanta)) (fun _ _ lt set => set.pause lt rfl)
    (((QueuesSet.start wf).bumpN _ _).bumpN _ _)

theorem Dev.pfcRx_sets (enables : Nat) (times : List Nat) :
    QueuesSet d p (d.pfcQueue k p enables times) 8 (d.pfcRx k p enables times) := by
  refine foldl_range_invariant (QueuesSet d p (d.pfcQueue k p enables times)) (fun n e lt set => ?_) (QueuesSet.start wf)
  dsimp only
  rw [set.pfcClass lt]
  split
  case isTrue on => exact ((set.bumpN _ _).bumpN _ _).pause lt (if_pos on)
  case isFalse off => exact set.skip (if_neg off)

end
end

/-! ### Frames delivered to a host ring (R390, R395) -/

/-- `e` comes of `d` without a buffer of a ring being used: in canonical form every ring keeps its consumer index and its
buffers, and what has been sent stays sent. -/
structure KeepsBuffers (d e : Dev) : Prop where
  wf : Store.wf {} d.hif.rings = true → Store.wf {} e.hif.rings = true
  c : Store.wf {} d.hif.rings = true → ∀ n, (e.ring n).c = (d.ring n).c
  posted : Store.wf {} d.hif.rings = true → ∀ n, (e.ring n).posted = (d.ring n).posted
  sent : ∀ x ∈ d.hif.sent, x ∈ e.hif.sent

section
variable {d : Dev} {k : Clock}

theorem Dev.ring_setRing (wf : Store.wf {} d.hif.rings = true) (n j : Nat) (r : Ring) :
    (d.setRing n r).ring j = if j = n then r else d.ring j := Store.get_put wf n j r

theorem KeepsBuffers.refl (d : Dev) : KeepsBuffers d d := ⟨id, fun _ _ => rfl, fun _ _ => rfl, fun _ => id⟩

theorem KeepsBuffers.trans {a b c : Dev} (h : KeepsBuffers a b) (g : KeepsBuffers b c) : KeepsBuffers a c :=
  ⟨g.wf ∘ h.wf, fun wf n => (g.c (h.wf wf) n).trans (h.c wf n), fun wf n => (g.posted (h.wf wf) n).trans (h.posted wf n),
    fun x sent => g.sent x (h.sent x sent)⟩

/-- The rings as they are, and nothing taken back of what has been sent. -/
theorem KeepsBuffers.of_rings {e : Dev} (rings : e.hif.rings = d.hif.rings) (sent : ∀ x ∈ d.hif.sent, x ∈ e.hif.sent) :
    KeepsBuffers d e :=
  ⟨fun wf => rings ▸ wf, fun _ n => by rw [Dev.ring, rings, Dev.ring], fun _ n => by rw [Dev.ring, rings, Dev.ring], sent⟩

theorem KeepsBuffers.send (d : Dev) (x : Sent) : KeepsBuffers d (d.send x) := .of_rings rfl fun _ sent => .tail _ sent

theorem KeepsBuffers.setRing (d : Dev) (n : Nat) {r : Ring} (c : r.c = (d.ring n).c) (posted : r.posted = (d.ring n).posted) :
    KeepsBuffers d (d.setRing n r) where
  wf := Store.wf_put
  c wf j := by
    rw [Dev.ring_setRing wf]
    split
    next here => rw [here, c]
    next => rfl
  posted wf j := by
    rw [Dev.ring_setRing wf]
    split
    next here => rw [here, posted]
    next => rfl
  sent _ := id

theorem KeepsBuffers.foldl {α : Type} {f : Dev → α → Dev} (each : ∀ d x, KeepsBuffers d (f d x)) (l : List α) (d : Dev) :
    KeepsBuffers d (l.foldl f d) := by
  induction l generalizing d with
  | nil => exact .refl d
  | cons x l ih => exact (each d x).trans (ih _)

theorem KeepsBuffers.shadowFor (d : Dev) (sel : Nat → Ring → Bool) : KeepsBuffers d (d.shadowFor sel) := by
  refine .foldl (fun d x => ?_) _ d
  split
  · exact (KeepsBuffers.send d _).trans (.setRing _ _ rfl rfl)
  · exact .refl d

theorem KeepsBuffers.clearPend (d : Dev) (v : Nat) : KeepsBuffers d (d.clearPend v) := by
  refine .foldl (fun d x => ?_) _ d
  split
  · exact .setRing _ _ rfl rfl
  · exact .refl d

theorem KeepsBuffers.requestVec (k : Clock) (d : Dev) (v : Nat) : KeepsBuffers d (d.requestVec k v) := by
  unfold Dev.requestVec
  split
  · exact .of_rings rfl fun _ => id
  · refine .trans (b := d.shadowFor (fun _ r => r.vector == v)) (.shadowFor d _) ?_
    dsimp only
    refine .trans ?_ (.clearPend _ _)
    split
    · exact .refl _
    · exact .of_rings rfl fun _ sent => .tail _ sent

theorem KeepsBuffers.wrote (k : Clock) (d : Dev) (n : Nat) : KeepsBuffers d (d.wrote k n) := by
  unfold Dev.wrote
  dsimp only
  split
  · split
    · refine .trans ?_ (.requestVec _ _ _)
      exact .setRing _ _ rfl rfl
    · exact .setRing _ _ rfl rfl
  · exact .refl d

/-- A buffer takes a frame that fits in it whole. -/
theorem fillBufs_single {b : Buf} {bs : List Nat} (good : b.good = true) (nonempty : bs ≠ []) (fits : bs.length ≤ b.len) :
    fillBufs [b] bs = some [(b, bs)] := by
  simp [fillBufs, good, nonempty, fits]

/-- A frame that fits in the one buffer posted, a good one, is written into it, and the entry is written back (R390). -/
theorem Dev.rxDeliver_single {n : Nat} {b : Buf} {bs : List Nat} (rings : Store.wf {} d.hif.rings = true)
    (runs : d.hif.paused = false) (bme : d.hif.bme = true) (up : d.hif.d3hot = false) (ring : d.ringIs n 4 = true)
    (posted : (d.ring n).posted = [b]) (good : b.good = true) (nonempty : bs ≠ []) (fits : bs.length ≤ b.len) (info : RxInfo) :
    Sent.hostWrite b.addr bs ∈ (d.rxDeliver k n bs info).hif.sent ∧
    ((d.rxDeliver k n bs info).ring n).c = (d.ring n).c + 1 ∧ ((d.rxDeliver k n bs info).ring n).posted = [] := by
  have skips : d.skipBad n 4 1 = d := by simp [posted, Dev.skipBad, good]
  have delivers : d.rxDeliver k n bs info = (d.rxWriteBack n bs.length info true [(b, bs)]).wrote k n := by
    simp [Dev.rxDeliver, runs, bme, up, ring, skips, posted, fillBufs_single good nonempty fits]
  have back : d.rxWriteBack n bs.length info true [(b, bs)] =
      ((d.setRing n { d.ring n with c := (d.ring n).c + 1, posted := [] }).send (.hostWrite b.addr bs)).send
        (.rxp n b.idx bs.length true true false info.port info.ip info.l4 info.miss info.pcp info.stamp bs.length info.flow) := by
    simp [Dev.rxWriteBack, good, Dev.modRing, posted]
  have used := Dev.ring_setRing rings n n { d.ring n with c := (d.ring n).c + 1, posted := [] }
  rw [if_pos rfl] at used
  have wf : Store.wf {} (d.setRing n { d.ring n with c := (d.ring n).c + 1, posted := [] }).hif.rings = true := Store.wf_put rings
  rw [delivers, back]
  generalize d.setRing n { d.ring n with c := (d.ring n).c + 1, posted := [] } = e at used wf
  have kept := KeepsBuffers.wrote k ((e.send (.hostWrite b.addr bs)).send
    (.rxp n b.idx bs.length true true false info.port info.ip info.l4 info.miss info.pcp info.stamp bs.length info.flow)) n
  exact ⟨kept.sent _ (.tail _ (.head _)), (kept.c wf n).trans (congrArg Ring.c used),
    (kept.posted wf n).trans (congrArg Ring.posted used)⟩

end

/-! ### Frames that reach classification (R319 to R328) -/

section
variable {d : Dev} {k : Clock} {p : Nat} {bs : List Nat} {f : Parsed}

/-- A port takes a frame for its flows: no unit of the Hearth looks for it, and no checksum is asked for. -/
structure Classifies (d : Dev) (p : Nat) : Prop where
  ptp : d.ptpOn p = false
  sync : d.syncOn p = false
  ip : (d.port p).dropIp = false
  l4 : (d.port p).dropL4 = false

variable (takes : Classifies d p) (parsed : parseFrame bs (d.tpid p) = f) (age : Nat)
include takes parsed

/-- A frame without a flow entry goes to its port's miss ring. -/
theorem Dev.frameIn_misses (miss : f.classified = false ∨ d.flowLookup f = none) : ∃ info : RxInfo,
    d.frameIn k p bs age = ({ d with freeN := d.freeN + 1 } : Dev).rxDeliver k (d.port p).missRing bs info := by
  obtain ⟨ptp, sync, ip, l4⟩ := takes
  simp only [Dev.frameIn, parsed, ptp, sync, ip, l4, Bool.and_false, Bool.false_and, Bool.false_eq_true, if_false]
  cases cls : f.classified
  case false => exact ⟨_, rfl⟩
  case true =>
    have none : d.flowLookup f = none := miss.resolve_left (by simp [cls])
    simp only [none]
    exact ⟨_, rfl⟩

/-- A hit with ACTION DROP counts the hit and the drop. -/
theorem Dev.frameIn_drops {h : Nat} {fl : Flow} (cls : f.classified = true) (hit : d.flowLookup f = some (h, fl))
    (drop : fl.action = 2) : d.frameIn k p bs age =
      ((({ d with freeN := d.freeN + 1 } : Dev).setFlow h (some { fl with hits := fl.hits + 1 })).bump1 .ethEFlowDrop p) := by
  obtain ⟨ptp, sync, ip, l4⟩ := takes
  simp only [Dev.frameIn, parsed, ptp, sync, ip, l4, cls, hit, drop, Bool.and_false, Bool.false_and, Bool.false_eq_true,
    Bool.not_true, if_false]
  rfl

end

end Sys2Proof.Machine

namespace Sys2Proof
open Sys2Proof.Machine

section
variable {s : State} {p : Nat} {x : EPort} (le : p ≤ 1) (is : s.dev.port p = x)
include le is

/-! ### Frames checked (R308, R319) -/

section
variable {bs : List Nat} {pcs fcs : Bool} {age : Nat}

theorem frameReceive_disabled (off : x.en = false) : Does (.frameReceive p bs pcs fcs age) s (s.dev.bump1 .ethERxDisabledDrop p) :=
  does_of_onDev (execFrameReceive p bs pcs fcs age s) rfl rfl (by simp [is, Nat.not_lt.mpr le, off])

section
variable (on : x.en = true)
include on

theorem frameReceive_pcsError : Does (.frameReceive p bs true fcs age) s (s.dev.bump1 .ethERxPcsError p) :=
  does_of_onDev (execFrameReceive p bs true fcs age s) rfl rfl (by simp [is, Nat.not_lt.mpr le, on])

theorem frameReceive_fcsError : Does (.frameReceive p bs false true age) s (s.dev.bump1 .ethERxFcsError p) :=
  does_of_onDev (execFrameReceive p bs false true age s) rfl rfl (by simp [is, Nat.not_lt.mpr le, on])

theorem frameReceive_runt (short : bs.length < 60) : Does (.frameReceive p bs false false age) s (s.dev.bump1 .ethERxRunt p) := by
  have runt : bs.length + 4 < 64 := by omega
  exact does_of_onDev (execFrameReceive p bs false false age s) rfl rfl (by simp [is, Nat.not_lt.mpr le, on, runt])

section
variable (long : 60 ≤ bs.length)
include long

theorem frameReceive_oversize (exceeds : x.maxFrame < bs.length + 4) :
    Does (.frameReceive p bs false false age) s (s.dev.bump1 .ethERxOversize p) := by
  have whole : ¬ bs.length + 4 < 64 := by omega
  exact does_of_onDev (execFrameReceive p bs false false age s) rfl rfl (by simp [is, Nat.not_lt.mpr le, on, whole, exceeds])

section
variable (fits : bs.length + 4 ≤ x.maxFrame)
include fits

theorem frameReceive_addrDrop (other : s.dev.addrOk p (bs.take 6) = false) :
    Does (.frameReceive p bs false false age) s (s.dev.bump1 .ethERxAddrDrop p) := by
  have whole : ¬ bs.length + 4 < 64 := by omega
  exact does_of_onDev (execFrameReceive p bs false false age s) rfl rfl
    (by simp [is, Nat.not_lt.mpr le, on, whole, Nat.not_lt.mpr fits, other])

/-- A frame that passes every check of R308 is a MAC control frame, one without room, or one to classify. -/
theorem frameReceive_passes (mine : s.dev.addrOk p (bs.take 6) = true) : Does (.frameReceive p bs false false age) s
    (if beAt bs 12 2 = 0x8808 then s.dev.macControl s.clk p bs 14
     else if 131072 < x.rxBytes + bs.length then s.dev.bump1 .ethERxBufferDrop p
     else s.dev.frameIn s.clk p bs age) := by
  have whole : ¬ bs.length + 4 < 64 := by omega
  exact does_of_onDev (execFrameReceive p bs false false age s) rfl rfl
    (by simp [is, Nat.not_lt.mpr le, on, whole, Nat.not_lt.mpr fits, mine])

end
end
end
end

/-! ### PTP messages (R320, R325) -/

section
variable {typ age : Nat}

theorem ptpEventRx_disabled (off : x.en = false) : Does (.ptpEventRx p typ age) s (s.dev.bump1 .ethERxDisabledDrop p) :=
  does_of_onDev (execPtpEventRx p typ age s) rfl rfl (by simp [is, Nat.not_lt.mpr le, off])

theorem ptpEventRx_takes (on : x.en = true) (ptp : s.dev.ptpOn p = true) :
    Does (.ptpEventRx p typ age) s (s.dev.ptpRx s.clk p (typ % 16) age) :=
  does_of_onDev (execPtpEventRx p typ age s) rfl rfl (by simp [is, Nat.not_lt.mpr le, on, ptp])

end

/-! ### Pauses (R316 to R318) -/

section
variable {quanta enables : Nat} {times : List Nat}

section
variable (off : x.en = false)
include off

theorem pauseFrameRx_disabled : Does (.pauseFrameRx p quanta) s (s.dev.bump1 .ethERxDisabledDrop p) :=
  does_of_onDev (execPauseFrameRx p quanta s) rfl rfl (by simp [is, Nat.not_lt.mpr le, off])

theorem pfcFrameRx_disabled : Does (.pfcFrameRx p enables times) s (s.dev.bump1 .ethERxDisabledDrop p) :=
  does_of_onDev (execPfcFrameRx p enables times s) rfl rfl (by simp [is, Nat.not_lt.mpr le, off])

end

section
variable (on : x.en = true)
include on

theorem pauseFrameRx_drops (deaf : s.dev.takesPause p = false) : Does (.pauseFrameRx p quanta) s (s.dev.bump1 .ethEMacCtrlDrop p) :=
  does_of_onDev (execPauseFrameRx p quanta s) rfl rfl (by simp [is, Nat.not_lt.mpr le, on, deaf])

theorem pauseFrameRx_pauses (takes : s.dev.takesPause p = true) (lt : quanta < 65536) :
    Does (.pauseFrameRx p quanta) s (s.dev.pauseRx s.clk p quanta) :=
  does_of_onDev (execPauseFrameRx p quanta s) rfl rfl (by simp [is, Nat.not_lt.mpr le, on, takes, Nat.mod_eq_of_lt lt])

theorem pfcFrameRx_drops (deaf : x.pfcEn = false) : Does (.pfcFrameRx p enables times) s (s.dev.bump1 .ethEMacCtrlDrop p) :=
  does_of_onDev (execPfcFrameRx p enables times s) rfl rfl (by simp [is, Nat.not_lt.mpr le, on, deaf])

theorem pfcFrameRx_pauses (takes : x.pfcEn = true) :
    Does (.pfcFrameRx p enables times) s (s.dev.pfcRx s.clk p enables times) :=
  does_of_onDev (execPfcFrameRx p enables times s) rfl rfl (by simp [is, Nat.not_lt.mpr le, on, takes])

end
end

end

theorem pauseExpiry_clears {s : State} {p q : Nat} (le : p ≤ 1) (lt : q < 8) (past : (s.dev.txq p q).pauseTo ≤ clockAbs s.clk) :
    Does (.pauseExpiry p q) s (s.dev.setTxq p q { s.dev.txq p q with pauseTo := 0 }) :=
  does_of_onDev (execPauseExpiry p q s) rfl rfl (if_pos (by simp [Nat.lt_succ_of_le le, lt, past]))

section
variable {s : State} {p : Nat} {x : EPort} (le : p ≤ 1) (is : s.dev.port p = x) (on : x.en = true)
include le is on

/-! ### What becomes of a frame, a PTP message or a pause that a port takes -/

/-- A frame that passes every check but is no MAC control frame, and for which the receive buffer has room, is classified. -/
theorem frameReceive_classifies {bs : List Nat} {age : Nat} (long : 60 ≤ bs.length) (fits : bs.length + 4 ≤ x.maxFrame)
    (mine : s.dev.addrOk p (bs.take 6) = true) (data : beAt bs 12 2 ≠ 0x8808) (room : x.rxBytes + bs.length ≤ 131072) :
    Does (.frameReceive p bs false false age) s (s.dev.frameIn s.clk p bs age) := by
  have passes := frameReceive_passes (age := age) le is on long fits mine
  rwa [if_neg data, if_neg (Nat.not_lt.mpr room)] at passes

section
variable {typ age : Nat} (ptp : s.dev.ptpOn p = true)
include ptp

theorem ptpEventRx_restarting (restart : s.dev.hif.paused = true) :
    Does (.ptpEventRx p typ age) s (s.dev.bump1 .ethEPtpRestartDrop p) := by
  have takes := ptpEventRx_takes (typ := typ) (age := age) le is on ptp
  rwa [Dev.ptpRx, if_pos restart] at takes

section
variable (runs : s.dev.hif.paused = false)
include runs

theorem ptpEventRx_discards (general : 4 ≤ typ % 16) (other : typ % 16 ≠ 13) : Does (.ptpEventRx p typ age) s s.dev := by
  have takes := ptpEventRx_takes (typ := typ) (age := age) le is on ptp
  rwa [Dev.ptpRx, if_neg (by simp [runs]), if_neg other, if_neg (Nat.not_lt.mpr general)] at takes

theorem ptpEventRx_counts (management : typ % 16 = 13) : Does (.ptpEventRx p typ age) s (s.dev.bump1 .htbEPtpMgmtDrop p) := by
  have takes := ptpEventRx_takes (typ := typ) (age := age) le is on ptp
  rwa [Dev.ptpRx, if_neg (by simp [runs]), if_pos management] at takes

/-- An event message is timestamped at its first bit, the compensation of its port taken off (R323). -/
theorem ptpEventRx_stamps (event : typ % 16 < 4) {ns : Nat}
    (time : ptpNs s.clk (-(((20 * age : Nat) : Int) + 20 * x.rxComp)) = ns) :
    Does (.ptpEventRx p typ age) s { s.dev with htb := if p = 0
      then { s.dev.htb with port0 := { s.dev.htb.port0 with rxSec := ns / 1000000000, rxNs := ns % 1000000000 } }
      else { s.dev.htb with port1 := { s.dev.htb.port1 with rxSec := ns / 1000000000, rxNs := ns % 1000000000 } } } := by
  have takes := ptpEventRx_takes (typ := typ) (age := age) le is on ptp
  rw [Dev.ptpRx, if_neg (by simp [runs]), if_neg (by omega), if_pos event, is, time] at takes
  exact takes

end
end

section
variable (queues : Store.wf {} s.dev.eth.queues = true)
include queues

/-- An accepted PAUSE pauses the port's eight queues and no other, and counts its quanta (R317). -/
theorem pauseFrameRx_sets {quanta : Nat} (ctr : Store.wf 0 s.dev.ctr = true) (lt : quanta < 65536) (pauseEn : x.pauseEn = true)
    (pfcEn : x.pfcEn = false) : ∃ d : Dev, Does (.pauseFrameRx p quanta) s d ∧ d = { s.dev with eth := d.eth, ctr := d.ctr } ∧
      (∀ q, q < 8 → d.txq p q = s.dev.pausedQueue s.clk p q quanta ∧ d.txq (1 - p) q = s.dev.txq (1 - p) q) ∧
      d.count ⟨.ethEPauseQuanta, p, 0⟩ = s.dev.count ⟨.ethEPauseQuanta, p, 0⟩ + quanta := by
  have takes : s.dev.takesPause p = true := by simp [Dev.takesPause, is, pauseEn, pfcEn]
  have set := Dev.pauseRx_sets (k := s.clk) (p := p) queues quanta
  have other : ¬ 1 - p = p := by omega
  refine ⟨_, pauseFrameRx_pauses le is on takes lt, set.onlyEth, fun q below => ⟨?_, ?_⟩, Dev.pauseRx_quanta ctr quanta⟩
  · rw [set.reads p q below, if_pos ⟨rfl, below⟩]
  · rw [set.reads (1 - p) q below, if_neg (fun h => other h.1)]

/-- An accepted PFC frame pauses the queues of its classes (R317). -/
theorem pfcFrameRx_sets {enables : Nat} {times : List Nat} (pfcEn : x.pfcEn = true) : ∃ d : Dev,
    Does (.pfcFrameRx p enables times) s d ∧ d = { s.dev with eth := d.eth, ctr := d.ctr } ∧
    ∀ q, q < 8 → d.txq p q = s.dev.pfcQueue s.clk p enables times q := by
  have set := Dev.pfcRx_sets (k := s.clk) (p := p) queues enables times
  refine ⟨_, pfcFrameRx_pauses le is on pfcEn, set.onlyEth, fun q below => ?_⟩
  rw [set.reads p q below, if_pos ⟨rfl, below⟩]

end
end

/-- Settles O49: the checks are the lemmas of `frameReceive`, in their order; a miss is `Dev.rxDeliver_single` on the port's miss
ring, and a pause is what `QueuesSet` says of all eight queues. -/
theorem framesAreCheckedAndReceived : Obligations.FramesAreCheckedAndReceived := by
  intro s p le x is
  refine ⟨fun bs pcs fcs age => ⟨frameReceive_disabled le is, fun on => ⟨frameReceive_pcsError le is on,
        frameReceive_fcsError le is on, frameReceive_runt le is on, frameReceive_oversize le is on,
        frameReceive_addrDrop le is on⟩⟩,
    fun bs age on long fits mine => ?_,
    fun bs age on long fits mine data room ptp sync ip l4 f parsed => ?_,
    fun off typ age quanta enables times => ⟨ptpEventRx_disabled le is off, pauseFrameRx_disabled le is off,
      pfcFrameRx_disabled le is off⟩,
    fun typ age on ptp restart => ptpEventRx_restarting le is on ptp restart,
    fun typ age on ptp runs => ⟨ptpEventRx_discards le is on ptp runs,
      fun event ns time => ptpEventRx_stamps le is on ptp runs event time, ptpEventRx_counts le is on ptp runs⟩,
    fun quanta enables times on => ⟨pauseFrameRx_drops le is on, pfcFrameRx_drops le is on⟩,
    fun queues ctr on => ⟨fun quanta lt pauseEn pfcEn => ?_, fun enables times pfcEn => ?_⟩,
    fun q lt past => pauseExpiry_clears le lt past⟩
  · have passes := frameReceive_passes (age := age) le is on long fits mine
    refine ⟨fun control => by rwa [if_pos control] at passes, fun data full => ?_,
      fun data room => frameReceive_classifies le is on long fits mine data room⟩
    rwa [if_neg data, if_pos full] at passes
  · have classifies := frameReceive_classifies (age := age) le is on long fits mine data room
    have takes : Classifies s.dev p := ⟨ptp, sync, is ▸ ip, is ▸ l4⟩
    refine ⟨fun b miss rings runs bme up ring posted good whole => ?_, fun h fl cls hit drop => ?_⟩
    · obtain ⟨info, misses⟩ := Dev.frameIn_misses takes parsed age miss
      rw [misses, is] at classifies
      have nonempty : bs ≠ [] := List.ne_nil_of_length_pos (by omega)
      exact ⟨_, classifies, Dev.rxDeliver_single (d := { s.dev with freeN := s.dev.freeN + 1 }) rings runs bme up ring posted good
        nonempty whole info⟩
    · rwa [Dev.frameIn_drops takes parsed age cls hit drop] at classifies
  · subst is
    exact pauseFrameRx_sets le rfl on queues ctr lt pauseEn pfcEn
  · subst is
    obtain ⟨d, does, only, reads⟩ := pfcFrameRx_sets (enables := enables) (times := times) le rfl on queues pfcEn
    refine ⟨d, does, only, ?_⟩
    rintro q below c t rfl rfl
    exact reads q below

end Sys2Proof

/-! # Ports that send, lose their link and are switched (chapter 12)

A packet taken and a queue drained leave the ports alone, so what a port reads as follows from its one write. -/

namespace Sys2Proof.Machine
open Sys2Proof

/-! ### Ports read back, and what leaves them alone -/

theorem OnlyCarry.eth {d d' : Dev} (only : OnlyCarry d d') : d'.eth = d.eth := (congrArg Dev.eth only).trans rfl

theorem OnlyCarry.port {d d' : Dev} (only : OnlyCarry d d') (p : Nat) : d'.port p = d.port p :=
  congrArg (fun e : Eth => e.ports.get ({} : EPort) p) only.eth

section
variable {d : Dev} {k : Clock} {p : Nat}

theorem Dev.port_setPort (wf : Store.wf {} d.eth.ports = true) (p j : Nat) (x : EPort) :
    (d.setPort p x).port j = if j = p then x else d.port j := Store.get_put wf p j x

theorem Dev.port_setPort_self (wf : Store.wf {} d.eth.ports = true) (p : Nat) (x : EPort) : (d.setPort p x).port p = x :=
  (Dev.port_setPort wf p p x).trans (if_pos rfl)

theorem OnlyCarry.drainQ (k : Clock) (c : CEv) (p : Nat) (x : Nat × Nat) (n : Nat) (d : Dev) :
    OnlyCarry d (Dev.drainQ k c p x n d) := by
  induction n generalizing d with
  | zero => exact .refl d
  | succ n ih =>
    unfold Dev.drainQ
    split
    · exact ((OnlyCarry.hopTake k d _).trans (.bumpN _ _ 1)).trans (ih _)
    · exact .refl d

/-- Discarding what a port's queues hold changes no port. -/
theorem OnlyCarry.drainPort (k : Clock) (d : Dev) (p : Nat) (c : CEv) : OnlyCarry d (d.drainPort k p c) :=
  .foldl (fun _ _ => .drainQ _ _ _ _ _ _) _ d

/-! ### Sending (R309 to R314) -/

theorem Dev.laterSwitch_none (stays : d.eth.switchTo = none) : d.laterSwitch k = d := by rw [Dev.laterSwitch, stays]

/-- A port that may take a packet now: enabled, up, and with nothing in transmission; no switch waits. -/
structure Sends (k : Clock) (d : Dev) (p : Nat) : Prop where
  le : p ≤ 1
  stays : d.eth.switchTo = none
  on : (d.port p).en = true
  up : (d.port p).link = true
  idle : (d.port p).busyTo ≤ clockAbs k * 78125

section
variable (sends : Sends k d p)
include sends

theorem Dev.txSelect_none (no : (d.readsOf p).find? (fun q => d.txEligible k p q) = none) : d.txSelect k p = d := by
  obtain ⟨le, stays, on, up, idle⟩ := sends
  simp [Dev.txSelect, Dev.laterSwitch_none stays, Nat.not_lt.mpr le, on, up, Dev.txIdle, idle, no]

/-- The first queue that may go gives the port its packet. -/
theorem Dev.txSelect_takes {y : Nat × Nat} {pk : Pkt} {ws : List Word} {e : Dev}
    (first : (d.readsOf p).find? (fun q => d.txEligible k p q) = some y)
    (take : d.hopTake k (d.txq y.1 y.2).hop = (some (pk, ws), e)) : d.txSelect k p = e.txPacket k p y ws := by
  obtain ⟨le, stays, on, up, idle⟩ := sends
  simp [Dev.txSelect, Dev.laterSwitch_none stays, Nat.not_lt.mpr le, on, up, Dev.txIdle, idle, first, take]

end

/-- The first word of a RAW packet of `n` bytes that asks for no timestamp and no checksums (R313). -/
def IsRawWord (w n : Nat) : Prop := w = 2 ^ 13 + n * 2 ^ 16 ∧ n < 2 ^ 14

theorem IsRawWord.fields {w n : Nat} (raw : IsRawWord w n) : bitsOf w 0 13 = 0 ∧ bitOf w 13 = true ∧ bitOf w 14 = false ∧
    bitOf w 15 = false ∧ bitsOf w 16 14 = n ∧ bitOf w 31 = false := by
  obtain ⟨rfl, lt⟩ := raw
  simp only [bitsOf, bitOf, Nat.shiftRight_eq_div_pow, Nat.testBit_eq_decide_div_mod_eq, decide_eq_true_eq, decide_eq_false_iff_not]
  omega

/-- A RAW packet that asks for nothing is sent as it is, padded (R313). -/
theorem Dev.txPacket_raw {y : Nat × Nat} {w0 : Word} {ws : List Word} {content : List Nat}
    (raw : IsRawWord w0.toNat content.length) (whole : ws.length = (content.length + 3) / 4) (nonempty : content ≠ [])
    (bytes : (wordsBytes ws).take content.length = content) (plain : delayReqAt content (d.tpid p) = none)
    (fits : content.length + 4 ≤ (d.port p).maxFrame) (least : 64 ≤ (d.port p).maxFrame) :
    d.txPacket k p y (w0 :: 0 :: ws) = d.commitFrame k p y false (padFrame content) := by
  obtain ⟨dest, isRaw, ts, csum, length, reserved⟩ := raw.fields
  have holds : ¬ (d.port p).maxFrame < max 64 (content.length + 4) := by omega
  have words : ws.length + 1 + 1 = 2 + (content.length + 3) / 4 := by omega
  simp [Dev.txPacket, dest, isRaw, ts, csum, length, reserved, bytes, plain, holds, words, nonempty]

/-- A frame committed goes out, and its port is busy until it and its gap have left (R314). -/
theorem Dev.commitFrame_port (wf : Store.wf {} d.eth.ports = true) (y : Nat × Nat) (sec : Bool) (bs : List Nat) :
    (d.commitFrame k p y sec bs).port p = { d.port p with
      busyQ := some y.2, busySec := sec
      busyTo := clockAbs k * 78125 + txLat (d.port p).mode (bs.length + 4) + (bs.length + 16) * byteTime (d.port p).mode } :=
  Dev.port_setPort_self wf p _

/-! ### Links (R307) -/

theorem Dev.setLink_eth (d : Dev) (p : Nat) (up : Bool) :
    (d.setLink p up).eth = (d.setPort p { d.port p with link := up, good := 0 }).eth :=
  (congrArg Dev.eth (OnlyHtb.selectFreq _)).trans rfl

/-- A link's change changes the ports, the Hearth and its counters alone. -/
theorem Dev.setLink_only (d : Dev) (p : Nat) (up : Bool) :
    d.setLink p up = { d with eth := (d.setLink p up).eth, htb := (d.setLink p up).htb, ctr := (d.setLink p up).ctr } := by
  rw [Dev.setLink_eth]
  exact OnlyHtb.selectFreq _

theorem Dev.port_setLink (wf : Store.wf {} d.eth.ports = true) (p j : Nat) (up : Bool) :
    (d.setLink p up).port j = if j = p then { d.port p with link := up, good := 0 } else d.port j :=
  (congrArg (fun e : Eth => e.ports.get ({} : EPort) j) (Dev.setLink_eth d p up)).trans (Dev.port_setPort wf p j _)

end

/-! ### Lists made of triples -/

/-- The list that three items for each number below `n` make up: its length, and its items by number. -/
theorem flatMap_triples {α : Type} {f : Nat → List α} (triple : ∀ i, (f i).length = 3) (n : Nat) :
    ((List.range n).flatMap f).length = 3 * n ∧ ∀ q j, q < n → j < 3 → ((List.range n).flatMap f)[3 * q + j]? = (f q)[j]? := by
  induction n with
  | zero => exact ⟨rfl, fun q _ lt => absurd lt (Nat.not_lt_zero q)⟩
  | succ n ih =>
    obtain ⟨length, items⟩ := ih
    rw [List.range_succ, List.flatMap_append, List.flatMap_singleton]
    refine ⟨by rw [List.length_append, length, triple, Nat.mul_succ], fun q j lt few => ?_⟩
    obtain before | rfl : q < n ∨ q = n := by omega
    · rw [List.getElem?_append_left (by omega), items q j before few]
    · rw [List.getElem?_append_right (by omega), length, Nat.add_sub_cancel_left]

end Sys2Proof.Machine

namespace Sys2Proof
open Sys2Proof.Machine

/-! ### Sending -/

/-- A RAW packet of the first queue that may go leaves as a padded frame, and the port is busy until it has left. -/
theorem txSelect_sendsRaw {s : State} {p : Nat} {x : EPort} (is : s.dev.port p = x)
    (wf : Store.wf {} s.dev.eth.ports = true) (sends : Sends s.clk s.dev p) {y : Nat × Nat} {pk : Pkt}
    {w0 : Word} {ws : List Word} {content : List Nat} {d1 : Dev}
    (first : (s.dev.readsOf p).find? (fun q => s.dev.txEligible s.clk p q) = some y)
    (take : s.dev.hopTake s.clk (s.dev.txq y.1 y.2).hop = (some (pk, w0 :: 0 :: ws), d1))
    (raw : IsRawWord w0.toNat content.length) (whole : ws.length = (content.length + 3) / 4) (nonempty : content ≠ [])
    (bytes : (wordsBytes ws).take content.length = content) (plain : delayReqAt content (s.dev.tpid p) = none)
    (fits : content.length + 4 ≤ x.maxFrame) (least : 64 ≤ x.maxFrame) : ∃ d : Dev, Does (.txSelect p) s d ∧
      d.hif.sent = .frame p (padFrame content) :: d1.hif.sent ∧ d.port p = { x with
        busyQ := some y.2, busySec := false
        busyTo := clockAbs s.clk * 78125 + txLat x.mode ((padFrame content).length + 4) +
          ((padFrame content).length + 16) * byteTime x.mode } := by
  have only : OnlyCarry s.dev d1 := by
    have taken := OnlyCarry.hopTake s.clk s.dev (s.dev.txq y.1 y.2).hop
    rwa [take] at taken
  have port : d1.port p = x := (only.port p).trans is
  have tpid : d1.tpid p = s.dev.tpid p := by rw [Dev.tpid, Dev.tpid, only.port p]
  have commits : d1.txPacket s.clk p y (w0 :: 0 :: ws) = d1.commitFrame s.clk p y false (padFrame content) :=
    Dev.txPacket_raw raw whole nonempty bytes (tpid ▸ plain) (port ▸ fits) (port ▸ least)
  refine ⟨_, does_of_onDev (execTxSelect p s) rfl rfl ((Dev.txSelect_takes sends first take).trans commits), rfl, ?_⟩
  rw [Dev.commitFrame_port (only.eth ▸ wf), port]

section
variable {s : State} {o : Origin} {p : Nat} {x : EPort} (le : p ≤ 1) (is : s.dev.port p = x)
include le is

/-! ### Links lost and regained (R307) -/

section
variable (boundary : s.clk.sub = 0)
include boundary

/-- A port that loses its link discards what its queues hold, unless it is one of a pair. -/
theorem linkDown_does (up : x.link = true) (fault : x.fault = true) : Does (.linkDown p) s
    (let d := ((s.dev.setLink p false).bump1 .ethELinkDown p).event s.clk 0x0980 p 0
     if s.dev.eth.protect then d else d.drainPort s.clk p .ethEQLinkDownDrop) := by
  have protect : (s.dev.setLink p false).eth.protect = s.dev.eth.protect :=
    (congrArg Eth.protect (Dev.setLink_eth _ _ _)).trans rfl
  exact does_of_onDev (execLinkDown p s) rfl rfl (by simp [is, Nat.not_lt.mpr le, boundary, up, fault, protect])

theorem linkUp_does (down : x.link = false) (good : 8 ≤ x.good) :
    Does (.linkUp p) s ((s.dev.setLink p true).event s.clk 0x0980 p 1) :=
  does_of_onDev (execLinkUp p s) rfl rfl (by simp [is, Nat.not_lt.mpr le, boundary, down, Nat.not_lt.mpr good])

end

/-- What a change of its link leaves: the port written, the other as it was, and beside the ports the Hearth alone. -/
theorem setLink_writes (wf : Store.wf {} s.dev.eth.ports = true) (up : Bool) :
    s.dev.setLink p up = { s.dev with
      eth := (s.dev.setLink p up).eth, htb := (s.dev.setLink p up).htb, ctr := (s.dev.setLink p up).ctr } ∧
    (s.dev.setLink p up).port p = { x with link := up, good := 0 } ∧
    (s.dev.setLink p up).port (1 - p) = s.dev.port (1 - p) := by
  have other : 1 - p ≠ p := by omega
  refine ⟨Dev.setLink_only _ _ _, ?_, (Dev.port_setLink wf p _ up).trans (if_neg other)⟩
  rw [Dev.port_setLink wf, if_pos rfl, is]

/-! ### Commands of a port (R332, Table 12.7) -/

section
variable (ho : HostOk o s)
include ho

theorem portEnable_opens (free : x.lockOff = false) :
    Answers (.portEnable o p true) o 0x0902 s .ok [] (s.dev.setPort p { x with enNext := true }) :=
  answers_of_hostCmd _ ho rfl (by simp [is, Nat.not_lt.mpr le, free])

theorem portEnable_locked (locked : x.lockOff = true) : Answers (.portEnable o p true) o 0x0902 s .refusedBusy [] s.dev :=
  answers_of_hostCmd _ ho rfl (by simp [is, Nat.not_lt.mpr le, locked])

/-- A port that is disabled takes and sends no more, discards what its queues hold, and answers once it is done. -/
theorem portEnable_disables (wf : Store.wf {} s.dev.eth.ports = true) : ∃ d : Dev,
    Waits (.portEnable o p false) o 0x0902 s .portEnable p d ∧
    d.port p = { x with en := false, enNext := false, disabling := true } := by
  refine ⟨_, waits_of_hostCmd _ ho rfl ((if_neg (Nat.not_lt.mpr le)).trans (if_neg Bool.false_ne_true)), ?_⟩
  rw [(OnlyCarry.drainPort _ _ _ _).port, Dev.port_setPort_self wf, is]

/-- PORT_STATUS reads three items of each queue. -/
theorem portStatus_answers : ∃ qs : List RField, qs.length = 24 ∧ (∀ q, q < 8 →
      qs[3 * q + 1]? = some ⟨4, (s.dev.txq p q).pauseTo - clockAbs s.clk⟩ ∧
      qs[3 * q + 2]? = some ⟨4, toBits 32 (s.dev.txq p q).credit⟩) ∧
    Answers (.portStatus o p) o 0x0901 s .ok ([⟨1, x.mode⟩, ⟨1, b2n x.link⟩,
      ⟨1, b2n (!s.dev.eth.protect || s.dev.eth.active == p)⟩] ++ qs ++ [⟨4, x.rxBytes⟩]) s.dev := by
  have answers := answers_of_hostCmd (i := .portStatus o p) _ ho rfl (if_neg (Nat.not_lt.mpr le))
  rw [is] at answers
  obtain ⟨length, items⟩ := flatMap_triples (f := fun q => [(⟨1, b2n (0 < (s.dev.txq p q).pauseTo - clockAbs s.clk)⟩ : RField),
    ⟨4, (s.dev.txq p q).pauseTo - clockAbs s.clk⟩, ⟨4, toBits 32 (s.dev.txq p q).credit⟩]) (fun _ => rfl) 8
  exact ⟨_, length, fun q lt => ⟨items q 1 lt (by decide), items q 2 lt (by decide)⟩, answers⟩

end

/-! ### The end of a disable (R332) -/

theorem portDisableDone_finishes (disabling : x.disabling = true) (empty : x.rxBytes = 0)
    (idle : x.busyTo ≤ clockAbs s.clk * 78125) : Does (.portDisableDone p) s
      ((s.dev.setPort p { x with disabling := false }).finish s.clk .portEnable p .ok) :=
  does_of_onDev (execPortDisableDone p s) rfl rfl
    (by simp [is, Nat.lt_succ_of_le le, disabling, empty, Dev.txIdle, idle])

end

theorem queueCeilingSet_answers {s : State} {o : Origin} {p q rate burst : Nat} (ho : HostOk o s) (le : p ≤ 1)
    (queue : q ≤ 7) (rateLe : rate ≤ 262143) (pos : 1 ≤ burst) (burstLe : burst ≤ 4095) : Answers (.queueCeilingSet o p q rate burst) o 0x0904 s .ok []
      (s.dev.setTxq p q { s.dev.txq p q with next := some (rate, burst * 1024) }) := by
  have nonzero : burst ≠ 0 := by omega
  exact answers_of_hostCmd _ ho rfl (by
    simp [firstStatus, Nat.not_lt.mpr le, Nat.not_lt.mpr queue, Nat.not_lt.mpr rateLe, Nat.not_lt.mpr burstLe, nonzero,
      Nat.max_eq_right pos, Dev.modTxq])

theorem portCommands_unknown {s : State} {o : Origin} {m : Nat} (ho : HostOk o s) (gt : 1 < m) (en : Bool) :
    Answers (.portStatus o m) o 0x0901 s .unknownObject [] s.dev ∧
    Answers (.portEnable o m en) o 0x0902 s .unknownObject [] s.dev ∧
    Answers (.portProtectSwitch o m) o 0x0903 s .unknownObject [] s.dev :=
  ⟨answers_of_hostCmd _ ho rfl (if_pos gt), answers_of_hostCmd _ ho rfl (if_pos gt), answers_of_hostCmd _ ho rfl (if_pos gt)⟩

/-! ### The protected pair (R331) -/

section
variable {s : State} (pair : s.dev.eth.protect = true)
include pair

section
variable (boundary : s.clk.sub = 0) (lost : (s.dev.port s.dev.eth.active).link = false)
  (held : s.dev.eth.holdoff ≤ s.dev.eth.downFor) (other : (s.dev.port (1 - s.dev.eth.active)).link = true)
include boundary lost held other

/-- A frame in transmission is lost with the link. -/
theorem protectSwitch_losesFrame {q : Nat} (busy : clockAbs s.clk * 78125 < (s.dev.port s.dev.eth.active).busyTo)
    (queue : (s.dev.port s.dev.eth.active).busyQ = some q) : Does .protectSwitch s
      (((s.dev.bump ⟨.ethEQSwitchLost, s.dev.eth.active, q⟩).modPort s.dev.eth.active
        (fun x => { x with busyTo := 0 })).makeActive s.clk (1 - s.dev.eth.active) 0) :=
  does_of_onDev (execProtectSwitch s) rfl rfl
    (by simp [boundary, pair, lost, held, other, Dev.txIdle, Nat.not_le.mpr busy, queue])

theorem protectSwitch_idle (idle : (s.dev.port s.dev.eth.active).busyTo ≤ clockAbs s.clk * 78125) :
    Does .protectSwitch s (s.dev.makeActive s.clk (1 - s.dev.eth.active) 0) :=
  does_of_onDev (execProtectSwitch s) rfl rfl (by simp [boundary, pair, lost, held, other, Dev.txIdle, idle])

end

section
variable (revert : s.dev.eth.revert = true) (second : s.dev.eth.active = 1) (back : (s.dev.port 0).link = true)
  (waited : s.dev.eth.wtr * 8000 ≤ s.dev.eth.upFor)
include revert second back waited

theorem protectRevert_busy (busy : clockAbs s.clk * 78125 < (s.dev.port 1).busyTo) :
    Does .protectRevert s { s.dev with eth := { s.dev.eth with switchTo := some (0, 1) } } :=
  does_of_onDev (execProtectRevert s) rfl rfl
    (by simp [pair, revert, second, back, waited, Dev.txIdle, Nat.not_le.mpr busy, Dev.setEth])

theorem protectRevert_idle (idle : (s.dev.port 1).busyTo ≤ clockAbs s.clk * 78125) :
    Does .protectRevert s (s.dev.makeActive s.clk 0 1) :=
  does_of_onDev (execProtectRevert s) rfl rfl (by simp [pair, revert, second, back, waited, Dev.txIdle, idle])

end

section
variable {o : Origin} {p : Nat} (ho : HostOk o s) (le : p ≤ 1) (up : (s.dev.port p).link = true) (new : p ≠ s.dev.eth.active)
include ho le up new

theorem portProtectSwitch_idle (idle : (s.dev.port s.dev.eth.active).busyTo ≤ clockAbs s.clk * 78125) :
    Answers (.portProtectSwitch o p) o 0x0903 s .ok [] (s.dev.makeActive s.clk p 2) :=
  answers_of_hostCmd _ ho rfl (by simp [Nat.not_lt.mpr le, pair, up, new, Dev.txIdle, idle])

theorem portProtectSwitch_busy (busy : clockAbs s.clk * 78125 < (s.dev.port s.dev.eth.active).busyTo) :
    Answers (.portProtectSwitch o p) o 0x0903 s .ok [] { s.dev with eth := { s.dev.eth with switchTo := some (p, 2) } } :=
  answers_of_hostCmd _ ho rfl (by simp [Nat.not_lt.mpr le, pair, up, new, Dev.txIdle, Nat.not_le.mpr busy, Dev.setEth])

end
end

/-- Settles O50: sending, the links, the protected pair and the commands are the lemmas above, in the statement's order; only a
RAW packet's frame and what a link's change writes are read back. -/
theorem portsSendAndSwitch : Obligations.PortsSendAndSwitch := by
  intro s o p ho le wf x is
  have sends (stays : s.dev.eth.switchTo = none) (on : x.en = true) (up : x.link = true)
      (idle : x.busyTo ≤ clockAbs s.clk * 78125) : Sends s.clk s.dev p := ⟨le, stays, is ▸ on, is ▸ up, is ▸ idle⟩
  refine ⟨fun stays on up idle => ⟨fun no => ?_, fun y pk ws d1 first take => ?_⟩,
    fun y pk w0 ws content d1 stays on up idle first take word lt whole nonempty bytes plain fits least =>
      txSelect_sendsRaw is wf (sends stays on up idle) first take ⟨word, lt⟩ whole nonempty bytes plain fits least,
    fun up fault boundary => ⟨s.dev.setLink p false, fun pair => ?_, fun single => ?_, setLink_writes le is wf false⟩,
    fun down good boundary => ⟨_, linkUp_does le is boundary down good, setLink_writes le is wf true⟩, ?_,
    portEnable_opens le is ho, portEnable_locked le is ho, portEnable_disables le is ho wf, portDisableDone_finishes le is,
    fun disabling empty idle waits => ?_,
    fun q rate burst queue rateLe pos burstLe => queueCeilingSet_answers ho le queue rateLe pos burstLe,
    portStatus_answers le is ho, fun m en gt => portCommands_unknown ho gt en⟩
  · exact does_of_onDev (execTxSelect p s) rfl rfl (Dev.txSelect_none (sends stays on up idle) no)
  · exact does_of_onDev (execTxSelect p s) rfl rfl (Dev.txSelect_takes (sends stays on up idle) first take)
  · have does := linkDown_does le is boundary up fault
    rwa [if_pos pair] at does
  · have does := linkDown_does le is boundary up fault
    rwa [if_neg (by simp [single])] at does
  · subst is
    rintro e rfl pair
    exact ⟨fun boundary lost held other => ⟨fun q busy queue => protectSwitch_losesFrame pair boundary lost held other busy queue,
        protectSwitch_idle pair boundary lost held other⟩,
      fun revert second back waited busy => protectRevert_busy pair revert second back waited busy,
      fun revert second back waited idle => protectRevert_idle pair revert second back waited idle,
      fun up new idle => portProtectSwitch_idle pair ho le up new idle,
      fun up new busy => portProtectSwitch_busy pair ho le up new busy⟩
  · have done := portDisableDone_finishes le is disabling empty idle
    rwa [Dev.finish_single (d := s.dev.setPort p { x with disabling := false }) waits] at done

end Sys2Proof

/-! # The steps of the block

What every command keeps is said once, of the operations that its meaning is written with (`onDev`, `hostCmd`, `onMem`, `atSub`,
`kilnJob`), and of what each operation on the memories leaves of their canonical form. The statements about the queue, the
invariant and the time are read off it. -/

namespace Sys2Proof
open Sys2Proof.Machine

/-! ### The lock, in two parts -/

/-- What the lock does once the images stand in the tiles' memories (R375). -/
def lockEnds (k : Clock) (w : Mems × Dev) : Mems × Dev :=
  let d := w.2.setHif { w.2.hif with locked := true, setupOpen := false, lockErr := 0, lockWait := false,
                                     fetchAt := some (clockAbs k + 1) }
  (w.1, (d.startLanes k).dumpReady k)

theorem lockDevice_eq (k : Clock) (m : Mems) (d : Dev) : lockDevice k m d = lockEnds k
    (loadTiles m d.lockHop.lockHtb.lockTil.lockSch.lockFce.lockOll.lockEth.lockHif.lockTmp.lockCal.lockDram) := rfl

theorem lockEnds_mem (k : Clock) (w : Mems × Dev) : (lockEnds k w).1 = w.1 := rfl

/-! ### The canonical form of the memories, operation by operation -/

section
variable {m : Mems} {d : Dev} {k : Clock} (w : m.wf)
include w

theorem wf_clearObjects (e : Nat) : (m.clearObjects e).wf := by
  obtain ⟨dm, pm, dram⟩ := w
  unfold Mems.clearObjects
  split
  · exact ⟨dm, pm, Store.wf_clear dram⟩
  · exact ⟨dm, pm, dram⟩

theorem wf_clearTiles : ({ m with dm := [] } : Mems).wf := ⟨rfl, w.2⟩

theorem wf_clearDram : ({ m with dram := [] } : Mems).wf := ⟨w.1, w.2.1, rfl⟩

/-- The data images of a tile are written one after another (R147). -/
theorem wf_foldl_dmPut (p : Nat) (l : List (Nat × List Byte)) :
    (l.foldl (fun (m : Mems) (g : Nat × List Byte) => m.dmPut p g.1 g.2) m).wf := by
  induction l generalizing m with
  | nil => exact w
  | cons g r ih => exact ih (wf_dmPut w)

/-! The DRAM controller (R431 to R446). -/

theorem spoilReq_wf (q : DReq) (ecc : Nat) : (spoilReq q ecc m d).1.wf := by
  unfold spoilReq
  split
  · exact wf_dramPut w
  · exact w

theorem serveReq_wf (q : DReq) (ecc : Nat) : (serveReq k q ecc m d).1.wf := by
  have spoiled := spoilReq_wf (d := d) w q ecc
  unfold serveReq
  dsimp only
  cases q.kind with
  | read => exact spoiled
  | scrub => exact spoiled
  | write data =>
    dsimp only
    split
    · exact wf_dramPut spoiled
    · split
      · exact wf_dramPut spoiled
      · split <;> exact wf_dramPut spoiled
  | copyRead => dsimp only; split <;> exact spoiled
  | copyWrite => dsimp only; split <;> exact spoiled

theorem channelTurn_wf (ch ecc : Nat) : (channelTurn k ch ecc m d).1.wf := by
  unfold channelTurn
  dsimp only
  split
  · exact w
  · split
    · exact w
    · split
      · exact serveReq_wf w _ _
      · exact w

/-! The tiles: descriptors that end, unit operations, stores, and the close of a bundle (R172, R180). -/

theorem dmaResult_wf (t p a : Nat) (de : Desc) (st : Status) (idle : Bool) (count : Nat) :
    (dmaResult k t p a de st idle count m d).1.wf := wf_dmWrite w

theorem dmaCut_wf (t p : Nat) (l : List Nat) : (dmaCut k t p l m d).1.wf := by
  induction l generalizing m d with
  | nil => exact w
  | cons a r ih => exact ih (dmaResult_wf w ..)

theorem dmaAbort_wf (t p c : Nat) : (dmaAbort k t p c m d).1.wf := by
  unfold dmaAbort
  dsimp only
  split
  · exact w
  · exact dmaCut_wf w ..

theorem unitOp_wf (t p : Nat) (u : UnitOp) : (unitOp k t p m d u).1.wf := by
  cases u with
  | dmaabort xd c => exact dmaAbort_wf w ..
  | flagtake xd mask => unfold unitOp; dsimp only; split <;> exact w
  | hget xd h ecc => unfold unitOp; dsimp only; split <;> exact w
  | _ => exact w

theorem doStores_wf (p : Nat) (l : List TStore) : (doStores p l m d).1.wf := by
  induction l generalizing m d with
  | nil => exact w
  | cons s r ih => exact ih (wf_dmWrite w)

theorem closeBundle_wf (t p : Nat) : (closeBundle k t p m d).1.wf := by
  unfold closeBundle
  split
  · exact w
  · split
    · exact w
    · refine doStores_wf ?_ _ _
      split
      · exact unitOp_wf w ..
      · exact w

theorem tileOp_wf (sl : Slot) (f : OpCtx → Bundle → Bundle) : (tileOp sl f k m d).1.wf := by
  unfold tileOp
  split
  · exact w
  · split
    · dsimp only
      split
      · exact closeBundle_wf w ..
      · split
        · exact closeBundle_wf w ..
        · exact w
    · exact w

/-! The tiles' DMA engines (R170 to R175). -/

theorem dmaPut_wf (p a : Nat) (bs : List Byte) : (dmaPut p a bs m d).1.wf := wf_dmPut w

theorem dmaRequest_wf (port a n : Nat) (data : Option (List Byte)) (ecc : Nat) :
    (dmaRequest k port a n data ecc m d).2.2.1.wf := by
  unfold dmaRequest
  dsimp only
  split
  · exact w
  · exact serveReq_wf w ..

theorem movePart_wf (t p u q : Nat) (run : DmaRun) (ces ues : List Nat) (ecc j o n : Nat) :
    (movePart k t p u q run ces ues ecc j o n m d).2.1.wf := by
  unfold movePart
  dsimp only
  split
  · exact dmaPut_wf (dmaRequest_wf w ..) ..
  · exact dmaRequest_wf w ..
  all_goals exact dmaPut_wf w ..

theorem moveOn_wf (t p u q goal : Nat) (poison : Option Nat) (ces ues : List Nat) (f : Nat) (run : DmaRun) :
    (moveOn k t p u q goal poison ces ues f run m d).2.1.wf := by
  induction f generalizing run m d with
  | zero => exact w
  | succ f ih =>
    unfold moveOn
    split
    · exact w
    · dsimp only
      split
      · exact w
      · exact ih (movePart_wf w ..) _

theorem dmaHopRead_wf (p : Nat) (e : Desc) (ces ues : List Nat) : (dmaHopRead p e ces ues m d).2.1.wf := by
  unfold dmaHopRead
  split
  · exact w
  · split
    · exact dmaPut_wf w ..
    · split
      · exact w
      · exact dmaPut_wf w ..

theorem dmaEnd_wf (t p c : Nat) (run : DmaRun) (st : Status) (idle : Bool) (count : Nat) :
    (dmaEnd k t p c run st idle count m d).1.wf := dmaCut_wf (dmaResult_wf w ..) ..

theorem dmaMove_wf (t p c moved : Nat) (poison : Option Nat) (ces ues : List Nat) (run : DmaRun) :
    (dmaMove k t p c moved poison ces ues run m d).1.wf := by
  unfold dmaMove
  extract_lets e total goal far u
  split
  · exact dmaEnd_wf w ..
  · extract_lets moved
    have moves : moved.2.1.wf := moveOn_wf w ..
    split
    · exact dmaEnd_wf moves ..
    · split
      · exact moves
      · split <;> exact dmaEnd_wf moves ..

theorem dmaComplete_wf (t p c moved : Nat) (poison : Option Nat) (ces ues : List Nat) :
    (dmaComplete k t p c moved poison ces ues m d).1.wf := by
  unfold dmaComplete
  split
  · exact w
  · dsimp only
    split
    · exact w
    · split
      · exact dmaEnd_wf w ..
      · split
        · split
          · exact dmaEnd_wf w ..
          · exact dmaEnd_wf (dmaHopRead_wf w ..) ..
        · split
          · exact dmaEnd_wf w ..
          · exact dmaMove_wf w ..

/-! Tamper, the dump, the repair of tiles, the lock and the start. -/

theorem tmpWrite_wf (j : TmpJob) (bs : List Nat) : (tmpWrite m d j bs).1.wf := by
  unfold tmpWrite
  split
  · exact w
  · split
    · exact w
    · exact wf_dramPut w

theorem tmpUnpackEnd_wf (j : TmpJob) : (tmpUnpackEnd k m d j).1.wf := by
  unfold tmpUnpackEnd
  dsimp only
  split
  · exact w
  · split
    · exact w
    · split
      · exact tmpWrite_wf w ..
      · split <;> exact tmpWrite_wf w ..

theorem ashPut_wf (off : Nat) (bs : List Nat) : (ashPut m d off bs).1.wf := by
  unfold ashPut
  split
  · exact wf_dramPut w
  · exact w

theorem ashPuts_wf (l : List (Nat × Nat × List Nat)) :
    (l.foldl (fun (w : Mems × Dev) (x : Nat × Nat × List Nat) => ashPut w.1 w.2 (2 ^ 20 + x.2.1) x.2.2) (m, d)).1.wf := by
  induction l generalizing m d with
  | nil => exact w
  | cons x r ih => exact ih (ashPut_wf w ..)

theorem testEnd_wf (p : Nat) (asked pass : Bool) (pm dm : List (Nat × Nat)) : (d.testEnd k m p asked pass pm dm).1.wf := by
  unfold Dev.testEnd
  dsimp only
  split
  · exact wf_loadPm (wf_clearDm w)
  · exact w

theorem loadTile_wf (t : Nat) : (loadTile t (m, d)).1.wf := by
  unfold loadTile
  split
  · exact w
  next p _ =>
    extract_lets image loaded filled e
    have clean : loaded.wf := wf_loadPm (wf_clearDm w)
    exact wf_foldl_dmPut clean p image.data

theorem foldl_loadTile_wf (l : List Nat) : (l.foldl (fun (w : Mems × Dev) t => loadTile t w) (m, d)).1.wf := by
  induction l generalizing m d with
  | nil => exact w
  | cons t r ih => exact ih (loadTile_wf w t)

theorem loadTiles_wf : (loadTiles m d).1.wf := by
  have loads := foldl_loadTile_wf (d := d) w (List.range 32)
  unfold loadTiles
  dsimp only
  exact loads

theorem lockDevice_wf : (lockDevice k m d).1.wf := by
  rw [lockDevice_eq, lockEnds_mem]
  exact loadTiles_wf w

theorem weighLock_wf : (weighLock k m d).1.wf := by
  unfold weighLock
  dsimp only
  split
  · exact lockDevice_wf w
  · exact w

theorem writeLock_wf (v : Word) : (writeLock k v m d).1.wf := by
  unfold writeLock
  split
  · exact w
  · split
    · exact w
    · split
      · exact w
      · split
        · exact w
        · exact weighLock_wf w

theorem startUnits_wf (f : StartFind) : (startUnits k f m d).2.1.wf := by
  unfold startUnits
  split
  · exact w
  · exact wf_clearDram w

theorem firmwareRuns_wf : (firmwareRuns k m d).1.wf := by
  unfold firmwareRuns
  dsimp only
  split
  · exact weighLock_wf w
  · exact w

theorem startStep_wf (n : Nat) (f : StartFind) : (startStep k n f m d).1.wf := by
  unfold startStep
  split
  · exact w
  · split
    · split <;> exact w
    · split
      · exact w
      · split
        · exact w
        · split
          · split <;> exact w
          · split
            · exact w
            · split
              · exact startUnits_wf w f
              · split
                · exact w
                · split
                  · dsimp only
                    split
                    · exact firmwareRuns_wf w
                    · exact w
                  · exact w

end

/-! ### What a step keeps -/

/-- `t` comes after `s`: the queue is as it was, the memories keep their canonical form, the sub-tick its range. -/
structure Follows (s t : State) : Prop where
  queue : t.pending = s.pending
  mems : s.mem.wf → t.mem.wf
  clock : ClockOk s → ClockOk t

/-- The tick is as it was, and the sub-tick not moved back. -/
def SameTick (s t : State) : Prop := t.clk.tick = s.clk.tick ∧ s.clk.sub ≤ t.clk.sub

/-- A command's outcome is a next state, which comes after `s` in the same tick. -/
def GoesOn (s : State) (out : Out) : Prop := ∃ t, out = .next t ∧ Follows s t ∧ SameTick s t

section
variable {s : State}

theorem Follows.refl (s : State) : Follows s s := ⟨rfl, id, id⟩

theorem GoesOn.stays (s : State) : GoesOn s (.next s) := ⟨s, rfl, .refl s, rfl, le_rfl⟩

theorem GoesOn.onDev (f : Clock → Dev → Dev) : GoesOn s (onDev f s) := ⟨_, onDev_next f s, ⟨rfl, id, id⟩, rfl, le_rfl⟩

theorem GoesOn.onMem {f : Clock → Mems → Dev → Mems × Dev} (keeps : ∀ k m d, m.wf → (f k m d).1.wf) : GoesOn s (onMem f s) :=
  ⟨_, onMem_next f s, ⟨rfl, keeps _ _ _, id⟩, rfl, le_rfl⟩

theorem GoesOn.hostCmd (o : Origin) (opc : Nat) (f : Clock → Dev → Reply × Dev) : GoesOn s (hostCmd o opc f s) := by
  obtain ⟨d, is⟩ := hostCmd_next o opc f s
  exact ⟨_, is, ⟨rfl, id, id⟩, rfl, le_rfl⟩

/-- A host command that reaches the memories, and keeps their form. -/
theorem GoesOn.hostMem (o : Origin) (opc : Nat) {f : Clock → Mems → Dev → Reply × Mems × Dev}
    (keeps : ∀ k m d, m.wf → (f k m d).2.1.wf) : GoesOn s (hostMem o opc f s) := by
  unfold Machine.hostMem
  split
  · exact .stays s
  · split
    · exact .onDev _
    · exact .onMem fun k m d w => keeps k m d w

/-- A command at its sub-tick (log entry 14): the clock has moved forward to it, and has not left the tick. -/
theorem GoesOn.atSub (n : Nat) (f : Clock → Dev → Dev) : GoesOn s (atSub n (Machine.onDev f) s) := by
  unfold Machine.atSub
  split
  case isTrue h => exact ⟨_, rfl, ⟨rfl, id, fun _ => h.2⟩, rfl, h.1⟩
  case isFalse => exact .stays s

/-- A request of a tile's, whose operation keeps the form of the memories (R361). -/
theorem GoesOn.kilnJob (op : Nat) {f : Clock → Mems → Dev → List Word → Status × List Word × Mems × Dev}
    (keeps : ∀ k m d args, m.wf → (f k m d args).2.2.1.wf) : GoesOn s (kilnJob op f s) := by
  refine .onMem fun k m d w => ?_
  split
  · exact w
  · extract_lets words opc taken
    split
    · exact w
    · match words with
      | w0 :: w1 :: args =>
        dsimp only
        split
        · exact w
        · exact keeps _ _ _ _ w
      | [] | [_] => exact w

theorem GoesOn.counterSnapshot (o : Origin) (zeros : Bool) (pre : List Nat) : GoesOn s (execCounterSnapshot o zeros pre s) := by
  unfold execCounterSnapshot
  split
  · exact .stays s
  · exact .onDev _

/-! ### The commands that reach the memories -/

theorem GoesOn.dataMemoryClearDone (p : Nat) : GoesOn s (execDataMemoryClearDone p s) := by
  refine .onMem fun k m d w => ?_
  split
  · exact wf_clearDm w
  · exact w

theorem GoesOn.dmaDescStart (t : Nat) (c : ChanRead) : GoesOn s (execDmaDescStart t c s) := by
  refine .onMem fun k m d w => ?_
  split
  · split <;> exact w
  · exact w

theorem GoesOn.dmaDescComplete (t c moved : Nat) (poison : Option Nat) (ces ues : List Nat) :
    GoesOn s (execDmaDescComplete t c moved poison ces ues s) := by
  refine .onMem fun k m d w => ?_
  split
  · split
    · exact dmaComplete_wf w ..
    · exact w
  · exact w

theorem GoesOn.bar0Write (a : Nat) (v : Word) (good : Bool) : GoesOn s (execBar0Write a v good s) := by
  refine .onMem fun k m d w => ?_
  split
  · exact w
  · split
    · exact w
    · split
      · exact w
      · split
        · exact w
        · split
          · exact writeLock_wf w v
          · exact w

theorem GoesOn.tamperJobTurn (host : List Nat) : GoesOn s (execTamperJobTurn host s) := by
  refine .onMem fun k m d w => ?_
  split
  · exact w
  · extract_lets n a
    split <;> exact w

theorem GoesOn.tamperJobDone (id : Nat) : GoesOn s (execTamperJobDone id s) := by
  refine .onMem fun k m d w => ?_
  split
  · exact w
  · split
    · split
      · exact w
      · exact tmpWrite_wf w ..
    · exact tmpUnpackEnd_wf w _

theorem GoesOn.dramTransaction (ch ecc : Nat) : GoesOn s (execDramTransaction ch ecc s) := by
  refine .onMem fun k m d w => ?_
  split
  · exact channelTurn_wf w ..
  · exact w

theorem GoesOn.evacBoundary : GoesOn s (execEvacBoundary s) := by
  refine .onMem fun k m d w => ?_
  split
  · exact w
  · split
    · exact w
    · exact wf_loadPm w

theorem GoesOn.evacComplete : GoesOn s (execEvacComplete s) := by
  refine .onMem fun k m d w => ?_
  split
  · exact w
  · split
    · exact w
    · split
      · exact w
      · exact wf_copyDm w

theorem GoesOn.vacatedSelfTestDone (p : Nat) (pass : Bool) (pm dm : List (Nat × Nat)) :
    GoesOn s (execVacatedSelfTestDone p pass pm dm s) := by
  refine .onMem fun k m d w => ?_
  split
  · exact w
  · split
    · exact w
    · exact testEnd_wf w ..

theorem GoesOn.ashCaptureDone (secs : List (Nat × List Nat)) (all : Bool) : GoesOn s (execAshCaptureDone secs all s) := by
  refine .onMem fun k m d w => ?_
  split
  · exact w
  · extract_lets q found full head put d'
    have puts : put.1.wf := ashPuts_wf (ashPut_wf w ..) _
    split <;> exact puts

theorem GoesOn.ashPackDone : GoesOn s (execAshPackDone s) := by
  refine .onMem fun k m d w => ?_
  extract_lets busy
  split
  · exact w
  · split
    · exact w
    · exact ashPut_wf w ..

theorem GoesOn.tileFill (o : Origin) (t : Nat) : GoesOn s (execTileFill o t s) := by
  refine .hostMem _ _ fun k m d w => ?_
  extract_lets st
  split
  · exact wf_loadPm (wf_clearDm w)
  · exact w

theorem GoesOn.random : GoesOn s (execRandom s) := by
  refine .kilnJob _ fun k m d args w => ?_
  split
  · split <;> exact w
  · exact w

theorem GoesOn.exportOpen : GoesOn s (execExportOpen s) := by
  refine .kilnJob _ fun k m d args w => ?_
  split
  · split
    · exact w
    · split
      · exact w
      · split
        · exact w
        · exact wf_dramPut w
  · exact w

theorem GoesOn.exportWrite : GoesOn s (execExportWrite s) := by
  refine .kilnJob _ fun k m d args w => ?_
  split
  · extract_lets n last
    split
    · exact w
    · split
      · exact w
      · split
        · exact w
        · split
          · exact w
          · split
            · exact w
            · exact wf_dramPut w
  · exact w

theorem GoesOn.exportClose : GoesOn s (execExportClose s) := by
  refine .kilnJob _ fun k m d args w => ?_
  split
  · split
    · exact w
    · split
      · exact w
      · split
        · exact w
        · exact wf_dramPut w
  · exact w

end

/-! ### Every command -/

/-- The four commands that set the tick or the sub-tick (R32, R48, R452). -/
def setsTick : Instr → Bool
  | .powerOn | .internalResetEnd _ | .tick .. | .timeStep => true
  | _ => false

/-- Every other command goes on in the tick it finds: it changes the device alone, the device at its sub-tick, or the memories by one
of the operations above. -/
theorem exec_goesOn (i : Instr) (s : State) (rests : setsTick i = false) : GoesOn s (exec i s) := by
  unfold exec
  cases i
  case powerOn | internalResetEnd | tick | timeStep => cases rests
  case rstNAssert | supplyFault | controlRestart | controlRestartDone | pfwAssert | pfwRelease | perstAssert | pcieHotReset |
      pcieConfigWrite | frameBoundary | windowClose | refRecover | ppsInEdge | ptpEventRx | esmcRx | servoUpdate |
      sourceLossTimeout | holdoverLimit | downstreamFrameTx | laneCmdPacket | upstreamFrame | telemetryPacket |
      turnaroundMiss | losAssert | losRelease | trainTimeout | holdoffEnd | trainingWaveStart | relockTimeout |
      lineCmdTimeout | stateAckTimeout | mailboxTimeout | laneDisableEnd | loopbackEnd | retrainBegin | fceCmdPacket |
      sensorConvert | sensorUpdate | laneScanStart | laneScanEnd | laneCalApplyStep | rankRecalMeasure | rankRecalApplyStep |
      recordInterval | calRecordWriteDone | entry | flagSet | schCmdPacket | burstStart | burstEnd | hopperDestroyEnd |
      lineFrameProcess | onHookTimeout | lineChannelDestroyEnd | rtpReceive | pktFrameProcess | rtcpReport | rtcpReceive |
      mediaTimeout | bridgeMix | pktChannelDestroyEnd | bridgeDestroyEnd | frameReceive | pauseFrameRx | pfcFrameRx |
      pauseExpiry | txSelect | linkDown | linkUp | protectSwitch | protectRevert | portDisableDone | flowDeleteDone |
      challengeExpiry | dtlsRetransmitDue | dtlsSessionTimeout | dtlsLingerEnd | debugTicksExpiry | tamperTrip |
      entropyTestFail | entropyRetestDone | sealedBar0Access | msixModerationExpiry | tamperJobPacket | tamperDisableTimeout |
      dramRequest | requestLate | refreshAccrue | mr4Poll | powerDownEntry | scrubQueue | rankRetireStart | migSpareTrained |
      migrationFlip | spareTestDone | watchdogExpiry | lockstepMismatch | ctrlSramUe | avsStep | announceReceiptTimeout |
      commaFound | perstDeassert | imageSlotWriteDone | kilnIntegrityFault | tamperNPulseEnd | vddAonLoss =>
    exact .onDev _
  case alarmFire | latchPoint | streamSlot | filterBoundaryApply | doorbellFetch => exact .atSub _ _
  case hearthStatus | setTimeOfDay | sourceEnable | forceHoldover | alarmArm | alarmDisarm | alarmRead | stepPolicy |
      laneEnable | laneStatus | laneRetrain | laneLoopback | lineActivate | lineSetState | lineCommand | lineActionWrite |
      reflexWrite | mailboxSend | laneExpect | lineRead | filterStreamConfig | filterCoefWrite | filterCoefRead |
      filterBankSelect | filterStart | filterStop | filterStopSwapStart | filterRamp | filterDetectorSet | filterActionWrite |
      filterProtoWrite | filterStatus | calStatus | calRun | calPin | calSet | calSave | calRecordRead | tileStatus |
      tileMapRead | tileRowStatus | groupConfig | groupStatus | threadConfig | threadStart | threadSignal | threadCancel |
      threadRead | schedTileStatus | hopperCreate | hopperDestroy | hopperFlush | hopperSwap | hopperMode | hopperStatus |
      lineChannelCreate | lineCadenceSet | lineCptSet | pktChannelCreate | pktModeSet | bridgeCreate | portStatus |
      portEnable | portProtectSwitch | queueCeilingSet | destWrite | destClear | destRead | flowAdd | flowDelete | flowModify |
      flowRead | flowLookup | flowTableStatus | kilnStatus | identityRead | challenge | ownerStatement | attest | ctxAlloc |
      ctxFree | ctxLink | ctxResetRx | ctxStatus | sealedImport | importKeyInfo | certInfo | certRenew | dtlsOpen | dtlsFeed |
      dtlsPoll | dtlsClose | imageVerify | rollbackAdvance | debugUnlock | debugLock | kilnJobConfig | ringCreate |
      ringDestroy | ringStatus | sysInfo | echo | tamperJob | tamperStatus | tamperEnable | dramStatus | dramPortSet |
      dramRetire | dramMigrateAbort | dramSpareTest | dramScrubSet | dramErrorLog | tileEvacuate | tileSpareTest |
      servicePolicy | imageSlotWrite | ctrlFwSwitch | sysRestart | dumpStatus | dumpOffer | dumpDiscard | fatalLogRead |
      sramRowStatus | lineChannelDestroy | lineChannelModify | lineChannelStatus | lineRing | lineRingStop | lineFeed |
      linePolarity | lineMeter | lineCidSend | lineTonePlay | lineToneStop | lineHybChar | lineEqSet | pktChannelDestroy |
      pktChannelModify | pktChannelStatus | pktEventSend | bridgeDestroy | bridgeLegAdd | bridgeLegRemove | bridgeLegModify |
      bridgeStatus =>
    exact .hostCmd _ _ _
  case mnop | mac1 | qcoef | qsamp | dot4 | cmplx | cmplxc | widess | wideus | widesu | accadd | accneg | accshi | accshx |
      accld | accldh | ext16 | ext32 | extg | expa | exph | norm | expmaxa | expmaxh | accz | dnop | ldhL | ldhH | ldhs | ldw |
      ldd | sthL | sthH | stw | std | lda | sta | lea | nop | add | sub | and | or | xor | shl | shr | shru | cmp | addi |
      movi | cmpi | shli | shri | shrui | movr | padd | movc | bcc | brx | rep | endrep | resume | idle | signal | wait |
      yield | texit | flagtake | time | almarm | almdis | hput | hcommit | habort | hget | hnext | hmark | hrewind | hrelease |
      dmapost | dmaabort | dmaq | lmovi | lmova | lmovn | lbcc | lcall | repi | signali =>
    exact .onMem fun _ _ _ w => tileOp_wf w _ _
  case counterSnapshot => exact .counterSnapshot ..
  case dataMemoryClearDone => exact .dataMemoryClearDone ..
  case dmaDescStart => exact .dmaDescStart ..
  case dmaDescComplete => exact .dmaDescComplete ..
  case bar0Write => exact .bar0Write ..
  case sysSetupLock v => exact .onMem fun _ _ _ w => writeLock_wf w v
  case tamperJobTurn => exact .tamperJobTurn ..
  case tamperJobDone => exact .tamperJobDone ..
  case dramTransaction => exact .dramTransaction ..
  case evacBoundary => exact .evacBoundary
  case evacComplete => exact .evacComplete
  case vacatedSelfTestDone => exact .vacatedSelfTestDone ..
  case ashCaptureDone => exact .ashCaptureDone ..
  case ashPackDone => exact .ashPackDone
  case startStepEnd n f => exact .onMem fun _ _ _ w => startStep_wf w n f
  case random => exact .random
  case exportOpen => exact .exportOpen
  case exportWrite => exact .exportWrite
  case exportClose => exact .exportClose
  case tileFill => exact .tileFill ..

theorem coldStart_follows (cause : Nat) (s : State) : Follows s (coldStart cause s) :=
  ⟨rfl, fun _ => reset_mems_wf, fun _ => (by decide : 0 < 3072)⟩

theorem warmStart_follows (cause : Nat) (s : State) : Follows s (warmStart cause s) :=
  ⟨rfl, fun w => wf_clearObjects (wf_clearTiles w) _, id⟩

/-- The four commands that set the time. -/
theorem exec_setsTick (i : Instr) (s : State) (sets : setsTick i = true) : ∃ t, exec i s = .next t ∧ Follows s t := by
  cases i
  case powerOn => exact ⟨_, rfl, coldStart_follows 0 s⟩
  case internalResetEnd ember =>
    show ∃ t, execInternalResetEnd ember s = .next t ∧ Follows s t
    unfold execInternalResetEnd
    split
    · exact ⟨s, rfl, .refl s⟩
    · refine ⟨_, rfl, ?_⟩
      split
      · exact coldStart_follows 1 s
      · split
        · exact coldStart_follows 9 s
        · split
          · exact coldStart_follows _ s
          · split
            · exact coldStart_follows 7 s
            · exact warmStart_follows _ s
  case tick a b f0 f1 sv ce =>
    show ∃ t, execTick a b f0 f1 sv ce s = .next t ∧ Follows s t
    unfold execTick
    split
    · exact ⟨_, rfl, rfl, id, fun _ => (by decide : 0 < 3072)⟩
    · exact ⟨s, rfl, .refl s⟩
  case timeStep =>
    show ∃ t, execTimeStep s = .next t ∧ Follows s t
    unfold execTimeStep
    split
    · exact ⟨s, rfl, .refl s⟩
    · split
      · exact ⟨s, rfl, .refl s⟩
      · exact ⟨_, rfl, rfl, id, id⟩
  all_goals cases sets

/-- Every command answers a next state, which comes after the state before. -/
theorem exec_follows (i : Instr) (s : State) : ∃ t, exec i s = .next t ∧ Follows s t := by
  cases sets : setsTick i
  case true => exact exec_setsTick i s sets
  case false =>
    obtain ⟨t, next, follows, _⟩ := exec_goesOn i s sets
    exact ⟨t, next, follows⟩

theorem idleStep_follows (s : State) : Follows s (idleStep s) := by
  refine ⟨rfl, id, fun (lt : s.clk.sub < 3072) => ?_⟩
  show (if s.clk.sub < 3071 then s.clk.sub + 1 else s.clk.sub) < 3072
  split <;> omega

/-! ### The obligations -/

/-- Settles O1. -/
theorem stepRunsFrontCommand : Obligations.StepRunsFrontCommand := fun _ _ _ => rfl

/-- Settles O2: the two sides of the branch in `idleStep`. -/
theorem idleStepMovesSubTick : Obligations.IdleStepMovesSubTick := by
  intro s empty
  have idles : step s = .next (idleStep s) := by simp only [step, empty]
  refine ⟨fun before => ?_, fun last => ?_⟩
  · rw [idles, idleStep, if_pos before]
  · rw [idles, idleStep, if_neg (by omega)]

/-- Settles O4. -/
theorem resetMeetsInvariant : Obligations.ResetMeetsInvariant := ⟨(by decide : 0 < 3072), reset_mems_wf⟩

/-- Settles O3: every command goes on (`exec_follows`), and `Follows` keeps the queue. -/
theorem everyCommandGoesOn : Obligations.EveryCommandGoesOn := by
  intro i s
  obtain ⟨t, next, follows⟩ := exec_follows i s
  exact ⟨t, next, follows.queue⟩

/-- Settles O5: a step is the command in front, or the idle step, and each keeps the range of the sub-tick and the form of the
memories (`Follows`). -/
theorem stepKeepsInvariant : Obligations.StepKeepsInvariant := by
  rintro s t ⟨clock, mems⟩ steps
  unfold step at steps
  cases front : s.pending with
  | nil =>
    rw [front] at steps
    cases steps
    have follows := idleStep_follows s
    exact ⟨follows.clock clock, follows.mems mems⟩
  | cons c r =>
    rw [front] at steps
    obtain ⟨u, next, follows⟩ := exec_follows c { s with pending := r }
    cases next.symm.trans steps
    exact ⟨follows.clock clock, follows.mems mems⟩

/-- Settles O6: a command that is none of the four keeps the tick (`exec_goesOn`). -/
theorem timeMovesForwardOnly : Obligations.TimeMovesForwardOnly := by
  intro i s t next notTick notStep notOn notReset
  have rests : setsTick i = false := by
    unfold setsTick
    split
    · exact absurd rfl notOn
    · exact absurd rfl (notReset _)
    · exact (notTick _ _ _ _ _ _ rfl).elim
    · exact absurd rfl notStep
    · rfl
  obtain ⟨u, goes, _, sameTick⟩ := exec_goesOn i s rests
  cases next.symm.trans goes
  exact sameTick

end Sys2Proof

/-! # Starts, resets and restarts (chapter 17)

A reset keeps of the start unit what `Sys.warm` and `Sys.cold` name, whatever it counts on the way. The end of a start step and of a
control restart are the branches of `startStep` and of `Dev.restartDone`; the statements read them off. -/

namespace Sys2Proof.Machine
open Sys2Proof

/-! ### A host interface with nothing to write -/

section
variable {d : Dev}

/-- No vector's message waits. -/
theorem Dev.drainPba_none (k : Clock) (absent : d.hif.pba = 0) : d.drainPba k = d :=
  foldl_unchanged_of_mem fun v _ => if_neg (by simp [absent])

theorem Dev.flushWr_none (absent : d.hif.heldWr = []) : d.flushWr = d := by
  unfold Dev.flushWr
  split
  · rw [absent, List.foldl_nil, ← absent]
  · rfl

theorem Dev.dmpFill_none (k : Clock) (absent : d.sys.offer = none) : d.dmpFill k = d := by
  unfold Dev.dmpFill; rw [absent]

/-- With no ring, no dump on offer, no message pending and no write held back, nothing is written. -/
theorem Dev.flushHost_idle (k : Clock) (rings : d.hif.rings = []) (offer : d.sys.offer = none) (pba : d.hif.pba = 0)
    (held : d.hif.heldWr = []) : d.flushHost k = d := by
  simp only [Dev.flushHost, Dev.flushWr_none held, rings, Store.entries, List.foldl_nil, Dev.dmpFill_none k offer,
    Dev.drainPba_none k pba]

/-- With no command waiting none is answered. -/
theorem Dev.finish_none (k : Clock) (kind : WKind) (key : Nat) (st : Status) (res : List RField) (absent : d.waits = []) :
    d.finish k kind key st res = d := by
  simp only [Dev.finish, absent, List.filter_nil, List.foldl_nil]
  rw [← absent]

theorem Dev.ashPack_none (absent : d.sys.ash ≠ .captured) : d.ashPack = d := if_pos (by simp [absent])

theorem Dev.dumpReady_none (k : Clock) (absent : d.sys.ash ≠ .ready) : d.dumpReady k = d := if_neg (by simp [absent])

theorem Dev.evacNext_none (k : Clock) (absent : d.sys.evacQ = []) : d.evacNext k = d := by
  unfold Dev.evacNext; rw [absent]; rfl

end

/-! ### What a reset keeps (R453) -/

theorem Dev.enterH_sys (d : Dev) (st : HState) : (d.enterH st).sys = d.sys := by cases st <;> rfl

/-- What is counted under a condition leaves the start unit alone. -/
theorem Dev.bump0_if_sys (p : Prop) [Decidable p] (d : Dev) (e : CEv) : (if p then d.bump0 e else d).sys = d.sys := by
  split <;> rfl

theorem Dev.enterH_if_sys (p : Prop) [Decidable p] (d : Dev) (st : HState) : (if p then d.enterH st else d).sys = d.sys := by
  split
  · exact Dev.enterH_sys d st
  · rfl

/-- Of the start unit a warm reset keeps what `Sys.warm` names: what it counts on the way is not the unit's. -/
theorem Dev.resetWarm_sys (d : Dev) : d.resetWarm.sys = d.sys.warm := by
  refine congrArg Sys.warm ?_
  rw [Dev.enterH_if_sys, foldl_keeps Dev.sys (f := fun (d : Dev) q => d.bump1 .calLScanAbort q) fun _ _ => rfl,
    Dev.bump0_if_sys, Dev.bump0_if_sys, Dev.bump0_if_sys]
  split <;> rfl

/-- The repair of control SRAM touches its rows alone. -/
theorem Dev.ctrlRepair_sys (d : Dev) : d.ctrlRepair.sys = { d.sys with
    cUsed := d.ctrlRepair.sys.cUsed, cDone := d.ctrlRepair.sys.cDone, cCe := d.ctrlRepair.sys.cCe,
    cCand := d.ctrlRepair.sys.cCand } := by
  unfold Dev.ctrlRepair
  dsimp only
  generalize d.sys.cCand = rows
  induction rows generalizing d with
  | nil => rfl
  | cons r rows ih =>
    rw [List.foldl_cons]
    refine (ih _).trans ?_
    split <;> rfl

end Sys2Proof.Machine

namespace Sys2Proof
open Sys2Proof.Machine

/-! ### Power and resets (R452 to R456, R504) -/

section
variable {s : State}

theorem rstNAssert_resets (powered : s.dev.sys.powered = true) (high : s.dev.sys.rstN = true) (out : s.dev.sys.inReset = none) :
    ∃ d, Does .rstNAssert s d ∧ d.sys.inReset = some (.warm, 2) ∧ d.sys.rstN = false ∧ d.sys.step4 = s.dev.sys.step4 ∧
      d.hif = { Hif.reset with perst := d.hif.perst, sent := d.hif.sent } ∧ d.fce = Fce.reset ∧ d.med = Med.reset ∧
      d.tmp = Tmp.reset ∧ d.waits = [] := by
  refine ⟨_, does_of_onDev (execRstNAssert s) rfl rfl rfl, ?_⟩
  dsimp only
  rw [if_neg (by simp [powered, high]), if_neg (by simp [out])]
  generalize cut : ite (s.dev.sys.ash == .capturing) _ _ = e
  have step4 : e.resetWarm.sys.step4 = s.dev.sys.step4 := by
    rw [Dev.resetWarm_sys, ← cut]
    split <;> rfl
  exact ⟨rfl, rfl, step4, rfl, rfl, rfl, rfl, rfl⟩

theorem coldStart_chooses (cause : Nat) (s : State) : (coldStart cause s).dev.sys.kind = 0 ∧
    (coldStart cause s).dev.sys.cause = cause := ⟨rfl, rfl⟩

theorem warmStart_sys (cause : Nat) (s : State) : (warmStart cause s).dev.sys.kind = 1 ∧ (warmStart cause s).dev.sys.cause = cause ∧
    (warmStart cause s).clk = s.clk ∧ (warmStart cause s).dev.sys.warmCount = min 65535 (s.dev.sys.warmCount + 1) := by
  refine ⟨rfl, rfl, rfl, ?_⟩
  show min 65535 ((s.dev.bump0 .sysWarmStart).ctrlRepair.sys.warmCount + 1) = _
  rw [Dev.ctrlRepair_sys]
  rfl

theorem warmStart_clears (cause : Nat) (s : State) : (warmStart cause s).dev.sys.inReset = none ∧ (warmStart cause s).mem.dm = [] ∧
    (warmStart cause s).dev.sys.step = 0 := by
  refine ⟨rfl, ?_, rfl⟩
  show (Mems.clearObjects _ _).dm = []
  unfold Mems.clearObjects
  split <;> rfl

/-- The start that the end of a reset makes (R452, R454, R504). -/
def startAfter (ember : Bool) (cause : Nat) (s : State) : State :=
  if !s.dev.sys.emberOk || !ember then coldStart 1 s
  else if s.dev.sys.supplyFault then coldStart 9 s
  else if !s.dev.sys.step4 then coldStart cause s
  else if 2 ≤ s.dev.sys.failed then coldStart 7 s
  else warmStart cause s

theorem exec_internalResetEnd {kind : StartKind} {cause : Nat} (ember : Bool) (resets : s.dev.sys.inReset = some (kind, cause)) :
    exec (.internalResetEnd ember) s = .next (startAfter ember cause s) := by
  show execInternalResetEnd ember s = _
  simp only [execInternalResetEnd, resets, startAfter]

theorem startAfter_clears (ember : Bool) (cause : Nat) (s : State) : (startAfter ember cause s).dev.sys.inReset = none ∧
    (startAfter ember cause s).mem.dm = [] ∧ (startAfter ember cause s).dev.sys.step = 0 := by
  unfold startAfter
  split
  · exact ⟨rfl, rfl, rfl⟩
  · split
    · exact ⟨rfl, rfl, rfl⟩
    · split
      · exact ⟨rfl, rfl, rfl⟩
      · split
        · exact ⟨rfl, rfl, rfl⟩
        · exact warmStart_clears cause s

theorem pcieConfigWrite_does (answers : s.dev.cfgAnswers = true) (bme d3 en fm : Bool) (dc : BitVec 16) :
    Does (.pcieConfigWrite bme d3 en fm dc) s
      (({ s.dev with hif := { s.dev.hif with bme := bme, d3hot := d3, msixEn := en, fmask := fm, devCtl := dc } }).flushHost s.clk) :=
  does_of_onDev (execPcieConfigWrite bme d3 en fm dc s) rfl rfl (if_neg (by simp [answers]))

end

/-- Settles O7: a reset keeps of the start unit what `Sys.warm` names (`Dev.resetWarm_sys`), its end is `startAfter`, and a
configuration write with nothing to write out sets its fields alone (`Dev.flushHost_idle`). -/
theorem powerAndResetsChooseStart : Obligations.PowerAndResetsChooseStart := by
  intro s
  refine ⟨⟨_, rfl, rfl, rfl, rfl, rfl, rfl, rfl, rfl, rfl, rfl, rfl⟩, rstNAssert_resets,
    fun powered => does_of_onDev (execSupplyFault s) rfl rfl (if_pos powered), rfl, fun kind cause ember resets => ?_, rfl, rfl, rfl,
    fun bme d3 en fm dc answers => pcieConfigWrite_does answers bme d3 en fm dc,
    fun bme d3 en fm dc up perst step rings offer pba held => ?_⟩
  · obtain ⟨out, clear, step⟩ := startAfter_clears ember cause s
    refine ⟨_, exec_internalResetEnd ember resets, out, clear, step, fun bad => ?_, fun ok good fault => ?_,
      fun ok good fault never => ?_, fun ok good fault done failed => ?_, fun ok good fault done few => ?_⟩
    · rw [startAfter, if_pos (by simpa using bad)]
      exact coldStart_chooses 1 s
    · rw [startAfter, if_neg (by simp [ok, good]), if_pos fault]
      exact coldStart_chooses 9 s
    · rw [startAfter, if_neg (by simp [ok, good]), if_neg (by simp [fault]), if_pos (by simp [never])]
      exact coldStart_chooses cause s
    · rw [startAfter, if_neg (by simp [ok, good]), if_neg (by simp [fault]), if_neg (by simp [done]), if_pos failed]
      exact coldStart_chooses 7 s
    · rw [startAfter, if_neg (by simp [ok, good]), if_neg (by simp [fault]), if_neg (by simp [done]), if_neg (by omega)]
      exact warmStart_sys cause s
  · have writes := pcieConfigWrite_does (s := s) (by simp [Dev.cfgAnswers, up, perst, step]) bme d3 en fm dc
    rw [Dev.flushHost_idle] at writes
    exacts [writes, rings, offer, pba, held]

/-! ### The steps of a start (R455, R458, R512) -/

/-- The device is starting, and takes the end of a step (R458): it is powered, not in reset, not in recovery, and TEST_MODE is low. -/
structure Starts (d : Dev) : Prop where
  powered : d.sys.powered = true
  out : d.sys.inReset = none
  boots : d.kln.boot ≠ 3
  test : d.sys.testMode = false

section
variable {s : State} {n : Nat} {f : StartFind} {m : Mems} {d : Dev}

theorem startStepEnd_does (e : startStep s.clk n f s.mem s.dev = (m, d)) : DoesMem (.startStepEnd n f) s m d :=
  doesMem_of_onMem (execStartStepEnd n f s) rfl rfl e

theorem startStepEnd_stays (e : startStep s.clk n f s.mem s.dev = (s.mem, s.dev)) : exec (.startStepEnd n f) s = .next s :=
  startStepEnd_does e

theorem startStep_testMode (k : Clock) (test : d.sys.testMode = true) : startStep k n f m d = (m, d) :=
  if_pos (by simp [test])

variable (starts : Starts d) (k : Clock)
include starts

theorem Starts.takes : ¬(!d.sys.powered || d.sys.inReset.isSome || d.kln.boot == 3 || d.sys.testMode) = true := by
  simp [starts.powered, starts.out, starts.boots, starts.test]

theorem startStep_outOfOrder (lt : n < 7) (ne : n ≠ d.sys.step + 1) : startStep k n f m d = (m, d) := by
  unfold startStep
  rw [if_neg starts.takes, if_neg (by omega), if_pos (by simp [ne])]

theorem startStep_one (last : d.sys.step = 0) : startStep k 1 f m d =
    (m, { d with sys := { d.sys with step := 1, avs := some (min 20 f.avs), avsTicks := 8000 } }) := by
  unfold startStep
  rw [if_neg starts.takes, if_neg (by decide), if_neg (by simp [last]), if_pos rfl]
  rfl

theorem startStep_two (last : d.sys.step = 1) : startStep k 2 f m d =
    (m, if f.katOk then (d.startKiln k f).setStep 2 else d.kilnAlarm k) := by
  unfold startStep
  rw [if_neg starts.takes, if_neg (by decide), if_neg (by simp [last]), if_neg (by decide), if_pos rfl]
  exact (apply_ite (Prod.mk m) _ _ _).symm

theorem startStep_three (last : d.sys.step = 2) : startStep k 3 f m d =
    (m, if (d.startStage1 f).1 then (d.startStage1 f).2.setStep 3 else (d.startStage1 f).2) := by
  unfold startStep
  rw [if_neg starts.takes, if_neg (by decide), if_neg (by simp [last]), if_neg (by decide), if_neg (by decide), if_pos rfl]

theorem startStep_four (last : d.sys.step = 3) {m' : Mems} {d' : Dev} (found : startUnits k f m d = (true, m', d')) :
    startStep k 4 f m d = (m', { d' with sys := { d'.sys with step := 4, step4 := true } }) := by
  unfold startStep
  rw [if_neg starts.takes, if_neg (by decide), if_neg (by simp [last]), if_neg (by decide), if_neg (by decide),
    if_neg (by decide), if_pos rfl, found]
  rfl

theorem startStep_five (last : d.sys.step = 4) : startStep k 5 f m d =
    (m, { d with sys := { d.sys with step := 5 }, hif := { d.hif with setupOpen := true } }) := by
  unfold startStep
  rw [if_neg starts.takes, if_neg (by decide), if_neg (by simp [last]), if_neg (by decide), if_neg (by decide),
    if_neg (by decide), if_neg (by decide), if_pos rfl]
  rfl

theorem startStep_six (last : d.sys.step = 5) {d' : Dev} (found : d.startImages = (true, d')) :
    startStep k 6 f m d = firmwareRuns k m d' := by
  unfold startStep
  rw [if_neg starts.takes, if_neg (by decide), if_neg (by simp [last]), if_neg (by decide), if_neg (by decide),
    if_neg (by decide), if_neg (by decide), if_neg (by decide), if_pos rfl, found]
  rfl

/-- Steps 7 to 11 are shown once what they wait for has come about. -/
theorem startStep_later (ge : 7 ≤ n) (runs : 6 ≤ d.sys.step) (done : d.laterDone n = true) :
    startStep k n f m d = (m, { d with sys := { d.sys with step := n } }) := by
  unfold startStep
  rw [if_neg starts.takes, if_pos ge, if_pos (by simp [runs, done])]
  rfl

end

/-- Settles O8: the end of a step is one of the lemmas above, by the step's number. -/
theorem startStepsEndInOrder : Obligations.StartStepsEndInOrder := by
  intro s n f powered out boots
  refine ⟨fun test => ⟨startStepEnd_stays (startStep_testMode s.clk test), if_pos test⟩, fun test => ?_⟩
  have starts : Starts s.dev := ⟨powered, out, boots, test⟩
  refine ⟨fun lt ne => startStepEnd_stays (startStep_outOfOrder starts s.clk lt ne), ?_, ?_, ?_, ?_, ?_, fun mem runs done => ?_,
    ?_, fun is runs ne => ?_, fun is runs locked => ?_⟩
  · rintro rfl last
    exact startStepEnd_does (startStep_one starts s.clk last)
  · rintro rfl last
    exact startStepEnd_does (startStep_two starts s.clk last)
  · rintro rfl last
    exact startStepEnd_does (startStep_three starts s.clk last)
  · rintro m d rfl last found
    exact startStepEnd_does (startStep_four starts s.clk last found)
  · rintro d rfl last found
    exact startStepEnd_does (startStep_six starts s.clk last found)
  · have ge : 7 ≤ n := by simp at mem; omega
    exact startStepEnd_does (startStep_later starts s.clk ge runs done)
  · rintro rfl last
    exact startStepEnd_does (startStep_five starts s.clk last)
  · subst is
    exact startStepEnd_does (startStep_later starts s.clk le_rfl runs (by simp [Dev.laterDone, ne]))
  · subst is
    exact startStepEnd_does (startStep_later starts s.clk (by decide) runs (by simp [Dev.laterDone, locked]))

/-! ### Control restarts, PFW_N and AVS (R461, R466, R502) -/

section
variable {s : State} {d : Dev}

theorem controlRestart_does (out : s.dev.sys.inReset = none) (paused : s.dev.hif.paused = true)
    (unchecked : s.dev.sys.checked = false) (idle : s.dev.sys.ash ≠ .capturing) (repaired : s.dev.ctrlRepair = d) (dig state : Bool) :
    Does (.controlRestart dig state) s (if !dig then (d.bump0 .klnReloadMismatch).askWarm 4
      else if !state then (d.bump0 .sysStateCheckFail).askWarm 8 else { d with sys := { d.sys with checked := true } }) := by
  subst repaired
  exact does_of_onDev (execControlRestart dig state s) rfl rfl (if_neg (by simp [out, paused, unchecked, idle]))

theorem Dev.ctrlRepair_none (absent : d.sys.cCand = []) : d.ctrlRepair = d := by
  unfold Dev.ctrlRepair
  rw [absent]
  rfl

theorem controlRestartDone_does (out : s.dev.sys.inReset = none) (paused : s.dev.hif.paused = true)
    (checked : s.dev.sys.checked = true) : Does .controlRestartDone s (s.dev.restartDone s.clk) :=
  does_of_onDev (execControlRestartDone s) rfl rfl (if_pos (by simp [out, paused, checked]))

/-- With nothing held, nothing waiting and nothing to write, the end of a restart resumes the servo and shows PAUSED and RESTARTS. -/
theorem Dev.restartDone_quiet (k : Clock) (lines : d.hif.lineEvts = []) (kln : d.hif.klnEvts = []) (others : d.hif.restartEvts = [])
    (waits : d.waits = []) (rings : d.hif.rings = []) (pba : d.hif.pba = 0) (offer : d.sys.offer = none) (ash : d.sys.ash = .empty)
    (queue : d.sys.evacQ = []) (held : d.hif.heldWr = []) (bme : d.hif.bme = true) (awake : d.hif.d3hot = false) :
    d.restartDone k = { d with
      htb := { d.htb with servoOn := true }
      hif := { d.hif with
        paused := false, restarts := d.hif.restarts + 1, fetchAt := none
        sent := .restarts (d.hif.restarts + 1) :: .paused false :: d.hif.sent }
      sys := { d.sys with fatal := false, checked := false, wdog := 0 } } := by
  obtain ⟨e, is⟩ : ∃ e, e = { d with
      htb := { d.htb with servoOn := true }
      hif := { d.hif with
        paused := false, restarts := d.hif.restarts + 1, fetchAt := none
        sent := .restarts (d.hif.restarts + 1) :: .paused false :: d.hif.sent }
      sys := { d.sys with fatal := false, checked := false, wdog := 0 } } := ⟨_, rfl⟩
  have resumes : d.restartDone k = (((((e.finish k .fwSwitch 0 .ok).finish k .sysRestart 0 .ok).flushHost k).ashPack).dumpReady
      k).evacNext k := by
    have noEvts : d.hif.heldEvts = [] := by simp [Hif.heldEvts, lines, kln, others]
    simp only [Dev.restartDone, noEvts, bme, awake, Bool.not_false, Bool.and_self, if_true, List.foldl_nil, is, Dev.send,
      Dev.setHif, Dev.setHtb, Dev.setSys, lines, kln, others]
  rw [← is, resumes]
  have stillWaits : e.waits = [] := by rw [is]; exact waits
  rw [Dev.finish_none k _ _ _ _ stillWaits, Dev.finish_none k _ _ _ _ stillWaits]
  rw [Dev.flushHost_idle k (by rw [is]; exact rings) (by rw [is]; exact offer) (by rw [is]; exact pba) (by rw [is]; exact held)]
  have empty : e.sys.ash = .empty := by rw [is]; exact ash
  rw [Dev.ashPack_none (by simp [empty]), Dev.dumpReady_none k (by simp [empty]), Dev.evacNext_none k (by rw [is]; exact queue)]

theorem pfwAssert_does (high : s.dev.sys.pfwN = true)
    (fell : ({ s.dev with sys := { s.dev.sys with pfwN := false } }).bump0 .sysPfwAssert = d) (last : Bool) :
    Does (.pfwAssert last) s ((if last then d else d.calAbandon s.clk).slotAbandon s.clk) := by
  subst fell
  exact does_of_onDev (execPfwAssert last s) rfl rfl (if_neg (by simp [high]))

theorem Dev.slotAbandon_none (k : Clock) (absent : d.sys.slotWr = none) : d.slotAbandon k = d := by
  unfold Dev.slotAbandon; rw [absent]

theorem Dev.calAbandon_none (k : Clock) (absent : d.cal.writing = none) : d.calAbandon k = d := by
  unfold Dev.calAbandon; rw [absent]

/-- AVS moves at a tick boundary, 8,000 ticks after its last move or later, within the codes 0 to 20 (R502). -/
theorem avsStep_does {up : Bool} {c : Nat} (avs : s.dev.sys.avs = some c) (within : if up then c < 20 else 0 < c)
    (runs : s.dev.ctrlRuns = true) (on : s.dev.hif.paused = false) (boundary : s.clk.sub = 0) (due : 8000 ≤ s.dev.sys.avsTicks) :
    Does (.avsStep up) s
      { s.dev with sys := { s.dev.sys with avs := some (if up then c + 1 else c - 1), avsTicks := 0 } } := by
  refine does_of_onDev (execAvsStep up s) rfl rfl ?_
  have moves : (if up then decide (20 ≤ c) else c == 0) = false := by
    cases up
    · simpa using Nat.pos_iff_ne_zero.mp within
    · simpa using within
  rw [avs]
  exact if_neg (by simp [runs, on, boundary, Nat.not_lt.mpr due, moves])

end

/-- Settles O9: each clause is one of the lemmas above; the restart with nothing held is `Dev.restartDone_quiet`. -/
theorem controlRestartAndPins : Obligations.ControlRestartAndPins := by
  intro s
  refine ⟨fun out paused unchecked idle d repaired => ?_, controlRestartDone_does, ?_, fun d high fell => ?_, rfl, ?_⟩
  · have restarts := controlRestart_does out paused unchecked idle repaired
    refine ⟨restarts true true, fun good => restarts false good, restarts true false, fun absent => ?_⟩
    rw [← repaired, Dev.ctrlRepair_none absent]
  · intro out paused checked lines kln others waits rings pba offer ash _ queue held bme awake
    have done := controlRestartDone_does out paused checked
    rwa [Dev.restartDone_quiet s.clk lines kln others waits rings pba offer ash queue held bme awake] at done
  · have asserts := pfwAssert_does high fell
    subst fell
    exact ⟨asserts true, asserts false, fun absent => Dev.slotAbandon_none s.clk absent, fun absent => Dev.calAbandon_none s.clk absent⟩
  · intro up c avs within powered step boots on boundary due
    exact avsStep_does avs within (by simp [Dev.ctrlRuns, powered, step, boots]) on boundary due

end Sys2Proof

/-! # Host rings and set-up (chapter 14)

Whatever the device tells the host (completions, events, messages) changes of the host interface what carries it and nothing else:
`TellsHost` is that frame. The lock is followed by the training of the lanes and perhaps by a dump, which only tell. -/

namespace Sys2Proof.Machine
open Sys2Proof

/-! ### What telling the host leaves unchanged -/

/-- The host interface of `e` differs from that of `d` only in what carries completions, events, dumps and messages. -/
def TellsHost (d e : Dev) : Prop :=
  e.hif = { d.hif with
    rings := e.hif.rings, sent := e.hif.sent, msgAt := e.hif.msgAt, pba := e.hif.pba, heldWr := e.hif.heldWr,
    outst := e.hif.outst, restartEvts := e.hif.restartEvts, lineEvts := e.hif.lineEvts, klnEvts := e.hif.klnEvts }

section
variable {d e : Dev}

theorem TellsHost.refl (d : Dev) : TellsHost d d := rfl

theorem TellsHost.trans {a b c : Dev} (h : TellsHost a b) (g : TellsHost b c) : TellsHost a c := by
  unfold TellsHost at *; rw [g, h]

theorem TellsHost.of_hif (same : e.hif = d.hif) : TellsHost d e := by unfold TellsHost; rw [same]

theorem TellsHost.foldl {α : Type} {f : Dev → α → Dev} (each : ∀ d x, TellsHost d (f d x)) (l : List α) (d : Dev) :
    TellsHost d (l.foldl f d) := by
  induction l generalizing d with
  | nil => exact .refl d
  | cons x l ih => exact (each d x).trans (ih _)

section
variable (tells : TellsHost d e)
include tells

theorem TellsHost.locked : e.hif.locked = d.hif.locked := (congrArg Hif.locked tells).trans rfl
theorem TellsHost.setupOpen : e.hif.setupOpen = d.hif.setupOpen := (congrArg Hif.setupOpen tells).trans rfl
theorem TellsHost.lockErr : e.hif.lockErr = d.hif.lockErr := (congrArg Hif.lockErr tells).trans rfl
theorem TellsHost.vmask : e.hif.vmask = d.hif.vmask := (congrArg Hif.vmask tells).trans rfl
theorem TellsHost.fetchAt : e.hif.fetchAt = d.hif.fetchAt := (congrArg Hif.fetchAt tells).trans rfl

end

theorem TellsHost.send (d : Dev) (x : Sent) : TellsHost d (d.send x) := rfl
theorem TellsHost.setRing (d : Dev) (n : Nat) (r : Ring) : TellsHost d (d.setRing n r) := rfl
theorem TellsHost.bumpN (d : Dev) (c : Ctr) (n : Nat) : TellsHost d (d.bumpN c n) := rfl

theorem TellsHost.shadowFor (d : Dev) (sel : Nat → Ring → Bool) : TellsHost d (d.shadowFor sel) := by
  refine .foldl (fun d x => ?_) _ d
  split
  · exact (TellsHost.send d _).trans (.setRing _ _ _)
  · exact .refl d

theorem TellsHost.clearPend (d : Dev) (v : Nat) : TellsHost d (d.clearPend v) := by
  refine .foldl (fun d x => ?_) _ d
  split
  · exact .setRing _ _ _
  · exact .refl d

theorem TellsHost.requestVec (k : Clock) (d : Dev) (v : Nat) : TellsHost d (d.requestVec k v) := by
  unfold Dev.requestVec
  split
  · rfl
  · refine .trans (b := d.shadowFor (fun _ r => r.vector == v)) (.shadowFor d _) ?_
    dsimp only
    refine .trans ?_ (.clearPend _ _)
    split <;> rfl

theorem TellsHost.wrote (k : Clock) (d : Dev) (n : Nat) : TellsHost d (d.wrote k n) := by
  unfold Dev.wrote
  dsimp only
  split
  · split
    · exact .trans (.setRing _ _ _) (.requestVec _ _ _)
    · exact .setRing _ _ _
  · exact .refl d

theorem TellsHost.writeEvt (k : Clock) (d : Dev) (n : Nat) (h : HeldEvt) : TellsHost d (d.writeEvt k n h) :=
  ((TellsHost.send d _).trans (.setRing _ _ _)).trans (.wrote _ _ _)

theorem TellsHost.flushEvtN (m : Nat) (k : Clock) (d : Dev) (n : Nat) : TellsHost d (Dev.flushEvtN m k d n) := by
  induction m generalizing d with
  | zero => exact .refl d
  | succ m ih =>
    unfold Dev.flushEvtN
    split
    · exact .refl d
    · split
      · exact ((TellsHost.setRing _ _ _).trans (.writeEvt _ _ _ _)).trans (ih _)
      · exact .refl d

theorem TellsHost.storeEvt (d : Dev) (n : Nat) (h : HeldEvt) : TellsHost d (d.storeEvt n h) := by
  unfold Dev.storeEvt
  dsimp only
  split <;> rfl

theorem TellsHost.postEvt (k : Clock) (d : Dev) (n : Nat) (h : HeldEvt) : TellsHost d (d.postEvt k n h) := by
  have stores (d : Dev) (n : Nat) : TellsHost d ((d.storeEvt n h).flushEvt k n) :=
    (TellsHost.storeEvt d n h).trans (.flushEvtN _ _ _ _)
  have default_ (d : Dev) : TellsHost d (if d.ringIs d.hif.defEvt 5 then (d.storeEvt d.hif.defEvt h).flushEvt k d.hif.defEvt
      else d.bump0 .hifEvtDiscard) := by
    split
    · exact stores _ _
    · exact .bumpN _ _ _
  unfold Dev.postEvt
  split
  · exact stores _ _
  · dsimp only
    split
    · exact default_ _
    · exact (TellsHost.bumpN d _ _).trans (default_ _)

theorem TellsHost.raiseOn (k : Clock) (d : Dev) (n : Nat) (e : Evt) : TellsHost d (d.raiseOn k n e) := by
  unfold Dev.raiseOn
  split
  · exact .refl d
  · split
    · unfold Dev.holdForRestart
      dsimp only
      repeat' split
      all_goals rfl
    · exact .postEvt _ _ _ _

theorem TellsHost.event (k : Clock) (d : Dev) (typ detail arg : Nat) (more : List Nat) :
    TellsHost d (d.event k typ detail arg more) := .raiseOn _ _ _ _

/-! A dump delivered (R394, R491). -/

theorem TellsHost.skipBad (d : Dev) (n typ m : Nat) : TellsHost d (d.skipBad n typ m) := by
  induction m generalizing d with
  | zero => exact .refl d
  | succ m ih =>
    unfold Dev.skipBad
    split
    next b r _ =>
      split
      · exact .refl d
      · refine .trans ?_ (ih _)
        split <;> rfl
    next => exact .refl d

theorem TellsHost.dmpFillN (k : Clock) (m : Nat) (d : Dev) : TellsHost d (Dev.dmpFillN k m d) := by
  induction m generalizing d with
  | zero => exact .refl d
  | succ m ih =>
    unfold Dev.dmpFillN
    split
    · exact .refl d
    next off n _ =>
      split
      · exact .refl d
      · have skips := TellsHost.skipBad d n 6 (d.ring n).posted.length
        dsimp only
        split
        · exact skips
        · refine skips.trans (.trans (.trans ?_ (.wrote _ _ _)) (ih _))
          exact (((TellsHost.send _ _).trans (.send _ _)).trans (.setRing _ _ _)).trans (.of_hif rfl)

theorem TellsHost.dumpReady (k : Clock) (d : Dev) : TellsHost d (d.dumpReady k) := by
  unfold Dev.dumpReady
  split
  · unfold Dev.dumpOffer
    split
    next n _ =>
      refine .trans (b := d.setSys { d.sys with offer := some (0, n), delivered := 0 }) rfl ?_
      exact .dmpFillN _ _ _
    · exact .refl d
  · exact .refl d

/-! A cycle of the Barista (R212): it tells of groups that become stranded. -/

theorem Dev.wake_hif (d : Dev) : d.wake.hif = d.hif :=
  foldl_keeps Dev.hif (fun d p => by split <;> rfl) _ _

theorem Dev.selectGroup_hif (d : Dev) (t : Nat) (cand : List Nat) : (d.selectGroup t cand).2.hif = d.hif := by
  unfold Dev.selectGroup
  dsimp only
  split
  · rfl
  · generalize mostPassed _ _ = starved
    cases starved <;> rfl

theorem Dev.selectOn_hif (d : Dev) (t : Nat) (cand : List Nat) : (d.selectOn t cand).hif = d.hif := by
  have selects := d.selectGroup_hif t cand
  unfold Dev.selectOn
  split
  next taken => rw [taken] at selects; exact selects
  next taken =>
    rw [taken] at selects
    split <;> exact selects

theorem Dev.preempts_hif (d : Dev) : d.preempts.hif = d.hif :=
  foldl_keeps Dev.hif (fun d n => by
    split
    · rfl
    · split <;> rfl) _ _

theorem TellsHost.checkStranded (k : Clock) (d : Dev) : TellsHost d (d.checkStranded k) := by
  refine .foldl (fun d g => ?_) _ d
  dsimp only
  split
  · exact .refl d
  · split
    · exact .trans (b := (d.setGrp g { d.grp g with stranded := d.stranded g }).bump1 .schGStranded g) rfl (.event _ _ _ _ _ _)
    · rfl

theorem TellsHost.settle (k : Clock) (d : Dev) : TellsHost d (d.settle k none) := by
  refine .trans (.of_hif ?_) (.checkStranded k _)
  rw [Dev.preempts_hif]
  refine (foldl_keeps Dev.hif (fun d t => ?_) _ _).trans d.wake_hif
  dsimp only
  split
  · exact d.selectOn_hif t _
  · rfl

theorem TellsHost.setFlag (k : Clock) (d : Dev) (th f : Nat) : TellsHost d (d.setFlag k th f) := by
  refine .trans (.of_hif ?_) (.settle k _)
  unfold Dev.writeFlag
  dsimp only
  split <;> rfl

/-! A packet written (R236). -/

theorem TellsHost.setHopper (d : Dev) (h : Nat) (x : Hopper) : TellsHost d (d.setHopper h x) := rfl

theorem TellsHost.hopSwap (k : Clock) (d : Dev) (h : Nat) : TellsHost d (d.hopSwap k h) := by
  unfold Dev.hopSwap
  dsimp only
  split
  · exact .trans (.setHopper _ _ _) (.setFlag _ _ _ _)
  · exact .setHopper _ _ _

theorem TellsHost.discardDrain (d : Dev) (h : Nat) (c : CEv) : TellsHost d (d.discardDrain h c) := by
  unfold Dev.discardDrain
  dsimp only
  split <;> rfl

theorem TellsHost.trySwap (k : Clock) (d : Dev) (h : Nat) : TellsHost d (d.trySwap k h) := by
  unfold Dev.trySwap
  dsimp only
  split
  · exact .hopSwap k d h
  · exact .refl d

theorem TellsHost.forcedSwap (k : Clock) (d : Dev) (h : Nat) : TellsHost d (d.forcedSwap k h) := by
  unfold Dev.forcedSwap
  dsimp only
  split
  · exact .setHopper _ _ _
  · exact .trans (.discardDrain _ _ _) (.hopSwap _ _ _)

theorem Dev.writeWords_hif (d : Dev) (i : Nat) (words : List Word) : (d.writeWords i words).hif = d.hif := by
  rw [Dev.writeWords_only]

theorem TellsHost.burstStart (k : Clock) (d : Dev) (h : Nat) (p : Prod) (prio : Nat) (words : List Word) :
    TellsHost d (d.burstStart k h p prio words).2 := by
  have stores (e : Dev) (y : Hopper) (i : Nat) : TellsHost e ((e.writeWords i words).setHopper h y) :=
    .of_hif (e.writeWords_hif i words)
  unfold Dev.burstStart
  dsimp only
  split
  · exact .bumpN _ _ _
  · split
    · exact .trans (((TellsHost.discardDrain d h _).trans (.bumpN _ _ _)).trans (.hopSwap k _ h)) (stores _ _ _)
    · exact stores _ _ _

theorem TellsHost.burstEndAt (k : Clock) (d : Dev) (h : Nat) (ok : Bool) : TellsHost d (d.burstEndAt k h ok).2 := by
  unfold Dev.burstEndAt
  dsimp only
  split
  · exact .refl d
  next b _ =>
    have after {e : Dev} (tells : TellsHost d e) : TellsHost d (if b.swapAfter then e.forcedSwap k h else e) := by
      split
      · exact tells.trans (.forcedSwap _ _ _)
      · exact tells
    refine after ?_
    split
    · exact .setHopper _ _ _
    · split
      · dsimp only
        split
        · exact .trans (.setHopper _ _ _) (.setFlag _ _ _ _)
        · exact .setHopper _ _ _
      · rfl

theorem TellsHost.nextBursts (k : Clock) (m : Nat) (d : Dev) (h : Nat) : TellsHost d (Dev.nextBursts k m d h) := by
  induction m generalizing d with
  | zero => exact .refl d
  | succ m ih =>
    unfold Dev.nextBursts
    dsimp only
    split
    next w r _ _ =>
      have begins : TellsHost d ((d.setHopper h { d.hopper h with queue := r }).burstStart k h w.prod w.prio w.words).2 :=
        .trans (.setHopper _ _ _) (.burstStart _ _ _ _ _ _)
      split
      · exact begins
      · exact begins
      · exact begins
      · exact begins.trans (((TellsHost.burstEndAt k _ h true).trans (.trySwap _ _ _)).trans (ih _))
      · exact begins.trans (ih _)
    next => exact .refl d

theorem TellsHost.burstEnd (k : Clock) (d : Dev) (h : Nat) (ok : Bool) : TellsHost d (d.burstEnd k h ok).2 :=
  ((TellsHost.burstEndAt k d h ok).trans (.trySwap _ _ _)).trans (.nextBursts _ _ _ _)

theorem TellsHost.burstOpen (k : Clock) (d : Dev) (h : Nat) (p : Prod) (prio : Nat) (words : List Word) :
    TellsHost d (d.burstOpen k h p prio words).2 := by
  unfold Dev.burstOpen
  dsimp only
  split
  · exact .refl d
  · split
    · exact .bumpN _ _ _
    · split
      · exact .setHopper _ _ _
      · exact .burstStart _ _ _ _ _ _

theorem TellsHost.hopPut (k : Clock) (d : Dev) (h : Nat) (p : Prod) (prio : Nat) (words : List Word) :
    TellsHost d (d.hopPut k h p prio words).2 := by
  have opens := TellsHost.burstOpen k d h p prio words
  unfold Dev.hopPut
  dsimp only
  split
  · exact opens.trans (.burstEnd _ _ _ _)
  · exact opens

theorem TellsHost.lanePacket (k : Clock) (d : Dev) (q prio frame kind lines fired reason : Nat) (recs : List Word) :
    TellsHost d (d.lanePacket k q prio frame kind lines fired reason recs) := .hopPut _ _ _ _ _ _

/-! Lanes that leave DARK (R87). -/

/-- A lane that was not live takes no packets with it as its training state changes. -/
theorem TellsHost.setTrain (k : Clock) (d : Dev) (q reason : Nat) (dark : (d.lane q).train = .dark) :
    TellsHost d (d.setTrain k q .bitLock reason) := by
  unfold Dev.setTrain
  have stays : (Train.dark == .live) = false ∧ (Train.dark == .bitLock) = false ∧ (Train.bitLock == .live) = false := by decide
  simp only [dark, stays, Bool.false_and, Bool.false_eq_true, if_false]
  refine .trans ?_ (.lanePacket _ _ _ _ _ _ _ _ _ _)
  refine .trans ?_ (.event _ _ _ _ _ _)
  exact .of_hif rfl

theorem TellsHost.leaveDark (k : Clock) (d : Dev) (q : Nat) : TellsHost d (d.leaveDark k q) := by
  unfold Dev.leaveDark
  dsimp only
  split
  next leaves =>
    have dark : (d.lane q).train = .dark := by simp only [Bool.and_eq_true, beq_iff_eq] at leaves; tauto
    split
    · exact (TellsHost.setTrain k d q 0 dark).trans (.of_hif rfl)
    · exact .setTrain k d q 0 dark
  next => exact .refl d

theorem TellsHost.startWave (k : Clock) (d : Dev) (w : Nat) : TellsHost d (d.startWave k w) := by
  refine .trans (b := { d with oll := { d.oll with wave := some w, waveTicks := 0 } }) rfl (.foldl (fun d q => ?_) _ _)
  split
  · exact .trans (b := d.modLane q _) rfl (.leaveDark k _ q)
  · exact .refl d

theorem TellsHost.startLanes (k : Clock) (d : Dev) : TellsHost d (d.startLanes k) := by
  unfold Dev.startLanes
  split
  · exact .startWave k d 0
  · exact .foldl (fun _ _ => .leaveDark k _ _) _ d

end
end Sys2Proof.Machine

namespace Sys2Proof
open Sys2Proof.Machine

/-! ### BAR0 behind the lock (R376) -/

section
variable {s : State}

theorem sealedBar0_ignored (locked : s.dev.hif.locked = true) (a : Nat) :
    s.dev.bar0 a = 0 ∧ Does (.sealedBar0Access false) s (s.dev.bump0 .hifSealedRead) ∧
      Does (.sealedBar0Access true) s (s.dev.bump0 .hifSealedWrite) :=
  ⟨if_pos (by simp [locked]), does_of_onDev (execSealedBar0Access false s) rfl rfl (if_pos locked),
    does_of_onDev (execSealedBar0Access true s) rfl rfl (if_pos locked)⟩

section
variable (powered : s.dev.sys.powered = true) (runs : s.dev.sys.inReset = none)
include powered runs

theorem writeLock_sealed (locked : s.dev.hif.locked = true) (v : Word) :
    writeLock s.clk v s.mem s.dev = (s.mem, s.dev.bump0 .hifSealedWrite) := by
  unfold writeLock
  rw [if_neg (by simp [powered, runs]), if_pos locked]

theorem bar0Write_sealed (locked : s.dev.hif.locked = true) (a : Nat) (v : Word) (good : Bool) :
    Does (.bar0Write a v good) s (s.dev.bump0 .hifSealedWrite) := by
  refine does_of_onMem (execBar0Write a v good s) rfl rfl ?_
  rw [if_neg (by simp [powered, runs]), if_pos locked]

end
end

/-- Settles O54: the lock bit is the first thing that a read or a write of BAR0 looks at, and neither reset leaves it. -/
theorem sealedBar0IgnoresEveryWrite : Obligations.SealedBar0IgnoresEveryWrite := by
  unfold Obligations.SealedBar0IgnoresEveryWrite
  refine ⟨fun s a v good locked => ?_, fun d => ⟨rfl, rfl⟩⟩
  obtain ⟨reads, counted, written⟩ := sealedBar0_ignored locked a
  exact ⟨reads, counted, written, fun powered runs => ⟨bar0Write_sealed powered runs locked a v good,
    does_of_onMem (execSysSetupLock v s) rfl rfl (writeLock_sealed powered runs locked v)⟩⟩

/-! ### Set-up registers and the lock (R375, R493, R494) -/

section
variable {s : State}

/-- A set-up register that is not of the MSI-X table's vector controls takes its writable bits, alone. -/
theorem Machine.Dev.writeReg_setup {d : Dev} {a rv mask : Nat} (k : Clock) (spec : regSpec a = some (rv, mask))
    (plain : inArr a 0xA1000C 16 64 = false) (v : Word) :
    d.writeReg k a v = { d with regs := d.regs.put none a (some (v &&& BitVec.ofNat 32 mask)) } := by
  unfold Dev.writeReg
  rw [spec]
  exact if_neg (by simp [plain])

section
variable (powered : s.dev.sys.powered = true) (runs : s.dev.sys.inReset = none) (opened : s.dev.hif.locked = false)
include powered runs opened

theorem bar0Write_writes {a : Nat} {v : Word} (below : a < 0xF00000) (other : a ≠ 4) :
    Does (.bar0Write a v true) s (s.dev.writeReg s.clk a v) := by
  refine does_of_onMem (execBar0Write a v true s) rfl rfl ?_
  rw [if_neg (by simp [powered, runs]), if_neg (by simp [opened]), if_neg (by omega), if_neg (by simp), if_neg other]

theorem bar0Write_sets {a rv mask : Nat} {v : Word} (below : a < 0xF00000) (other : a ≠ 4)
    (spec : regSpec a = some (rv, mask)) (plain : inArr a 0xA1000C 16 64 = false) (wf : Store.wf none s.dev.regs = true) :
    ∃ d : Dev, Does (.bar0Write a v true) s d ∧ d = { s.dev with regs := d.regs } ∧
      d.reg a = (v &&& BitVec.ofNat 32 mask).toNat ∧ ∀ b, b ≠ a → d.reg b = s.dev.reg b := by
  refine ⟨_, bar0Write_writes powered runs opened below other, ?_⟩
  rw [Dev.writeReg_setup _ spec plain]
  refine ⟨rfl, ?_, fun b ne => ?_⟩
  · rw [Dev.reg, Store.get_put_self wf]
  · rw [Dev.reg, Store.get_put_ne wf ne, Dev.reg]

theorem bar0Write_misshapen {a : Nat} {v : Word} (below : a < 0xF00000) :
    Does (.bar0Write a v false) s (s.dev.bump0 .sysBarBadAccess) := by
  refine does_of_onMem (execBar0Write a v false s) rfl rfl ?_
  rw [if_neg (by simp [powered, runs]), if_neg (by simp [opened]), if_neg (by omega), if_pos (by simp)]

theorem bar0Write_debug {a : Nat} {v : Word} {good : Bool} (debug : 0xF00000 ≤ a) :
    Does (.bar0Write a v good) s (s.dev.bump0 .klnDbgBarAccess) := by
  refine does_of_onMem (execBar0Write a v good s) rfl rfl ?_
  rw [if_neg (by simp [powered, runs]), if_neg (by simp [opened]), if_pos debug]

theorem writeLock_badValue {v : Word} (other : v ≠ 0x4C4F434B) :
    writeLock s.clk v s.mem s.dev = (s.mem, s.dev.bump0 .hifLockBadValue) := by
  unfold writeLock
  rw [if_neg (by simp [powered, runs]), if_neg (by simp [opened]), if_pos (by simpa using other)]

/-- Once step 6 has ended, the key is weighed at once. -/
theorem writeLock_weighs (six : 6 ≤ s.dev.sys.step) :
    writeLock s.clk 0x4C4F434B s.mem s.dev = weighLock s.clk s.mem s.dev := by
  unfold writeLock
  rw [if_neg (by simp [powered, runs]), if_neg (by simp [opened]), if_neg (by simp), if_neg (by simp; omega)]

end

theorem weighLock_refuses {c : Nat} (code : s.dev.lockCode = c) (refused : c ≠ 0) : weighLock s.clk s.mem s.dev =
    (s.mem, ({ s.dev with hif := { s.dev.hif with lockErr := c, lockWait := false } } : Dev).bump0 .hifLockRefused) := by
  unfold weighLock
  dsimp only
  rw [if_neg (by rw [code]; exact refused), code]
  rfl

/-- Behind the lock the lanes are trained and a dump may be offered: both only tell. -/
theorem lockEnds_locks (k : Clock) (w : Mems × Dev) : (lockEnds k w).2.hif.locked = true ∧
    (lockEnds k w).2.hif.setupOpen = false ∧ (lockEnds k w).2.hif.lockErr = 0 ∧
    (lockEnds k w).2.hif.fetchAt = some (clockAbs k + 1) := by
  have tells : TellsHost (w.2.setHif { w.2.hif with
      locked := true, setupOpen := false, lockErr := 0, lockWait := false, fetchAt := some (clockAbs k + 1) }) (lockEnds k w).2 :=
    (TellsHost.startLanes k _).trans (.dumpReady k _)
  exact ⟨tells.locked, tells.setupOpen, tells.lockErr, tells.fetchAt⟩

theorem sysSetupLock_locks (powered : s.dev.sys.powered = true) (runs : s.dev.sys.inReset = none)
    (opened : s.dev.hif.locked = false) (six : 6 ≤ s.dev.sys.step) (code : s.dev.lockCode = 0) :
    ∃ m d, exec (.sysSetupLock 0x4C4F434B) s = .next { s with mem := m, dev := d } ∧ d.hif.locked = true ∧
      d.hif.setupOpen = false ∧ d.hif.lockErr = 0 ∧ d.hif.fetchAt = some (clockAbs s.clk + 1) := by
  obtain ⟨w, is⟩ : ∃ w, writeLock s.clk 0x4C4F434B s.mem s.dev = lockEnds s.clk w := by
    rw [writeLock_weighs powered runs opened six]
    unfold weighLock
    dsimp only
    rw [if_pos code, lockDevice_eq]
    exact ⟨_, rfl⟩
  refine ⟨_, _, doesMem_of_onMem (execSysSetupLock _ s) rfl rfl is, ?_⟩
  exact lockEnds_locks s.clk w

end

/-! ### Counter snapshots (Table 14.13) -/

theorem length_bytesLE (n x : Nat) : (bytesLE n x).length = n := by
  induction n generalizing x with
  | zero => rfl
  | succ n ih => rw [bytesLE, List.length_cons, ih]

theorem fitRecords_all {rs : List (List Nat)} {room : Nat} (fits : (rs.map List.length).sum ≤ room) : fitRecords rs room = rs := by
  induction rs generalizing room with
  | nil => rfl
  | cons r rs ih =>
    rw [List.map_cons, List.sum_cons] at fits
    rw [fitRecords, if_pos (by omega), ih (by omega)]

section
variable {s : State} {o : Origin} {zeros : Bool} {pre : List Nat} {rs : List (List Nat)} {full : Nat}
  (ho : HostOk o s) (short : pre.length ≤ 63) (room : o.resLen ≠ 0)
  (records : (allCtrs.filter (fun c => (zeros || s.dev.count c != 0) && pre.isPrefixOf c.nameBytes)).map
    (fun c => ctrRecord c.nameBytes (s.dev.count c)) = rs)
  (size : 16 + (rs.map List.length).foldl (· + ·) 0 = full)
include ho short room records size

/-- The stamp, the number of records and those that fit, cut at the buffer's length. -/
theorem counterSnapshot_writes : ∀ bs, (bytesLE 8 (clockStamp s.clk) ++ bytesLE 4 (fitRecords rs (o.resLen - 16)).length ++
      bytesLE 4 0 ++ (fitRecords rs (o.resLen - 16)).flatten).take o.resLen = bs →
    Does (.counterSnapshot o zeros pre) s (s.dev.completeWith s.clk o 0x0101 (if full ≤ o.resLen then .ok else .partialDone)
      bs (bs.length + full * 2 ^ 32)) := by
  rintro bs rfl
  obtain ⟨going, fields⟩ := ho
  refine does_of_onDev (execCounterSnapshot o zeros pre s) rfl (if_neg (by simp [going])) ?_
  dsimp only
  rw [if_neg (by simp [fields, room]; omega), records, size, List.flatMap_id]

theorem counterSnapshot_all (fits : full ≤ o.resLen) : Does (.counterSnapshot o zeros pre) s
    (s.dev.completeWith s.clk o 0x0101 .ok (bytesLE 8 (clockStamp s.clk) ++ bytesLE 4 rs.length ++ bytesLE 4 0 ++ rs.flatten)
      (full + full * 2 ^ 32)) := by
  have sum : 16 + (rs.map List.length).sum = full := by rw [List.sum_eq_foldl, size]
  have all : fitRecords rs (o.resLen - 16) = rs := fitRecords_all (by omega)
  have length : (bytesLE 8 (clockStamp s.clk) ++ bytesLE 4 rs.length ++ bytesLE 4 0 ++ rs.flatten).length = full := by
    simp only [List.length_append, length_bytesLE, List.length_flatten]; omega
  have writes := counterSnapshot_writes ho short room records size _ rfl
  rw [all, List.take_of_length_le (length ▸ fits), length, if_pos fits] at writes
  exact writes

theorem counterSnapshot_part {fit : List (List Nat)} {bs : List Nat} (more : o.resLen < full)
    (part : fitRecords rs (o.resLen - 16) = fit)
    (cut : (bytesLE 8 (clockStamp s.clk) ++ bytesLE 4 fit.length ++ bytesLE 4 0 ++ fit.flatten).take o.resLen = bs) :
    Does (.counterSnapshot o zeros pre) s (s.dev.completeWith s.clk o 0x0101 .partialDone bs (bs.length + full * 2 ^ 32)) := by
  subst part
  have writes := counterSnapshot_writes ho short room records size bs cut
  rwa [if_neg (by omega)] at writes

end

/-! ### Ring commands (R404) -/

section
variable {s : State} {o : Origin} (ho : HostOk o s)
include ho

theorem ringCreate_answers {n : Nat} {x : RingSet} (shape : x.shapeOk = true) (queue : s.dev.txpQueueOk x = true)
    (top : n ≤ 255) (vector : x.vector ≤ 63) (ticks : x.modTicks ≤ 255) (count : x.modCount ≤ 255)
    (cpl : x.typ = 1 → s.dev.ringIs x.cplRing 2 = true) (win : s.dev.ringWin x = true) (free : (s.dev.ring n).enabled = false) :
    Answers (.ringCreate o n x.addr x.typ x.sizeLog2 x.gen x.bind x.cplRing x.vector x.irqEn x.modTicks x.modCount) o 0x0102 s
      .ok [] ((s.dev.setRing n { x.ring with held := (s.dev.ring n).held }).dumpReady s.clk) := by
  refine answers_of_hostCmd _ ho rfl ?_
  have bound : (x.typ == 1 && !s.dev.ringIs x.cplRing 2) = false := by
    cases typ : x.typ == 1
    · rfl
    · rw [cpl (beq_iff_eq.mp typ)]; rfl
  have fine : firstStatus .ok [
      (!x.shapeOk || !s.dev.txpQueueOk x || decide (255 < n) || decide (63 < x.vector) || decide (255 < x.modTicks) ||
        decide (255 < x.modCount), .badArg),
      (x.typ == 1 && !s.dev.ringIs x.cplRing 2, .unknownObject), (x.shapeOk && !s.dev.ringWin x, .notPermitted),
      ((s.dev.ring n).enabled, .refusedBusy)] = .ok := by
    simp [firstStatus, shape, queue, bound, win, free, Nat.not_lt.mpr top, Nat.not_lt.mpr vector, Nat.not_lt.mpr ticks,
      Nat.not_lt.mpr count]
  exact if_pos (beq_iff_eq.mpr fine)

section
variable {n : Nat} {r : Ring} (is : s.dev.ring n = r) (on : r.enabled = true)
include is on

theorem ringDestroy_answers (unbound : r.typ ≠ 2 ∨ s.dev.cplBound n = false) :
    Answers (.ringDestroy o n) o 0x0103 s .ok [] (s.dev.ringEnd s.clk n) := by
  subst is
  refine answers_of_hostCmd _ ho rfl ?_
  dsimp only
  rw [if_neg (by simp [on]), if_neg (by simp; tauto)]

theorem ringDestroy_busy (typ : r.typ = 2) (bound : s.dev.cplBound n = true) :
    Answers (.ringDestroy o n) o 0x0103 s .refusedBusy [] s.dev := by
  subst is
  refine answers_of_hostCmd _ ho rfl ?_
  dsimp only
  rw [if_neg (by simp [on]), if_pos (by simp [typ, bound])]

theorem ringStatus_answers : Answers (.ringStatus o n) o 0x0104 s .ok [⟨1, r.typ⟩, ⟨1, r.sizeLog2⟩, ⟨2, r.gen⟩, ⟨4, r.p.toNat⟩,
    ⟨4, r.c.toNat⟩, ⟨4, r.held.length + r.evts.length⟩, ⟨4, r.pend⟩, ⟨8, s.dev.count ⟨.hifRingDbBad, n, 0⟩⟩,
    ⟨8, s.dev.count ⟨.hifRingDbStale, n, 0⟩⟩, ⟨8, s.dev.count ⟨.hifRingDbInvalid, n, 0⟩⟩] s.dev := by
  subst is
  exact answers_of_hostCmd _ ho rfl (if_neg (by simp [on]))

end

theorem sysInfo_answers {a b : Nat} (stage : (s.dev.kln.stage1.map (·.ver)).getD 0 = a) (ctrl : (s.dev.kln.ctrl.map (·.ver)).getD 0 = b) :
    Answers (.sysInfo o) o 0x0105 s .ok
      ([⟨32, a⟩, ⟨32, b⟩] ++ s.dev.kln.tiles.map (fun t => ⟨32, t.ver⟩) ++ [⟨1, 0x10⟩, ⟨4, s.dev.tilCount⟩]) s.dev := by
  subst stage ctrl
  exact answers_of_hostCmd _ ho rfl rfl

theorem echo_answers {args : List Nat} (short : args.length ≤ 24) :
    Answers (.echo o args) o 0x0106 s .ok ((args.take 8).map (fun b => ⟨1, b⟩)) s.dev :=
  answers_of_hostCmd _ ho rfl (if_neg (by omega))

end

/-- A ring that holds no event, with no dump on offer, ends and nothing else happens. -/
theorem Machine.Dev.ringEnd_idle {d : Dev} {n : Nat} {r : Ring} (k : Clock) (is : d.ring n = r) (events : r.evts = [])
    (offer : d.sys.offer = none) : d.ringEnd k n =
      d.setRing n { r with enabled := false, posted := [], evts := [], pend := 0, pendTicks := 0 } := by
  subst is
  simp only [Dev.ringEnd, events, List.length_nil, if_true, Dev.setRing, offer]

/-- Settles O55: the clauses are the branches of BAR0's writes, of the lock and of the ring commands. Behind the lock the lanes are
trained and a dump may be offered; both only tell the host (`TellsHost`), which leaves what the lock has set. -/
theorem setUpIsWrittenAndLocked : Obligations.SetUpIsWrittenAndLocked := by
  unfold Obligations.SetUpIsWrittenAndLocked
  intro s o n ho
  refine ⟨fun powered runs opened => ?_, ?_, ?_, ?_, ?_, ?_, ?_, fun _ => echo_answers ho⟩
  · refine ⟨fun a v rv mask below other spec plain wf => bar0Write_sets powered runs opened below other spec plain wf,
      fun a v => bar0Write_writes powered runs opened, fun a v => bar0Write_misshapen powered runs opened,
      fun a v good => bar0Write_debug powered runs opened,
      fun _ six code => sysSetupLock_locks powered runs opened six code, fun c six code refused => ?_, fun v other => ?_⟩
    · exact does_of_onMem (execSysSetupLock _ s) rfl rfl
        ((writeLock_weighs powered runs opened six).trans (weighLock_refuses code refused))
    · exact does_of_onMem (execSysSetupLock v s) rfl rfl (writeLock_badValue powered runs opened other)
  · exact fun zeros pre rs short room records full size fits => counterSnapshot_all ho short room records size fits
  · exact fun zeros pre rs fit full bs short room records size more part cut =>
      counterSnapshot_part ho short room records size more part cut
  · intro x shape queue top vector ticks count cpl win free
    have creates := ringCreate_answers ho shape queue top vector ticks count cpl win free
    refine ⟨creates, fun ash => ?_⟩
    exact (Dev.dumpReady_none s.clk (d := s.dev.setRing n _) ash) ▸ creates
  · intro r is on
    refine ⟨ringDestroy_answers ho is on, ringDestroy_busy ho is on, fun typ events offer => ?_, ringStatus_answers ho is on⟩
    rw [← Dev.ringEnd_idle s.clk is events offer]
    exact ringDestroy_answers ho is on (.inl typ)
  · exact fun a b => sysInfo_answers ho
  · exact fun i j stage ctrl => sysInfo_answers ho (by rw [stage]; rfl) (by rw [ctrl]; rfl)

end Sys2Proof

namespace Sys2Proof.Machine
open Sys2Proof

/-! ### An item written on a ring -/

/-- `e` comes of `d` by the writing of items already formed: in canonical form every ring keeps its consumer index and what it
holds, and what has been sent stays sent. -/
structure KeepsHeld (d e : Dev) : Prop where
  wf : Store.wf {} d.hif.rings = true → Store.wf {} e.hif.rings = true
  held : Store.wf {} d.hif.rings = true → ∀ n, (e.ring n).held = (d.ring n).held

section
variable {d : Dev} {k : Clock}

theorem KeepsHeld.refl (d : Dev) : KeepsHeld d d := ⟨id, fun _ _ => rfl⟩

theorem KeepsHeld.trans {a b c : Dev} (h : KeepsHeld a b) (g : KeepsHeld b c) : KeepsHeld a c :=
  ⟨g.wf ∘ h.wf, fun wf n => (g.held (h.wf wf) n).trans (h.held wf n)⟩

theorem KeepsHeld.of_rings {e : Dev} (rings : e.hif.rings = d.hif.rings) : KeepsHeld d e :=
  ⟨fun wf => rings ▸ wf, fun _ n => by rw [Dev.ring, rings, Dev.ring]⟩

theorem KeepsHeld.send (d : Dev) (x : Sent) : KeepsHeld d (d.send x) := .of_rings rfl

theorem KeepsHeld.setRing (d : Dev) (n : Nat) {r : Ring} (held : r.held = (d.ring n).held) : KeepsHeld d (d.setRing n r) where
  wf := Store.wf_put
  held wf j := by
    rw [Dev.ring_setRing wf]
    split
    next here => rw [here, held]
    next => rfl

theorem KeepsHeld.foldl {α : Type} {f : Dev → α → Dev} (each : ∀ d x, KeepsHeld d (f d x)) (l : List α) (d : Dev) :
    KeepsHeld d (l.foldl f d) := by
  induction l generalizing d with
  | nil => exact .refl d
  | cons x l ih => exact (each d x).trans (ih _)

theorem KeepsHeld.shadowFor (d : Dev) (sel : Nat → Ring → Bool) : KeepsHeld d (d.shadowFor sel) := by
  refine .foldl (fun d x => ?_) _ d
  split
  · exact (KeepsHeld.send d _).trans (.setRing _ _ rfl)
  · exact .refl d

theorem KeepsHeld.clearPend (d : Dev) (v : Nat) : KeepsHeld d (d.clearPend v) := by
  refine .foldl (fun d x => ?_) _ d
  split
  · exact .setRing _ _ rfl
  · exact .refl d

theorem KeepsHeld.requestVec (k : Clock) (d : Dev) (v : Nat) : KeepsHeld d (d.requestVec k v) := by
  unfold Dev.requestVec
  split
  · exact .of_rings rfl
  · refine .trans (b := d.shadowFor (fun _ r => r.vector == v)) (.shadowFor d _) ?_
    dsimp only
    refine .trans ?_ (.clearPend _ _)
    split <;> exact .of_rings rfl

theorem KeepsHeld.wrote (k : Clock) (d : Dev) (n : Nat) : KeepsHeld d (d.wrote k n) := by
  unfold Dev.wrote
  dsimp only
  split
  · split
    · refine .trans ?_ (.requestVec _ _ _)
      exact .setRing _ _ rfl
    · exact .setRing _ _ rfl
  · exact .refl d

/-- A completion written takes the next slot of its CPL ring, with the phase of that pass (R396). -/
theorem Dev.writeCpl_writes (wf : Store.wf {} d.hif.rings = true) (q : Nat) (e : Cpl) :
    Sent.cpl q (d.ring q).c (d.ring q).phase e ∈ (d.writeCpl k q e).hif.sent ∧
      ((d.writeCpl k q e).ring q).c = (d.ring q).c + 1 ∧ ((d.writeCpl k q e).ring q).held = (d.ring q).held := by
  unfold Dev.writeCpl
  dsimp only
  generalize counted : ite (e.status == .ok) _ _ = x
  have hif : x.hif = ((d.send (.cpl q (d.ring q).c (d.ring q).phase e)).setRing q
      { d.ring q with c := (d.ring q).c + 1 }).hif := by
    rw [← counted]
    split <;> rfl
  have reads : x.ring q = { d.ring q with c := (d.ring q).c + 1 } := by
    rw [Dev.ring, hif]
    exact Store.get_put_self wf
  have wfx : Store.wf {} x.hif.rings = true := by rw [hif]; exact Store.wf_put wf
  refine ⟨(KeepsBuffers.wrote k x q).sent _ (by rw [hif]; exact .head _), ?_, ?_⟩
  · rw [(KeepsBuffers.wrote k x q).c wfx, reads]
  · rw [(KeepsHeld.wrote k x q).held wfx, reads]

/-- One completion held alone, with a slot free, is written into it. -/
theorem Dev.flushCpl_writes {q : Nat} {e : Cpl} (wf : Store.wf {} d.hif.rings = true) (held : (d.ring q).held = [e])
    (on : (d.ring q).enabled = true) (free : 0 < (d.ring q).free) (dma : d.dmaOn = true) :
    Sent.cpl q (d.ring q).c (d.ring q).phase e ∈ (d.flushCpl k q).hif.sent ∧ ((d.flushCpl k q).ring q).c = (d.ring q).c + 1 ∧
      ((d.flushCpl k q).ring q).held = [] := by
  have flush : d.flushCpl k q = (d.setRing q { d.ring q with held := [] }).writeCpl k q e := by
    rw [Dev.flushCpl, held, List.length_singleton, Dev.flushCplN, held]
    dsimp only
    rw [if_pos (by simp [on, free, dma])]
    rfl
  have taken : (d.setRing q { d.ring q with held := [] }).ring q = { d.ring q with held := [] } := Store.get_put_self wf
  have writes := Dev.writeCpl_writes (k := k) (d := d.setRing q { d.ring q with held := [] }) (Store.wf_put wf) q e
  rw [taken, ← flush] at writes
  exact writes

/-- Without a free slot a completion stays with those held. -/
theorem Dev.flushCpl_full {q : Nat} (full : (d.ring q).free = 0) : d.flushCpl k q = d := by
  unfold Dev.flushCpl
  cases (d.ring q).held.length with
  | zero => rfl
  | succ n =>
    unfold Dev.flushCplN
    split
    · rfl
    · exact if_neg (by simp [full])

/-- A completion without a buffer joins those held by the CPL ring bound to its command's ring, which is then flushed. -/
theorem Dev.completeWith_joins {o : Origin} {opc q : Nat} {st : Status} {result : Nat} {wr : List Nat}
    (going : d.sys.inReset = none) (bare : o.resLen = 0)
    (bound : ((d.hif.outst.find? (fun x => x.ring == o.ring && x.tag == o.tag && x.opcode == opc)).map (·.cpl)).getD
      (d.ring o.ring).cplRing = q) :
    d.completeWith k o opc st wr result = (({ d with hif := { d.hif with
      outst := d.hif.outst.eraseP (fun x => x.ring == o.ring && x.tag == o.tag && x.opcode == opc) } } : Dev).setRing q
        { d.ring q with held := (d.ring q).held ++ [{ tag := o.tag, status := st, buffered := false, opcode := opc,
                                                      cmdRing := o.ring, result := result }] }).flushCpl k q := by
  subst bound
  unfold Dev.completeWith
  rw [if_neg (by simp [going])]
  simp only [bare, Nat.lt_irrefl, decide_false, Bool.false_and, Bool.false_eq_true, if_false]
  rfl

end

/-! ### The moderation timer (R395) -/

section
variable {d : Dev} {k : Clock} {v : Nat}

theorem Dev.clearPend_sent (d : Dev) (v : Nat) : (d.clearPend v).hif.sent = d.hif.sent :=
  foldl_keeps (fun e : Dev => e.hif.sent) (fun e p => by split <;> rfl) _ _

theorem Dev.clearPend_ctr (d : Dev) (v : Nat) : (d.clearPend v).ctr = d.ctr :=
  foldl_keeps Dev.ctr (fun e p => by split <;> rfl) _ _

theorem Dev.shadowFor_ctr (d : Dev) (sel : Nat → Ring → Bool) : (d.shadowFor sel).ctr = d.ctr :=
  foldl_keeps Dev.ctr (fun e p => by split <;> rfl) _ _

/-- The shadow words move only the rings' shadow indices. -/
theorem Dev.shadowFor_ring (wf : Store.wf {} d.hif.rings = true) (sel : Nat → Ring → Bool) (n : Nat) :
    Store.wf {} (d.shadowFor sel).hif.rings = true ∧
      (d.shadowFor sel).ring n = { d.ring n with shadowC := ((d.shadowFor sel).ring n).shadowC } := by
  unfold Dev.shadowFor
  generalize d.hif.rings.entries = l
  induction l generalizing d with
  | nil => exact ⟨wf, rfl⟩
  | cons p l ih =>
    rw [List.foldl_cons]
    split
    · obtain ⟨wf', moved⟩ := ih (d := (d.send _).modRing p.1 fun r => { r with shadowC := r.c }) (Store.wf_put wf)
      refine ⟨wf', moved.trans ?_⟩
      rw [Dev.modRing, Dev.ring_setRing (d := d.send _) wf]
      split
      next here => rw [here]; rfl
      next => rfl
    · exact ih wf

/-- A ring of the vector, and one with no item pending, has none pending after it. -/
theorem Dev.clearPend_listed {n : Nat} (l : List (Nat × Ring)) (wf : Store.wf {} d.hif.rings = true)
    (mine : (∃ r, (n, r) ∈ l ∧ r.vector = v) ∨ (d.ring n).pend = 0) :
    ((l.foldl (fun (d : Dev) p => if p.2.vector == v then d.modRing p.1 (fun r => { r with pend := 0, pendTicks := 0 }) else d)
      d).ring n).pend = 0 := by
  induction l generalizing d with
  | nil => exact mine.elim (fun ⟨_, listed, _⟩ => absurd listed List.not_mem_nil) id
  | cons p l ih =>
    rw [List.foldl_cons]
    split
    next hit =>
      refine ih (Store.wf_put wf) ?_
      rw [Dev.modRing, Dev.ring_setRing wf]
      by_cases here : n = p.1
      · exact .inr (by rw [if_pos here])
      · rw [if_neg here]
        refine mine.imp_left fun ⟨r, listed, vector⟩ => ⟨r, ?_, vector⟩
        exact (List.mem_cons.mp listed).resolve_left fun is => here (congrArg Prod.fst is)
    next miss =>
      refine ih wf (mine.imp_left fun ⟨r, listed, vector⟩ => ⟨r, ?_, vector⟩)
      exact (List.mem_cons.mp listed).resolve_left fun is => miss (beq_iff_eq.mpr (is ▸ vector))

theorem Dev.clearPend_pend (wf : Store.wf {} d.hif.rings = true) {n : Nat} (mine : (d.ring n).vector = v) :
    ((d.clearPend v).ring n).pend = 0 := by
  refine Dev.clearPend_listed _ wf ?_
  by_cases plain : d.ring n = {}
  · exact .inr (by rw [plain])
  · exact .inl ⟨d.ring n, Store.mem_of_get_ne plain, mine⟩

theorem Dev.requestVec_masked (masked : d.vecMasked v = true) :
    d.requestVec k v = { d with hif := { d.hif with pba := d.hif.pba ||| BitVec.twoPow 64 v } } := if_pos masked

/-- A vector that is not masked, requested for the first time in the sub-tick: its message goes behind the shadow words. -/
theorem Dev.requestVec_sends (clear : d.vecMasked v = false) (first : d.hif.msgAt.get 0 v ≠ clockStamp k + 1) :
    ∃ e, d.requestVec k v = Dev.clearPend { (d.shadowFor (fun _ r => r.vector == v)).send (.msix v) with hif := e } v ∧
      e.sent.head? = some (.msix v) ∧ e.rings = (d.shadowFor (fun _ r => r.vector == v)).hif.rings := by
  unfold Dev.requestVec
  rw [if_neg (by simp [clear])]
  have same : (d.shadowFor (fun _ r => r.vector == v)).hif.msgAt = d.hif.msgAt :=
    foldl_keeps (fun e : Dev => e.hif.msgAt) (fun e p => by split <;> rfl) _ _
  dsimp only
  rw [same, if_neg (by simpa using first)]
  exact ⟨_, rfl, rfl, rfl⟩

/-- One message goes out, and the vector's rings have nothing pending any more. -/
theorem Dev.requestVec_clears {n : Nat} (wf : Store.wf {} d.hif.rings = true) (mine : (d.ring n).vector = v)
    (clear : d.vecMasked v = false) (first : d.hif.msgAt.get 0 v ≠ clockStamp k + 1) :
    d.requestVec k v = { d with hif := (d.requestVec k v).hif } ∧ (d.requestVec k v).hif.sent.head? = some (.msix v) ∧
      ((d.requestVec k v).ring n).pend = 0 ∧ ((d.requestVec k v).ring n).c = (d.ring n).c := by
  refine ⟨?_, ?_, ?_, (KeepsBuffers.requestVec k d v).c wf n⟩
  all_goals obtain ⟨e, is, head, rings⟩ := Dev.requestVec_sends (k := k) clear first
  · have ctr : (d.requestVec k v).ctr = d.ctr := by
      rw [is, Dev.clearPend_ctr]
      exact Dev.shadowFor_ctr d _
    have only : d.requestVec k v = _ := OnlyHif.requestVec k d v
    rw [ctr] at only
    exact only
  · rw [is, Dev.clearPend_sent]
    exact head
  · obtain ⟨wf', moved⟩ := Dev.shadowFor_ring wf (fun _ r => r.vector == v) n
    rw [is]
    refine Dev.clearPend_pend (by rw [rings]; exact wf') ?_
    rw [Dev.ring, rings, ← Dev.ring, moved]
    exact mine

end
end Sys2Proof.Machine

namespace Sys2Proof.Machine
open Sys2Proof

/-! ### A completion without a buffer (R387) -/

theorem take_fieldsBytes (args : List Nat) : (fieldsBytes ((args.take 8).map (fun b => (⟨1, b⟩ : RField)))).take 8 =
    (args.take 8).flatMap (bytesLE 1) := by
  rw [fieldsBytes, List.flatMap_map]
  refine List.take_of_length_le ?_
  rw [List.length_flatMap]
  simp [length_bytesLE]

theorem Dev.complete_bare {d : Dev} {k : Clock} {o : Origin} {opc : Nat} {st : Status} {res : List RField} (bare : o.resLen = 0) :
    d.complete k o opc st res = d.completeWith k o opc st [] (ofBytesLE ((fieldsBytes res).take 8)) := by
  simp [Dev.complete, bare]

/-! ### A fetch with one ring (R381 to R386) -/

section
variable {d : Dev} {n : Nat} {r : Ring} {k : Clock}

theorem Dev.ring_single (single : d.hif.rings = [(n, r)]) : d.ring n = r := by
  simp [Dev.ring, single, Store.get]

theorem Dev.ring_other (single : d.hif.rings = [(n, r)]) {q : Nat} (other : q ≠ n) : d.ring q = {} := by
  simp [Dev.ring, single, Store.get, other]

theorem Dev.setRing_single (single : d.hif.rings = [(n, r)]) {y : Ring} (on : y.enabled = true) :
    (d.setRing n y).hif.rings = [(n, y)] := by
  have ne : y ≠ {} := fun is => by rw [is] at on; cases on
  simp only [Dev.setRing, single, Store.put, if_true, if_neg ne]

/-- A good doorbell word moves the producer index. -/
theorem Dev.doorbells_single (single : d.hif.rings = [(n, r)]) (on : r.enabled = true) {w : DbWord} (mine : w.ring = n)
    (gen : w.gen = r.gen) (chk : w.chk = 65535 - w.gen) (room : (w.index - r.c).toNat ≤ r.size)
    (ahead : (w.index - r.p).toNat < 2 ^ 31) : d.doorbells [w] = d.setRing n { r with p := w.index } := by
  have reads := Dev.ring_single single
  unfold Dev.doorbells
  rw [single]
  simp only [Store.entries, List.foldl_cons, List.foldl_nil]
  rw [if_pos on, List.find?_cons_of_pos (by simpa using mine), Option.getD_some]
  unfold Dev.doorbell
  dsimp only
  rw [reads, if_neg (by simp [chk]), if_neg (by simp [gen]), if_neg (by simpa using ⟨room, ahead⟩)]

/-- `e` differs from `d` only in the buffer writes that wait and in what has been sent. -/
def OnlyWrites (d e : Dev) : Prop := e = { d with hif := { d.hif with heldWr := e.hif.heldWr, sent := e.hif.sent } }

theorem OnlyWrites.flushWr (d : Dev) : OnlyWrites d d.flushWr := by
  have sends (l : List (Nat × List Nat)) (d e : Dev) (only : OnlyWrites d e) :
      OnlyWrites d (l.foldl (fun (d : Dev) x => d.send (.hostWrite x.1 x.2)) e) := by
    induction l generalizing e with
    | nil => exact only
    | cons x l ih =>
      refine ih (e.send _) ?_
      unfold OnlyWrites at *
      rw [only]
      rfl
  unfold Dev.flushWr
  split
  · exact sends _ d _ rfl
  · rfl

/-- With one ring, of commands, and nothing else to tell, the host gets the buffer writes alone. -/
theorem Dev.flushHost_single (single : d.hif.rings = [(n, r)]) (typ : r.typ = 1) (offer : d.sys.offer = none)
    (pba : d.hif.pba = 0) : d.flushHost k = d.flushWr := by
  have only := OnlyWrites.flushWr d
  have rings : d.flushWr.hif.rings = [(n, r)] := by rw [only]; exact single
  have offer' : d.flushWr.sys.offer = none := by rw [only]; exact offer
  have pba' : d.flushWr.hif.pba = 0 := by rw [only]; exact pba
  simp only [Dev.flushHost, rings, Store.entries, List.foldl_cons, List.foldl_nil, typ]
  rw [if_neg (by decide), if_neg (by decide), Dev.dmpFill_none k offer', Dev.drainPba_none k pba']

/-- A command that passes checks 1 to 4 of R384 without a buffer joins those outstanding. -/
theorem Dev.admitOne_joins (single : d.hif.rings = [(n, r)]) (on : r.enabled = true) {x : CmdDesc} (inline : x.indirect = false)
    (rsv : x.rsvOk = true) (short : x.argLen ≤ 24) (defined : definedOp x.opcode = true) : d.admitOne k n x =
      { d with hif := { d.hif with
          rings := [(n, { r with c := r.c + 1, readTo := r.c + 1 })]
          rr := (n + 1) % 256
          outst := d.hif.outst ++
            [{ ring := n, tag := x.tag, opcode := x.opcode, resAddr := 0, resLen := 0, cpl := r.cplRing }] } } := by
  have moved : (d.modRing n (fun r => { r with c := r.c + 1, readTo := r.c + 1 })) =
      { d with hif := { d.hif with rings := [(n, { r with c := r.c + 1, readTo := r.c + 1 })] } } := by
    rw [Dev.modRing, Dev.ring_single single, ← Dev.setRing_single (d := d) single (y := { r with c := r.c + 1, readTo := r.c + 1 }) on]
    rfl
  have passes (e : Dev) : e.descCheck x = (none, e) := by
    simp [Dev.descCheck, inline, rsv, short, defined]
  unfold Dev.admitOne
  rw [moved]
  dsimp only
  rw [passes]
  simp [inline, Dev.ring, Store.get]

theorem Dev.holdOf_none (single : d.hif.rings = [(n, r)]) (other : r.cplRing ≠ n) {x : CmdDesc}
    (room : d.hif.outst.length < 1024) (fence : x.fence = false) : d.holdOf n x = .none := by
  unfold Dev.holdOf
  rw [Dev.ring_single single, Dev.ring_other single other, if_neg (by decide), if_neg (by simp [fence]; omega)]

/-- With no command left in the page none is held. -/
theorem Dev.countHolds_none (d : Dev) (n : Nat) : d.countHolds [(n, [])] = d := by
  unfold Dev.countHolds
  simp only [List.filterMap_cons, List.filterMap_nil, List.isEmpty_nil, if_true, List.contains_nil]
  exact foldl_unchanged_of_mem fun _ _ => rfl

/-- The fetch admits the one command of the one ring. -/
theorem Dev.takeCmds_single (single : d.hif.rings = [(n, r)]) (on : r.enabled = true) (typ : r.typ = 1)
    (other : r.cplRing ≠ n) (free : 0 < r.free) {x : CmdDesc} (room : d.hif.outst.length < 1024) (fence : x.fence = false) :
    d.takeCmds k [(n, [x])] = d.admitOne k n x := by
  have reads := Dev.ring_single single
  have admits : d.admissible [(n, [x])] = [n] := by
    simp [Dev.admissible, Dev.ringIs, reads, on, typ, free, Dev.holdOf_none single other room fence]
  have admitted : d.admitN k 1 [(n, [x])] = ([(n, [])], d.admitOne k n x) := by
    by_cases turn : d.hif.rr ≤ n <;> simp [Dev.admitN, admits, turn]
  calc d.takeCmds k [(n, [x])]
      = (d.admitN k 1 [(n, [x])]).2.countHolds (d.admitN k 1 [(n, [x])]).1 := rfl
    _ = d.admitOne k n x := by rw [admitted]; exact Dev.countHolds_none _ n

/-- The shadow of the one ring follows its consumer index. -/
theorem Dev.shadowFor_single (single : d.hif.rings = [(n, r)]) (on : r.enabled = true) :
    ((d.shadowFor (fun _ _ => true)).hif.rings = [(n, { r with shadowC := r.c })]) := by
  unfold Dev.shadowFor
  rw [single]
  simp only [Store.entries, List.foldl_cons, List.foldl_nil, Bool.true_and]
  split
  · rw [Dev.modRing, Dev.ring_single (d := d.send _) single]
    exact Dev.setRing_single (d := d.send _) single on
  next same =>
    have here : r.c = r.shadowC := by simpa using same
    exact single.trans (congrArg (fun c => [(n, { r with shadowC := c })]) here.symm)

theorem Dev.shadowFor_outst (d : Dev) (sel : Nat → Ring → Bool) : (d.shadowFor sel).hif.outst = d.hif.outst :=
  foldl_keeps (fun e : Dev => e.hif.outst) (fun e p => by split <;> rfl) _ _

end
end Sys2Proof.Machine

namespace Sys2Proof
open Sys2Proof.Machine

section
variable {s : State}

/-- A fetch that is due sets the next one a period on and takes the page. -/
theorem doorbellFetch_takes {sub t : Nat} {page : Option Page} (later : s.clk.sub ≤ sub) (lt : sub < 3072)
    (locked : s.dev.hif.locked = true) (dma : s.dev.dmaOn = true) (at_ : s.dev.hif.fetchAt = some t)
    (due : t ≤ s.clk.tick * 3072 + sub) : exec (.doorbellFetch sub page) s = .next { s with
      clk := { s.clk with sub := sub }
      dev := (s.dev.setHif { s.dev.hif with fetchAt := some (t + s.dev.hif.period) }).dbFetch { s.clk with sub := sub } page } := by
  have going : s.dev.hif.paused = false := by
    simp only [Dev.dmaOn, Bool.and_eq_true, Bool.not_eq_true'] at dma; exact dma.2
  have now : clockAbs { s.clk with sub := sub } = s.clk.tick * 3072 + sub := rfl
  refine (if_pos ⟨later, lt⟩ : execDoorbellFetch sub page s = _).trans ?_
  rw [onDev_next]
  dsimp only
  rw [now, at_]
  dsimp only
  rw [if_neg (by simp [locked, going, due]), if_pos (by exact dma)]
  rfl

/-- The fetch of a good doorbell word and one command, on a device with one ring. -/
theorem Machine.Dev.dbFetch_single {d : Dev} {n : Nat} {r : Ring} {x : CmdDesc} {w : DbWord} {vm vc : BitVec 64} (k : Clock)
    (single : d.hif.rings = [(n, r)]) (on : r.enabled = true) (typ : r.typ = 1) (other : r.cplRing ≠ n) (mine : w.ring = n)
    (gen : w.gen = r.gen) (chk : w.chk = 65535 - w.gen) (fits : (w.index - r.c).toNat ≤ r.size) (some_ : 0 < (w.index - r.c).toNat)
    (ahead : (w.index - r.p).toNat < 2 ^ 31) (bad : vc ≠ ~~~vm) (offer : d.sys.offer = none) (pba : d.hif.pba = 0)
    (room : d.hif.outst.length < 1024) (fence : x.fence = false) (inline : x.indirect = false) (rsv : x.rsvOk = true)
    (short : x.argLen ≤ 24) (defined : definedOp x.opcode = true) :
    ∃ e, d.dbFetch k (some { words := [w], vmask := vm, vchk := vc, cmds := [(n, [x])], txps := [], bufs := [] }) = e ∧
      (e.ring n).p = w.index ∧ (e.ring n).c = r.c + 1 ∧ (e.ring n).shadowC = r.c + 1 ∧ e.hif.vmask = d.hif.vmask ∧
      e.hif.outst = d.hif.outst ++
        [{ ring := n, tag := x.tag, opcode := x.opcode, resAddr := 0, resLen := 0, cpl := r.cplRing }] ∧
      e.hif.sent.head? = some (.fetchStamp (clockStamp k)) := by
  refine ⟨_, rfl, ?_⟩
  have moved : (d.setRing n { r with p := w.index }).hif.rings = [(n, { r with p := w.index })] := Dev.setRing_single single on
  have only := OnlyWrites.flushWr (d.setRing n { r with p := w.index })
  unfold Dev.dbFetch
  dsimp only
  rw [Dev.doorbells_single single on mine gen chk fits ahead, if_neg (by simpa using bad),
    Dev.flushHost_single moved typ offer pba]
  generalize (d.setRing n { r with p := w.index }).flushWr = f at only
  have rings : f.hif.rings = [(n, { r with p := w.index })] := by rw [only]; exact moved
  have outst : f.hif.outst = d.hif.outst := by rw [only]; rfl
  have vmask : f.hif.vmask = d.hif.vmask := by rw [only]; rfl
  have quiet : f.sys.offer = none := by rw [only]; exact offer
  rw [Dev.takeCmds_single rings on typ other some_ (by rw [outst]; exact room) fence,
    Dev.admitOne_joins rings on inline rsv short defined]
  generalize admitted : ({ f with hif := _ } : Dev) = g
  have told : g.sys.offer = none := by rw [← admitted]; exact quiet
  have held : g.hif.rings = [(n, { r with p := w.index, c := r.c + 1, readTo := r.c + 1 })] := by rw [← admitted]
  rw [show (g.txps k []).posts [] = g from rfl, Dev.dmpFill_none k told]
  have last : (g.shadowFor (fun _ _ => true)).ring n = _ := Dev.ring_single (Dev.shadowFor_single held on)
  have reads (y : Sent) : ((g.shadowFor (fun _ _ => true)).send y).ring n = (g.shadowFor (fun _ _ => true)).ring n := rfl
  have masks : g.hif.vmask = d.hif.vmask := by rw [← admitted]; exact vmask
  refine ⟨by rw [reads, last], by rw [reads, last], by rw [reads, last],
    (TellsHost.shadowFor g fun _ _ => true).vmask.trans masks, (Dev.shadowFor_outst g _).trans ?_, rfl⟩
  rw [← admitted, ← outst]

/-- A command echoed without a buffer is completed on the CPL ring that its ring is bound to. -/
theorem echo_completes {o : Origin} {args : List Nat} {q : Nat} (ho : HostOk o s) (short : args.length ≤ 24)
    (going : s.dev.sys.inReset = none) (bare : o.resLen = 0) (held : (s.dev.ring q).held = [])
    (bound : ((s.dev.hif.outst.find? (fun x => x.ring == o.ring && x.tag == o.tag && x.opcode == 0x0106)).map (·.cpl)).getD
      (s.dev.ring o.ring).cplRing = q)
    {e : Cpl} (is : e = { tag := o.tag, status := .ok, buffered := false, opcode := 0x0106, cmdRing := o.ring,
                          result := ofBytesLE ((args.take 8).flatMap (bytesLE 1)) }) :
    ∃ outst, Does (.echo o args) s ((({ s.dev with hif := { s.dev.hif with outst := outst } } : Dev).setRing q
      { s.dev.ring q with held := [e] }).flushCpl s.clk q) := by
  refine ⟨s.dev.hif.outst.eraseP (fun x => x.ring == o.ring && x.tag == o.tag && x.opcode == 0x0106), ?_⟩
  have completes : Does (.echo o args) s _ := echo_answers ho short
  rw [Dev.complete_bare bare, take_fieldsBytes, Dev.completeWith_joins going bare bound, held, List.nil_append, ← is] at completes
  exact completes

/-- A completion whose CPL ring has a slot free is written there. -/
theorem echo_writes {o : Origin} {args : List Nat} {q : Nat} {r : Ring} (ho : HostOk o s) (short : args.length ≤ 24)
    (going : s.dev.sys.inReset = none) (bare : o.resLen = 0)
    (bound : ((s.dev.hif.outst.find? (fun x => x.ring == o.ring && x.tag == o.tag && x.opcode == 0x0106)).map (·.cpl)).getD
      (s.dev.ring o.ring).cplRing = q) (reads : s.dev.ring q = r) (held : r.held = [])
    (wf : Store.wf {} s.dev.hif.rings = true) {e : Cpl}
    (is : e = { tag := o.tag, status := .ok, buffered := false, opcode := 0x0106, cmdRing := o.ring,
                result := ofBytesLE ((args.take 8).flatMap (bytesLE 1)) }) :
    (r.enabled = true → 0 < r.free → s.dev.dmaOn = true → ∃ d : Dev, Does (.echo o args) s d ∧
      Sent.cpl q r.c ((r.c.toNat / r.size + 1) % 2) e ∈ d.hif.sent ∧ (d.ring q).c = r.c + 1 ∧ (d.ring q).held = []) ∧
    (r.free = 0 → ∃ d : Dev, Does (.echo o args) s d ∧ d.hif.sent = s.dev.hif.sent ∧ (d.ring q).c = r.c ∧
      (d.ring q).held = [e]) := by
  subst reads
  obtain ⟨outst, does⟩ := echo_completes ho short going bare held bound is
  generalize begun : ({ s.dev with hif := _ } : Dev) = d at does
  have rings : Store.wf {} d.hif.rings = true := by rw [← begun]; exact wf
  have joined : (d.setRing q { s.dev.ring q with held := [e] }).ring q = { s.dev.ring q with held := [e] } :=
    Store.get_put_self rings
  refine ⟨fun on free dma => ⟨_, does, ?_⟩, fun full => ⟨_, does, ?_⟩⟩
  · have writes := Dev.flushCpl_writes (k := s.clk) (d := d.setRing q { s.dev.ring q with held := [e] }) (Store.wf_put rings)
      (by rw [joined]) (by rw [joined]; exact on) (by rw [joined]; exact free) (by rw [← begun]; exact dma)
    rw [joined] at writes
    exact writes
  · rw [Dev.flushCpl_full (by rw [joined]; exact full), joined]
    exact ⟨by rw [← begun]; rfl, rfl, rfl⟩

end

/-- Settles O56: the fetch on a device with one ring is followed step by step (`Dev.dbFetch_single`); what is written on a ring after
a completion, and the messages it brings, keep the consumer indices and the completions held (`KeepsBuffers`, `KeepsHeld`). -/
theorem doorbellsAdmitAndCompletionsAreWritten : Obligations.DoorbellsAdmitAndCompletionsAreWritten := by
  unfold Obligations.DoorbellsAdmitAndCompletionsAreWritten
  intro s
  refine ⟨?_, fun sub t page => doorbellFetch_takes, fun sub t => doorbellFetch_takes, ?_, ?_⟩
  · intro sub n r x w vm vc t later lt locked dma at_ due single on typ _ other mine gen chk fits some_ ahead bad offer pba room
      fence inline rsv short defined
    obtain ⟨e, is, reads⟩ := Dev.dbFetch_single (d := s.dev.setHif { s.dev.hif with fetchAt := some (t + s.dev.hif.period) })
      { s.clk with sub := sub } single on typ other mine gen chk fits some_ ahead bad offer pba room fence inline rsv short defined
    refine ⟨e, ?_, ?_⟩
    · rw [doorbellFetch_takes later lt locked dma at_ due, is]
    · rw [Dev.ring_single single]
      exact reads
  · intro o args q r ho short going bound reads bare held wf e is
    exact echo_writes ho short going bare bound reads held wf is
  · intro n r reads on irq pending timed due wf
    subst reads
    have asks : Does (.msixModerationExpiry n) s (s.dev.requestVec s.clk (s.dev.ring n).vector) :=
      does_of_onDev (execMsixModerationExpiry n s) rfl rfl (if_pos (by simp [on, irq, pending, timed, due]))
    refine ⟨fun clear first => ⟨_, asks, Dev.requestVec_clears wf rfl clear first⟩, fun masked => ?_⟩
    rw [Dev.requestVec_masked masked] at asks
    exact asks

end Sys2Proof

/-! # Tamper's jobs (chapter 15)

A job's check, its submission and its end are each said once, for any source; the statements put them behind the command or packet
that brings the job. -/

namespace Sys2Proof.Machine
open Sys2Proof

/-! ### The checks of R406 -/

section
variable {d : Dev} {who : TmpSrc} {t : TmpDesc}

theorem Dev.tmpCheckJob_bad (shape : t.shapeOk = false) :
    d.tmpCheckJob who t = (some (.badArg, tmpResult 0 0 0 0 0), d.bump0 .tmpJobBad) := if_pos (by simp [shape])

section
variable (shape : t.shapeOk = true)
include shape

theorem Dev.tmpCheckJob_denied (mem : d.tmpMemOk who t = false) : d.tmpCheckJob who t =
    (some (.notPermitted, tmpResult 0 0 0 0 0), if who == .host then d.bump0 .hifWindowDenied else d) := by
  unfold Dev.tmpCheckJob
  rw [if_neg (by simp [shape]), if_pos (by simp [mem])]

section
variable (mem : d.tmpMemOk who t = true)
include mem

theorem Dev.tmpCheckJob_small (dir : t.dir = 0) (small : t.cap < tmpBound t.cls t.inLen) :
    d.tmpCheckJob who t = (some (.noResource, tmpResult (tmpBound t.cls t.inLen) 0 0 0 0), d) := by
  unfold Dev.tmpCheckJob
  rw [if_neg (by simp [shape]), if_neg (by simp [mem]), if_pos (by simp [dir, small])]

section
variable (room : t.dir = 0 → tmpBound t.cls t.inLen ≤ t.cap)
include room

theorem Dev.tmpCheckJob_off (off : d.tmp.enabled = false) :
    d.tmpCheckJob who t = (some (.aborted, tmpResult 0 0 0 0 0), d.bump0 .tmpAbort) := by
  unfold Dev.tmpCheckJob
  rw [if_neg (by simp [shape]), if_neg (by simp [mem]), if_neg (by simpa using room), if_pos (by simp [off])]

theorem Dev.tmpCheckJob_passes (on : d.tmp.enabled = true) : d.tmpCheckJob who t = (none, d) := by
  unfold Dev.tmpCheckJob
  rw [if_neg (by simp [shape]), if_neg (by simp [mem]), if_neg (by simpa using room), if_neg (by simp [on])]

end
end
end
end

/-! ### Contexts (R417) -/

/-- No job waits for a context. -/
def Tmp.noneWaits (x : Tmp) : Prop := x.waitCtrl = [] ∧ x.waitTile = [] ∧ x.waitHost = []

section
variable {x : Tmp}

theorem Tmp.noneWaits_clear (idle : x.noneWaits) : { x with waitCtrl := [], waitTile := [], waitHost := [] } = x := by
  obtain ⟨ctrl, tile, host⟩ := idle
  cases x
  cases ctrl
  cases tile
  cases host
  rfl

theorem Tmp.waitOf_none (idle : x.noneWaits) (n : Nat) : x.waitOf n = [] := by
  obtain ⟨ctrl, tile, host⟩ := idle
  unfold Tmp.waitOf
  split
  · exact ctrl
  · split
    · exact tile
    · exact host

theorem Tmp.give_none (idle : x.noneWaits) (packing : Bool) (n : Nat) : x.give packing n = x := by
  cases n with
  | zero => rfl
  | succ n =>
    have source : x.source packing = none := by
      simp [Tmp.source, idle.1, Tmp.waitOf_none idle]
    unfold Tmp.give
    rw [source]
    simp

section
variable (idle : x.noneWaits) (turn : x.turn < 3) (room : x.active.length < 4) (packing : Bool) (j : TmpJob)
include idle turn room

/-- The only job that waits, a host's, takes a free context. -/
theorem Tmp.give_host : ({ x with waitHost := [j] } : Tmp).give packing 4 = { x with active := x.active ++ [j], turn := 0 } := by
  obtain ⟨ctrl, tile, host⟩ := idle
  have source : ({ x with waitHost := [j] } : Tmp).source packing = some 2 := by
    obtain t | t | t : x.turn = 0 ∨ x.turn = 1 ∨ x.turn = 2 := by omega
    all_goals simp [Tmp.source, Tmp.waitOf, ctrl, tile, t]
  unfold Tmp.give
  rw [if_neg (by simpa using room), source]
  refine (Tmp.give_none (x := { x with active := x.active ++ [j], turn := 0, waitHost := [] }) ⟨ctrl, tile, rfl⟩ packing 3).trans ?_
  rw [← host]

/-- The only job that waits, a tile's, takes a free context. -/
theorem Tmp.give_tile : ({ x with waitTile := [j] } : Tmp).give packing 4 = { x with active := x.active ++ [j], turn := 2 } := by
  obtain ⟨ctrl, tile, host⟩ := idle
  have source : ({ x with waitTile := [j] } : Tmp).source packing = some 1 := by
    obtain t | t | t : x.turn = 0 ∨ x.turn = 1 ∨ x.turn = 2 := by omega
    all_goals simp [Tmp.source, Tmp.waitOf, ctrl, host, t]
  unfold Tmp.give
  rw [if_neg (by simpa using room), source]
  refine (Tmp.give_none (x := { x with active := x.active ++ [j], turn := 2, waitTile := [] }) ⟨ctrl, rfl, host⟩ packing 3).trans ?_
  rw [← tile]

end
end

section
variable {d : Dev} (idle : d.tmp.noneWaits)
include idle

theorem Dev.tmpGive_none : d.tmpGive = d := by
  unfold Dev.tmpGive
  rw [Tmp.give_none idle]
  rfl

section
variable (turn : d.tmp.turn < 3) (room : d.tmp.active.length < 4) (t : TmpDesc)
include turn room

theorem Dev.tmpSubmit_host : d.tmpSubmit .host t = { d with tmp := { d.tmp with
    nextId := d.tmp.nextId + 1, turn := 0, active := d.tmp.active ++ [{ id := d.tmp.nextId, who := .host, desc := t }] } } := by
  have alone : d.tmp.waitHost ++ [({ id := d.tmp.nextId, who := .host, desc := t } : TmpJob)] = [{ id := d.tmp.nextId, who := .host, desc := t }] := by
    rw [idle.2.2, List.nil_append]
  unfold Dev.tmpSubmit Dev.tmpGive
  dsimp only [Dev.setTmp]
  rw [alone]
  exact congrArg (fun y => { d with tmp := y })
    (Tmp.give_host (x := { d.tmp with nextId := d.tmp.nextId + 1 }) idle turn room _ _)

theorem Dev.tmpSubmit_tile {w0 : Word} {th fl : Nat} {nt : Bool} {rsp : Nat} : d.tmpSubmit (.tile w0 th fl nt rsp) t =
    { d with tmp := { d.tmp with
      nextId := d.tmp.nextId + 1, turn := 2,
      active := d.tmp.active ++ [{ id := d.tmp.nextId, who := .tile w0 th fl nt rsp, desc := t }] } } := by
  have alone : d.tmp.waitTile ++ [({ id := d.tmp.nextId, who := .tile w0 th fl nt rsp, desc := t } : TmpJob)] =
      [{ id := d.tmp.nextId, who := .tile w0 th fl nt rsp, desc := t }] := by
    rw [idle.2.1, List.nil_append]
  unfold Dev.tmpSubmit Dev.tmpGive
  dsimp only [Dev.setTmp]
  rw [alone]
  exact congrArg (fun y => { d with tmp := y })
    (Tmp.give_tile (x := { d.tmp with nextId := d.tmp.nextId + 1 }) idle turn room _ _)

end
end

/-! ### The end of a job (R412 to R418) -/

section
variable {d : Dev} {k : Clock} {j : TmpJob}

theorem OnlyCarry.tmp {d e : Dev} (only : OnlyCarry d e) : e.tmp = d.tmp := (congrArg Dev.tmp only).trans rfl

theorem Dev.finish_tmp (k : Clock) (d : Dev) (kind : WKind) (key : Nat) (st : Status) (res : List RField) :
    (d.finish k kind key st res).tmp = d.tmp := by
  have only : OnlyCarry { d with waits := d.waits.filter (fun w => !(w.kind == kind && w.key == key)) }
      (d.finish k kind key st res) := .foldl (fun _ _ => .answer _ _ _ _ _ _) _ _
  exact only.tmp

theorem OnlyCarry.tmpRespond (k : Clock) (d : Dev) (w0 : Word) (thread flag : Nat) (notify : Bool) (rsp : Nat) (st : Status)
    (res : List RField) : OnlyCarry d (d.tmpRespond k w0 thread flag notify rsp st res) := by
  have told (e : Dev) (only : OnlyCarry d e) : OnlyCarry d (if notify then e.setFlag k thread flag else e) := by
    split
    · exact only.trans (.setFlag _ _ _ _)
    · exact only
  unfold Dev.tmpRespond
  dsimp only
  refine told _ ?_
  split
  · exact .hopPut _ _ _ _ _ _
  · exact .bumpN _ _ _

/-- A job's answer goes to its source; Tamper is as before. -/
theorem Dev.tmpAnswer_tmp (k : Clock) (d : Dev) (j : TmpJob) (st : Status) (res : List RField) :
    (d.tmpAnswer k j st res).tmp = d.tmp := by
  unfold Dev.tmpAnswer
  split
  · exact Dev.finish_tmp _ _ _ _ _ _
  · exact (OnlyCarry.tmpRespond _ _ _ _ _ _ _ _ _).tmp
  · split <;> rfl

theorem Dev.tmpAbortJobs_tmp (k : Clock) (d : Dev) (ran : Bool) (l : List TmpJob) : (d.tmpAbortJobs k ran l).tmp = d.tmp :=
  foldl_keeps Dev.tmp (fun e j => (Dev.tmpAnswer_tmp k _ j _ _).trans (by split <;> rfl)) _ _

theorem OnlyHif.bump0 (d : Dev) (e : CEv) : OnlyHif d (d.bump0 e) := rfl

/-- The one host command that waits is answered with a result. -/
theorem Dev.finish_waiter {kind : WKind} {key opc : Nat} {o : Origin}
    (waits : d.waits = [{ kind := kind, key := key, src := .host o, opc := opc }]) (st : Status) (res : List RField) :
    d.finish k kind key st res = ({ d with waits := [] } : Dev).complete k o opc st res := by
  simp [Dev.finish, waits, Dev.answer]

/-- The only job, a host's, ends: its context is free, its command is answered, and no job follows it. -/
theorem Dev.tmpEnd_single {x : Tmp} (is : d.tmp = x) (host : j.who = .host) (single : x.active = [j]) (idle : x.noneWaits)
    (open_ : x.disabling = none) {o : Origin}
    (waits : d.waits = [{ kind := .tamperJob, key := j.id, src := .host o, opc := 0x0B01 }]) (st : Status) (res : List RField) :
    d.tmpEnd k j st res = ({ d with tmp := { x with active := [] }, waits := [] } : Dev).complete k o 0x0B01 st res := by
  subst is
  unfold Dev.tmpEnd Dev.tmpAnswer
  dsimp only [Dev.setTmp]
  rw [host, single]
  simp only [List.filter_cons, bne_self_eq_false, Bool.false_eq_true, if_false, List.filter_nil]
  rw [Dev.finish_waiter (d := { d with tmp := { d.tmp with active := [] } }) waits]
  generalize told : Dev.complete k _ o 0x0B01 st res = e
  have tmp : e.tmp = { d.tmp with active := [] } := by rw [← told, Dev.complete_tmp]
  have given : e.tmpGive = e := Dev.tmpGive_none (by rw [tmp]; exact idle)
  rw [given]
  exact if_neg (by rw [tmp, open_]; simp)

end
end Sys2Proof.Machine

namespace Sys2Proof
open Sys2Proof.Machine

section
variable {s : State} {o : Origin} {t : TmpDesc}

/-! ### TAMPER_JOB -/

section
variable (ho : HostOk o s) (room : 24 ≤ o.resLen)
include ho room

theorem tamperJob_answers {st : Status} {res : List RField} {d : Dev}
    (checked : s.dev.tmpCheckJob .host t = (some (st, res), d)) : Answers (.tamperJob o t) o 0x0B01 s st res d := by
  refine answers_of_hostCmd _ ho rfl ?_
  rw [if_neg (by omega), checked]

theorem tamperJob_waits (checked : s.dev.tmpCheckJob .host t = (none, s.dev)) :
    Waits (.tamperJob o t) o 0x0B01 s .tamperJob s.dev.tmp.nextId (s.dev.tmpSubmit .host t) := by
  refine waits_of_hostCmd _ ho rfl ?_
  rw [if_neg (by omega), checked]

end

/-! ### A tile's packet (R418) -/

/-- What stands at the front of JOB_HOP is a tile's request, `who`'s, whose packet has been taken and left `d`. -/
structure TileAsks (s : State) (w0 w1 : Word) (args : List Word) (who : TmpSrc) (d : Dev) : Prop where
  on : s.dev.tmp.jobEn = true
  ready : s.dev.hopReady s.dev.tmp.jobHop = true
  front : s.dev.hopRest s.dev.tmp.jobHop = w0 :: w1 :: args
  taken : (s.dev.hopTake s.clk s.dev.tmp.jobHop).2 = d
  op : w0.toNat % 65536 = 0x0B01
  length : args.length = 8
  high : w1.toNat < 2 ^ 29
  is : TmpSrc.tile w0 (bitsOf w1.toNat 0 13) (bitsOf w1.toNat 13 5) (bitOf w1.toNat 18) (bitsOf w1.toNat 19 10) = who

section
variable {w0 w1 : Word} {args : List Word} {who : TmpSrc} {d d1 : Dev} (asks : TileAsks s w0 w1 args who d)
include asks

theorem TileAsks.tmp : d.tmp = s.dev.tmp := asks.taken ▸ (OnlyCarry.hopTake _ _ _).tmp

theorem tamperJobPacket_taken : Does .tamperJobPacket s (match d.tmpCheckJob who (descOf args) with
    | (some r, d) => d.tmpAnswer s.clk { id := 0, who := who, desc := descOf args } r.1 r.2
    | (none, d) => d.tmpSubmit who (descOf args)) := by
  obtain ⟨on, ready, front, rfl, op, length, high, rfl⟩ := asks
  refine does_of_onDev (execTamperJobPacket s) rfl rfl ?_
  dsimp only
  rw [if_neg (by simp [on, ready]), front]
  exact if_neg (by simp [op, length]; omega)

theorem tamperJobPacket_submits (checked : d.tmpCheckJob who (descOf args) = (none, d1)) :
    Does .tamperJobPacket s (d1.tmpSubmit who (descOf args)) := by
  have taken := tamperJobPacket_taken asks
  rwa [checked] at taken

theorem tamperJobPacket_answers {r : Status × List RField} (checked : d.tmpCheckJob who (descOf args) = (some r, d1)) :
    Does .tamperJobPacket s (d1.tmpAnswer s.clk { id := 0, who := who, desc := descOf args } r.1 r.2) := by
  have taken := tamperJobPacket_taken asks
  rwa [checked] at taken

end

/-! ### Turns (R416, R417) -/

section
variable {j : TmpJob} {r : List TmpJob} (first : s.dev.tmp.active = j :: r)
include first

theorem tamperJobTurn_host (host : j.who = .host) {bs : List Nat} (length : bs.length = min 65536 (j.desc.inLen - j.done)) :
    Does (.tamperJobTurn bs) s { s.dev with tmp := { s.dev.tmp with
      active := r ++ [{ j with done := j.done + bs.length, data := j.data ++ bs }] } } := by
  refine does_of_onMem (execTamperJobTurn bs s) rfl rfl ?_
  rw [first]
  dsimp only
  rw [if_neg (by simp [host]), if_pos (by simp [host]), ← length, List.take_append_of_le_length (Nat.le_refl _), List.take_length]
  rfl

section
variable (other : j.who ≠ .host) {n a : Nat} (size : min 65536 (j.desc.inLen - j.done) = n) (from_ : j.desc.src + j.done = a)
include other size from_

theorem tamperJobTurn_dram (bs : List Nat) (clean : n = 0 ∨ s.dev.dramPoisoned a n = false) : Does (.tamperJobTurn bs) s
    { s.dev with tmp := { s.dev.tmp with
      active := r ++ [{ j with done := j.done + n, data := j.data ++ (s.mem.dramBytes a n).map (·.toNat) }] } } := by
  refine does_of_onMem (execTamperJobTurn bs s) rfl rfl ?_
  rw [first]
  dsimp only
  rw [size, from_, if_neg (by rcases clean with zero | clean <;> simp [*]), if_neg (by simp [other])]
  rfl

theorem tamperJobTurn_poisoned (bs : List Nat) (some_ : n ≠ 0) (poisoned : s.dev.dramPoisoned a n = true) :
    Does (.tamperJobTurn bs) s ((s.dev.bump0 .tmpPoisoned).tmpEnd s.clk j .poisoned (tmpResult 0 0 j.done 0 0)) := by
  refine does_of_onMem (execTamperJobTurn bs s) rfl rfl ?_
  rw [first]
  dsimp only
  rw [size, from_, if_pos (by simp [other, some_, poisoned])]

end
end

/-! ### Ends (R412 to R416) -/

section
variable {id : Nat} {j : TmpJob} (found : s.dev.tmp.active.find? (fun y => y.id == id) = some j)
include found

theorem tamperJobDone_compresses {out : List Nat} {nStored nRaw : Nat} {m : Mems} {d d1 d2 : Dev} (dir : j.desc.dir = 0)
    (whole : j.desc.inLen ≤ j.done) (packed : compressOut j.desc j.data = (out, nStored, nRaw))
    (written : tmpWrite s.mem s.dev j out = (m, d)) (stored : (if nStored = 0 then d else d.bumpN ⟨.tmpStoredBlock, 0, 0⟩ nStored) = d1)
    (raw : (if nRaw = 0 then d1 else d1.bumpN ⟨.tmpRawBlock, 0, 0⟩ nRaw) = d2) :
    DoesMem (.tamperJobDone id) s m (d2.tmpEnd s.clk j .ok
      (tmpResult out.length 0 j.desc.inLen (tmpCheck j.desc.cls j.data) 0)) := by
  refine doesMem_of_onMem (execTamperJobDone id s) rfl rfl ?_
  subst stored raw
  rw [found]
  dsimp only
  rw [if_pos dir, if_neg (by omega), packed]
  dsimp only
  rw [written]

theorem tamperJobDone_unpacks {m : Mems} {d : Dev} (dir : j.desc.dir ≠ 0) (ends : tmpUnpackEnd s.clk s.mem s.dev j = (m, d)) :
    DoesMem (.tamperJobDone id) s m d := by
  refine doesMem_of_onMem (execTamperJobDone id s) rfl rfl ?_
  rw [found]
  exact (if_neg dir).trans ends

end

theorem tmpWrite_host {m : Mems} {d : Dev} {j : TmpJob} {bs : List Nat} (host : j.who = .host) (some_ : bs ≠ []) :
    tmpWrite m d j bs = (m, d.hostWr j.desc.dst bs) := by
  unfold tmpWrite
  rw [if_neg (by simpa using some_), if_pos (by simp [host])]

/-- The only job and its command, with nothing else for Tamper to do. -/
structure OnlyJob (s : State) (o : Origin) (j : TmpJob) : Prop where
  single : s.dev.tmp.active = [j]
  idle : s.dev.tmp.noneWaits
  open_ : s.dev.tmp.disabling = none
  host : j.who = .host
  waits : s.dev.waits = [{ kind := .tamperJob, key := j.id, src := .host o, opc := 0x0B01 }]

section
variable {j : TmpJob} (only : OnlyJob s o j)
include only

theorem OnlyJob.found : s.dev.tmp.active.find? (fun y => y.id == j.id) = some j := by
  rw [only.single, List.find?_cons_of_pos (by exact beq_self_eq_true j.id)]

/-- Its end, once its output has been written. -/
theorem OnlyJob.ends {d : Dev} (written : OnlyHif s.dev d) (st : Status) (res : List RField) : d.tmpEnd s.clk j st res =
    ({ d with tmp := { s.dev.tmp with active := [] }, waits := [] } : Dev).complete s.clk o 0x0B01 st res :=
  Dev.tmpEnd_single ((congrArg Dev.tmp written).trans rfl) only.host only.single only.idle only.open_
    ((congrArg Dev.waits written).trans only.waits) st res

theorem tamperJobDone_compressed {out : List Nat} (dir : j.desc.dir = 0) (whole : j.done = j.desc.inLen)
    (packed : compressOut j.desc j.data = (out, 0, 0)) (some_ : out ≠ []) :
    Does (.tamperJobDone j.id) s (({ s.dev.hostWr j.desc.dst out with
      tmp := { s.dev.tmp with active := [] }, waits := [] } : Dev).complete s.clk o 0x0B01 .ok
        (tmpResult out.length 0 j.desc.inLen (tmpCheck j.desc.cls j.data) 0)) := by
  rw [← only.ends (.hostWr s.dev _ _)]
  exact tamperJobDone_compresses only.found dir (Nat.le_of_eq whole.symm) packed (tmpWrite_host only.host some_) rfl rfl

theorem tamperJobDone_unpacked {e : TmpEnd} (dir : j.desc.dir = 1) (is : tmpUnpack j.desc j.data = e)
    (settled : e.short = false ∨ j.done = j.desc.inLen) (good : e.firstBad = false) (some_ : e.out ≠ []) :
    Does (.tamperJobDone j.id) s (({ (match e.reason with
        | 0 => s.dev.hostWr j.desc.dst e.out
        | 4 => (s.dev.hostWr j.desc.dst e.out).bump0 .tmpPartial
        | _ => (s.dev.hostWr j.desc.dst e.out).bump0 .tmpCheckFail) with
      tmp := { s.dev.tmp with active := [] }, waits := [] } : Dev).complete s.clk o 0x0B01
        (match e.reason with
        | 0 => .ok
        | 4 => .partialDone
        | _ => .checkFail)
        (tmpResult e.out.length e.reason e.consumed e.check e.failBlock)) := by
  refine tamperJobDone_unpacks only.found (by rw [dir]; decide) ?_
  have writes := OnlyHif.hostWr s.dev j.desc.dst e.out
  unfold tmpUnpackEnd
  rw [is, if_neg (by rcases settled with short | done <;> simp [*]), if_neg (by simp [good]), tmpWrite_host only.host some_]
  dsimp only
  by_cases whole : e.reason = 0
  · rw [if_pos whole, only.ends writes]
    simp only [whole]
  · rw [if_neg whole]
    by_cases full : e.reason = 4
    · rw [if_pos full, only.ends (writes.trans (.bump0 _ .tmpPartial))]
      simp only [full]
    · rw [if_neg full, only.ends (writes.trans (.bump0 _ .tmpCheckFail))]
      split
      next is => exact absurd is whole
      next is => exact absurd is full
      next => rfl

end

/-! ### TAMPER_STATUS and TAMPER_ENABLE (R419, R420) -/

/-- With no job waiting none is aborted. -/
theorem tamperEnable_abortsNone (idle : s.dev.tmp.noneWaits) : ({ s.dev with tmp := { s.dev.tmp with
    enabled := false, waitCtrl := [], waitTile := [], waitHost := [] } } : Dev).tmpAbortJobs s.clk false
      (s.dev.tmp.waitCtrl ++ s.dev.tmp.waitTile ++ s.dev.tmp.waitHost) =
    { s.dev with tmp := { s.dev.tmp with enabled := false } } := by
  rw [idle.1, idle.2.1, idle.2.2]
  exact congrArg (fun x => ({ s.dev with tmp := x } : Dev)) (Tmp.noneWaits_clear (x := { s.dev.tmp with enabled := false }) idle)

section
variable (ho : HostOk o s)
include ho

theorem tamperStatus_answers : ∃ js : List RField, js.length = 2 * s.dev.tmp.active.length ∧ Answers (.tamperStatus o) o 0x0B02 s .ok
    ([⟨1, b2n s.dev.tmp.enabled⟩, ⟨1, s.dev.tmp.active.length⟩, ⟨2, s.dev.tmp.waitCtrl.length⟩, ⟨2, s.dev.tmp.waitTile.length⟩,
      ⟨2, s.dev.tmp.waitHost.length⟩] ++ js) s.dev := by
  refine ⟨_, ?_, answers_of_hostCmd _ ho rfl rfl⟩
  rw [List.length_flatMap]
  simp [Nat.mul_comm]

variable (open_ : s.dev.tmp.disabling = none)
include open_

theorem tamperEnable_opens : Answers (.tamperEnable o true) o 0x0B03 s .ok []
    (({ s.dev with tmp := { s.dev.tmp with enabled := true } } : Dev).ashPack) :=
  answers_of_hostCmd _ ho rfl ((if_neg (by simp [open_])).trans (if_pos rfl))

section
variable {d : Dev} (aborted : ({ s.dev with tmp := { s.dev.tmp with
  enabled := false, waitCtrl := [], waitTile := [], waitHost := [] } } : Dev).tmpAbortJobs s.clk false
    (s.dev.tmp.waitCtrl ++ s.dev.tmp.waitTile ++ s.dev.tmp.waitHost) = d)
include aborted

theorem tamperEnable_closes (empty : d.tmp.active = []) : Answers (.tamperEnable o false) o 0x0B03 s .ok [] d := by
  refine answers_of_hostCmd _ ho rfl ?_
  dsimp only [Dev.setTmp]
  rw [if_neg (by simp [open_]), if_neg (by decide), aborted, if_pos (by simp [empty])]

theorem tamperEnable_waits (busy : d.tmp.active ≠ []) : Waits (.tamperEnable o false) o 0x0B03 s .tamperDisable 0
    { d with tmp := { d.tmp with disabling := some 160 } } := by
  refine waits_of_hostCmd _ ho rfl ?_
  dsimp only [Dev.setTmp]
  rw [if_neg (by simp [open_]), if_neg (by decide), aborted, if_neg (by simpa using busy)]

end

end

/-- A disable that runs out ends what is active, and is done. -/
theorem tamperDisableTimeout_ends (out : s.dev.tmp.disabling = some 0) : ∃ d : Dev, Does .tamperDisableTimeout s d ∧
    d.tmp = { s.dev.tmp with active := [], disabling := none } ∧ d.waiting .tamperDisable 0 = false := by
  refine ⟨_, does_of_onDev (execTamperDisableTimeout s) rfl rfl (if_pos (by simp [out])), ?_⟩
  dsimp only [Dev.setTmp]
  generalize aborted : Dev.tmpAbortJobs _ _ _ _ = d
  have tmp : d.tmp = { s.dev.tmp with active := [] } := by rw [← aborted, Dev.tmpAbortJobs_tmp]
  have done : d.tmpIdle s.clk = (d.setTmp { d.tmp with disabling := none }).finish s.clk .tamperDisable 0 .ok :=
    if_pos (by simp [tmp, out])
  rw [done]
  refine ⟨?_, (Dev.finish_carries _ _ _ _ _).2⟩
  rw [Dev.finish_tmp]
  exact congrArg (fun x : Tmp => { x with disabling := none }) tmp

end

/-- Settles O57: the clauses are the branches of a job's check, turn and end, each said once above for any source. With no other job
to give the context to, the end of a job is its command's completion (`Dev.tmpEnd_single`). -/
theorem tamperRunsItsJobs : Obligations.TamperRunsItsJobs := by
  unfold Obligations.TamperRunsItsJobs
  rintro s o x ho rfl
  refine ⟨fun t room => ?_, ?_, ?_, fun j r host first who length => ?_, ?_, fun id j found => ?_, ?_, ?_,
    tamperStatus_answers ho, fun open_ => ?_, tamperDisableTimeout_ends⟩
  · refine ⟨fun shape => tamperJob_answers ho room (Dev.tmpCheckJob_bad shape),
      fun shape mem => tamperJob_answers ho room (Dev.tmpCheckJob_denied shape mem),
      fun shape mem dir small => tamperJob_answers ho room (Dev.tmpCheckJob_small shape mem dir small),
      fun shape mem bound on => tamperJob_waits ho room (Dev.tmpCheckJob_passes shape mem bound on),
      fun shape mem bound off => tamperJob_answers ho room (Dev.tmpCheckJob_off shape mem bound off),
      fun shape mem bound on free ctrl tile host turn => ?_⟩
    rw [← Dev.tmpSubmit_host ⟨ctrl, tile, host⟩ turn free t]
    exact tamperJob_waits ho room (Dev.tmpCheckJob_passes shape mem bound on)
  · intro w0 w1 args d who on ready front taken op length high is
    have asks : TileAsks s w0 w1 args who d := ⟨on, ready, front, taken, op, length, high, is⟩
    exact ⟨fun d1 => tamperJobPacket_submits asks, fun r d1 => tamperJobPacket_answers asks⟩
  · intro w0 w1 args d who on ready front taken op length high is shape mem bound enabled free ctrl tile host turn
    have asks : TileAsks s w0 w1 args who d := ⟨on, ready, front, taken, op, length, high, is⟩
    have submits := tamperJobPacket_submits asks (Dev.tmpCheckJob_passes shape mem bound (by rw [asks.tmp]; exact enabled))
    subst is
    have free' : d.tmp.active.length < 4 := by rw [asks.tmp]; exact free
    have turn' : d.tmp.turn < 3 := by rw [asks.tmp]; exact turn
    rw [Dev.tmpSubmit_tile (by rw [asks.tmp]; exact ⟨ctrl, tile, host⟩) turn' free', asks.tmp] at submits
    exact submits
  · exact tamperJobTurn_host first who length
  · intro j r host n a first other size from_
    exact ⟨tamperJobTurn_dram first other size from_ host, tamperJobTurn_poisoned first other size from_ host⟩
  · exact ⟨fun out nStored nRaw m d d1 d2 => tamperJobDone_compresses found, fun m d => tamperJobDone_unpacks found⟩
  · intro j out single ctrl tile host open_ who dir whole packed some_ waits
    exact tamperJobDone_compressed ⟨single, ⟨ctrl, tile, host⟩, open_, who, waits⟩ dir whole packed some_
  · intro j e single ctrl tile host open_ who dir is settled good some_ waits
    exact tamperJobDone_unpacked ⟨single, ⟨ctrl, tile, host⟩, open_, who, waits⟩ dir is settled good some_
  · refine ⟨tamperEnable_opens ho open_, fun d aborted => ⟨tamperEnable_closes ho open_ aborted, tamperEnable_waits ho open_ aborted⟩,
      fun ash => ?_, fun empty ctrl tile host => ?_, fun busy ctrl tile host => ?_⟩
    · have opens := tamperEnable_opens ho open_
      rwa [Dev.ashPack_none (by exact ash)] at opens
    · exact tamperEnable_closes ho open_ (tamperEnable_abortsNone ⟨ctrl, tile, host⟩) empty
    · exact tamperEnable_waits ho open_ (tamperEnable_abortsNone ⟨ctrl, tile, host⟩) busy

end Sys2Proof

/-! # The DRAM controller (chapter 16)

A request's way through the controller is followed for one that stands alone; a command that waits is answered at the end of what it
waits for, which leaves the controller as it is (`Dev.finish_dram`). -/

namespace Sys2Proof.Machine
open Sys2Proof

/-! ### Queues (R429 to R433) -/

section
variable {d : Dev} {k : Clock}

/-- No request reaches its target: none is marked. -/
theorem Dev.markLate_none {slack : Nat} {sel : DReq → Bool}
    (young : ∀ q ∈ d.dram.reqs, (sel q && !q.late && !q.set.panicEn && aged (nowAbs k + slack - q.at_) q.set.target) = false) :
    d.markLate k slack sel = d := by
  have hits : d.dram.reqs.filter (fun q => sel q && !q.late && !q.set.panicEn &&
      aged (nowAbs k + slack - q.at_) q.set.target) = [] := by
    rw [List.filter_eq_nil_iff]
    exact fun q listed => by rw [young q listed]; decide
  have marks : d.dram.reqs.map (fun q => if sel q && !q.late && !q.set.panicEn &&
      aged (nowAbs k + slack - q.at_) q.set.target then { q with late := true } else q) = d.dram.reqs := by
    refine (List.map_congr_left fun q listed => ?_).trans (List.map_id _)
    rw [young q listed]
    rfl
  unfold Dev.markLate
  dsimp only
  rw [hits, List.foldl_nil, marks]
  rfl

/-- With no write in the queue a read is in nobody's way (R433). -/
theorem Dev.orderCheck_reads (reads : d.dram.reqs.all (fun q => isRead q.kind) = true) (p r off : Nat) :
    d.orderCheck p r off = d := by
  have writes : d.dram.reqs.filter (fun q => !isRead q.kind && q.rank == r && bankOf q.off == bankOf off &&
      rowOf q.off == rowOf off) = [] := by
    rw [List.filter_eq_nil_iff]
    exact fun q listed => by simp [List.all_eq_true.mp reads q listed]
  unfold Dev.orderCheck
  rw [writes]
  rfl

/-- A port without panic takes the request and counts nothing. -/
theorem Dev.enqueue_plain {p : Nat} (panic : (d.dram.port p).panicEn = false) (a len : Nat) (kind : DKind) (r off : Nat) :
    d.enqueue k p a len kind r off = d.setDram { d.dram with
      nextId := d.dram.nextId + 1
      reqs := d.dram.reqs ++ [{ id := d.dram.nextId, port := p, addr := a, len := len, kind := kind, rank := r, off := off,
                                at_ := nowAbs k, late := false, set := d.dram.port p }] } :=
  if_neg (by simp [panic])

/-! The scrubber's reads (R443). -/

theorem Dev.scrubAdmit_done (k : Clock) (n : Nat) (done : d.dram.scrubOwed = 0) : Dev.scrubAdmit k n d = d := by
  cases n with
  | zero => rfl
  | succ n =>
    unfold Dev.scrubAdmit
    exact if_pos (by simp [done])

/-- The one read that is owed joins the scrubber's queue, which is empty, and the next block is the one behind it. -/
theorem Dev.scrubMore_one {r off : Nat} (owed : d.dram.scrubOwed = 1) (some_ : d.dram.map ≠ [])
    (inside : d.dram.scrubPos * 64 < d.dram.topAddr) (place : d.dramPlace (d.dram.scrubPos * 64) = some (r, off))
    (empty : d.dram.queue 9 (r / 2) = []) (panic : (d.dram.port 9).panicEn = false) :
    d.scrubMore k = d.setDram { d.dram with
      scrubPos := d.dram.scrubPos + 1, scrubOwed := 0, nextId := d.dram.nextId + 1,
      reqs := d.dram.reqs ++ [{ id := d.dram.nextId, port := 9, addr := d.dram.scrubPos * 64, len := 64, kind := .scrub,
                                rank := r, off := off, at_ := nowAbs k, late := false, set := d.dram.port 9 }] } := by
  rw [Dev.scrubMore, owed, Nat.add_comm, Dev.scrubAdmit]
  dsimp only
  rw [if_neg (by simp [owed, some_]), if_neg (by omega), place]
  dsimp only
  rw [if_neg (by simp [empty]), Dev.enqueue_plain panic, Dev.scrubAdmit_done k 40 (by simp [owed])]
  simp [owed, Dev.setDram]

end
end Sys2Proof.Machine

namespace Sys2Proof
open Sys2Proof.Machine

section
variable {s : State}

/-- What a requester's data make of its request: a write of all its bytes, or a read. -/
def Asks (len : Nat) (data : Option (List Byte)) (kind : DKind) : Prop :=
  (data = none ∧ kind = .read) ∨ ∃ l, data = some l ∧ l.length = len ∧ kind = .write l

section
variable {who : Requester} {addr len r off : Nat} {data : Option (List Byte)} {kind : DKind} (asks : Asks len data kind)
  (ok : reqOk who = true) (least : 1 ≤ len) (block : addr % 64 + len ≤ 64)
include asks ok least block

/-- A request of a requester, inside one block. -/
theorem dramRequest_takes :
    Does (.dramRequest who addr len data) s (s.dev.dramRequest s.clk (reqPort who) addr len kind) := by
  refine does_of_onDev (execDramRequest who addr len data s) rfl rfl ?_
  dsimp only
  obtain ⟨rfl, rfl⟩ | ⟨l, rfl, length, rfl⟩ := asks
  · exact if_pos (by simp [ok, least, block])
  · exact if_pos (by simp [ok, least, block, length])

theorem dramRequest_denied (outside : s.dev.dramPlace addr = none) : Does (.dramRequest who addr len data) s
    ((s.dev.bump0 .dmcAddrDenied).setDram { s.dev.dram with
      answer := s.dev.dram.answer.put (.ok, []) (reqPort who) (.notPermitted, List.replicate len 0) }) := by
  have takes := dramRequest_takes (s := s) asks ok least block
  unfold Dev.dramRequest at takes
  rw [outside] at takes
  exact takes

section
variable (place : s.dev.dramPlace addr = some (r, off))
include place

theorem dramRequest_full (full : 64 ≤ (s.dev.dram.queue (reqPort who) (r / 2)).length) :
    Does (.dramRequest who addr len data) s s.dev := by
  have takes := dramRequest_takes (s := s) asks ok least block
  unfold Dev.dramRequest at takes
  rw [place] at takes
  dsimp only at takes
  rwa [if_pos full] at takes

variable (room : (s.dev.dram.queue (reqPort who) (r / 2)).length < 64)
include room

theorem dramRequest_joins : Does (.dramRequest who addr len data) s
    ((if isRead kind then s.dev.orderCheck (reqPort who) r off else s.dev).enqueue s.clk (reqPort who) addr len kind r off) := by
  have takes := dramRequest_takes (s := s) asks ok least block
  unfold Dev.dramRequest at takes
  rw [place] at takes
  dsimp only at takes
  rwa [if_neg (by omega)] at takes

/-- A request behind none that holds it up, at a port without panic. -/
theorem dramRequest_plain (panic : (s.dev.dram.port (reqPort who)).panicEn = false)
    (reads : data = none → s.dev.dram.reqs.all (fun q => isRead q.kind) = true) :
    Does (.dramRequest who addr len data) s (s.dev.setDram { s.dev.dram with
      nextId := s.dev.dram.nextId + 1
      reqs := s.dev.dram.reqs ++ [{ id := s.dev.dram.nextId, port := reqPort who, addr := addr, len := len, kind := kind, rank := r,
                                    off := off, at_ := nowAbs s.clk, late := false, set := s.dev.dram.port (reqPort who) }] }) := by
  have joins := dramRequest_joins asks ok least block place room
  have free : (if isRead kind then s.dev.orderCheck (reqPort who) r off else s.dev) = s.dev := by
    obtain ⟨none_, rfl⟩ | ⟨l, _, _, rfl⟩ := asks
    · exact Dev.orderCheck_reads (reads none_) _ _ _
    · rfl
  rwa [free, Dev.enqueue_plain panic] at joins

end
end

/-! ### Transactions (R431, R435) -/

theorem Machine.Dev.eccLine_dram (d : Dev) (r off : Nat) (write : Bool) :
    (d.eccLine r off write).dram = { d.dram with cache := (d.eccLine r off write).dram.cache } := by
  unfold Dev.eccLine
  dsimp only
  split <;> rfl

/-- The only request, which its channel can perform now. -/
structure OnlyReq (d : Dev) (k : Clock) (q : DReq) : Prop where
  single : d.dram.reqs = [q]
  young : q.set.panicEn = true ∨ aged (nowAbs k - q.at_) q.set.target = false
  mig : d.dram.mig = none
  owed : ∀ r, (d.rank r).owed = 0
  awake : (d.rank q.rank).selfRef = false

section
variable {d : Dev} {k : Clock} {q : DReq} (only : OnlyReq d k q)
include only

theorem OnlyReq.unmarked : d.markLate k 0 (fun _ => true) = d := by
  refine Dev.markLate_none fun r listed => ?_
  rw [only.single, List.mem_singleton] at listed
  subst listed
  obtain panic | young := only.young
  · simp [panic]
  · simp [young]

theorem OnlyReq.next : d.nextReq k (q.rank / 2) = some q := by
  have servable : d.servable (q.rank / 2) = [q] := by
    simp [Dev.servable, only.single, only.mig, only.awake]
  rw [Dev.nextReq, servable]
  rfl

/-- The channel performs it. -/
theorem OnlyReq.turn (ecc : Nat) (m : Mems) : channelTurn k (q.rank / 2) ecc m d = serveReq k q ecc m d := by
  unfold channelTurn
  dsimp only
  rw [only.unmarked, List.find?_eq_none.mpr (fun r _ => by simp [only.owed r])]
  dsimp only
  rw [List.find?_eq_none.mpr (fun r _ => by simp [only.owed r]), only.next]

/-- The request is gone; its data are still to be read or written. -/
theorem OnlyReq.taken {e : Dev} (is : ((d.retireReq q).modRank q.rank (fun x => { x with
    down := false, used := nowAbs k, open_ := setAt x.open_ (bankOf q.off) (rowOf q.off + 1) })).eccLine q.rank q.off
      (!isRead q.kind) = e) : e.dram.reqs = [] ∧ e.dram.answer = d.dram.answer ∧ e.dram.poison = d.dram.poison := by
  have gone : (d.retireReq q).dram.reqs = [] := by simp [Dev.retireReq, only.single]
  subst is
  rw [Dev.eccLine_dram]
  exact ⟨gone, rfl, rfl⟩

variable (answers : Store.wf (.ok, []) d.dram.answer = true) (clean : d.dram.poison.get false (q.addr / 64) = false) (m : Mems)
include answers clean

theorem OnlyReq.reads (is : q.kind = .read) : ∃ e, serveReq k q 0 m d = (m, e) ∧ e.dram.reqs = [] ∧
    e.dram.answer.get (.ok, []) q.port = (.ok, m.dramBytes q.addr q.len) := by
  unfold serveReq
  rw [show spoilReq q 0 m d = (m, d) from if_neg (by simp)]
  dsimp only
  generalize begun : Dev.eccLine _ _ _ _ = e
  obtain ⟨reqs, answer, poison⟩ := only.taken begun
  have checked : e.readCheck k q.rank q.addr (q.off / 64) 0 false = (false, e) := by
    unfold Dev.readCheck
    rw [if_neg (by simp [poison, clean]), if_neg (by decide), if_neg (by decide)]
  rw [is]
  dsimp only
  rw [checked]
  exact ⟨_, rfl, reqs, Store.get_put_self (by rw [answer]; exact answers)⟩

theorem OnlyReq.writes {bs : List Byte} (is : q.kind = .write bs) : ∃ e, serveReq k q 0 m d = (m.dramPut q.addr bs, e) ∧
    e.dram.reqs = [] ∧ e.dram.answer.get (.ok, []) q.port = (.ok, []) := by
  unfold serveReq
  rw [show spoilReq q 0 m d = (m, d) from if_neg (by simp)]
  dsimp only
  generalize begun : Dev.eccLine _ _ _ _ = e
  obtain ⟨reqs, answer, poison⟩ := only.taken begun
  have answers' : Store.wf (.ok, []) e.dram.answer = true := by rw [answer]; exact answers
  rw [is]
  dsimp only
  by_cases whole : q.len = 64
  · rw [if_pos whole]
    exact ⟨_, rfl, reqs, Store.get_put_self answers'⟩
  · rw [if_neg whole, if_neg (by simp [poison, clean]), if_neg (by decide), if_neg (by decide)]
    exact ⟨_, rfl, reqs, Store.get_put_self answers'⟩

end

theorem dramTransaction_turns {ch ecc : Nat} (lt : ch < 2) {m : Mems} {d : Dev}
    (turns : channelTurn s.clk ch ecc s.mem s.dev = (m, d)) : DoesMem (.dramTransaction ch ecc) s m d :=
  doesMem_of_onMem (execDramTransaction ch ecc s) rfl rfl ((if_pos lt).trans turns)

/-- An urgent refresh goes before anything else. -/
theorem dramTransaction_refreshes {ch ecc : Nat} (lt : ch < 2) (idle : s.dev.dram.reqs = [])
    (served : s.dev.refreshed (2 * ch) = true) (owed : 8 ≤ (s.dev.rank (2 * ch)).owed) : Does (.dramTransaction ch ecc) s
      ((s.dev.issueRefresh (2 * ch)).bump1 .dmcRankRefreshUrgent (2 * ch)) := by
  refine dramTransaction_turns lt ?_
  unfold channelTurn
  dsimp only
  rw [Dev.markLate_none (fun q listed => by rw [idle] at listed; cases listed), List.filter_cons_of_pos served,
    List.find?_cons_of_pos (by simpa using owed)]

theorem requestLate_counts {q : DReq} (single : s.dev.dram.reqs = [q]) (timely : q.late = false) (panic : q.set.panicEn = false)
    (reached : aged (nowAbs s.clk + 1 - q.at_) q.set.target = true) : Does (.requestLate q.id) s
      ((s.dev.bump ⟨.dmcPortLate, 0, q.port⟩).setDram { s.dev.dram with reqs := [{ q with late := true }] }) := by
  refine does_of_onDev (execRequestLate q.id s) rfl rfl ?_
  have hit : (q.id == q.id && !q.late && !q.set.panicEn && aged (nowAbs s.clk + 1 - q.at_) q.set.target) = true := by
    simp [timely, panic, reached]
  have hits : s.dev.dram.reqs.filter (fun r => r.id == q.id && !r.late && !r.set.panicEn &&
      aged (nowAbs s.clk + 1 - r.at_) r.set.target) = [q] := by
    rw [single]
    exact List.filter_cons_of_pos hit
  have marks : s.dev.dram.reqs.map (fun r => if r.id == q.id && !r.late && !r.set.panicEn &&
      aged (nowAbs s.clk + 1 - r.at_) r.set.target then { r with late := true } else r) = [{ q with late := true }] := by
    rw [single, List.map_singleton, if_pos hit]
  unfold Dev.markLate
  dsimp only
  rw [hits, List.foldl_cons, List.foldl_nil, ← marks]
  rfl

/-! ### Refresh, power-down and the scrubber (R437 to R443) -/

section
variable {r n : Nat} (lt : r < 4) (served : s.dev.refreshed r = true) {y : Rank} (is : s.dev.rank r = y)
include lt served is

theorem refreshAccrue_owes (every : refreshEvery s.dev.dram.allBank y.rate = n) (due : y.accrued + n ≤ nowAbs s.clk) :
    Does (.refreshAccrue r) s (if y.owed + 1 < 8 && s.dev.rtPending r
      then (s.dev.setRank r { y with owed := y.owed + 1, accrued := y.accrued + n }).bump1 .dmcRankRefreshPostponed r
      else s.dev.setRank r { y with owed := y.owed + 1, accrued := y.accrued + n }) := by
  subst is every
  exact does_of_onDev (execRefreshAccrue r s) rfl rfl (if_pos (by simp [lt, served, due]))

theorem mr4Poll_sets {rate : Nat} {der hot : Bool} (at_ : s.clk.tick % 64 = 0) (first : s.dev.dram.mr4At ≠ s.clk.tick + 1) :
    ∀ d, (s.dev.setDram { s.dev.dram with mr4At := s.clk.tick + 1 }).setRank r
        { y with rate := if hot then 2 else min 2 rate, derate := der } = d →
      Does (.mr4Poll [(r, rate, der, hot)]) s (if hot then d.bump1 .dmcRankOvertemp r else d) := by
  rintro d rfl
  subst is
  refine does_of_onDev (execMr4Poll [(r, rate, der, hot)] s) rfl rfl ?_
  dsimp only
  rw [if_pos (by simp [at_, first])]
  exact if_pos (by simp only [lt, decide_true, Bool.true_and]; exact served)

end

theorem powerDownEntry_enters {r : Nat} (serving : s.dev.dram.serving r = true) (set_ : 0 < s.dev.dram.pdIdle)
    (idle : ∀ q ∈ s.dev.dram.reqs, q.rank ≠ r) (awake : (s.dev.rank r).selfRef = false)
    (long : s.dev.dram.pdIdle * 3072 * 2000 ≤ (nowAbs s.clk + 1 - (s.dev.rank r).used) * 125000 * rateMts s.dev.dram.rate) :
    Does (.powerDownEntry r) s (s.dev.setRank r { s.dev.rank r with down := true }) :=
  does_of_onDev (execPowerDownEntry r s) rfl rfl (if_pos (by
    simp only [Bool.and_eq_true, Bool.not_eq_true', List.any_eq_false, decide_eq_true_eq, beq_iff_eq]
    exact ⟨⟨⟨⟨serving, set_⟩, idle⟩, awake⟩, long⟩))

section
variable (on : s.dev.dram.scrubEn = true) (first : s.dev.dram.scrubAt ≠ s.clk.tick + 1)
include on first

theorem scrubQueue_owes : Does .scrubQueue s ((s.dev.setDram { s.dev.dram with
    scrubAt := s.clk.tick + 1, scrubOwed := s.dev.dram.scrubOwed + max 1 s.dev.dram.scrubRate }).scrubMore s.clk) :=
  does_of_onDev (execScrubQueue s) rfl rfl (if_pos (by simp [on, first]))

/-- One read owed, at a block in use, with room for it. -/
theorem scrubQueue_reads {r off : Nat} (none_ : s.dev.dram.scrubOwed = 0) (slow : s.dev.dram.scrubRate ≤ 1) (some_ : s.dev.dram.map ≠ [])
    (inside : s.dev.dram.scrubPos * 64 < s.dev.dram.topAddr) (place : s.dev.dramPlace (s.dev.dram.scrubPos * 64) = some (r, off))
    (empty : s.dev.dram.queue 9 (r / 2) = []) (panic : (s.dev.dram.port 9).panicEn = false) :
    Does .scrubQueue s (s.dev.setDram { s.dev.dram with
      scrubAt := s.clk.tick + 1, scrubPos := s.dev.dram.scrubPos + 1, nextId := s.dev.dram.nextId + 1,
      reqs := s.dev.dram.reqs ++ [{ id := s.dev.dram.nextId, port := 9, addr := s.dev.dram.scrubPos * 64, len := 64, kind := .scrub,
                                    rank := r, off := off, at_ := nowAbs s.clk, late := false, set := s.dev.dram.port 9 }] }) := by
  have owes := scrubQueue_owes on first
  rw [none_, show 0 + max 1 s.dev.dram.scrubRate = 1 by omega] at owes
  rw [Dev.scrubMore_one] at owes
  case owed => rfl
  · dsimp only
    rw [none_]
    exact owes
  exacts [some_, inside, place, empty, panic]

end

end
end Sys2Proof

namespace Sys2Proof.Machine
open Sys2Proof

/-! ### What a migration's moves leave of the controller (R445 to R448) -/

section
variable {d : Dev} {k : Clock}

theorem OnlyCarry.dram {d e : Dev} (only : OnlyCarry d e) : e.dram = d.dram := (congrArg Dev.dram only).trans rfl

theorem Dev.finish_dram (k : Clock) (d : Dev) (kind : WKind) (key : Nat) (st : Status) (res : List RField) :
    (d.finish k kind key st res).dram = d.dram := by
  have only : OnlyCarry { d with waits := d.waits.filter (fun w => !(w.kind == kind && w.key == key)) }
      (d.finish k kind key st res) := .foldl (fun _ _ => .answer _ _ _ _ _ _) _ _
  exact only.dram

/-- The triggers judged again touch what waits for retirement alone. -/
theorem Dev.judgeRetires_dram (k : Clock) (d : Dev) :
    (d.judgeRetires k).dram = { d.dram with retire := (d.judgeRetires k).dram.retire } := by
  unfold Dev.judgeRetires
  split
  · rfl
  · dsimp only
    rw [foldl_keeps Dev.dram fun e r => (Dev.finish_dram k _ .dramRetire r .noResource []).trans (by split <;> rfl)]
    rfl

theorem Dev.calRankGone_dram (k : Clock) (d : Dev) (r : Nat) : (d.calRankGone k r).dram = d.dram := by
  unfold Dev.calRankGone
  split
  · rfl
  · unfold Dev.calEnd
    rw [Dev.finish_dram, Dev.finish_dram]
    rfl

theorem Dev.loseSpare_dram (k : Clock) (d : Dev) (n cause : Nat) : (d.loseSpare k n cause).dram = { d.dram with
    spare := none
    ranks := d.dram.ranks.put {} n { d.rank n with state := .retired, selfRef := true, down := false, owed := 0 } } := by
  unfold Dev.loseSpare Dev.rankEvent
  rw [Dev.event_dram]
  rfl

theorem Dev.enqueue_dram (d : Dev) (k : Clock) (p a len : Nat) (kind : DKind) (r off : Nat) :
    (d.enqueue k p a len kind r off).dram = { d.dram with
      reqs := (d.enqueue k p a len kind r off).dram.reqs, nextId := (d.enqueue k p a len kind r off).dram.nextId } := by
  unfold Dev.enqueue
  dsimp only
  split <;> rfl

theorem Dev.enqueue_cal (d : Dev) (k : Clock) (p a len : Nat) (kind : DKind) (r off : Nat) :
    (d.enqueue k p a len kind r off).cal = d.cal := by
  unfold Dev.enqueue
  dsimp only
  split <;> rfl

/-- The copy's next read is a request, and no more. -/
theorem Dev.copyNext_dram (k : Clock) (d : Dev) : (d.copyNext k).dram = { d.dram with
    reqs := (d.copyNext k).dram.reqs, nextId := (d.copyNext k).dram.nextId } := by
  unfold Dev.copyNext
  split
  · split
    · exact Dev.enqueue_dram _ _ _ _ _ _ _ _
    · rfl
  · rfl

theorem Dev.copyNext_cal (k : Clock) (d : Dev) : (d.copyNext k).cal = d.cal := by
  unfold Dev.copyNext
  split
  · split
    · exact Dev.enqueue_cal _ _ _ _ _ _ _ _
    · rfl
  · rfl

theorem Dev.rank_of_ranks {e : Dev} {n : Nat} {y : Rank} (wf : Store.wf {} d.dram.ranks = true)
    (ranks : e.dram.ranks = d.dram.ranks.put {} n y) (r : Nat) : e.rank r = if r = n then y else d.rank r := by
  rw [Dev.rank, ranks, Store.get_put wf, Dev.rank]

end
end Sys2Proof.Machine

namespace Sys2Proof
open Sys2Proof.Machine

section
variable {s : State}

theorem rankRetireStart_trains {r n : Nat} {rest : List Nat}
    (asked : s.dev.dram.retire.filter (fun q => s.dev.dram.serving q) = r :: rest) (spare : s.dev.dram.spare = some n)
    (mig : s.dev.dram.mig = none) (free : s.dev.dram.testing = false) : Does .rankRetireStart s
      ((s.dev.setDram { s.dev.dram with
        retire := rest, mig := some { src := r, dst := n, training := true, done := 0, lock := none } }).modRank n
          (fun y => { y with selfRef := false })) := by
  refine does_of_onDev (execRankRetireStart s) rfl rfl ?_
  have judged : s.dev.judgeRetires s.clk = s.dev.setDram { s.dev.dram with retire := r :: rest } := by
    rw [← asked]
    exact if_pos (by simp [spare])
  dsimp only
  rw [judged]
  simp only [Dev.setDram, spare, mig, free]

section
variable {g : Mig} (mig : s.dev.dram.mig = some g)
include mig

theorem migSpareTrained_copies {rd wr : List (BitVec 4)} {lr lw : List Nat} (items : Store.wf {} s.dev.cal.items = true)
    (training : g.training = true) (reads : eyeCodes false (s.dev.calItem (rankKey g.dst)).rd rd = some lr)
    (writes : eyeCodes false (s.dev.calItem (rankKey g.dst)).wr wr = some lw) :
    ∃ d : Dev, Does (.migSpareTrained true rd wr) s d ∧ d.dram.mig = some { g with training := false } ∧
      (d.calItem (rankKey g.dst)).rd = lr ∧ (d.calItem (rankKey g.dst)).wr = lw ∧ d.dram.map = s.dev.dram.map := by
  refine ⟨_, does_of_onDev (execMigSpareTrained true rd wr s) rfl rfl rfl, ?_⟩
  rw [mig]
  dsimp only
  rw [if_neg (by simp [training]), reads, writes]
  dsimp only
  have item (e : Dev) (is : e.cal.items = (s.dev.modItem (rankKey g.dst) (fun x => { x with
      rd := lr, wr := lw, goalRd := lr, goalWr := lw, ref := some (s.dev.reading (rankKey g.dst)) })).cal.items) :
      (e.calItem (rankKey g.dst)).rd = lr ∧ (e.calItem (rankKey g.dst)).wr = lw := by
    rw [Dev.calItem, is, ← Dev.calItem, Dev.calItem_modItem_self items]
    exact ⟨rfl, rfl⟩
  rw [Dev.copyNext_dram]
  refine ⟨rfl, (item _ ?_).1, (item _ ?_).2, rfl⟩
  all_goals exact (congrArg Cal.items (Dev.copyNext_cal s.clk _)).trans rfl

theorem migSpareTrained_fails (training : g.training = true) (other : g.src ≠ g.dst)
    (ranks : Store.wf {} s.dev.dram.ranks = true) : ∃ d : Dev, Does (.migSpareTrained false [] []) s d ∧ d.dram.mig = none ∧
      d.dram.spare = none ∧ (d.rank g.dst).state = .retired ∧ d.rank g.src = s.dev.rank g.src ∧ d.dram.map = s.dev.dram.map := by
  refine ⟨_, does_of_onDev (execMigSpareTrained false [] [] s) rfl rfl rfl, ?_⟩
  rw [mig]
  dsimp only
  rw [if_neg (by simp [training])]
  generalize left : Dev.judgeRetires _ _ = e
  have dram : e.dram = { s.dev.dram with
      retire := e.dram.retire, mig := none, spare := none,
      ranks := s.dev.dram.ranks.put {} g.dst
        { s.dev.rank g.dst with state := .retired, selfRef := true, down := false, owed := 0 } } := by
    rw [← left, Dev.judgeRetires_dram, Dev.finish_dram, Dev.loseSpare_dram]
    rfl
  have reads := Dev.rank_of_ranks ranks (e := e) (congrArg Dram.ranks dram)
  refine ⟨congrArg Dram.mig dram, congrArg Dram.spare dram, ?_, ?_, (congrArg Dram.map dram).trans rfl⟩
  · rw [reads, if_pos rfl]
  · rw [reads, if_neg other]

theorem migrationFlip_flips (trained : g.training = false) (copied : s.dev.dram.blocks ≤ g.done) (other : g.src ≠ g.dst)
    (ranks : Store.wf {} s.dev.dram.ranks = true) : ∃ d : Dev, Does .migrationFlip s d ∧ d.dram.mig = none ∧ d.dram.spare = none ∧
      d.dram.map = s.dev.dram.map.map (fun r => if r = g.src then g.dst else r) ∧ (d.rank g.dst).state = .inService ∧
      (d.rank g.src).state = .retired := by
  refine ⟨_, does_of_onDev (execMigrationFlip s) rfl rfl rfl, ?_⟩
  rw [mig]
  dsimp only
  rw [if_neg (by simp [trained, copied])]
  generalize left : Dev.judgeRetires _ _ = e
  obtain ⟨reqs, y, retired, dram⟩ : ∃ (reqs : List DReq) (y : Rank), y.state = .retired ∧
      e.dram = { (s.dev.dropLines g.src).dram with
        retire := e.dram.retire, mig := none, spare := none, reqs := reqs,
        map := s.dev.dram.map.map (fun r => if r == g.src then g.dst else r),
        ranks := (s.dev.dram.ranks.put {} g.dst
          { s.dev.rank g.dst with state := .inService, unused := (s.dev.rank g.src).unused }).put {} g.src y } := by
    refine ⟨?reqs, ?y, ?state, ?is⟩
    case is =>
      rw [← left, Dev.judgeRetires_dram, Dev.finish_dram, Dev.rankEvent, Dev.event_dram, Dev.bump1, Dev.bumpN_dram,
        Dev.calRankGone_dram]
      rfl
    case state => rfl
  have put : Store.wf {} (s.dev.dram.ranks.put {} g.dst
      { s.dev.rank g.dst with state := .inService, unused := (s.dev.rank g.src).unused }) = true := Store.wf_put ranks
  refine ⟨congrArg Dram.mig dram, congrArg Dram.spare dram, ?_, ?_, ?_⟩
  · rw [dram]
    simp only [beq_iff_eq]
  · rw [Dev.rank, dram, Store.get_put put, if_neg other.symm, Store.get_put ranks, if_pos rfl]
  · rw [Dev.rank, dram, Store.get_put put, if_pos rfl, retired]

end

/-! ### The spare's test and the commands (Table 16.4) -/

section
variable {n : Nat} (testing : s.dev.dram.testing = true) (spare : s.dev.dram.spare = some n)
include testing spare

theorem spareTestDone_ends {trained : Bool} {errors : Nat} {offs : List Nat} {d e : Dev}
    (rests : (s.dev.setDram { s.dev.dram with testing := false }).modRank n
      (fun y => { y with selfRef := true, down := false, owed := 0 }) = d)
    (judged : (if !trained then (d.bump1 .dmcRankTrainFail n).loseSpare s.clk n 4
      else if errors = 0 then d else (d.bump1 .dmcRankBistError n).loseSpare s.clk n 3) = e) :
    Does (.spareTestDone trained errors offs) s ((e.finish s.clk .dramSpareTest 0 .ok
      (⟨4, errors⟩ :: ((offs ++ List.replicate 16 0).take 16).map (fun a => ⟨4, a⟩))).judgeRetires s.clk) := by
  subst rests judged
  refine does_of_onDev (execSpareTestDone trained errors offs s) rfl rfl ?_
  rw [testing, spare]

/-- A test without errors, with no retirement waiting, is its command's completion. -/
theorem spareTestDone_answers {o : Origin} (retire : s.dev.dram.retire = [])
    (waits : s.dev.waits = [{ kind := .dramSpareTest, key := 0, src := .host o, opc := 0x0C05 }]) :
    Does (.spareTestDone true 0 []) s (({ (s.dev.setDram { s.dev.dram with testing := false }).modRank n
      (fun y => { y with selfRef := true, down := false, owed := 0 }) with waits := [] } : Dev).complete s.clk o 0x0C05 .ok
        (List.replicate 17 ⟨4, 0⟩)) := by
  have ends := spareTestDone_ends (trained := true) (errors := 0) (offs := []) testing spare rfl rfl
  rw [Dev.finish_waiter] at ends
  case waits => exact waits
  have kept (e : Dev) (left : e.dram.retire = []) (has : e.dram.spare = some n) : e.judgeRetires s.clk = e := by
    unfold Dev.judgeRetires
    rw [if_pos (by rw [has]; rfl), left, List.filter_nil, ← left]
    rfl
  rw [kept] at ends
  · exact ends
  · rw [Dev.complete_dram]; exact retire
  · rw [Dev.complete_dram]; exact spare

end

section
variable {o : Origin} (ho : HostOk o s)
include ho

theorem dramStatus_answers : ∃ fs : List RField, fs.length = 32 ∧ (s.dev.dram.mig = none → fs.take 3 = [⟨1, 0⟩, ⟨1, 0⟩, ⟨4, 0⟩]) ∧
    Answers (.dramStatus o) o 0x0C01 s .ok
      ((List.range 4).map (fun r => ⟨1, rstateCode (s.dev.rank r).state⟩) ++
        (List.range 4).map (fun i => ⟨1, (s.dev.dram.map[i]?).getD 0xFF⟩) ++ [⟨1, s.dev.dram.map.length⟩] ++ fs) s.dev := by
  have tells := answers_of_hostCmd (i := .dramStatus o) _ ho rfl rfl
  simp only [List.append_assoc] at tells ⊢
  refine ⟨_, ?_, ?_, tells⟩
  · cases s.dev.dram.mig <;> simp
  · intro mig
    rw [mig]
    rfl

theorem dramPortSet_sets {port target level : Nat} {rt panic : Bool} (least : 100 ≤ target) (most : target ≤ 100000)
    (low : 1 ≤ level) (high : level ≤ 63) (top : port ≤ 9) : Answers (.dramPortSet o port target rt panic level) o 0x0C02 s .ok []
      (s.dev.setDram { s.dev.dram with ports := setAt s.dev.dram.ports port ⟨target, rt, panic, level⟩ }) :=
  answers_of_hostCmd _ ho rfl ((if_neg (by simp; omega)).trans (if_neg (by omega)))

theorem dramPortSet_unknown {port target level : Nat} {rt panic : Bool} (least : 100 ≤ target) (most : target ≤ 100000)
    (low : 1 ≤ level) (high : level ≤ 63) (above : 9 < port) :
    Answers (.dramPortSet o port target rt panic level) o 0x0C02 s .unknownObject [] s.dev :=
  answers_of_hostCmd _ ho rfl ((if_neg (by simp; omega)).trans (if_pos above))

section
variable {r : Nat} (top : r ≤ 3)
include top

theorem dramRetire_waits {n : Nat} (serving : s.dev.dram.serving r = true) (mig : s.dev.dram.mig = none)
    (spare : s.dev.dram.spare = some n) (first : s.dev.dram.retire.contains r = false) : Waits (.dramRetire o r) o 0x0C03 s .dramRetire r
      (s.dev.setDram { s.dev.dram with retire := s.dev.dram.retire ++ [r] }) := by
  refine waits_of_hostCmd _ ho rfl ?_
  have fine : firstStatus .ok [(decide (3 < r), .unknownObject), (s.dev.dram.spare.isNone, .noResource),
      (!s.dev.dram.serving r || s.dev.dram.mig.isSome, .refusedBusy)] = .ok := by
    simp [firstStatus, Nat.not_lt.mpr top, spare, serving, mig]
  have joins : s.dev.retireTrigger r = s.dev.setDram { s.dev.dram with retire := s.dev.dram.retire ++ [r] } := by
    unfold Dev.retireTrigger
    dsimp only
    rw [mig, if_neg (by simp only [first, serving]; decide), if_pos (by simp [spare])]
  dsimp only
  rw [fine, if_neg (by decide), joins]

theorem dramRetire_noSpare (serving : s.dev.dram.serving r = true) (mig : s.dev.dram.mig = none) (spare : s.dev.dram.spare = none) :
    Answers (.dramRetire o r) o 0x0C03 s .noResource [] s.dev := by
  refine answers_of_hostCmd _ ho rfl ?_
  have refused : firstStatus .ok [(decide (3 < r), .unknownObject), (s.dev.dram.spare.isNone, .noResource),
      (!s.dev.dram.serving r || s.dev.dram.mig.isSome, .refusedBusy)] = .noResource := by
    simp [firstStatus, Nat.not_lt.mpr top, spare, serving, mig]
  rw [refused, if_pos (by decide)]

theorem dramSpareTest_waits (spare : s.dev.dram.spare = some r) (mig : s.dev.dram.mig = none) (free : s.dev.dram.testing = false) :
    Waits (.dramSpareTest o r) o 0x0C05 s .dramSpareTest 0 ((s.dev.setDram { s.dev.dram with testing := true }).modRank r
      (fun y => { y with selfRef := false, accrued := nowAbs s.clk })) := by
  refine waits_of_hostCmd _ ho rfl ?_
  have fine : firstStatus .ok [(decide (3 < r), .unknownObject), (s.dev.dram.spare.isNone, .noResource),
      (s.dev.dram.spare != some r || s.dev.dram.mig.isSome || s.dev.dram.testing, .refusedBusy)] = .ok := by
    simp [firstStatus, Nat.not_lt.mpr top, spare, mig, free]
  dsimp only
  rw [fine, if_neg (by decide)]

end

theorem dramMigrateAbort_busy (mig : s.dev.dram.mig = none) : Answers (.dramMigrateAbort o) o 0x0C04 s .refusedBusy [] s.dev :=
  answers_of_hostCmd _ ho rfl (if_neg (by simp [mig]))

theorem dramMigrateAbort_aborts (mig : s.dev.dram.mig.isSome = true) :
    Answers (.dramMigrateAbort o) o 0x0C04 s .ok [] (s.dev.migAbort s.clk) := answers_of_hostCmd _ ho rfl (if_pos mig)

theorem dramScrubSet_sets {en evt : Bool} {rate lim : Nat} (least : 1 ≤ rate) (most : rate ≤ 256) :
    Answers (.dramScrubSet o en rate lim evt) o 0x0C06 s .ok []
      (s.dev.setDram { s.dev.dram with scrubNew := some (en, rate, lim % 65536, evt) }) :=
  answers_of_hostCmd _ ho rfl (if_neg (by simp; omega))

theorem dramScrubSet_bad {en evt : Bool} {rate lim : Nat} (above : 256 < rate) :
    Answers (.dramScrubSet o en rate lim evt) o 0x0C06 s .badArg [] s.dev :=
  answers_of_hostCmd _ ho rfl (if_pos (by simp; omega))

theorem dramErrorLog_answers : ∃ fs : List RField, fs.length = 6 * s.dev.dram.log.length ∧
    Answers (.dramErrorLog o) o 0x0C07 s .ok fs s.dev := by
  refine ⟨_, ?_, answers_of_hostCmd _ ho rfl rfl⟩
  rw [List.length_flatMap]
  simp [Nat.mul_comm]

end

/-- An abort ends the migration and keeps the spare and the map. -/
theorem Machine.Dev.migAbort_keeps {d : Dev} {g : Mig} (k : Clock) (mig : d.dram.mig = some g) : (d.migAbort k).dram.mig = none ∧
    (d.migAbort k).dram.spare = d.dram.spare ∧ (d.migAbort k).dram.map = d.dram.map := by
  unfold Dev.migAbort
  rw [mig]
  dsimp only
  rw [Dev.judgeRetires_dram, Dev.finish_dram, Dev.event_dram, Dev.calRankGone_dram]
  exact ⟨rfl, rfl, rfl⟩

end

/-- Settles O58: a request that stands alone is followed through its channel (`OnlyReq`); an answer to a command, and the triggers
judged again, leave the controller as the event or command has made it. -/
theorem dramServesRefreshesAndMigrates : Obligations.DramServesRefreshesAndMigrates := by
  unfold Obligations.DramServesRefreshesAndMigrates
  rintro s x rfl now rfl
  refine ⟨?_, fun ch ecc m d lt turns => dramTransaction_turns lt turns, ?_, fun ch lt idle served owed ecc =>
    dramTransaction_refreshes lt idle served owed, fun id => does_of_onDev (execRequestLate id s) rfl rfl rfl,
    fun q single timely panic reached => requestLate_counts single timely panic reached, ?_,
    fun r serving set_ idle awake long => powerDownEntry_enters serving set_ idle awake long, scrubQueue_owes,
    fun r off on first none_ slow some_ inside place empty panic => scrubQueue_reads on first none_ slow some_ inside place empty panic,
    fun r rest n asked spare mig free => rankRetireStart_trains asked spare mig free, ?_, ?_⟩
  · rintro who port addr len data ok rfl least block length
    cases data with
    | none =>
      have asks : Asks len none .read := .inl ⟨rfl, rfl⟩
      refine ⟨dramRequest_denied asks ok least block, fun r off place => ⟨dramRequest_full asks ok least block place, fun room =>
        ⟨nofun, fun _ => dramRequest_joins asks ok least block place room⟩⟩, fun r off place room panic reads =>
        dramRequest_plain asks ok least block place room panic reads⟩
    | some l =>
      have asks : Asks len (some l) (.write l) := .inr ⟨l, rfl, length l rfl, rfl⟩
      refine ⟨dramRequest_denied asks ok least block, fun r off place => ⟨dramRequest_full asks ok least block place, fun room =>
        ⟨?_, nofun⟩⟩, fun r off place room panic reads => dramRequest_plain asks ok least block place room panic reads⟩
      rintro _ ⟨⟩
      exact dramRequest_joins asks ok least block place room
  · rintro q ch single rfl lt young mig owed awake answers
    have only : OnlyReq s.dev s.clk q := ⟨single, young, mig, owed, awake⟩
    refine ⟨fun is clean => ?_, fun bs is clean => ?_⟩
    · obtain ⟨e, served, reqs, answer⟩ := only.reads answers clean s.mem is
      exact ⟨e, dramTransaction_turns lt ((only.turn 0 s.mem).trans served), reqs, answer⟩
    · obtain ⟨e, served, reqs, answer⟩ := only.writes answers clean s.mem is
      exact ⟨e, dramTransaction_turns lt ((only.turn 0 s.mem).trans served), reqs, answer⟩
  · intro r lt served y is
    refine ⟨fun n every due free => ?_, fun n every due few pending => ?_, fun rate der hot at_ first d set_ =>
      mr4Poll_sets lt served is at_ first d set_⟩
    · have owes := refreshAccrue_owes lt served is every due
      rwa [if_neg (by rcases free with full | none_ <;> simp [*])] at owes
    · have owes := refreshAccrue_owes lt served is every due
      rwa [if_pos (by simp [pending]; omega)] at owes
  · intro g mig other ranks items
    exact ⟨fun rd wr lr lw training reads writes => migSpareTrained_copies mig items training reads writes,
      fun training => migSpareTrained_fails mig training other ranks,
      fun trained copied => migrationFlip_flips mig trained copied other ranks⟩
  · intro o ho
    refine ⟨fun trained errors offs n d testing spare rests e judged => spareTestDone_ends testing spare rests judged,
      fun n testing spare retire waits => spareTestDone_answers testing spare retire waits, dramStatus_answers ho,
      fun port target rt panic level least most low high => ⟨dramPortSet_sets ho least most low high,
        dramPortSet_unknown ho least most low high⟩,
      fun r top serving mig => ⟨fun n spare first => dramRetire_waits ho top serving mig spare first,
        dramRetire_noSpare ho top serving mig⟩,
      dramMigrateAbort_busy ho, dramMigrateAbort_aborts ho, fun g mig _ _ => ⟨_, dramMigrateAbort_aborts ho (by rw [mig]; rfl),
        Dev.migAbort_keeps s.clk mig⟩,
      fun r top spare mig free => dramSpareTest_waits ho top spare mig free,
      fun en rate lim evt => ⟨dramScrubSet_sets ho, dramScrubSet_bad ho⟩, dramErrorLog_answers ho⟩

end Sys2Proof

/-! # Spares (chapter 18, R468 to R476)

The map and the physical tiles are read through `Dev.physOf` and `Dev.phys` after the writes that a takeover makes to them; the events
and the Barista's cycle that follow touch neither. -/

namespace Sys2Proof.Machine
open Sys2Proof

/-! ### The map and the physical tiles -/

/-- How the map holds a position's tile. -/
theorem Dev.physOf_eq (d : Dev) (t : Nat) : d.physOf t = if d.til.map.get 0 t = 0 then none else some (d.til.map.get 0 t - 1) := by
  unfold Dev.physOf
  split
  next is => rw [if_pos is]
  next p is => rw [if_neg (by omega), is]; rfl

section
variable {d e : Dev}

theorem Dev.physOf_congr (same : e.til.map = d.til.map) (t : Nat) : e.physOf t = d.physOf t := by
  rw [Dev.physOf_eq, same, ← Dev.physOf_eq]

theorem Dev.phys_congr (same : e.til.phys = d.til.phys) (p : Nat) : e.phys p = d.phys p := by
  rw [Dev.phys, same, ← Dev.phys]

theorem Dev.physOf_setMap (wf : Store.wf 0 d.til.map = true) (t u : Nat) (p : Option Nat) :
    (d.setMap t p).physOf u = if u = t then p else d.physOf u := by
  rw [Dev.physOf_eq]
  unfold Dev.setMap
  dsimp only
  rw [Store.get_put wf]
  split
  · cases p <;> simp
  · exact (Dev.physOf_eq d u).symm

theorem Dev.map_setMap (wf : Store.wf 0 d.til.map = true) (t : Nat) (p : Option Nat) :
    Store.wf 0 (d.setMap t p).til.map = true := Store.wf_put wf

theorem Dev.phys_setPhys (wf : Store.wf {} d.til.phys = true) (p q : Nat) (x : Phys) :
    (d.setPhys p x).phys q = if q = p then x else d.phys q := Store.get_put wf p q x

theorem Dev.phys_modPhys (wf : Store.wf {} d.til.phys = true) (p q : Nat) (f : Phys → Phys) :
    (d.modPhys p f).phys q = if q = p then f (d.phys p) else d.phys q := Dev.phys_setPhys wf p q _

theorem Dev.tileMapEvt_sys (k : Clock) (d : Dev) (pos : Nat) (new old : Option Nat) (st : PState) :
    (d.tileMapEvt k pos new old st).sys = d.sys := Dev.event_sys ..

theorem Dev.tileMapEvt_til (k : Clock) (d : Dev) (pos : Nat) (new old : Option Nat) (st : PState) :
    (d.tileMapEvt k pos new old st).til = d.til := Dev.event_til ..

end

/-! ### Evacuations (R469 to R471) -/

section
variable {d : Dev} {k : Clock} {e : Evac} {p : Nat}

/-- What E4 and E5 have written when the events are raised and the Barista's cycle runs. -/
def Dev.evacTaken (k : Clock) (d : Dev) (e : Evac) (p : Nat) : Dev :=
  let d := if e.at_ * 3072 + 984 < clockAbs k then d.bump1 .sysTEvacOverrun e.tile else d
  let ue := (d.phys p).ueWords
  let d := d.modPhys e.spare (fun (x : Phys) => { x with state := .active, cleared := true, ueWords := ue })
  let d := d.modPhys p (fun (x : Phys) => { x with state := .vacated, cleared := false })
  let d := (d.setMap e.tile (some e.spare)).setMap e.pos none
  let d := match e.reload with
    | some i => d.setSys { d.sys with copies := d.sys.copies.put [] e.tile i.code }
    | none => d
  let d := d.freshTile e.tile (d.tile e.tile).chans
  let d := d.setSys { d.sys with evac := none, tests := d.sys.tests ++ [(p, false)] }
  (d.tileMapEvt k e.tile (some e.spare) (some p) .vacated).tileMapEvt k e.pos none (some e.spare) .active

theorem Dev.evacTaken_sys : (d.evacTaken k e p).sys = { d.sys with
    evac := none, tests := d.sys.tests ++ [(p, false)],
    copies := (e.reload.map (fun i => d.sys.copies.put [] e.tile i.code)).getD d.sys.copies } := by
  unfold Dev.evacTaken
  rw [Dev.tileMapEvt_sys, Dev.tileMapEvt_sys]
  cases e.reload <;> dsimp only <;> split <;> rfl

/-- The tiles' moves, as the map and the physical tiles see them. -/
def Dev.evacMoves (d : Dev) (e : Evac) (p : Nat) : Dev :=
  (((d.modPhys e.spare (fun (x : Phys) => { x with state := .active, cleared := true, ueWords := (d.phys p).ueWords })).modPhys p
    (fun (x : Phys) => { x with state := .vacated, cleared := false })).setMap e.tile (some e.spare)).setMap e.pos none

theorem Dev.evacTaken_til :
    (d.evacTaken k e p).til = { (d.evacMoves e p).til with tiles := (d.evacTaken k e p).til.tiles } := by
  unfold Dev.evacTaken
  rw [Dev.tileMapEvt_til, Dev.tileMapEvt_til]
  cases e.reload <;> dsimp only <;> split <;> rfl

/-- The position maps to the spare, whose own position is empty; the vacated tile is no spare. -/
theorem Dev.evacTaken_moves (other : p ≠ e.spare) (apart : e.pos ≠ e.tile) (phys : Store.wf {} d.til.phys = true)
    (map : Store.wf 0 d.til.map = true) : (d.evacTaken k e p).physOf e.tile = some e.spare ∧
      (d.evacTaken k e p).physOf e.pos = none ∧ ((d.evacTaken k e p).phys e.spare).state = .active ∧
      ((d.evacTaken k e p).phys p).state = .vacated := by
  have maps (t : Nat) : (d.evacTaken k e p).physOf t = (d.evacMoves e p).physOf t :=
    Dev.physOf_congr ((congrArg Til.map Dev.evacTaken_til).trans rfl) t
  have tiles (q : Nat) : (d.evacTaken k e p).phys q = (d.evacMoves e p).phys q :=
    Dev.phys_congr ((congrArg Til.phys Dev.evacTaken_til).trans rfl) q
  have mapped (t : Nat) : (d.evacMoves e p).physOf t = if t = e.pos then none else if t = e.tile then some e.spare else d.physOf t := by
    rw [Dev.evacMoves, Dev.physOf_setMap (Dev.map_setMap (by exact map) _ _), Dev.physOf_setMap (by exact map)]
    rfl
  have moved (q : Nat) : (d.evacMoves e p).phys q = ((d.modPhys e.spare (fun (x : Phys) => { x with
      state := .active, cleared := true, ueWords := (d.phys p).ueWords })).modPhys p (fun (x : Phys) => { x with
        state := .vacated, cleared := false })).phys q := Dev.phys_congr rfl q
  refine ⟨?_, ?_, ?_, ?_⟩
  · rw [maps, mapped, if_neg apart.symm, if_pos rfl]
  · rw [maps, mapped, if_pos rfl]
  · rw [tiles, moved, Dev.phys_modPhys (Store.wf_put phys), if_neg other.symm, Dev.phys_modPhys phys, if_pos rfl]
  · rw [tiles, moved, Dev.phys_modPhys (Store.wf_put phys), if_pos rfl]

end

/-! ### The test of a tile (R472, R473) -/

section
variable {d : Dev} {k : Clock} {m : Mems} {p : Nat} {pm dm : List (Nat × Nat)}

theorem Dev.emptySpare_first (empty : d.physOf 32 = none) : d.emptySpare = some 32 := by
  simp [Dev.emptySpare, empty]

theorem Dev.emptySpare_second (full : d.physOf 32 ≠ none) (empty : d.physOf 33 = none) : d.emptySpare = some 33 := by
  obtain ⟨q, holds⟩ := Option.ne_none_iff_exists'.mp full
  simp [Dev.emptySpare, holds, empty]

/-- The test of `p` is over. -/
def Dev.testOver (d : Dev) (p : Nat) : Dev := d.setSys { d.sys with tests := d.sys.tests.filter (fun y => y.1 != p) }

/-- Tile `p`, whose test is over, has passed it with those rows replaced. -/
def Dev.testPassed (d : Dev) (p : Nat) (pm dm : List (Nat × Nat)) : Dev :=
  (d.testOver p).setPhys p { d.phys p with
    state := .spare, cleared := true, pmHist := (d.phys p).pmHist.filter (fun h => !h.cand),
    dmHist := (d.phys p).dmHist.filter (fun h => !h.cand), pmSpare := (d.phys p).pmSpare ++ repairRows pm (d.phys p).pmHist,
    dmSpare := (d.phys p).dmSpare ++ repairRows dm (d.phys p).dmHist, ueWords := [] }

/-- Tile `p` fills the first empty spare position. -/
def Dev.fillSpare (k : Clock) (d : Dev) (p : Nat) : Dev :=
  match d.emptySpare with
  | some t => (d.setMap t (some p)).tileMapEvt k t (some p) none .active
  | none => d

/-- Tile `p` has failed its test. -/
def Dev.testFailed (k : Clock) (d : Dev) (p : Nat) : Dev :=
  (((d.testOver p).setPhys p { d.phys p with state := .retired }).bump0 .tilRetired).tileMapEvt k 0x3F none (some p) .retired

theorem Dev.testEnd_passes (pmOk : sparesSuffice (d.phys p).pmSpare (repairRows pm (d.phys p).pmHist) = true)
    (dmOk : sparesSuffice (d.phys p).dmSpare (repairRows dm (d.phys p).dmHist) = true) :
    d.testEnd k m p false true pm dm = ((m.clearDm p).loadPm p [], (d.testPassed p pm dm).fillSpare k p) :=
  if_pos (by simp [pmOk, dmOk])

theorem Dev.testEnd_fails : d.testEnd k m p false false pm dm = (m, d.testFailed k p) := rfl

theorem Dev.fillSpare_sys : (d.fillSpare k p).sys = d.sys := by
  unfold Dev.fillSpare
  split
  · exact Dev.tileMapEvt_sys ..
  · rfl

theorem Dev.fillSpare_phys (q : Nat) : (d.fillSpare k p).phys q = d.phys q := by
  unfold Dev.fillSpare
  split
  · exact Dev.phys_congr (congrArg Til.phys (Dev.tileMapEvt_til ..)) q
  · rfl

theorem Dev.fillSpare_physOf {t : Nat} (wf : Store.wf 0 d.til.map = true) (empty : d.emptySpare = some t) (u : Nat) :
    (d.fillSpare k p).physOf u = if u = t then some p else d.physOf u := by
  unfold Dev.fillSpare
  rw [empty]
  exact (Dev.physOf_congr (congrArg Til.map (Dev.tileMapEvt_til ..)) u).trans (Dev.physOf_setMap wf t u _)

theorem Dev.testPassed_physOf (t : Nat) : (d.testPassed p pm dm).physOf t = d.physOf t := Dev.physOf_congr rfl t

end

/-! ### What TILE_EVACUATE answers (R469, R471) -/

section
variable {d : Dev} {t : Nat} {reloads : Status}

theorem Dev.reloadCheck_cases (d : Dev) (dig : Nat) : d.reloadCheck dig = .ok ∨ d.reloadCheck dig = .badArg ∨
    d.reloadCheck dig = .unknownObject ∨ d.reloadCheck dig = .locked := by
  unfold Dev.reloadCheck
  grind

/-- The status of an evacuation of position `t` whose image has that status. -/
def Dev.evacStatus (d : Dev) (t : Nat) (reloads : Status) : Status :=
  firstStatus .ok [(t == 32 || t == 33 || reloads == .badArg, .badArg),
    (decide (33 < t) || reloads == .unknownObject, .unknownObject), (reloads == .locked, .locked),
    (d.sparePick.isNone || !d.posActive t, .noResource), (d.sys.evac.isSome, .refusedBusy)]

theorem Dev.evacStatus_spare (spare : t = 32 ∨ t = 33) : d.evacStatus t .ok = .badArg := by
  unfold Dev.evacStatus
  cases d.sparePick.isNone || !d.posActive t <;> cases d.sys.evac.isSome <;> obtain rfl | rfl := spare <;> rfl

section
variable (low : t ≤ 31)
include low

theorem Dev.evacStatus_low : d.evacStatus t reloads = firstStatus .ok [(reloads == .badArg, .badArg),
    (reloads == .unknownObject, .unknownObject), (reloads == .locked, .locked),
    (d.sparePick.isNone || !d.posActive t, .noResource), (d.sys.evac.isSome, .refusedBusy)] := by
  rw [Dev.evacStatus, beq_eq_false_iff_ne.mpr (show t ≠ 32 by omega), beq_eq_false_iff_ne.mpr (show t ≠ 33 by omega),
    decide_eq_false (show ¬ 33 < t by omega), Bool.false_or, Bool.false_or, Bool.false_or]

theorem Dev.evacStatus_image (bad : reloads = .badArg ∨ reloads = .unknownObject ∨ reloads = .locked) :
    d.evacStatus t reloads = reloads := by
  rw [Dev.evacStatus_low low]
  cases d.sparePick.isNone || !d.posActive t <;> cases d.sys.evac.isSome <;> obtain rfl | rfl | rfl := bad <;> rfl

theorem Dev.evacStatus_noSpare (pick : d.sparePick = none) : d.evacStatus t .ok = .noResource := by
  rw [Dev.evacStatus_low low, pick]
  cases d.sys.evac.isSome <;> rfl

theorem Dev.evacStatus_picked (pick : d.sparePick ≠ none) (active : d.posActive t = true) :
    d.evacStatus t .ok = if d.sys.evac.isSome then .refusedBusy else .ok := by
  rw [Dev.evacStatus_low low, Option.isNone_eq_false_iff.mpr (Option.isSome_iff_ne_none.mpr pick), active]
  cases d.sys.evac.isSome <;> rfl

end
end

/-! ### A position filled from a spare (R475) -/

section
variable {d : Dev} {k : Clock} {t p pos : Nat}

/-- Position `t` has taken tile `p` out of spare position `pos`. -/
def Dev.filled (k : Clock) (d : Dev) (t p pos : Nat) : Dev :=
  ((((((d.modPhys p (fun (x : Phys) => { x with state := .active, cleared := true, ueWords := [] })).setMap t (some p)).setMap pos none
    ).freshTile t []).tileMapEvt k t (some p) none .active).tileMapEvt k pos none (some p) .active)

theorem Dev.filled_sys : (d.filled k t p pos).sys = d.sys := by
  rw [Dev.filled, Dev.tileMapEvt_sys, Dev.tileMapEvt_sys]; rfl

theorem Dev.filled_til : (d.filled k t p pos).til = { (((d.modPhys p (fun (x : Phys) => { x with
    state := .active, cleared := true, ueWords := [] })).setMap t (some p)).setMap pos none).til with
      tiles := (d.filled k t p pos).til.tiles } := by
  rw [Dev.filled, Dev.tileMapEvt_til, Dev.tileMapEvt_til]; rfl

theorem Dev.filled_moves (apart : pos ≠ t) (phys : Store.wf {} d.til.phys = true) (map : Store.wf 0 d.til.map = true) :
    (d.filled k t p pos).physOf t = some p ∧ (d.filled k t p pos).physOf pos = none ∧ ((d.filled k t p pos).phys p).state = .active := by
  have maps (u : Nat) : (d.filled k t p pos).physOf u = if u = pos then none else if u = t then some p else d.physOf u := by
    rw [Dev.physOf_congr ((congrArg Til.map Dev.filled_til).trans rfl) u, Dev.physOf_setMap (Dev.map_setMap (by exact map) _ _),
      Dev.physOf_setMap (by exact map)]
    rfl
  have holds : (d.filled k t p pos).phys p = (d.modPhys p (fun (x : Phys) => { x with
      state := .active, cleared := true, ueWords := [] })).phys p := Dev.phys_congr ((congrArg Til.phys Dev.filled_til).trans rfl) p
  refine ⟨?_, ?_, ?_⟩
  · rw [maps, if_neg apart.symm, if_pos rfl]
  · rw [maps, if_pos rfl]
  · rw [holds, Dev.phys_modPhys phys, if_pos rfl]

theorem length_rowStoreFields (l : Store Nat) : (rowStoreFields l).length = 1 + 2 * l.length := by
  have rows : (l.entries.flatMap (fun (p : Nat × Nat) => ([⟨4, p.1⟩, ⟨1, p.2⟩] : List RField))).length = 2 * l.length := by
    rw [List.length_flatMap]
    simp [Store.entries, Nat.mul_comm]
  rw [rowStoreFields, List.length_cons, rows, Nat.add_comm]

theorem Dev.sparePick_pos (pick : d.sparePick = some (p, pos)) : pos = 32 ∨ pos = 33 := by
  unfold Dev.sparePick at pick
  split at pick
  · grind
  · rw [Option.map_eq_some_iff] at pick
    grind

end
end Sys2Proof.Machine

namespace Sys2Proof
open Sys2Proof.Machine

section
variable {s : State}

section
variable {e : Evac} (evac : s.dev.sys.evac = some e)
include evac

/-- Steps E1 and E2. -/
theorem evacBoundary_holds {d : Dev} (waits : e.held = false) (due : e.at_ ≤ s.clk.tick)
    (held : ((s.dev.bump1 .sysTEvac e.tile).bump1 .schTEvacHold e.tile).holdTile e.tile = d) :
    DoesMem .evacBoundary s (s.mem.loadPm e.spare ((e.reload.map (·.code)).getD (s.dev.sys.copies.get [] e.tile)))
      ((d.setSys { d.sys with evac := some { e with held := true } }).settle s.clk none) := by
  subst held
  refine doesMem_of_onMem (execEvacBoundary s) rfl rfl ?_
  rw [evac]
  exact if_neg (by simp [waits, due])

theorem evacBoundary_freezes (waits : e.held = false) (due : e.at_ ≤ s.clk.tick) (plain : e.reload = none)
    (wf : Store.wf {} s.dev.sch.tiles = true) : ∃ d : Dev,
      DoesMem .evacBoundary s (s.mem.loadPm e.spare (s.dev.sys.copies.get [] e.tile)) (d.settle s.clk none) ∧
      d.sys = { s.dev.sys with evac := some { e with held := true } } ∧ (d.stl e.tile).frozen = true ∧ d.til = s.dev.til := by
  have holds := evacBoundary_holds evac waits due rfl
  have code : (e.reload.map (·.code)).getD (s.dev.sys.copies.get [] e.tile) = s.dev.sys.copies.get [] e.tile := by rw [plain]; rfl
  rw [code] at holds
  have held := Dev.stl_setStl (d := (s.dev.bump1 .sysTEvac e.tile).bump1 .schTEvacHold e.tile) wf e.tile e.tile
  exact ⟨_, holds, rfl, (congrArg STile.frozen ((held _).trans (if_pos rfl))).trans rfl, rfl⟩

/-- Steps E4 and E5. -/
theorem evacComplete_takes {p : Nat} (held : e.held = true) (maps : s.dev.physOf e.tile = some p)
    (quiet : s.dev.evacQuiet e.tile = true) : DoesMem .evacComplete s (s.mem.copyDm p e.spare)
      ((((s.dev.evacTaken s.clk e p).settle s.clk none).finish s.clk .tileEvacuate e.tile .ok).evacNext s.clk) := by
  refine doesMem_of_onMem (execEvacComplete s) rfl rfl ?_
  rw [evac]
  dsimp only
  rw [maps]
  exact if_neg (by simp [held, quiet])

end

/-! ### The test of a vacated tile (R472, R473) -/

theorem vacatedSelfTestDone_ends {p : Nat} {pass asked : Bool} {pm dm : List (Nat × Nat)}
    (tested : s.dev.sys.tests.find? (fun y => y.1 == p) = some (p, asked)) (going : s.dev.hif.paused = false) :
    exec (.vacatedSelfTestDone p pass pm dm) s = .next { s with
      mem := (s.dev.testEnd s.clk s.mem p asked pass pm dm).1, dev := (s.dev.testEnd s.clk s.mem p asked pass pm dm).2 } := by
  refine doesMem_of_onMem (execVacatedSelfTestDone p pass pm dm s) rfl rfl ?_
  rw [tested]
  exact if_neg (by simp [going])

theorem vacatedSelfTestDone_asksNobody {p : Nat} {pass : Bool} {pm dm : List (Nat × Nat)} {m : Mems} {d : Dev}
    (tested : s.dev.sys.tests.find? (fun y => y.1 == p) = some (p, false)) (going : s.dev.hif.paused = false)
    (ends : s.dev.testEnd s.clk s.mem p false pass pm dm = (m, d)) : DoesMem (.vacatedSelfTestDone p pass pm dm) s m d := by
  unfold DoesMem
  rw [vacatedSelfTestDone_ends tested going, ends]

theorem vacatedSelfTestDone_passes {p : Nat} {pm dm : List (Nat × Nat)}
    (tested : s.dev.sys.tests.find? (fun y => y.1 == p) = some (p, false)) (going : s.dev.hif.paused = false)
    (phys : Store.wf {} s.dev.til.phys = true) (map : Store.wf 0 s.dev.til.map = true)
    (pmOk : sparesSuffice (s.dev.phys p).pmSpare (repairRows pm (s.dev.phys p).pmHist) = true)
    (dmOk : sparesSuffice (s.dev.phys p).dmSpare (repairRows dm (s.dev.phys p).dmHist) = true) : ∃ d : Dev,
      DoesMem (.vacatedSelfTestDone p true pm dm) s ((s.mem.clearDm p).loadPm p []) d ∧ (d.phys p).state = .spare ∧
      d.sys = { s.dev.sys with tests := s.dev.sys.tests.filter (fun y => y.1 != p) } ∧
      (s.dev.physOf 32 = none → d.physOf 32 = some p ∧ d.physOf 33 = s.dev.physOf 33) ∧
      (s.dev.physOf 32 ≠ none → s.dev.physOf 33 = none → d.physOf 33 = some p) := by
  refine ⟨_, vacatedSelfTestDone_asksNobody tested going (Dev.testEnd_passes pmOk dmOk), ?_, Dev.fillSpare_sys, ?_, ?_⟩
  · rw [Dev.fillSpare_phys, Dev.testPassed, Dev.phys_setPhys (by exact phys), if_pos rfl]
  · intro empty
    have first := Dev.emptySpare_first (d := s.dev.testPassed p pm dm) empty
    exact ⟨(Dev.fillSpare_physOf (by exact map) first 32).trans (if_pos rfl), Dev.fillSpare_physOf (by exact map) first 33⟩
  · intro full empty
    exact (Dev.fillSpare_physOf (by exact map) (Dev.emptySpare_second (d := s.dev.testPassed p pm dm) full empty) 33).trans (if_pos rfl)

theorem vacatedSelfTestDone_fails {p : Nat} {pm dm : List (Nat × Nat)}
    (tested : s.dev.sys.tests.find? (fun y => y.1 == p) = some (p, false)) (going : s.dev.hif.paused = false)
    (phys : Store.wf {} s.dev.til.phys = true) : ∃ d : Dev, Does (.vacatedSelfTestDone p false pm dm) s d ∧
      (d.phys p).state = .retired ∧ d.til.map = s.dev.til.map ∧
      d.sys = { s.dev.sys with tests := s.dev.sys.tests.filter (fun y => y.1 != p) } := by
  refine ⟨_, vacatedSelfTestDone_asksNobody tested going Dev.testEnd_fails, ?_, ?_, ?_⟩
  · rw [Dev.testFailed, Dev.phys_congr (congrArg Til.phys (Dev.tileMapEvt_til ..)) p]
    exact congrArg Phys.state ((Dev.phys_setPhys (d := s.dev.testOver p) phys p p _).trans (if_pos rfl))
  · rw [Dev.testFailed, Dev.tileMapEvt_til]; rfl
  · rw [Dev.testFailed, Dev.tileMapEvt_sys]; rfl

/-! ### The host's commands (R469, R472, R475) -/

section
variable {o : Origin} (ok : HostOk o s)
include ok

theorem tileEvacuate_starts {t p pos : Nat} (pick : s.dev.sparePick = some (p, pos)) (fine : s.dev.evacStatus t .ok = .ok) :
    Waits (.tileEvacuate o t none) o 0x0D01 s .tileEvacuate t (s.dev.startEvac s.clk t p pos none) := by
  refine waits_of_hostCmd _ ok rfl ?_
  dsimp only
  rw [← Dev.evacStatus, fine, pick]
  rfl

theorem tileEvacuate_reloads {t p pos dig : Nat} (pick : s.dev.sparePick = some (p, pos)) (fine : s.dev.evacStatus t .ok = .ok)
    (image : s.dev.reloadCheck dig = .ok) : Waits (.tileEvacuate o t (some dig)) o 0x0D01 s .tileEvacuate t
      (s.dev.startEvac s.clk t p pos (s.dev.stagedOf dig)) := by
  refine waits_of_hostCmd _ ok rfl ?_
  dsimp only
  rw [← Dev.evacStatus, image, fine, pick]
  rfl

theorem tileEvacuate_refuses {t : Nat} {st : Status} (status : s.dev.evacStatus t .ok = st) (bad : st ≠ .ok) :
    Answers (.tileEvacuate o t none) o 0x0D01 s st [] s.dev := by
  refine answers_of_hostCmd _ ok rfl ?_
  dsimp only
  rw [← Dev.evacStatus, status]
  split
  · contradiction
  · rfl

theorem tileEvacuate_refusesImage {t dig : Nat} (low : t ≤ 31) (bad : s.dev.reloadCheck dig ≠ .ok) :
    Answers (.tileEvacuate o t (some dig)) o 0x0D01 s (s.dev.reloadCheck dig) [] s.dev := by
  refine answers_of_hostCmd _ ok rfl ?_
  dsimp only
  rw [← Dev.evacStatus, Dev.evacStatus_image low ((s.dev.reloadCheck_cases dig).resolve_left bad)]
  split
  next image _ => exact absurd image bad
  · rfl

theorem tileSpareTest_starts {p t : Nat} (small : p ≤ 33) (first : [32, 33].find? (fun t => s.dev.spareAt t == some p) = some t) :
    Waits (.tileSpareTest o p) o 0x0D02 s .tileSpareTest p (((s.dev.setMap t none).setSys { s.dev.sys with
      tests := s.dev.sys.tests ++ [(p, true)] }).tileMapEvt s.clk t none (some p) .spare) := by
  refine waits_of_hostCmd _ ok rfl ?_
  dsimp only
  rw [if_neg (by omega), first]

theorem tileSpareTest_busy {p : Nat} (small : p ≤ 33) (none32 : s.dev.spareAt 32 ≠ some p) (none33 : s.dev.spareAt 33 ≠ some p) :
    Answers (.tileSpareTest o p) o 0x0D02 s .refusedBusy [] s.dev := by
  refine answers_of_hostCmd _ ok rfl ?_
  have neither : [32, 33].find? (fun t => s.dev.spareAt t == some p) = none := by simp [none32, none33]
  dsimp only
  rw [if_neg (by omega), neither]

theorem tileFill_fills {t p pos : Nat} (low : t ≤ 31) (empty : s.dev.physOf t = none) (pick : s.dev.sparePick = some (p, pos)) :
    DoesMem (.tileFill o t) s ((s.mem.clearDm p).loadPm p (s.dev.sys.copies.get [] t))
      (((s.dev.filled s.clk t p pos).settle s.clk none).complete s.clk o 0x0D03 .ok []) := by
  refine doesMem_of_hostMem _ ok rfl ?_
  have fine : firstStatus .ok [(decide (33 < t), .unknownObject), (s.dev.sparePick.isNone, .noResource),
      (decide (31 < t) || (s.dev.physOf t).isSome, .refusedBusy)] = .ok := by
    simp [firstStatus, pick, empty, show ¬ 33 < t by omega, show ¬ 31 < t by omega]
  dsimp only
  rw [fine, pick, ← Dev.filled_sys (d := s.dev) (k := s.clk) (t := t) (p := p) (pos := pos)]
  rfl

theorem tileFill_noSpare {t : Nat} (low : t ≤ 31) (pick : s.dev.sparePick = none) :
    Answers (.tileFill o t) o 0x0D03 s .noResource [] s.dev := by
  refine doesMem_of_hostMem _ ok rfl ?_
  cases s.dev.physOf t <;> simp [firstStatus, statusRank, pick, show ¬ 33 < t by omega, show ¬ 31 < t by omega]

section
variable {row ue : Bool} {frame wdog qrow : Nat}

theorem servicePolicy_sets (frames : [20, 40, 80, 160].contains frame = true) (wdogLow : 80 ≤ wdog) (wdogHigh : wdog ≤ 8000)
    (qrowLow : 1 ≤ qrow) (qrowHigh : qrow ≤ 15) : Answers (.servicePolicy o row ue frame wdog qrow) o 0x0D04 s .ok [] (s.dev.setSys {
      s.dev.sys with evacRow := row, evacUe := ue, evacFrame := frame, wdogTicks := wdog, qrowLimit := qrow }) := by
  refine answers_of_hostCmd _ ok rfl ?_
  dsimp only
  rw [if_neg (by simp only [frames]; simp; omega)]

theorem servicePolicy_badFrame (frames : [20, 40, 80, 160].contains frame = false) :
    Answers (.servicePolicy o row ue frame wdog qrow) o 0x0D04 s .badArg [] s.dev := by
  refine answers_of_hostCmd _ ok rfl ?_
  dsimp only
  rw [if_pos (by simp only [frames]; simp)]

end

theorem sramRowStatus_unknown {memory : Nat} (other : 2 ≤ memory) : Answers (.sramRowStatus o memory) o 0x0D0C s .badArg [] s.dev := by
  refine answers_of_hostCmd _ ok rfl ?_
  dsimp only
  rw [if_neg (by omega), if_neg (by omega)]

theorem sramRowStatus_qRows : Answers (.sramRowStatus o 0) o 0x0D0C s .ok (rowListFields s.dev.sys.qLeft ++
    rowStoreFields s.dev.sys.qDone ++ (List.range 32).map (fun b => ⟨1, 4 - s.dev.sys.qUsed.get 0 b⟩)) s.dev :=
  answers_of_hostCmd _ ok rfl rfl

theorem sramRowStatus_cRows : Answers (.sramRowStatus o 1) o 0x0D0C s .ok (rowListFields s.dev.sys.cCand ++
    rowStoreFields s.dev.sys.cDone ++ (List.range 8).map (fun b => ⟨1, 4 - s.dev.sys.cUsed.get 0 b⟩)) s.dev :=
  answers_of_hostCmd _ ok rfl rfl

end
end

/-- Settles O59: an evacuation's two boundaries are followed through the map and the physical tiles, a test's end through what it writes
of its tile, and each command through its status. -/
theorem sparesTakeOverAndAreTested : Obligations.SparesTakeOverAndAreTested := by
  rintro s _ rfl
  refine ⟨fun e evac => ⟨fun d => evacBoundary_holds evac, ?complete, evacBoundary_freezes evac, ?takes⟩,
    fun p pass pm dm asked => vacatedSelfTestDone_ends, ?tested, fun o ok => ⟨fun t low active => ?evacuate, ?sparePositions⟩⟩
  case complete => exact fun p held maps quiet => ⟨_, evacComplete_takes evac held maps quiet, Dev.evacTaken_sys⟩
  case takes =>
    intro p held maps quiet plain other apart phys map
    obtain ⟨position, spare, active, vacated⟩ := Dev.evacTaken_moves (k := s.clk) other apart phys map
    refine ⟨_, evacComplete_takes evac held maps quiet, position, spare, active, vacated, ?_⟩
    rw [Dev.evacTaken_sys, plain]
    rfl
  case tested => exact fun p pm dm tested going phys map =>
    ⟨vacatedSelfTestDone_passes tested going phys map, vacatedSelfTestDone_fails tested going phys⟩
  case evacuate =>
    have picked {p pos : Nat} (pick : s.dev.sparePick = some (p, pos)) := Dev.evacStatus_picked (d := s.dev) low (by simp [pick]) active
    refine ⟨fun p pos pick free => ?_, fun p pos dig v pick free image staged => ?_, fun dig => tileEvacuate_refusesImage ok low, ?_, ?_⟩
    · exact tileEvacuate_starts ok pick (by rw [picked pick, free]; rfl)
    · rw [← staged]
      exact tileEvacuate_reloads ok pick (by rw [picked pick, free]; rfl) image
    · intro pick taken
      refine tileEvacuate_refuses ok ?_ (by decide)
      rw [Dev.evacStatus_picked low pick active, if_pos (Option.isSome_iff_ne_none.mpr taken)]
    · exact fun pick => tileEvacuate_refuses ok (Dev.evacStatus_noSpare low pick) (by decide)
  case sparePositions =>
    refine ⟨tileEvacuate_refuses ok (Dev.evacStatus_spare (.inl rfl)) (by decide),
      tileEvacuate_refuses ok (Dev.evacStatus_spare (.inr rfl)) (by decide), fun p small => ⟨?_, ?_, tileSpareTest_busy ok small⟩, ?_, ?_,
      fun t => tileFill_noSpare ok, fun row ue frame wdog qrow => ⟨servicePolicy_sets ok, servicePolicy_badFrame ok⟩,
      fun memory => sramRowStatus_unknown ok, ?_, ?_⟩
    · exact fun first => tileSpareTest_starts ok small (by simp [first])
    · exact fun not32 second => tileSpareTest_starts ok small (by simp [not32, second])
    · intro t p pos low empty pick phys map
      have apart : pos ≠ t := by have := Dev.sparePick_pos pick; omega
      exact ⟨_, tileFill_fills ok low empty pick, Dev.filled_moves apart phys map⟩
    · exact fun t p pos low empty pick => ⟨_, tileFill_fills ok low empty pick⟩
    · exact ⟨_, sramRowStatus_qRows ok, length_rowStoreFields _⟩
    · exact ⟨_, sramRowStatus_cRows ok, length_rowStoreFields _⟩

end Sys2Proof

/-! # Firmware, fatal errors and dumps (chapter 18, R478 to R491)

A fatal error is said once, as what it records (`Dev.fatalTaken`) and the restart that follows; the three events that detect one cite
it. Bytes put into the Ash area touch DRAM and its poison alone. -/

namespace Sys2Proof.Machine
open Sys2Proof

/-! ### Restarts (R453, R461) -/

section
variable {d : Dev} {k : Clock}

theorem Dev.beginControl_paused : (d.beginControl k).hif.paused = true := rfl

theorem Dev.beginControl_servo : (d.beginControl k).htb.servoOn = false := by
  unfold Dev.beginControl
  dsimp only
  split <;> rfl

theorem Dev.askWarm_begins {cause : Nat} (going : d.sys.inReset = none) (idle : d.sys.ash ≠ .capturing) :
    (d.askWarm cause).sys.inReset = some (.warm, cause) := by
  unfold Dev.askWarm
  rw [if_neg (by simp [going]), if_neg (by simpa using idle)]

/-! ### Fatal errors (R484 to R487) -/

/-- A capture is started: no dump is kept. -/
def Sys.keepsNone (x : Sys) : Bool := x.ash == .empty || x.ash == .delivered

/-- The number of the next dump. -/
def Sys.nextDump (x : Sys) : Nat := if 65535 ≤ x.dumpId then 1 else x.dumpId + 1

/-- The record of an error of class `cls` (Table 18.5). -/
def Dev.fatalRecord (k : Clock) (d : Dev) (cls : Nat) (mark : Bool) (pc0 pc1 : Nat) : FatalRec :=
  { stamp := clockStamp k, cls := cls, warm := cls == 4 || d.hif.paused || mark || d.sys.ash == .capturing
    dumpId := if d.sys.keepsNone then d.sys.nextDump else 0, pc0 := pc0, pc1 := pc1 }

/-- The log keeps its last 64 records, and a capture of dump `id` is started where the error takes one. -/
def Sys.withFatal (x : Sys) (e : FatalRec) (takes : Bool) (id : Nat) : Sys :=
  let y := { x with fatal := true, log := (x.log ++ [e]).drop ((x.log ++ [e]).length - 64) }
  if takes then { y with
    ash := .capturing, dumpId := id, dumpCls := e.cls, rawLen := 0, envLen := 0, complete := true, noKey := false, offer := none, env := [] }
  else y

/-- A fatal error of class `cls` has been counted. -/
def Dev.fatalCounted (d : Dev) (cls : Nat) : Dev :=
  if d.sys.keepsNone then (d.bump0 (fatalCounter cls)).bump0 .sysAshCapture else (d.bump0 (fatalCounter cls)).bump0 .sysAshBusy

/-- What a fatal error of class `cls` has recorded when its restart begins. -/
def Dev.fatalTaken (k : Clock) (d : Dev) (cls : Nat) (mark : Bool) (pc0 pc1 : Nat) : Dev :=
  (d.fatalCounted cls).setSys ((d.fatalCounted cls).sys.withFatal (d.fatalRecord k cls mark pc0 pc1) d.sys.keepsNone d.sys.nextDump)

section
variable {cls pc0 pc1 : Nat} {mark : Bool}

theorem Dev.fatalCounted_sys : (d.fatalCounted cls).sys = d.sys := by
  unfold Dev.fatalCounted; split <;> rfl

theorem Dev.fatalTaken_hif : (d.fatalTaken k cls mark pc0 pc1).hif = d.hif := by
  have counted : (d.fatalCounted cls).hif = d.hif := by unfold Dev.fatalCounted; split <;> rfl
  exact counted

theorem Dev.fatalTaken_sys : (d.fatalTaken k cls mark pc0 pc1).sys =
    d.sys.withFatal (d.fatalRecord k cls mark pc0 pc1) d.sys.keepsNone d.sys.nextDump := by
  rw [Dev.fatalTaken, Dev.setSys, Dev.fatalCounted_sys]

/-- An error found with no reset in progress and no command being applied records itself and restarts. -/
theorem Dev.fatal_restarts (going : d.sys.inReset = none) (other : cls ≠ 4) : d.fatal k cls mark none pc0 pc1 =
    if d.hif.paused || mark || d.sys.ash == .capturing then (d.fatalTaken k cls mark pc0 pc1).askWarm (if d.hif.paused then 6 else 3)
    else (d.fatalTaken k cls mark pc0 pc1).beginControl k := by
  have kiln : (cls == 4) = false := beq_eq_false_iff_ne.mpr other
  have restarts : d.fatal k cls mark none pc0 pc1 = if cls == 4 || d.hif.paused || mark || d.sys.ash == .capturing then
      (d.fatalTaken k cls mark pc0 pc1).askWarm (if (d.fatalTaken k cls mark pc0 pc1).hif.paused then 6 else 3)
      else (d.fatalTaken k cls mark pc0 pc1).beginControl k := if_neg (by simp [going])
  rw [restarts, Dev.fatalTaken_hif, kiln, Bool.false_or]

end

section
variable {x : Sys} {e : FatalRec} {takes : Bool} {id : Nat}

theorem Sys.withFatal_fatal : (x.withFatal e takes id).fatal = true := by cases takes <;> rfl

theorem Sys.withFatal_cCand : (x.withFatal e takes id).cCand = x.cCand := by cases takes <;> rfl

theorem Sys.withFatal_log : (x.withFatal e takes id).log = (x.log ++ [e]).drop (x.log.length + 1 - 64) := by
  rw [← List.length_singleton (a := e), ← List.length_append]
  cases takes <;> rfl

end
end

/-! ### Bytes in the Ash area (R488) -/

/-- Bytes put into the Ash area leave tile memories, the start unit and the host interface alone. -/
structure OnlyAsh (w e : Mems × Dev) : Prop where
  pm : e.1.pm = w.1.pm
  dm : e.1.dm = w.1.dm
  sys : e.2.sys = w.2.sys
  hif : e.2.hif = w.2.hif

theorem OnlyAsh.toDram (m : Mems) (d : Dev) (a : Nat) (bs : List Nat) : OnlyAsh (m, d) (toDram m d a bs) := ⟨rfl, rfl, rfl, rfl⟩

theorem OnlyAsh.put (m : Mems) (d : Dev) (off : Nat) (bs : List Nat) : OnlyAsh (m, d) (ashPut m d off bs) := by
  unfold ashPut
  split
  · exact OnlyAsh.toDram m d _ bs
  · exact ⟨rfl, rfl, rfl, rfl⟩

theorem OnlyAsh.trans {u v w : Mems × Dev} (a : OnlyAsh u v) (b : OnlyAsh v w) : OnlyAsh u w :=
  ⟨b.pm.trans a.pm, b.dm.trans a.dm, b.sys.trans a.sys, b.hif.trans a.hif⟩

theorem OnlyAsh.foldl {α : Type} {f : Mems × Dev → α → Mems × Dev} (each : ∀ w x, OnlyAsh w (f w x)) (l : List α) (w : Mems × Dev) :
    OnlyAsh w (l.foldl f w) := by
  induction l generalizing w with
  | nil => exact ⟨rfl, rfl, rfl, rfl⟩
  | cons x l ih => exact (each w x).trans (ih _)

/-- The header of a capture and its sections are in the Ash area. -/
def ashCaptured (m : Mems) (d : Dev) (secs : List (Nat × List Nat)) (all : Bool) : Mems × Dev :=
  let q := placeSecs secs 4096
  let rec_ := d.sys.log.find? (fun (r : FatalRec) => r.dumpId == d.sys.dumpId)
  let hd := dumpHeader d.sys.dumpId d.sys.dumpCls (b2n ((rec_.map (·.warm)).getD false)) (all && d.sys.complete) q.2
    ((rec_.map (·.stamp)).getD 0) q.1
  q.1.foldl (fun (w : Mems × Dev) (x : Nat × Nat × List Nat) => ashPut w.1 w.2 (2 ^ 20 + x.2.1) x.2.2) (ashPut m d (2 ^ 20) hd)

theorem OnlyAsh.captured (m : Mems) (d : Dev) (secs : List (Nat × List Nat)) (all : Bool) : OnlyAsh (m, d) (ashCaptured m d secs all) :=
  (OnlyAsh.put m d _ _).trans (OnlyAsh.foldl (fun w _ => OnlyAsh.put w.1 w.2 _ _) _ _)

/-- What follows the end of a capture: the warm start that waited for it, or the packing of the dump. -/
def Dev.capturedNext (d : Dev) (due : Option Nat) (paused : Bool) : Dev :=
  match due with
  | some c => (d.setSys { d.sys with warmDue := none }).askWarm c
  | none => if paused then d else d.ashPack

/-- The envelope of a dump for a dump key, and the device that has drawn its free values (Table 13.11). -/
def Dev.dumpEnvelope (k : Clock) (d : Dev) (key : Nat) : List Nat × Dev :=
  let h := d.envHeader k 2 key
  let c := h.2.drawBytes (chunkBytes d.sys.contLen)
  let g := c.2.drawBytes 3405
  (h.1 ++ c.1 ++ bytesLE 8 (1232 + chunkBytes d.sys.contLen) ++ g.1, g.2)

theorem Dev.dumpEnvelope_sys (k : Clock) (d : Dev) (key : Nat) : (d.dumpEnvelope k key).2.sys = d.sys := rfl

end Sys2Proof.Machine

namespace Sys2Proof
open Sys2Proof.Machine

section
variable {s : State}

/-! ### The events of a fatal error (R484, R485) -/

/-- The candidate rows of control SRAM with row `row`. -/
def withRow (rows : List Nat) (row : Nat) : List Nat := if rows.contains row || 32768 ≤ row then rows else rows ++ [row]

theorem mem_withRow {rows : List Nat} {row : Nat} (small : row < 32768) : row ∈ withRow rows row := by
  unfold withRow
  split
  next full => simpa [Nat.not_le.mpr small] using full
  · simp

section
variable {mark : Bool} {applying : Option Nat} {row pc0 pc1 : Nat} (runs : s.dev.ctrlRuns = true)
include runs

theorem watchdogExpiry_does (going : s.dev.hif.paused = false) (due : s.dev.sys.wdogTicks ≤ s.dev.sys.wdog) :
    Does (.watchdogExpiry mark applying pc0 pc1) s
      ((s.dev.setSys { s.dev.sys with wdog := 0 }).fatal s.clk 3 mark applying pc0 pc1) :=
  does_of_onDev (execWatchdogExpiry mark applying pc0 pc1 s) rfl rfl (if_pos (by simp [runs, going, due]))

theorem lockstepMismatch_does : Does (.lockstepMismatch mark applying pc0 pc1) s (s.dev.fatal s.clk 1 mark applying pc0 pc1) :=
  does_of_onDev (execLockstepMismatch mark applying pc0 pc1 s) rfl rfl (if_pos runs)

theorem ctrlSramUe_does : Does (.ctrlSramUe row mark applying pc0 pc1) s ((s.dev.setSys { s.dev.sys with
    cCand := withRow s.dev.sys.cCand row }).fatal s.clk 2 mark applying pc0 pc1) :=
  does_of_onDev (execCtrlSramUe row mark applying pc0 pc1 s) rfl rfl (if_pos runs)

/-- The device in which an event's error is recorded: its timer is 0, or its row a candidate. -/
structure FoundBy (i : Instr) (mark : Bool) (row pc0 pc1 cls : Nat) (s : State) (d : Dev) : Prop where
  does : Does i s (d.fatal s.clk cls mark none pc0 pc1)
  hif : d.hif = s.dev.hif
  sys : d.sys = { s.dev.sys with wdog := d.sys.wdog, cCand := d.sys.cCand }
  row : i = .ctrlSramUe row mark none pc0 pc1 → row < 32768 → row ∈ d.sys.cCand
  other : cls ≠ 4

theorem foundBy_event {i : Instr} {cls : Nat} (event :
    (i = .watchdogExpiry mark none pc0 pc1 ∧ cls = 3 ∧ s.dev.hif.paused = false ∧ s.dev.sys.wdogTicks ≤ s.dev.sys.wdog) ∨
      (i = .lockstepMismatch mark none pc0 pc1 ∧ cls = 1) ∨ (i = .ctrlSramUe row mark none pc0 pc1 ∧ cls = 2)) :
    ∃ d, FoundBy i mark row pc0 pc1 cls s d := by
  obtain ⟨rfl, rfl, going, due⟩ | ⟨rfl, rfl⟩ | ⟨rfl, rfl⟩ := event
  · exact ⟨_, watchdogExpiry_does runs going due, rfl, rfl, nofun, by decide⟩
  · exact ⟨_, lockstepMismatch_does runs, rfl, rfl, nofun, by decide⟩
  · exact ⟨_, ctrlSramUe_does runs, rfl, rfl, fun _ => mem_withRow, by decide⟩

end

theorem FoundBy.records {i : Instr} {mark warm fresh : Bool} {row pc0 pc1 cls id : Nat} {d : Dev}
    (found : FoundBy i mark row pc0 pc1 cls s d) (going : s.dev.sys.inReset = none)
    (leads : (s.dev.hif.paused || mark || s.dev.sys.ash == .capturing) = warm)
    (takes : (s.dev.sys.ash == .empty || s.dev.sys.ash == .delivered) = fresh)
    (next : (if 65535 ≤ s.dev.sys.dumpId then 1 else s.dev.sys.dumpId + 1) = id) : ∃ d : Dev,
      Does i s (if warm then d.askWarm (if s.dev.hif.paused then 6 else 3) else d.beginControl s.clk) ∧
      d.sys.fatal = true ∧ d.hif = s.dev.hif ∧
      d.sys.log = (s.dev.sys.log ++ ([⟨clockStamp s.clk, cls, warm, if fresh then id else 0, pc0, pc1⟩] : List FatalRec)).drop
        (s.dev.sys.log.length + 1 - 64) ∧
      (fresh = true → d.sys.ash = .capturing ∧ d.sys.dumpId = id ∧ d.sys.dumpCls = cls) ∧
      (fresh = false → d.sys.ash = s.dev.sys.ash ∧ d.sys.dumpId = s.dev.sys.dumpId) ∧
      (i = .ctrlSramUe row mark none pc0 pc1 → row < 32768 → row ∈ d.sys.cCand) := by
  obtain ⟨does, hif, sys, candidate, other⟩ := found
  have ash : d.sys.ash = s.dev.sys.ash := by rw [sys]
  have dumpId : d.sys.dumpId = s.dev.sys.dumpId := by rw [sys]
  have log : d.sys.log = s.dev.sys.log := by rw [sys]
  have keeps : d.sys.keepsNone = fresh := by rw [Sys.keepsNone, ash]; exact takes
  have numbered : d.sys.nextDump = id := by rw [Sys.nextDump, dumpId]; exact next
  have record : d.fatalRecord s.clk cls mark pc0 pc1 = ⟨clockStamp s.clk, cls, warm, if fresh then id else 0, pc0, pc1⟩ := by
    rw [Dev.fatalRecord, beq_eq_false_iff_ne.mpr other, Bool.false_or, hif, ash, leads, keeps, numbered]
  have taken := Dev.fatalTaken_sys (d := d) (k := s.clk) (cls := cls) (mark := mark) (pc0 := pc0) (pc1 := pc1)
  rw [record, keeps, numbered] at taken
  rw [Dev.fatal_restarts (by rw [sys]; exact going) other, hif, ash, leads] at does
  refine ⟨_, does, ?_, Dev.fatalTaken_hif.trans hif, ?_, ?_, ?_, ?_⟩
  all_goals rw [taken]
  · exact Sys.withFatal_fatal
  · rw [Sys.withFatal_log, log]
  · rintro rfl
    exact ⟨rfl, rfl, rfl⟩
  · rintro rfl
    exact ⟨ash, dumpId⟩
  · rw [Sys.withFatal_cCand]
    exact candidate

/-! ### The capture's end and the envelope's (R488 to R490) -/

theorem ashCaptureDone_does {secs : List (Nat × List Nat)} {all : Bool} (capturing : s.dev.sys.ash = .capturing) {w : Mems × Dev} {d : Dev}
    (written : ashCaptured s.mem s.dev secs all = w) (captured : w.2.setSys { w.2.sys with
      ash := .captured, rawLen := (placeSecs secs 4096).2, complete := all && s.dev.sys.complete } = d) :
    DoesMem (.ashCaptureDone secs all) s w.1 (d.capturedNext s.dev.sys.warmDue s.dev.hif.paused) := by
  have only := OnlyAsh.captured s.mem s.dev secs all
  rw [written] at only
  have due : d.sys.warmDue = s.dev.sys.warmDue := by rw [← captured]; exact (congrArg Sys.warmDue only.sys :)
  have paused : d.hif.paused = s.dev.hif.paused := by rw [← captured]; exact congrArg Hif.paused only.hif
  refine doesMem_of_onMem (execAshCaptureDone secs all s) rfl rfl ?_
  dsimp only
  rw [if_neg (by simp [capturing]), ← ashCaptured, written, captured, ← due, ← paused]
  cases d.sys.warmDue <;> rfl

theorem ashCaptureDone_captures (secs : List (Nat × List Nat)) (all : Bool) (capturing : s.dev.sys.ash = .capturing) : ∃ m, ∃ d : Dev,
    DoesMem (.ashCaptureDone secs all) s m (d.capturedNext s.dev.sys.warmDue s.dev.hif.paused) ∧
    d.sys = { s.dev.sys with ash := .captured, rawLen := (placeSecs secs 4096).2, complete := all && s.dev.sys.complete } ∧
    m.pm = s.mem.pm ∧ m.dm = s.mem.dm := by
  obtain ⟨pm, dm, sys, -⟩ := OnlyAsh.captured s.mem s.dev secs all
  refine ⟨_, _, ashCaptureDone_does capturing rfl rfl, ?_, pm, dm⟩
  rw [← show (ashCaptured s.mem s.dev secs all).2.sys = s.dev.sys from sys]
  rfl

theorem ashPackDone_packs {key : Nat} (enrolled : s.dev.kln.record.bind (·.dump) = some key) (packing : s.dev.sys.ash = .packing)
    (container : s.dev.sys.contLen ≠ 0) (ended : ∀ j ∈ s.dev.tmp.active, j.who ≠ .ctrl) (idle : s.dev.tmp.waitCtrl = []) :
    ∃ m env, ∃ d : Dev, DoesMem .ashPackDone s m (d.dumpReady s.clk) ∧
      d.sys = { s.dev.sys with ash := .ready, env := env, envLen := env.length } ∧ m.pm = s.mem.pm ∧ m.dm = s.mem.dm := by
  obtain ⟨env, is⟩ : ∃ env, s.dev.dumpEnvelope s.clk key = env := ⟨_, rfl⟩
  have drawn := Dev.dumpEnvelope_sys s.clk s.dev key
  obtain ⟨pm, dm, sys, -⟩ := OnlyAsh.put s.mem env.2 (42 * 2 ^ 20) env.1
  have busy : (s.dev.tmp.active.any (fun (j : TmpJob) => j.who == .ctrl) || !s.dev.tmp.waitCtrl.isEmpty) = false := by
    simpa [idle] using ended
  have does : DoesMem .ashPackDone s (ashPut s.mem env.2 (42 * 2 ^ 20) env.1).1 (((ashPut s.mem env.2 (42 * 2 ^ 20) env.1).2.setSys {
      (ashPut s.mem env.2 (42 * 2 ^ 20) env.1).2.sys with ash := .ready, env := env.1, envLen := env.1.length }).dumpReady s.clk) := by
    refine doesMem_of_onMem (execAshPackDone s) rfl rfl ?_
    dsimp only
    rw [enrolled, busy]
    dsimp only
    rw [if_neg (by simp [packing, container]), ← is]
    rfl
  refine ⟨_, env.1, _, does, ?_, pm, dm⟩
  rw [← drawn, is, ← sys]
  rfl

/-! ### Images (R343, R346, R478, R479) -/

theorem Dev.bufOk_of_winOk {d : Dev} {write : Bool} {addr len : Nat} (window : d.winOk write addr len = true) :
    d.bufOk write addr len = (true, d) := if_pos window

section
variable {o : Origin} (ok : HostOk o s)
include ok

section
variable {addr len : Nat} {v : FlashImg} (window : s.dev.winOk false addr len = true)
include window

theorem imageVerify_keeps (fine : s.dev.imageCheck v.x true = .ok) (unpacked : s.dev.sys.ash ≠ .packing) (unready : s.dev.sys.ash ≠ .ready)
    {others : List FlashImg} (rest : s.dev.sys.staged.filter (fun y => y.x.img.digest != v.x.img.digest) = others)
    (few : others.length < 16) (small : (others.map (fun y => y.x.img.bytes)).foldl (· + ·) v.x.img.bytes ≤ 43 * 2 ^ 20) :
    Answers (.imageVerify o addr len v) o 0x0A13 s .ok [⟨48, v.x.img.digest⟩, ⟨1, v.x.img.typ⟩, ⟨4, v.x.img.svn⟩]
      (s.dev.setSys (if s.dev.sys.ash == .delivered then { s.dev.sys with staged := others ++ [v], ash := .empty, offer := none, env := [] }
        else { s.dev.sys with staged := others ++ [v] })) := by
  refine answers_of_hostCmd _ ok rfl ?_
  dsimp only
  rw [Dev.bufOk_of_winOk window]
  dsimp only
  rw [fine, rest, if_neg (by decide), if_neg (by simp only [Bool.or_eq_true, decide_eq_true_eq]; omega),
    if_neg (by simp [unpacked, unready])]
  split <;> rfl

theorem imageVerify_refuses {st : Status} (fails : s.dev.imageCheck v.x true = st) (bad : st ≠ .ok) :
    Answers (.imageVerify o addr len v) o 0x0A13 s st [] (s.dev.bump0 .klnImageReject) := by
  refine answers_of_hostCmd _ ok rfl ?_
  dsimp only
  rw [Dev.bufOk_of_winOk window]
  dsimp only
  rw [fails, if_pos (by simpa using bad)]

end

section
variable {slotB : Bool} {entries : List (Nat × Nat)} {es : List (FlashImg × Nat)} (staged : s.dev.slotEntries entries = some es)
  (form : entriesOk es = true) (fits : imagesEnd es ≤ 31 * 2 ^ 20)
include staged form fits

omit ok in
/-- The checks of R479 that an image slot's entries have passed. -/
theorem slotForm_passes : (decide (1 < b2n slotB) || !s.dev.slotFormOk entries) = false := by
  have formOk : s.dev.slotFormOk entries = true := by
    rw [Dev.slotFormOk, staged]
    exact Bool.and_eq_true_iff.mpr ⟨form, decide_eq_true fits⟩
  cases slotB <;> simp [b2n, formOk]

theorem imageSlotWrite_begins (other : slotB ≠ s.dev.kln.bootB) (free : s.dev.sys.slotWr = none) (power : s.dev.sys.pfwN = true) :
    Waits (.imageSlotWrite o (b2n slotB) entries) o 0x0D05 s .imageWrite 0 (s.dev.setSys (if slotB
      then { s.dev.sys with slotWr := some { slotB := true, entries := es }, slotB := {} }
      else { s.dev.sys with slotWr := some { slotB := false, entries := es }, slotA := {} })) := by
  refine waits_of_hostCmd _ ok rfl ?_
  dsimp only
  rw [slotForm_passes staged form fits, staged, free, power]
  cases slotB <;> simp_all [b2n, Dev.setSlot_, Dev.setSys]

theorem imageSlotWrite_running (same : slotB = s.dev.kln.bootB) :
    Answers (.imageSlotWrite o (b2n slotB) entries) o 0x0D05 s .notPermitted [] s.dev := by
  refine answers_of_hostCmd _ ok rfl ?_
  dsimp only
  rw [slotForm_passes staged form fits, staged, ← same]
  cases slotB <;> rfl

theorem imageSlotWrite_busy (other : slotB ≠ s.dev.kln.bootB) (taken : s.dev.sys.slotWr ≠ none) :
    Answers (.imageSlotWrite o (b2n slotB) entries) o 0x0D05 s .refusedBusy [] s.dev := by
  refine answers_of_hostCmd _ ok rfl ?_
  dsimp only
  rw [slotForm_passes staged form fits, staged, Option.isSome_iff_ne_none.mpr taken]
  cases slotB <;> simp_all [b2n]

end

/-! ### Changes of firmware and restarts (R480) -/

section
variable {dig : Nat}

theorem ctrlFwSwitch_changes {v c : FlashImg} {b : Bool} (staged : s.dev.stagedOf dig = some v) (typ : v.x.img.typ = 2)
    (choice : s.dev.bootChoice = some b) (ctrl : (s.dev.slotOf_ b).ctrl = some c) :
    (c.x.img.digest = dig → Waits (.ctrlFwSwitch o dig) o 0x0D06 s .fwSwitch 0
      ((s.dev.setKln { s.dev.kln with ctrl := some v.x.img }).beginControl s.clk)) ∧
    (c.x.img.digest ≠ dig → Answers (.ctrlFwSwitch o dig) o 0x0D06 s .notPermitted [] s.dev) := by
  refine ⟨fun same => waits_of_hostCmd _ ok rfl ?_, fun other => answers_of_hostCmd _ ok rfl ?_⟩
  all_goals
    dsimp only
    rw [staged, choice, Option.bind_some, ctrl]
    dsimp only
    rw [if_neg (by simp [typ])]
  · rw [if_neg (by simp [same])]
  · rw [if_pos (by simp [other])]

theorem ctrlFwSwitch_otherType {v : FlashImg} (staged : s.dev.stagedOf dig = some v) (typ : v.x.img.typ ≠ 2) :
    Answers (.ctrlFwSwitch o dig) o 0x0D06 s .badArg [] s.dev := by
  refine answers_of_hostCmd _ ok rfl ?_
  dsimp only
  rw [staged]
  exact if_pos (by simp [typ])

theorem ctrlFwSwitch_unknown (absent : s.dev.stagedOf dig = none) :
    Answers (.ctrlFwSwitch o dig) o 0x0D06 s .unknownObject [] s.dev := by
  refine answers_of_hostCmd _ ok rfl ?_
  dsimp only
  rw [absent]

end

theorem sysRestart_control : Waits (.sysRestart o 0) o 0x0D07 s .sysRestart 0 (s.dev.beginControl s.clk) :=
  waits_of_hostCmd _ ok rfl rfl

theorem sysRestart_warm : Does (.sysRestart o 1) s (s.dev.askWarm 5) := does_of_hostCmd_held _ ok rfl rfl

theorem sysRestart_unknown {kind : Nat} (other : 2 ≤ kind) : Answers (.sysRestart o kind) o 0x0D07 s .badArg [] s.dev := by
  refine answers_of_hostCmd _ ok rfl ?_
  rw [if_neg (by omega), if_neg (by omega)]

/-! ### The dump and the log (R486, R490, R491) -/

theorem dumpOffer_offers (free : s.dev.sys.offer = none) (packed : s.dev.sys.ash = .ready ∨ s.dev.sys.ash = .delivered) :
    Answers (.dumpOffer o) o 0x0D09 s .ok [] (s.dev.dumpOffer s.clk) :=
  answers_of_hostCmd _ ok rfl (if_neg (by obtain ash | ash := packed <;> simp [free, ash]))

theorem dumpOffer_busy (no : s.dev.sys.ash = .empty ∨ s.dev.sys.offer ≠ none) : Answers (.dumpOffer o) o 0x0D09 s .refusedBusy [] s.dev := by
  refine answers_of_hostCmd _ ok rfl (if_pos ?_)
  obtain empty | taken := no
  · simp [empty]
  · rw [Option.isSome_iff_ne_none.mpr taken, Bool.or_true]

theorem dumpDiscard_discards (kept : s.dev.sys.ash = .captured ∨ s.dev.sys.ash = .ready ∨ s.dev.sys.ash = .delivered) :
    Answers (.dumpDiscard o s.dev.sys.dumpId) o 0x0D0A s .ok []
      ((s.dev.setSys { s.dev.sys with ash := .empty, offer := none, env := [] }).bump0 .sysAshDiscard) := by
  refine answers_of_hostCmd _ ok rfl ?_
  obtain ash | ash | ash := kept <;> simp [firstStatus, ash]

theorem dumpDiscard_busy (busy : s.dev.sys.ash = .capturing ∨ s.dev.sys.ash = .packing) :
    Answers (.dumpDiscard o s.dev.sys.dumpId) o 0x0D0A s .refusedBusy [] s.dev := by
  refine answers_of_hostCmd _ ok rfl ?_
  obtain ash | ash := busy <;> simp [firstStatus, ash]

theorem dumpDiscard_other {id : Nat} (other : id ≠ s.dev.sys.dumpId) : Answers (.dumpDiscard o id) o 0x0D0A s .unknownObject [] s.dev := by
  refine answers_of_hostCmd _ ok rfl ?_
  cases s.dev.sys.ash <;> simp [firstStatus, statusRank, other]

theorem fatalLogRead_reads : Answers (.fatalLogRead o) o 0x0D0B s .ok (s.dev.sys.log.flatMap FatalRec.fields) s.dev :=
  answers_of_hostCmd _ ok rfl rfl

end

theorem length_fatalFields (l : List FatalRec) : (l.flatMap FatalRec.fields).length = 7 * l.length := by
  rw [List.length_flatMap]
  simp [FatalRec.fields, Nat.mul_comm]

/-- The staging copies go with the write's end, and the slot holds what was written where MAGIC has been read back. -/
theorem imageSlotWriteDone_ends {w : SlotWrite} (writing : s.dev.sys.slotWr = some w) :
    Does (.imageSlotWriteDone true) s ((s.dev.setSys (if w.slotB
      then { s.dev.sys with slotWr := none, staged := [], slotB := { dirOk := true, entries := w.entries } }
      else { s.dev.sys with slotWr := none, staged := [], slotA := { dirOk := true, entries := w.entries } })).finish
        s.clk .imageWrite 0 .ok) ∧
    Does (.imageSlotWriteDone false) s (((s.dev.setSys { s.dev.sys with slotWr := none, staged := [] }).bump0 .sysImageWriteFail).finish
      s.clk .imageWrite 0 .checkFail) := by
  refine ⟨does_of_onDev (execImageSlotWriteDone true s) rfl rfl ?_, does_of_onDev (execImageSlotWriteDone false s) rfl rfl ?_⟩
  all_goals
    rw [writing]
    dsimp only
  · rw [if_pos rfl, Dev.setSlot_]
    cases w.slotB <;> rfl
  · rw [if_neg (by decide)]

end

/-- Settles O60: a fatal error is `FoundBy.records` whichever event finds it, the Ash area's bytes leave the start unit alone
(`OnlyAsh`), and each command is one of the lemmas above. -/
theorem firmwareChangesFatalErrorsAndDumps : Obligations.FirmwareChangesFatalErrorsAndDumps := by
  rintro s _ rfl
  refine ⟨fun o ok => ?commands, ?events, ?fatal, fun secs all capturing => ashCaptureDone_captures secs all capturing,
    fun key => ashPackDone_packs⟩
  case events => exact fun mark row applying pc0 pc1 runs =>
    ⟨watchdogExpiry_does runs, lockstepMismatch_does runs, ctrlSramUe_does runs⟩
  case fatal =>
    intro i mark row pc0 pc1 cls runs going event warm fresh id leads takes next
    obtain ⟨d, found⟩ := foundBy_event runs event
    exact found.records going leads takes next
  case commands =>
    refine ⟨fun addr len v window => ⟨?_, ?_, ?_⟩, fun slotB entries es staged form fits =>
      ⟨imageSlotWrite_begins ok staged form fits, imageSlotWrite_running ok staged form fits, imageSlotWrite_busy ok staged form fits⟩,
      fun w => imageSlotWriteDone_ends, ?_, fun dig => ⟨fun v b c => ctrlFwSwitch_changes ok, fun v => ctrlFwSwitch_otherType ok,
        ctrlFwSwitch_unknown ok⟩, sysRestart_control ok, sysRestart_warm ok, fun kind => sysRestart_unknown ok, ?_, ?_,
      answers_of_hostCmd _ ok rfl rfl, dumpOffer_offers ok, dumpOffer_busy ok, fun id => ⟨?_, ?_, dumpDiscard_other ok⟩, ?_⟩
    · exact fun fine unpacked unready others => imageVerify_keeps ok window fine unpacked unready
    · exact fun format => imageVerify_refuses ok window (by rw [Dev.imageCheck, format]; rfl) (by decide)
    · intro format typ signer bind low high sig
      refine imageVerify_refuses ok window ?_ (by decide)
      simp [Dev.imageCheck, Dev.imgSignerOk, Dev.imgSvnOk, Dev.imgSigOk, format, typ, signer, bind, low, high, sig]
    · intro w writing waits
      obtain ⟨ends, fails⟩ := imageSlotWriteDone_ends writing
      rw [Dev.finish_single (by exact waits)] at ends fails
      exact ⟨ends, fails⟩
    · exact ⟨_, sysRestart_control ok, Dev.beginControl_paused, Dev.beginControl_servo⟩
    · exact fun going idle => ⟨_, sysRestart_warm ok, Dev.askWarm_begins going idle⟩
    · rintro rfl
      exact dumpDiscard_discards ok
    · rintro rfl
      exact dumpDiscard_busy ok
    · refine ⟨_, fatalLogRead_reads ok, length_fatalFields _, fun r l log => ?_⟩
      rw [log]
      rfl

end Sys2Proof

/-! # The Kiln's contexts, sessions and tile jobs (chapter 13, R347 to R362)

Contexts, sessions and exports are stores of their own: reads after writes are said once for each. Events and the host's buffers leave
them alone, which the relation `OnlyCarry` says of everything that an answer or a packet carries. -/

namespace Sys2Proof.Machine
open Sys2Proof

/-! ### Contexts, sessions and exports -/

theorem OnlyCarry.kln {d e : Dev} (only : OnlyCarry d e) : e.kln = d.kln := (congrArg Dev.kln only).trans rfl

section
variable {d e : Dev} {k : Clock}

theorem Dev.ctx_congr (same : e.kln.ctxs = d.kln.ctxs) (i : Nat) : e.ctx i = d.ctx i := by rw [Dev.ctx, same, ← Dev.ctx]

theorem Dev.sess_congr (same : e.kln.sess = d.kln.sess) (i : Nat) : e.sess i = d.sess i := by rw [Dev.sess, same, ← Dev.sess]

theorem Dev.exp_congr (same : e.kln.exps = d.kln.exps) (i : Nat) : e.exp i = d.exp i := by rw [Dev.exp, same, ← Dev.exp]

theorem Dev.sess_setSess (wf : Store.wf none d.kln.sess = true) (i j : Nat) (x : Option KSess) :
    (d.setSess i x).sess j = if j = i then x else d.sess j := Store.get_put wf i j x

theorem Dev.exp_setExp (wf : Store.wf none d.kln.exps = true) (i : Nat) (x : Option KExp) : (d.setExp i x).exp i = x :=
  Store.get_put_self wf

theorem Dev.klnEvt_kln (k : Clock) (d : Dev) (typ detail arg b3 : Nat) : (d.klnEvt k typ detail arg b3).kln = d.kln :=
  (OnlyCarry.raiseOn k d _ _).kln

theorem Dev.hostWr_kln (d : Dev) (a : Nat) (bs : List Nat) : (d.hostWr a bs).kln = d.kln := (OnlyCarry.of_hif (.hostWr d a bs)).kln

theorem Dev.hRxOf_current {h : Nat} (current : d.hCurrent h = true) (rx : hTx h = false) : d.hRxOf h = (d.ctx (hIndex h)).rx :=
  if_pos (by simp [current, rx])

/-- The session that a handle names is the one of its index. -/
theorem Dev.sess_of_sessOf {h j : Nat} {x : KSess} (names : d.sessOf h = some (j, x)) : d.sess j = some x := by
  unfold Dev.sessOf at names
  split at names
  · split at names
    · split at names
      · cases names
        assumption
      · cases names
    · cases names
  · cases names

/-! ### Ends of sessions (R357) -/

/-- The end of a session that exists writes that session alone. -/
theorem Dev.endSess_kln {i detail : Nat} {x : KSess} (is : d.sess i = some x) : (d.endSess k i detail).kln = (d.setSess i none).kln := by
  unfold Dev.endSess
  rw [is]
  dsimp only
  split
  · rfl
  · exact Dev.klnEvt_kln ..

theorem Dev.endSess_absent {i detail : Nat} (is : d.sess i = none) : d.endSess k i detail = d := by
  unfold Dev.endSess
  rw [is]

/-- Sessions have ended on the way from `d` to `e`: their store stays in canonical form, none has begun, and contexts are as they were. -/
structure EndsSessions (d e : Dev) : Prop where
  wf : Store.wf none e.kln.sess = true
  ended : ∀ j, d.sess j = none → e.sess j = none
  ctxs : e.kln.ctxs = d.kln.ctxs

theorem EndsSessions.refl (wf : Store.wf none d.kln.sess = true) : EndsSessions d d := ⟨wf, fun _ is => is, rfl⟩

theorem EndsSessions.trans {a b c : Dev} (first : EndsSessions a b) (second : EndsSessions b c) : EndsSessions a c :=
  ⟨second.wf, fun j is => second.ended j (first.ended j is), second.ctxs.trans first.ctxs⟩

theorem EndsSessions.endSess (wf : Store.wf none d.kln.sess = true) (i detail : Nat) : EndsSessions d (d.endSess k i detail) := by
  cases is : d.sess i with
  | none => rw [Dev.endSess_absent is]; exact .refl wf
  | some x =>
    have kln := Dev.endSess_kln (k := k) (detail := detail) is
    refine ⟨?_, fun j absent => ?_, ?_⟩
    · rw [kln]; exact Store.wf_put wf
    · rw [Dev.sess_congr (congrArg Kln.sess kln), Dev.sess_setSess wf, absent, ite_self]
    · rw [kln]; rfl

theorem Dev.sess_endSess (wf : Store.wf none d.kln.sess = true) (i detail : Nat) : (d.endSess k i detail).sess i = none := by
  cases is : d.sess i with
  | none => rw [Dev.endSess_absent is, is]
  | some x => rw [Dev.sess_congr (congrArg Kln.sess (Dev.endSess_kln is)), Dev.sess_setSess wf, if_pos rfl]

/-- What the freeing of context `i` does to one session. -/
def Dev.endOf (k : Clock) (i : Nat) (d : Dev) (p : Nat × Option KSess) : Dev :=
  match p.2 with
  | some x => if hIndex x.target == i then d.endSess k p.1 6 else d
  | none => d

theorem EndsSessions.endOf (wf : Store.wf none d.kln.sess = true) (i : Nat) (p : Nat × Option KSess) : EndsSessions d (d.endOf k i p) := by
  unfold Dev.endOf
  split
  · split
    · exact .endSess wf _ _
    · exact .refl wf
  · exact .refl wf

theorem EndsSessions.foldl (i : Nat) (l : List (Nat × Option KSess)) (wf : Store.wf none d.kln.sess = true) :
    EndsSessions d (l.foldl (Dev.endOf k i) d) := by
  induction l generalizing d with
  | nil => exact .refl wf
  | cons p l ih =>
    have ends := EndsSessions.endOf (k := k) wf i p
    exact ends.trans (ih ends.wf)

/-- Each session of the list that names context `i` has ended. -/
theorem Dev.sess_foldl_endOf {i j : Nat} {x : KSess} {l : List (Nat × Option KSess)} (mem : (j, some x) ∈ l) (target : hIndex x.target = i)
    (wf : Store.wf none d.kln.sess = true) : (l.foldl (Dev.endOf k i) d).sess j = none := by
  induction l generalizing d with
  | nil => cases mem
  | cons p l ih =>
    have ends := EndsSessions.endOf (k := k) wf i p
    cases mem with
    | head =>
      have ending : d.endOf k i (j, some x) = d.endSess k j 6 := if_pos (beq_iff_eq.mpr target)
      have ended : (d.endOf k i (j, some x)).sess j = none := ending ▸ Dev.sess_endSess wf j 6
      exact (EndsSessions.foldl i l ends.wf).ended j ended
    | tail _ later => exact ih later ends.wf

/-! ### Ends of contexts (R353) -/

/-- The ends of links leave contexts' store in canonical form, and sessions alone. -/
theorem Dev.unlink_wf (wf : Store.wf {} d.kln.ctxs = true) (i : Nat) : Store.wf {} (d.unlink i).kln.ctxs = true := by
  unfold Dev.unlink
  generalize d.kln.ctxs.entries = l
  induction l generalizing d with
  | nil => exact wf
  | cons p l ih => exact ih (Store.wf_put wf)

theorem Dev.unlink_sess (d : Dev) (i : Nat) : (d.unlink i).kln.sess = d.kln.sess := by
  refine foldl_keeps (fun d : Dev => d.kln.sess) (fun _ _ => ?_) _ _
  rfl

theorem Dev.freeCtx_eq (i : Nat) : d.freeCtx k i =
    (((d.keepKeys i).kln.sess.entries.foldl (Dev.endOf k i) (d.keepKeys i)).unlink i).setCtx i
      { used := false, made := (((d.keepKeys i).kln.sess.entries.foldl (Dev.endOf k i) (d.keepKeys i)).ctx i).made,
        gen := (((d.keepKeys i).kln.sess.entries.foldl (Dev.endOf k i) (d.keepKeys i)).ctx i).gen } := rfl

theorem Dev.freeCtx_frees {i : Nat} (ctxs : Store.wf {} d.kln.ctxs = true) (sess : Store.wf none d.kln.sess = true) :
    (d.freeCtx k i).ctx i = { used := false, made := (d.ctx i).made, gen := (d.ctx i).gen } ∧
      ∀ j x, d.sess j = some x → hIndex x.target = i → (d.freeCtx k i).sess j = none := by
  have ends := EndsSessions.foldl (d := d.keepKeys i) (k := k) i (d.keepKeys i).kln.sess.entries (by exact sess)
  have entries : (d.keepKeys i).kln.sess.entries = d.kln.sess.entries := rfl
  refine ⟨?_, fun j x is target => ?_⟩
  · have same := Dev.ctx_congr ends.ctxs i
    rw [Dev.freeCtx_eq, same]
    exact Store.get_put_self (Dev.unlink_wf (by rw [ends.ctxs]; exact ctxs) i)
  · have mem : (j, some x) ∈ d.kln.sess.entries := by
      rw [← is]
      exact Store.mem_of_get_ne (by rw [← Dev.sess, is]; simp)
    rw [Dev.freeCtx_eq]
    exact (Dev.sess_congr (Dev.unlink_sess _ i) j).trans (Dev.sess_foldl_endOf (entries ▸ mem) target (by exact sess))

/-! ### Datagrams to the host (R355) -/

theorem takeOut_single {g : List Nat} {room : Nat} (fits : g.length + 2 ≤ room) : takeOut [g] room = ([g], []) := if_pos fits

/-- One datagram that fits goes out whole behind its length. -/
theorem Dev.outWrite_single {g : List Nat} {a n : Nat} (fits : g.length + 2 ≤ n) : d.outWrite [g] a n =
    (.ok, [⟨2, 1⟩, ⟨2, 0⟩, ⟨4, g.length + 2⟩], [], d.hostWr a (bytesLE 2 g.length ++ g)) := by
  have length : (bytesLE 2 g.length ++ g).length = g.length + 2 := by rw [List.length_append, length_bytesLE, Nat.add_comm]
  have some : (bytesLE 2 g.length ++ g).isEmpty = false := rfl
  rw [Dev.outWrite, takeOut_single fits]
  simp only [List.flatMap_cons, List.flatMap_nil, List.append_nil, length, some]
  rfl

theorem Dev.keepOut_some {j : Nat} {x : KSess} (is : d.sess j = some x) (out : List (List Nat)) :
    d.keepOut j out = d.setSess j (some { x with out := out }) := by
  rw [Dev.keepOut, is]

/-- What is written for the host leaves the Kiln alone. -/
theorem Dev.outWrite_kln (out : List (List Nat)) (a n : Nat) : (d.outWrite out a n).2.2.2.kln = d.kln := by
  unfold Dev.outWrite
  dsimp only
  split
  · rfl
  · exact Dev.hostWr_kln ..

/-! ### Free bytes (R361, Table 13.11) -/

theorem Dev.length_drawBytes (d : Dev) (n : Nat) : (d.drawBytes n).1.length = n := by simp [Dev.drawBytes]

theorem Dev.drawBytes_lt (d : Dev) (n : Nat) : ∀ b ∈ (d.drawBytes n).1, b < 256 := by
  intro b mem
  obtain ⟨i, -, rfl⟩ := List.mem_map.mp mem
  exact Nat.mod_lt _ (by decide)

theorem Dev.length_envHeader (k : Clock) (d : Dev) (kind key : Nat) : (d.envHeader k kind key).1.length = 1232 := by
  unfold Dev.envHeader
  simp only [List.length_append, length_bytesLE, Dev.length_drawBytes, List.length_replicate, List.length_cons, List.length_nil]

theorem Dev.envHeader_kln (k : Clock) (d : Dev) (kind key : Nat) : (d.envHeader k kind key).2.kln = d.kln := rfl

theorem toDram_kln (m : Mems) (d : Dev) (a : Nat) (bs : List Nat) : (toDram m d a bs).2.kln = d.kln := rfl

end
end Sys2Proof.Machine

namespace Sys2Proof
open Sys2Proof.Machine

section
variable {s : State}

/-! ### Contexts (R347, R348, R352, R359) -/

section
variable {o : Origin} (ok : HostOk o s)
include ok

theorem ctxAlloc_takes {i g : Nat} (open_ : s.dev.kln.isHeld = false) (free : least 16384 (fun n => !(s.dev.ctx n).used) = some i)
    (gen : (if (s.dev.ctx i).made then nextGen (s.dev.ctx i).gen else 1) = g) :
    Answers (.ctxAlloc o) o 0x0A06 s .ok [⟨4, handleOf 1 g i⟩] (s.dev.setCtx i { used := true, made := true, gen := g }) := by
  refine answers_of_hostCmd _ ok rfl ?_
  rw [if_neg (by simp [open_]), free]
  dsimp only
  rw [gen]

section
variable {h : Nat} {c : KCtx} (current : s.dev.hCurrent h = true) (is : s.dev.ctx (hIndex h) = c)
include current

theorem ctxFree_frees : Answers (.ctxFree o h) o 0x0A07 s .ok [] (s.dev.freeCtx s.clk (hIndex h)) :=
  answers_of_hostCmd _ ok rfl (if_pos current)

include is

theorem ctxLink_links {nx : Nat} (rx : hTx h = false) (loaded : c.rx.isSome = true)
    (fits : nx = 0 ∨ (s.dev.hRxOf nx).isSome = true ∧ hIndex nx ≠ hIndex h ∧ hRtcp nx = hRtcp h ∧ (s.dev.linkOf nx).next = 0) :
    Answers (.ctxLink o h nx) o 0x0A08 s .ok [] (s.dev.setCtx (hIndex h)
      (if hRtcp h then { c with linkC := { next := nx } } else { c with link := { next := nx } })) := by
  subst is
  refine answers_of_hostCmd _ ok rfl ?_
  dsimp only
  rw [Dev.hRxOf_current current rx, if_neg (by rw [Option.isNone_eq_false_iff.mpr loaded]; decide)]
  obtain rfl | ⟨valid, apart, kind, ends⟩ := fits
  · rfl
  · split
    next zero => rw [zero]; rfl
    next => rw [if_neg (by simp [Option.isNone_eq_false_iff.mpr valid, apart, kind, ends])]; rfl

theorem ctxResetRx_resets {x : KRx} (rx : hTx h = false) (loaded : c.rx = some x) :
    Answers (.ctxResetRx o h) o 0x0A09 s .ok [] (s.dev.setCtx (hIndex h)
      { c with rx := some { x with roc := 0, latched := none, win := {}, winC := {} } }) := by
  subst is
  refine answers_of_hostCmd _ ok rfl ?_
  rw [Dev.hRxOf_current current rx, loaded]
  rfl

theorem ctxStatus_reads {tx : KTx} {rx : KRx} (txIs : c.tx.getD { suite := 0, key := 0 } = tx)
    (rxIs : c.rx.getD { suite := 0, key := 0 } = rx) : Answers (.ctxStatus o h) o 0x0A0A s .ok
      [⟨1, rx.suite⟩, ⟨1, tx.suite⟩, ⟨1, b2n c.rx.isSome + 2 * b2n c.tx.isSome⟩, ⟨1, 0⟩,
       ⟨4, if rx.ssrc = 0 then rx.latched.getD 0 else rx.ssrc⟩, ⟨4, rx.roc⟩, ⟨4, tx.roc⟩, ⟨8, rx.win.hi.getD 0⟩,
       ⟨8, tx.roc * 65536 + tx.last.getD 0⟩, ⟨4, c.link.next⟩, ⟨4, c.linkC.next⟩, ⟨4, c.link.hits⟩, ⟨4, c.linkC.hits⟩] s.dev := by
  subst is txIs rxIs
  exact answers_of_hostCmd _ ok rfl (if_neg (by simp [current]))

/-- The checks of R359 that a sealed import has passed. -/
structure ImportFits (x : Sealed) (h : Nat) (s : State) : Prop where
  format : x.format = true
  suiteLow : 1 ≤ x.suite
  suiteHigh : x.suite ≤ 4
  target : x.target = h
  key : (s.dev.kln.record.bind (·.imp)).isSome = true
  record : s.dev.kln.recLost = false
  device : x.devOk = true
  open_ : s.dev.kln.isHeld = false
  epoch : x.epoch = s.dev.kln.epoch
  notAfter : s.clk.tick ≤ x.notAfter
  sig : x.sigOk = true
  tag : x.tagOk = true

section
variable {x : Sealed} {addr len : Nat} (window : s.dev.winOk false addr len = true) (fits : ImportFits x h s)
include window fits

theorem sealedImport_rx (dir : x.dir = 0) (free : c.rx = none) : Answers (.sealedImport o addr len x) o 0x0A0B s .ok []
    (s.dev.setCtx (hIndex h) { c with rx := some { suite := x.suite, key := x.key, roc := x.roc, ssrc := x.ssrc } }) := by
  obtain ⟨format, suiteLow, suiteHigh, rfl, key, record, device, open_, epoch, notAfter, sig, tag⟩ := fits
  subst is
  refine answers_of_hostCmd _ ok rfl ?_
  dsimp only
  rw [Dev.bufOk_of_winOk window]
  simp [format, show ¬ x.suite = 0 by omega, show ¬ 4 < x.suite by omega, dir, current, Option.isNone_eq_false_iff.mpr key, record,
    device, open_, epoch, Nat.not_lt.mpr notAfter, sig, tag, free]

theorem sealedImport_tx (dir : x.dir = 1) (free : c.tx = none) : Answers (.sealedImport o addr len x) o 0x0A0B s .ok []
    (s.dev.setCtx (hIndex h) { c with tx := some { suite := x.suite, key := x.key, roc := x.roc } }) := by
  obtain ⟨format, suiteLow, suiteHigh, rfl, key, record, device, open_, epoch, notAfter, sig, tag⟩ := fits
  subst is
  refine answers_of_hostCmd _ ok rfl ?_
  dsimp only
  rw [Dev.bufOk_of_winOk window]
  simp [format, show ¬ x.suite = 0 by omega, show ¬ 4 < x.suite by omega, dir, current, Option.isNone_eq_false_iff.mpr key, record,
    device, open_, epoch, Nat.not_lt.mpr notAfter, sig, tag, free]

end

/-! ### DTLS_OPEN (R354) -/

section
variable {v p fa fp i g role : Nat} {fl : List (List Nat)}

/-- Session `i` has been opened for context handle `h`. -/
def opened (s : State) (h role v p fa fp g : Nat) : KSess :=
  { gen := g, target := h, role := role, versions := v, profiles := p, fpAlg := fa, peerFp := fp, cert := s.dev.kln.curCert }

theorem dtlsOpen_opens (entropy : s.dev.kln.entropyOk = true) (open_ : s.dev.kln.isHeld = false) (versions : v ≤ 3) (profiles : p ≤ 15)
    (alg : fa ≤ 1) (noTx : c.tx = none) (noRx : c.rx = none) (room : s.dev.kln.open_ < 512)
    (first : least 512 (fun n => (s.dev.sess n).isNone) = some i) (gen : nextGen (s.dev.kln.sessGen.get 0 i) = g) (roles : role ≤ 1)
    {d : Dev} (counted : ({ s.dev with kln := { s.dev.kln with sessGen := s.dev.kln.sessGen.put 0 i g } }) = d) :
    Answers (.dtlsOpen o h role v p fa fp fl) o 0x0A0F s .ok [⟨4, handleOf 2 g i⟩]
      (if role = 0 then (d.setSess i (some ((opened s h role v p fa fp g).sendFlight fl))).klnEvt s.clk 0x0A82 0 (handleOf 2 g i)
        else d.setSess i (some (opened s h role v p fa fp g))) := by
  subst is gen counted
  refine answers_of_hostCmd _ ok rfl ?_
  have fine : firstStatus .ok [
      (decide (1 < role) || decide (1 < fa) || decide (3 < v) || decide (15 < p), .badArg),
      (!s.dev.hCurrent h, .unknownObject), (s.dev.kln.isHeld, .locked), (decide (512 ≤ s.dev.kln.open_), .noResource),
      ((s.dev.ctx (hIndex h)).tx.isSome || (s.dev.ctx (hIndex h)).rx.isSome, .refusedBusy)] = .ok := by
    simp [firstStatus, current, open_, noTx, noRx, Nat.not_le.mpr room, Nat.not_lt.mpr versions, Nat.not_lt.mpr profiles,
      Nat.not_lt.mpr alg, Nat.not_lt.mpr roles]
  dsimp only
  rw [if_pos entropy, Dev.dtlsOpen]
  dsimp only
  rw [fine, if_neg (by decide), first]
  dsimp only
  split <;> rfl

end
end

theorem dtlsOpen_waits {t r v p fa fp : Nat} {fl : List (List Nat)} (retests : s.dev.kln.entropyOk = false) :
    Does (.dtlsOpen o t r v p fa fp fl) s
      { s.dev with kln := { s.dev.kln with held := s.dev.kln.held ++ [.dtlsOpen o t r v p fa fp fl] } } :=
  does_of_hostCmd_held _ ok rfl (if_neg (by simp [retests]))

/-! ### Datagrams (R355, R357) -/

section
variable {h j oa ol : Nat} {x : KSess} (names : s.dev.sessOf h = some (j, x)) (toHost : s.dev.winOk true oa ol = true)
include names toHost

theorem dtlsFeed_tooLong {addr len : Nat} {f : Feed} (fromHost : s.dev.winOk false addr len = true) (long : 1500 < len) :
    Answers (.dtlsFeed o h addr len oa ol f) o 0x0A10 s .ok [⟨2, 0⟩, ⟨2, 0⟩, ⟨4, 0⟩] (s.dev.bump0 .klnDtlsBadRecord) := by
  refine answers_of_hostCmd _ ok rfl ?_
  dsimp only
  rw [names]
  dsimp only
  rw [fromHost, toHost, if_neg (by decide), if_pos long, if_pos (by simp [long])]
  rfl

theorem dtlsFeed_takes {addr len : Nat} {f : Feed} (fromHost : s.dev.winOk false addr len = true) (short : len ≤ 1500) (parses : f ≠ .bad)
    {out : List (List Nat)} {d : Dev} (taken : s.dev.dtlsTake s.clk j x f = (out, d)) {w : Status × List RField × List (List Nat) × Dev}
    (written : d.outWrite out oa ol = w) :
    Answers (.dtlsFeed o h addr len oa ol f) o 0x0A10 s w.1 w.2.1 (w.2.2.2.keepOut j w.2.2.1) := by
  refine answers_of_hostCmd _ ok rfl ?_
  dsimp only
  rw [names]
  dsimp only
  rw [fromHost, toHost, if_neg (by decide), if_neg (Nat.not_lt.mpr short), taken, if_neg (by simp [parses, Nat.not_lt.mpr short]), written]

theorem dtlsPoll_hands {w : Status × List RField × List (List Nat) × Dev} (written : s.dev.outWrite x.out oa ol = w) :
    Answers (.dtlsPoll o h oa ol) o 0x0A11 s w.1 w.2.1 (w.2.2.2.keepOut j w.2.2.1) := by
  refine answers_of_hostCmd _ ok rfl ?_
  dsimp only
  rw [names, Dev.bufOk_of_winOk toHost]
  dsimp only
  rw [written]

theorem dtlsClose_ends {notify : List Nat} {w : Status × List RField × List (List Nat) × Dev} (written : s.dev.outWrite [notify] oa ol = w) :
    Answers (.dtlsClose o h oa ol notify) o 0x0A12 s .ok w.2.1 (w.2.2.2.endSess s.clk j 6) := by
  refine answers_of_hostCmd _ ok rfl ?_
  dsimp only
  rw [names, Dev.bufOk_of_winOk toHost]
  dsimp only
  rw [written]

end

theorem kilnJobConfig_sets {hop ring : Nat} {en : Bool} (low : ring ≤ 255) (up : s.dev.hopUp hop = true) :
    Answers (.kilnJobConfig o hop en ring) o 0x0A17 s .ok []
      { s.dev with kln := { s.dev.kln with jobHop := hop, jobEn := en, evtRing := ring } } := by
  refine answers_of_hostCmd _ ok rfl ?_
  simp [firstStatus, up, Nat.not_lt.mpr low, Dev.setKln]

end

/-! ### A session's times (R356, R357) -/

section
variable {j : Nat} {x : KSess} (is : s.dev.sess j = some x)
include is

theorem dtlsRetransmitDue_repeats (due : x.retx = some 0) (few : x.tries < 6) : Does (.dtlsRetransmitDue j) s
    ((s.dev.setSess j (some { x with
      out := x.out ++ x.flight, tries := x.tries + 1, interval := min 480000 (2 * x.interval),
      retx := some (min 480000 (2 * x.interval)) })).klnEvt s.clk 0x0A82 0 (handleOf 2 x.gen j)) := by
  refine does_of_onDev (execDtlsRetransmitDue j s) rfl rfl ?_
  rw [is]
  dsimp only
  rw [if_neg (by simp [due]), if_neg (by omega)]

theorem dtlsRetransmitDue_fails (due : x.retx = some 0) (spent : 6 ≤ x.tries) :
    Does (.dtlsRetransmitDue j) s (s.dev.endSess s.clk j 4) := by
  refine does_of_onDev (execDtlsRetransmitDue j s) rfl rfl ?_
  rw [is]
  dsimp only
  rw [if_neg (by simp [due]), if_pos spent]

theorem dtlsSessionTimeout_ends (open_ : x.linger = none) (old : 1440000 ≤ x.age) : Does (.dtlsSessionTimeout j) s
    ((s.dev.setSess j none).klnEvt s.clk 0x0A81 4 (handleOf 2 x.gen j)) := by
  refine does_of_onDev (execDtlsSessionTimeout j s) rfl rfl ?_
  rw [is]
  dsimp only
  rw [if_pos (by simp [open_, old]), Dev.endSess, is]
  exact if_neg (by simp [open_])

theorem dtlsLingerEnd_ends (lingered : x.linger = some 0) : Does (.dtlsLingerEnd j) s (s.dev.setSess j none) := by
  refine does_of_onDev (execDtlsLingerEnd j s) rfl rfl ?_
  rw [is]
  dsimp only
  rw [if_pos (by simp [lingered]), Dev.endSess, is]
  exact if_pos (by simp [lingered])

end

/-! ### Tile jobs (R361, R362) -/

section
variable {w0 w1 : Word} {args : List Word} {d : Dev} (enabled : s.dev.kln.jobEn = true) (entropy : s.dev.kln.entropyOk = true)
  (ready : s.dev.hopReady s.dev.kln.jobHop = true) (words : s.dev.hopRest s.dev.kln.jobHop = w0 :: w1 :: args)
  (reserved : w1.toNat < 2 ^ 29) (taken : (s.dev.hopTake s.clk s.dev.kln.jobHop).2 = d)

include taken in
/-- Taking a request's packet leaves the Kiln alone. -/
theorem kln_hopTake : d.kln = s.dev.kln := taken ▸ (OnlyCarry.hopTake s.clk s.dev _).kln

include enabled entropy ready words reserved taken

/-- A well-formed request of operation `op` is answered with what it comes to. -/
theorem doesMem_of_kilnJob {i : Instr} {op : Nat} (out : Out) {f : Clock → Mems → Dev → List Word → Status × List Word × Mems × Dev}
    (runs : exec i s = out) (is : out = kilnJob op f s) (own : w0.toNat % 65536 = op) (known : isKilnOp op = true) {st : Status} {res : List Word} {m : Mems}
    {e : Dev} (gives : f s.clk s.mem d args = (st, res, m, e)) : DoesMem i s m (e.jobAnswer s.clk w0 w1 st res) := by
  subst taken
  refine doesMem_of_onMem (kilnJob op f s) (runs.trans is) rfl ?_
  dsimp only
  rw [if_neg (by simp [enabled, entropy, ready]), words, List.headD_cons, own, if_neg (by simp)]
  dsimp only
  rw [if_neg (by simp only [known]; simp; omega), gives]

theorem random_answers {n : Word} (own : w0.toNat % 65536 = 0x0A40) (is : args = [n]) (some : 1 ≤ n.toNat) (few : n.toNat ≤ 256) :
    DoesMem .random s s.mem (({ d with freeN := d.freeN + n.toNat }).jobAnswer s.clk w0 w1 .ok (bytesWords (d.drawBytes n.toNat).1)) := by
  subst is
  refine doesMem_of_kilnJob enabled entropy ready words reserved taken (execRandom s) rfl rfl own (by decide) ?_
  dsimp only
  rw [if_neg (by simp; omega)]
  rfl

theorem exportOpen_opens {lo hi : Word} {key i : Nat} (own : w0.toNat % 65536 = 0x0A41) (is : args = [lo, hi])
    (recipient : d.kln.record.bind (·.recKey) = some key) (window : d.inTileWin (addr2 lo hi) 1232 = true)
    (free : least 64 (fun n => (d.exp n).isNone) = some i) (exps : Store.wf none s.dev.kln.exps = true) :
    ∃ (hs : List Nat) (e : Dev) (g : Nat), hs.length = 1232 ∧ g = nextGen (d.kln.expGen.get 0 i) ∧ e.exp i = some { gen := g, kind := 1 } ∧
      DoesMem .exportOpen s (s.mem.dramPut (addr2 lo hi) (natsBytes hs))
        (e.jobAnswer s.clk w0 w1 .ok [BitVec.ofNat 32 (handleOf 3 g i)]) := by
  subst is
  have kln := kln_hopTake taken
  obtain ⟨h, header⟩ : ∃ h, d.envHeader s.clk 1 key = h := ⟨_, rfl⟩
  obtain ⟨r, written⟩ : ∃ r, toDram s.mem h.2 (addr2 lo hi) h.1 = r := ⟨_, rfl⟩
  have same : r.2.kln = d.kln := by rw [← written, toDram_kln, ← header, Dev.envHeader_kln]
  obtain ⟨g, gen⟩ : ∃ g, nextGen (d.kln.expGen.get 0 i) = g := ⟨_, rfl⟩
  refine ⟨h.1, (r.2.setKln { r.2.kln with expGen := r.2.kln.expGen.put 0 i g }).setExp i (some { gen := g, kind := 1 }), g, ?_, gen.symm,
    ?_, ?_⟩
  · rw [← header, Dev.length_envHeader]
  · exact Dev.exp_setExp (d := r.2.setKln { r.2.kln with expGen := r.2.kln.expGen.put 0 i g }) (by
      show Store.wf none r.2.kln.exps = true
      rw [same, kln]; exact exps) i _
  · refine doesMem_of_kilnJob enabled entropy ready words reserved taken (execExportOpen s) rfl rfl own (by decide) ?_
    dsimp only
    rw [recipient]
    dsimp only
    rw [window, if_neg (by decide), free]
    dsimp only
    rw [gen, header, written, ← written]
    rfl

theorem exportWrite_writes {eh sl sh dl dh lw : Word} {i n : Nat} {x : KExp} (own : w0.toNat % 65536 = 0x0A42)
    (is : args = [eh, sl, sh, dl, dh, lw]) (size : lw.toNat % 2 ^ 31 = n) (some : 1 ≤ n) (few : n ≤ 65536)
    (names : d.expOf eh.toNat = Option.some (i, x)) (going : x.final = false) (source : d.inTileWin (addr2 sl sh) n = true)
    (dest : d.inTileWin (addr2 dl dh) (n + 16) = true) (clean : d.dramPoisoned (addr2 sl sh) n = false)
    (exps : Store.wf none s.dev.kln.exps = true) : ∃ (cs : List Nat) (e : Dev), cs.length = n + 16 ∧
      e.exp i = Option.some { x with chunks := x.chunks + 1, total := x.total + n + 16, final := bitOf lw.toNat 31 } ∧
      DoesMem .exportWrite s (s.mem.dramPut (addr2 dl dh) (natsBytes cs)) (e.jobAnswer s.clk w0 w1 .ok []) := by
  subst is
  have kln := kln_hopTake taken
  obtain ⟨c, drawn⟩ : ∃ c, d.drawBytes (n + 16) = c := ⟨_, rfl⟩
  obtain ⟨r, written⟩ : ∃ r, toDram s.mem c.2 (addr2 dl dh) c.1 = r := ⟨_, rfl⟩
  have same : r.2.kln = d.kln := by rw [← written, toDram_kln, ← drawn]; rfl
  refine ⟨c.1, r.2.setExp i (Option.some { x with chunks := x.chunks + 1, total := x.total + n + 16, final := bitOf lw.toNat 31 }), ?_, ?_, ?_⟩
  · rw [← drawn, Dev.length_drawBytes]
  · exact Dev.exp_setExp (by rw [same, kln]; exact exps) i _
  · refine doesMem_of_kilnJob enabled entropy ready words reserved taken (execExportWrite s) rfl rfl own (by decide) ?_
    dsimp only
    rw [size, if_neg (by simp; omega), names]
    dsimp only
    rw [going, if_neg (by decide), source, dest, if_neg (by decide), clean, if_neg (by decide), drawn, written, ← written]
    rfl

theorem exportClose_closes {eh dl dh : Word} {i : Nat} {x : KExp} (own : w0.toNat % 65536 = 0x0A43) (is : args = [eh, dl, dh])
    (names : d.expOf eh.toNat = some (i, x)) (final : x.final = true) (dest : d.inTileWin (addr2 dl dh) 3413 = true)
    (exps : Store.wf none s.dev.kln.exps = true) : ∃ (sig : List Nat) (e : Dev), sig.length = 3405 ∧ e.exp i = none ∧
      DoesMem .exportClose s (s.mem.dramPut (addr2 dl dh) (natsBytes (bytesLE 8 x.total ++ sig))) (e.jobAnswer s.clk w0 w1 .ok []) := by
  subst is
  have kln := kln_hopTake taken
  obtain ⟨c, drawn⟩ : ∃ c, d.drawBytes 3405 = c := ⟨_, rfl⟩
  obtain ⟨r, written⟩ : ∃ r, toDram s.mem c.2 (addr2 dl dh) (bytesLE 8 x.total ++ c.1) = r := ⟨_, rfl⟩
  have same : r.2.kln = d.kln := by rw [← written, toDram_kln, ← drawn]; rfl
  refine ⟨c.1, r.2.setExp i none, ?_, ?_, ?_⟩
  · rw [← drawn, Dev.length_drawBytes]
  · exact Dev.exp_setExp (by rw [same, kln]; exact exps) i _
  · refine doesMem_of_kilnJob enabled entropy ready words reserved taken (execExportClose s) rfl rfl own (by decide) ?_
    dsimp only
    rw [names]
    dsimp only
    rw [final, if_neg (by decide), dest, if_neg (by decide), drawn, written, ← written]
    rfl

end
end

/-- Settles O53: each command and event is one of the lemmas above, and a tile's job is `doesMem_of_kilnJob` with what its operation
writes. -/
theorem kilnContextsSessionsAndJobs : Obligations.KilnContextsSessionsAndJobs := by
  rintro s o h ok ctxs sess exps c is
  refine ⟨fun i open_ free g => ctxAlloc_takes ok open_ free, fun current => ?contexts, fun t r v p fa fp fl => dtlsOpen_waits ok,
    fun j x names => ?datagrams, fun j x is => ⟨dtlsRetransmitDue_repeats is, dtlsRetransmitDue_fails is, dtlsSessionTimeout_ends is,
      dtlsLingerEnd_ends is⟩, fun hop en ring => kilnJobConfig_sets ok, fun w0 w1 args d enabled entropy ready words reserved taken => ?jobs⟩
  case contexts =>
    refine ⟨?free, ?link, fun nx => ctxLink_links ok current is, fun x => ctxResetRx_resets ok current is, ?status,
      fun tx rx => ctxStatus_reads ok current is, ?imports, ?opens⟩
    case free =>
      obtain ⟨frees, ends⟩ := Dev.freeCtx_frees (d := s.dev) (k := s.clk) (i := hIndex h) ctxs sess
      exact ⟨_, ctxFree_frees ok current, is ▸ frees, ends⟩
    case link =>
      intro nx rx rtp loaded _ valid _ apart kind ends
      have links := ctxLink_links ok current is rx loaded (.inr ⟨valid, apart, by rw [kind, rtp], by rw [Dev.linkOf, kind]; exact ends⟩)
      rwa [rtp] at links
    case status =>
      intro tx rx txIs rxIs
      have reads := ctxStatus_reads ok current is (by rw [txIs]) (by rw [rxIs])
      rwa [txIs, rxIs] at reads
    case imports =>
      intro addr len x window format suiteLow suiteHigh target key record device open_ epoch notAfter sig tag
      have fits : ImportFits x h s :=
        ⟨format, suiteLow, suiteHigh, target, key, record, device, open_, epoch, notAfter, sig, tag⟩
      exact ⟨sealedImport_rx ok current is window fits, sealedImport_tx ok current is window fits⟩
    case opens =>
      intro v p fa fp fl i entropy open_ versions profiles alg noTx noRx room first g gen
      exact ⟨dtlsOpen_opens (role := 1) ok current is entropy open_ versions profiles alg noTx noRx room first gen (by decide) rfl,
        dtlsOpen_opens (role := 0) ok current is entropy open_ versions profiles alg noTx noRx room first gen (by decide) rfl⟩
  case datagrams =>
    have present := Dev.sess_of_sessOf names
    refine ⟨fun addr len oa ol f fromHost toHost => dtlsFeed_tooLong ok names toHost fromHost, ?quiet,
      fun addr len oa ol f fromHost toHost short parses out d w taken => dtlsFeed_takes ok names toHost fromHost short parses taken,
      fun oa ol toHost w => dtlsPoll_hands ok names toHost, fun oa ol notify toHost w => dtlsClose_ends ok names toHost, ?single, ?close⟩
    case quiet =>
      intro addr len oa ol fromHost toHost short empty
      have takes := dtlsFeed_takes ok names toHost fromHost short (f := .quiet) (by decide) rfl rfl
      rw [empty] at takes
      exact Dev.keepOut_some present [] ▸ takes
    case single =>
      intro oa ol g toHost out fits
      have hands := dtlsPoll_hands ok names toHost rfl
      have kept : (s.dev.hostWr oa (bytesLE 2 g.length ++ g)).sess j = some x :=
        (Dev.sess_congr (congrArg Kln.sess (Dev.hostWr_kln ..)) j).trans present
      rw [out, Dev.outWrite_single fits] at hands
      dsimp only at hands
      rwa [Dev.keepOut_some kept] at hands
    case close =>
      intro oa ol notify toHost fits
      have closes := dtlsClose_ends ok names toHost (notify := notify) rfl
      have kln := Dev.hostWr_kln s.dev oa (bytesLE 2 notify.length ++ notify)
      rw [Dev.outWrite_single fits] at closes
      exact ⟨_, closes, Dev.sess_endSess (by rw [kln]; exact sess) j 6⟩
  case jobs =>
    refine ⟨fun n own is some few => ⟨(d.drawBytes n.toNat).1, d.length_drawBytes _, d.drawBytes_lt _, ?_⟩,
      fun lo hi key i own is recipient window free => ?_, fun eh sl sh dl dh lw i x n own is size some few names going source dest clean => ?_,
      fun eh dl dh i x own is names final dest => ?_⟩
    · exact random_answers enabled entropy ready words reserved taken own is some few
    · exact exportOpen_opens enabled entropy ready words reserved taken own is recipient window free exps
    · exact exportWrite_writes enabled entropy ready words reserved taken own is size some few names going source dest clean exps
    · exact exportClose_closes enabled entropy ready words reserved taken own is names final dest exps

end Sys2Proof
